-- ==== Sys2Proof/Word.lean ====
section
/-! DEFINITION. The word and byte types of the OT9's registers and memories. -/

namespace Sys2Proof

/-- A register is 64 bits wide (R12). -/
abbrev Word := BitVec 64

/-- The addressed unit of every memory of the device. -/
abbrev Byte := BitVec 8

/-- A key is an address or an index; a sparse map lists only what differs from its default. -/
abbrev Sparse (V : Type) := List (Nat × V)

end Sys2Proof
end

