-- ==== Sys2Proof/Syntax.lean ====
section
/-! DEFINITION. The commands of the OT9: one constructor per row of the table of operations and events. A command is
a register access, a request, or an event of an agent or of the world outside; its operands say which block it acts on
and, where the event brings a measured or received value, that value. -/

namespace Sys2Proof

/-- Who sends a register access (R255). Partition blocks never do. -/
inductive Requester where
  | core (c : Fin 96)
  | host
  | banjo
  | security
  | debug
deriving DecidableEq, Repr

/-- Where a management request comes from: a mailbox channel (R378) or the out-of-band Ethernet port (R381). -/
inductive ReqChannel where
  | mailbox (ch : Fin 3)
  | oob
deriving DecidableEq, Repr

/-- A fault queue: a partition's ring (R331) or the device queue (R336). -/
inductive FaultQueue where
  | part (pp : Fin 24)
  | device
deriving DecidableEq, Repr

/-- A PCIe function: PF0 or a VF (R271). -/
inductive HostFn where
  | pf
  | vf (n : Fin 64)
deriving DecidableEq, Repr

/-- The attribute a core maps a page with (R227). -/
inductive MemAttr where
  | normalWb
  | normalNc
  | device
  | remoteCacheable
  | remoteNc
deriving DecidableEq, Repr

/-- A fabric packet's header as it arrives: its four words QW0 to QW3 (R293). -/
structure Packet where
  q0 : Word
  q1 : Word
  q2 : Word
  q3 : Word
deriving DecidableEq, Repr

/-- What became of an on-package link word at its receiver (R25). -/
inductive WordFate where
  | good
  | corrected
  | refused
deriving DecidableEq, Repr

/-- The reference clocks a PLL can lose (R408). -/
inductive RefClock where
  | mem (n : Fin 7)
  | fab (n : Fin 2)
  | pcie
deriving DecidableEq, Repr

/-- How an access of a core depends on an earlier load of the same core: not at all, by its address, by the data it stores, or only
through a branch (R264). -/
inductive Depends where
  | none | address | data | branch
deriving DecidableEq, Repr

/-- The kind of a core's access: the memory type of its address (R227) and how it depends on an earlier load (R264). -/
structure AccessKind where
  attr : MemAttr
  dep : Depends
deriving DecidableEq, Repr

/-- What a flit carries beside its packets' contents: its sequence number, how many flits of the replay buffer it asks for again
(0: none), and the types of the packets that begin in it (R289, R290). -/
structure Flit where
  seq : BitVec 12
  resend : Nat
  types : List (Fin 6)
deriving DecidableEq, Repr

/-- The operation of a cache maintenance command on one line or a range (R237). -/
inductive CmoScope where
  | line
  | range (bytes : Nat)
deriving DecidableEq, Repr

/-- The commands. -/
inductive Instr where
  | registerWrite (who : Requester) (addr : BitVec 45) (size : Nat) (value : Word)
  | readClear (who : Requester) (addr : BitVec 45) (size : Nat)
  | lkCommitGo (who : Requester) (link : Fin 16)
  | meCommitGo (who : Requester) (pp : Fin 24)
  | ptCommitGo (who : Requester) (pp : Fin 24) (slot : BitVec 8) (resume : Bool)
  | ptCommitResume (who : Requester) (pp : Fin 24) (slot : BitVec 8)
  | sqCommit (who : Requester) (pp : Fin 24) (slot : BitVec 8)
  | sqDb (who : Requester) (pp : Fin 24) (slot : BitVec 8) (tail : BitVec 16)
  | ptPredWrite (who : Requester) (pp : Fin 24) (n : Fin 4) (value : Word)
  | bdSemWrite (who : Requester) (pp : Fin 24) (i : Fin 4096) (value : BitVec 32)
  | bdSemaddWrite (who : Requester) (pp : Fin 24) (i : Fin 4096) (value : BitVec 32)
  | bdBarcfgWrite (who : Requester) (b : Fin 256) (value : Word)
  | bdBargenArrive (who : Requester) (b : Fin 256)
  | xlCommit (who : Requester) (asid : Fin 4096)
  | xlFenceGo (who : Requester) (asid : Fin 4096)
  | xlWincommit (who : Requester) (w : Fin 256)
  | scCommit (who : Requester)
  | hsIrqrouteWrite (who : Requester) (n : Fin 1024) (value : Word)
  | hsCorekeyWrite (who : Requester) (c : Fin 96) (value : Word)
  | hiQcommitGo (who : Requester) (q : BitVec 8) (resume : Bool)
  | hiQcommitResume (who : Requester) (q : BitVec 8)
  | hiQdb (fn : HostFn) (q : Fin 256) (size : Nat) (value : Word) (inStream : Bool)
  | hiLinkWrite (who : Requester) (value : Word)
  | fbCommit (who : Requester)
  | fbTimeoutWrite (who : Requester) (value : Word)
  | fbPortctlEnable (who : Requester) (p : Fin 16) (enable : Bool)
  | fbPortctlRetrain (who : Requester) (p : Fin 16)
  | pwCommit (who : Requester)
  | pwPhcommitGo (who : Requester) (pp : Fin 24)
  | pwPhcommitClear (who : Requester) (pp : Fin 24)
  | pwThermWrite (who : Requester) (value : BitVec 8)
  | pwDomctlOn (who : Requester) (dom : Fin 124) (on : Bool)
  | pwDomctlSetMv (who : Requester) (dom : Fin 124) (mv : BitVec 10)
  | fqCommit (who : Requester) (pp : Fin 24)
  | fqHeadWrite (who : Requester) (queue : FaultQueue) (head : BitVec 16)
  | fqFatalClear (who : Requester) (queue : FaultQueue) (mask : BitVec 16)
  | ptWatchdogWrite (who : Requester) (pp : Fin 24) (value : BitVec 14)
  | ptRecctlReset (who : Requester) (pp : Fin 24)
  | ptRecctlRelease (who : Requester) (pp : Fin 24)
  | ptTmcommit (who : Requester) (pp : Fin 24)
  | ptTmctlHold (who : Requester) (pp : Fin 24) (hold : Bool)
  | mgDumpctlTrigger (who : Requester)
  | mgDumpctlRelease (who : Requester) (mask : BitVec 4)
  | mgResetctlWarm (who : Requester)
  | mgIoctlWrite (who : Requester) (value : Word)
  | mailboxReqWrite (who : Requester) (ch : Fin 3) (req : Word)
  | mailboxCh3HostWrite (value : Word)
  | mailboxCh3CoreWrite (c : Fin 96) (value : Word)
  | status (ch : ReqChannel)
  | setMode (ch : ReqChannel)
  | warmReset (ch : ReqChannel)
  | logRead (ch : ReqChannel)
  | dumpRead (ch : ReqChannel)
  | dumpRelease (ch : ReqChannel)
  | updateWrite (ch : ReqChannel)
  | updateActivate (ch : ReqChannel)
  | floorRaise (ch : ReqChannel)
  | keyCreate (ch : ReqChannel)
  | keyImport (ch : ReqChannel)
  | cellCreate (ch : ReqChannel)
  | cellDestroy (ch : ReqChannel)
  | spdm (ch : ReqChannel)
  | oobRequest (session : Nat) (opcode : BitVec 8) (args : List Word) (data : List Byte)
  | doeSpdmRequest (message : List Byte)
  | descriptorFetch (pp : Fin 24) (slot : Fin 192)
  | descriptorSubmit (pp : Fin 24) (slot : Fin 192)
  | rangeTableProbe (pp : Fin 24) (slot : Fin 192)
  | moveLinear (pp : Fin 24) (slot : Fin 192)
  | moveTile (pp : Fin 24) (slot : Fin 192)
  | moveStrided (pp : Fin 24) (slot : Fin 192)
  | moveGather (pp : Fin 24) (slot : Fin 192)
  | moveScatter (pp : Fin 24) (slot : Fin 192)
  | mm (pp : Fin 24) (slot : Fin 192)
  | vecElementwise (pp : Fin 24) (slot : Fin 192)
  | vecReduction (pp : Fin 24) (slot : Fin 192)
  | softmax (pp : Fin 24) (slot : Fin 192)
  | layernorm (pp : Fin 24) (slot : Fin 192)
  | rmsnorm (pp : Fin 24) (slot : Fin 192)
  | convert (pp : Fin 24) (slot : Fin 192)
  | funcSlot (pp : Fin 24) (slot : Fin 192)
  | funcTableImage (pp : Fin 24) (slot : Fin 192)
  | dispatch (pp : Fin 24) (slot : Fin 192)
  | signalAdd (pp : Fin 24) (slot : Fin 192)
  | signalSet (pp : Fin 24) (slot : Fin 192)
  | signalMax (pp : Fin 24) (slot : Fin 192)
  | signalCas (pp : Fin 24) (slot : Fin 192)
  | signalFabFlag (pp : Fin 24) (slot : Fin 192)
  | waitSem (pp : Fin 24) (slot : Fin 192)
  | waitFlag (pp : Fin 24) (slot : Fin 192)
  | waitSeq (pp : Fin 24) (slot : Fin 192)
  | waitBarrier (pp : Fin 24) (slot : Fin 192)
  | refresh (pp : Fin 24) (slot : Fin 192)
  | flush (pp : Fin 24) (slot : Fin 192)
  | evict (pp : Fin 24) (slot : Fin 192)
  | allocClaim (pp : Fin 24) (slot : Fin 192)
  | allocRelease (pp : Fin 24) (slot : Fin 192)
  | phase (pp : Fin 24) (slot : Fin 192)
  | mark (pp : Fin 24) (slot : Fin 192)
  | fence (pp : Fin 24) (slot : Fin 192)
  | moverTake (pp : Fin 24) (dm : Fin 2)
  | workUnitTake (pp : Fin 24) (me : Fin 20)
  | wavefrontFire (pp : Fin 24) (me : Fin 20) (acc : Fin 2)
  | workUnitResult (pp : Fin 24) (me : Fin 20) (acc : Fin 2)
  | startTokenIssue (pp : Fin 24)
  | startTokenTake (pp : Fin 24)
  | engineCold (pp : Fin 24) (me : Fin 20)
  | dispatchComplete (pp : Fin 24)
  | lastWriteAcknowledged (pp : Fin 24) (slot : Fin 192) (index : BitVec 16)
  | completionRecord (pp : Fin 24) (slot : Fin 192) (index : BitVec 16)
  | epochIncrementApply (asid : Fin 4096)
  | semaphoreUpdate (k : Nat)
  | semWaitArrive (k : Nat)
  | semWaitRelease (k : Nat)
  | barrierArrival (k : Nat)
  | barrierRelease (k : Nat)
  | waitTimeout (pp : Fin 24) (slot : Fin 192)
  | flagPoll (pp : Fin 24) (slot : Fin 192)
  | contextDrained (pp : Fin 24) (slot : Fin 192)
  | ageHalving (pp : Fin 24)
  | migrationStart (pp : Fin 24)
  | migrationDrained (pp : Fin 24)
  | migrationAbandon (pp : Fin 24)
  | migrationCommit (pp : Fin 24)
  | hostIngressWrite (fn : HostFn) (q : Fin 256) (offset : Nat) (data : List Byte) (inStream : Bool)
  | ingressAccepted (q : Fin 256)
  | doorbellForward (q : Fin 256)
  | doorbellAhead (q : Fin 256)
  | hostEgressRead (fn : HostFn) (q : Fin 256) (offset : Nat) (bytes : Nat) (inStream : Bool)
  | hostUnsupportedAccess (fn : HostFn) (read mailbox : Bool)
  | msixSend (fn : HostFn) (vector : Fin 1024)
  | hostLinkDown
  | flr (fn : HostFn)
  | perstN (level : Bool)
  | hostLinkUp (gen : BitVec 4) (width : BitVec 5)
  | flitReceive (p : Fin 16) (fecOk : Bool) (tagOk : Bool) (flit : Flit)
  | retrainTimeout (p : Fin 16)
  | portTrained (p : Fin 16) (lanes : BitVec 4)
  | keyingMessage (p : Fin 16) (ok : Bool) (last : Bool) (peer : BitVec 12) (peerSw : Bool)
  | keyingTimeout (p : Fin 16)
  | fabricRekey (p : Fin 16)
  | wr (p : Fin 16) (pkt : Packet) (data : List Byte)
  | rd (p : Fin 16) (pkt : Packet)
  | wr4 (p : Fin 16) (pkt : Packet)
  | rdRsp (p : Fin 16) (pkt : Packet) (data : List Byte)
  | ack (p : Fin 16) (pkt : Packet)
  | nak (p : Fin 16) (pkt : Packet)
  | remoteResend (tag : BitVec 16)
  | remoteTimeout (tag : BitVec 16)
  | linkWordReceive (link : Fin 16) (bundle : Fin 40) (fate : WordFate)
  | linkTraining (link : Fin 16) (working : BitVec 40)
  | dieResetExit (die : Fin 9)
  | tsyncRound (offsets : List Nat) (ok : BitVec 9)
  | refLost
  | refRestored
  | referenceClockLost (clk : RefClock)
  | undervoltageFreeze (dom : Fin 124) (mv : Nat)
  | freezeResume (dom : Fin 124) (mv : Nat)
  | freezeTimeout (dom : Fin 124)
  | islandSupplyHold (dom : Fin 124)
  | budgetInterval (demand : List Nat)
  | budgetMessage (die : Fin 9) (energy : Nat)
  | budgetMissed (die : Fin 9)
  | paceOverloadStep (pp : Fin 24) (power : Nat)
  | headstockGovernorStep (quad : Fin 26) (power : Nat)
  | phaseRaiseStart (pp : Fin 24)
  | chatterDetect (dom : Fin 124)
  | dampedExit (dom : Fin 124)
  | chatterPersist (dom : Fin 124)
  | sensorReport (temps : List Nat) (levels : List Nat)
  | thermalTrip (sensor : Fin 400) (temp : Nat)
  | powerUpComplete (dom : Fin 124)
  | powerDownComplete (dom : Fin 124)
  | rdS (home : Fin 36) (agent : Fin 128) (line : BitVec 45)
  | rdX (home : Fin 36) (agent : Fin 128) (line : BitVec 45)
  | upg (home : Fin 36) (agent : Fin 128) (line : BitVec 45)
  | putC (home : Fin 36) (agent : Fin 128) (line : BitVec 45)
  | putM (home : Fin 36) (agent : Fin 128) (line : BitVec 45)
  | rdNa (home : Fin 36) (line : BitVec 45) (key : BitVec 13)
  | wrInv (home : Fin 36) (line : BitVec 45) (key : BitVec 13) (data : List Byte) (mask : BitVec 64)
  | snpS (home : Fin 36) (agent : Fin 128) (line : BitVec 45)
  | snpI (home : Fin 36) (agent : Fin 128) (line : BitVec 45)
  | snpPeek (home : Fin 36) (agent : Fin 128) (line : BitVec 45)
  | snpBi (home : Fin 36) (agent : Fin 128) (target : BitVec 45) (sweep : Bool)
  | snoopResponse (home : Fin 36) (agent : Fin 128) (line : BitVec 45)
  | homeGrant (home : Fin 36) (agent : Fin 128) (line : BitVec 45)
  | homeNak (home : Fin 36) (agent : Fin 128) (line : BitVec 45)
  | nakRetry (agent : Fin 128) (line : BitVec 45)
  | writebackAccepted (slice : Fin 32) (line : BitVec 45)
  | snoopTimeout (home : Fin 36) (agent : Fin 128) (line : BitVec 45)
  | deadAgentReclaimed (home : Fin 36) (agent : Fin 128)
  | load (c : Fin 96) (addr : BitVec 57) (size : Nat) (kind : AccessKind)
  | store (c : Fin 96) (addr : BitVec 57) (size : Nat) (kind : AccessKind) (value : Word)
  | storeRefused (c : Fin 96) (line : BitVec 45)
  | atomAdd (c : Fin 96) (addr : BitVec 57) (size : Nat) (kind : AccessKind) (value : Word)
  | atomSwp (c : Fin 96) (addr : BitVec 57) (size : Nat) (kind : AccessKind) (value : Word)
  | atomCas (c : Fin 96) (addr : BitVec 57) (size : Nat) (kind : AccessKind) (cmp : Word) (value : Word)
  | atomMax (c : Fin 96) (addr : BitVec 57) (size : Nat) (kind : AccessKind) (value : Word)
  | ordLd (c : Fin 96)
  | ordSt (c : Fin 96)
  | ordFull (c : Fin 96)
  | ordDev (c : Fin 96)
  | touchL1 (c : Fin 96) (addr : BitVec 57) (attr : MemAttr)
  | touchL2 (c : Fin 96) (addr : BitVec 57) (attr : MemAttr)
  | touchSc (c : Fin 96) (addr : BitVec 57) (attr : MemAttr)
  | touchEx (c : Fin 96) (addr : BitVec 57) (attr : MemAttr)
  | cmoClean (c : Fin 96) (addr : BitVec 57) (scope : CmoScope) (attr : MemAttr)
  | cmoInv (c : Fin 96) (addr : BitVec 57) (scope : CmoScope) (attr : MemAttr) (user : Bool)
  | cmoClinv (c : Fin 96) (addr : BitVec 57) (scope : CmoScope) (attr : MemAttr)
  | faultRecordSend (queue : FaultQueue)
  | faultRingRetry (pp : Fin 24)
  | holdingStackReturn (pp : Fin 24)
  | watchdogCatch (pp : Fin 24) (unit : Fin 27)
  | heartbeatCheck (pp : Fin 24) (advanced : Bool)
  | recoveryStart (pp : Fin 24)
  | quiesceDone (pp : Fin 24)
  | recoverySlotGrant (pp : Fin 24)
  | stackReinitDone (pp : Fin 24)
  | stackScrubDone (pp : Fin 24)
  | firmwareReloadDone (pp : Fin 24)
  | reloadEntry (pp : Fin 24)
  | replayWaitTimeout (pp : Fin 24)
  | dumpDone (truncated : Bool)
  | lockstepMismatch
  | pwrGoodRise
  | pwrGoodFall
  | warmRstN
  | broadcastEnd (ok : BitVec 24)
  | partitionJoin (pp : Fin 24) (ok : Bool)
  | t2InService (dimms : List Nat) (ok : Bool)
  | ddrRetrainDone (ok : Bool)
  | l2Entry
  | t2ScrubComplete
  | islandSupplyReturn (dom : Fin 124)
  | islandHoldTimeout (dom : Fin 124)
  | referenceClockReturn (clk : RefClock)
  | warmRstNRise
  | powerLoss
deriving DecidableEq, Repr

end Sys2Proof
end

