-- ==== Sys2Proof/WellFormed.lean ====
section
/-! DEFINITION. Well-formed commands: the operands have the shapes the spec gives them. exec gives every command a
meaning, well-formed or not; these checks say which commands the world outside can bring. -/

namespace Sys2Proof

/-- A register or mailbox access is at most one 64-bit word (R12). -/
def accessSize (size : Nat) : Bool := decide (0 < size) && decide (size ≤ 8)

/-- A load or store of a core moves at most one 64-bit word. -/
def memSize (size : Nat) : Bool := decide (0 < size) && decide (size ≤ 8)

/-- An atomic works on a 32-bit or a 64-bit word. -/
def atomSize (size : Nat) : Bool := decide (size = 4) || decide (size = 8)

/-- A range operation covers at least one byte (R237). -/
def scopeOk : CmoScope → Bool
  | .line => true
  | .range bytes => decide (0 < bytes)

/-- The packets that begin in one flit are of one channel: REQ carries WR, RD and WR4, RSP the answers (R289). -/
def oneChannel (types : List (Fin 6)) : Bool :=
  types.all (fun t => decide (2 ≤ t.val ∧ t.val ≤ 4)) || types.all (fun t => !decide (2 ≤ t.val ∧ t.val ≤ 4))

/-- Entries of a function's MSI-X table (R280). -/
def vectorsOf : HostFn → Nat
  | .pf => 1024
  | .vf _ => 64

/-- Physical bundles of an on-package link, spares included (R19). -/
def bundlesOf (link : Fin 16) : Nat :=
  if link.val < 6 then 34 else if link.val < 10 then 17 else if link.val < 14 then 9 else 5

/-- Each check refuses what no sender can bring: an empty or over-long access, a report of the wrong number of sensors,
a bundle the link does not have. -/
def Instr.wellFormed : Instr → Bool
  | .registerWrite _ _ size _ => accessSize size
  | .readClear _ _ size => accessSize size
  | .lkCommitGo _ _ => true
  | .meCommitGo _ _ => true
  | .ptCommitGo _ _ _ _ => true
  | .ptCommitResume _ _ _ => true
  | .sqCommit _ _ _ => true
  | .sqDb _ _ _ _ => true
  | .ptPredWrite _ _ _ _ => true
  | .bdSemWrite _ _ _ _ => true
  | .bdSemaddWrite _ _ _ _ => true
  | .bdBarcfgWrite _ _ _ => true
  | .bdBargenArrive _ _ => true
  | .xlCommit _ _ => true
  | .xlFenceGo _ _ => true
  | .xlWincommit _ _ => true
  | .scCommit _ => true
  | .hsIrqrouteWrite _ _ _ => true
  | .hsCorekeyWrite _ _ _ => true
  | .hiQcommitGo _ _ _ => true
  | .hiQcommitResume _ _ => true
  | .hiQdb _ _ size _ _ => accessSize size
  | .hiLinkWrite _ _ => true
  | .fbCommit _ => true
  | .fbTimeoutWrite _ _ => true
  | .fbPortctlEnable _ _ _ => true
  | .fbPortctlRetrain _ _ => true
  | .pwCommit _ => true
  | .pwPhcommitGo _ _ => true
  | .pwPhcommitClear _ _ => true
  | .pwThermWrite _ _ => true
  | .pwDomctlOn _ _ _ => true
  | .pwDomctlSetMv _ _ _ => true
  | .fqCommit _ _ => true
  | .fqHeadWrite _ _ _ => true
  | .fqFatalClear _ _ _ => true
  | .ptWatchdogWrite _ _ _ => true
  | .ptRecctlReset _ _ => true
  | .ptRecctlRelease _ _ => true
  | .ptTmcommit _ _ => true
  | .ptTmctlHold _ _ _ => true
  | .mgDumpctlTrigger _ => true
  | .mgDumpctlRelease _ _ => true
  | .mgResetctlWarm _ => true
  | .mgIoctlWrite _ _ => true
  | .mailboxReqWrite _ _ _ => true
  | .mailboxCh3HostWrite _ => true
  | .mailboxCh3CoreWrite _ _ => true
  | .status _ => true
  | .setMode _ => true
  | .warmReset _ => true
  | .logRead _ => true
  | .dumpRead _ => true
  | .dumpRelease _ => true
  | .updateWrite _ => true
  | .updateActivate _ => true
  | .floorRaise _ => true
  | .keyCreate _ => true
  | .keyImport _ => true
  | .cellCreate _ => true
  | .cellDestroy _ => true
  | .spdm _ => true
  | .oobRequest _ _ _ _ => true
  | .doeSpdmRequest message => decide (message.length % 4 = 0)
  | .descriptorFetch _ _ => true
  | .descriptorSubmit _ _ => true
  | .rangeTableProbe _ _ => true
  | .moveLinear _ _ => true
  | .moveTile _ _ => true
  | .moveStrided _ _ => true
  | .moveGather _ _ => true
  | .moveScatter _ _ => true
  | .mm _ _ => true
  | .vecElementwise _ _ => true
  | .vecReduction _ _ => true
  | .softmax _ _ => true
  | .layernorm _ _ => true
  | .rmsnorm _ _ => true
  | .convert _ _ => true
  | .funcSlot _ _ => true
  | .funcTableImage _ _ => true
  | .dispatch _ _ => true
  | .signalAdd _ _ => true
  | .signalSet _ _ => true
  | .signalMax _ _ => true
  | .signalCas _ _ => true
  | .signalFabFlag _ _ => true
  | .waitSem _ _ => true
  | .waitFlag _ _ => true
  | .waitSeq _ _ => true
  | .waitBarrier _ _ => true
  | .refresh _ _ => true
  | .flush _ _ => true
  | .evict _ _ => true
  | .allocClaim _ _ => true
  | .allocRelease _ _ => true
  | .phase _ _ => true
  | .mark _ _ => true
  | .fence _ _ => true
  | .moverTake _ _ => true
  | .workUnitTake _ _ => true
  | .wavefrontFire _ _ _ => true
  | .workUnitResult _ _ _ => true
  | .startTokenIssue _ => true
  | .startTokenTake _ => true
  | .engineCold _ _ => true
  | .dispatchComplete _ => true
  | .lastWriteAcknowledged _ _ _ => true
  | .completionRecord _ _ _ => true
  | .epochIncrementApply _ => true
  | .semaphoreUpdate _ => true
  | .semWaitArrive _ => true
  | .semWaitRelease _ => true
  | .barrierArrival _ => true
  | .barrierRelease _ => true
  | .waitTimeout _ _ => true
  | .flagPoll _ _ => true
  | .contextDrained _ _ => true
  | .ageHalving _ => true
  | .migrationStart _ => true
  | .migrationDrained _ => true
  | .migrationAbandon _ => true
  | .migrationCommit _ => true
  | .hostIngressWrite _ _ _ data _ => decide (0 < data.length)
  | .ingressAccepted _ => true
  | .doorbellForward _ => true
  | .doorbellAhead _ => true
  | .hostEgressRead _ _ _ bytes _ => decide (0 < bytes)
  | .hostUnsupportedAccess _ _ _ => true
  | .msixSend fn vector => decide (vector.val < vectorsOf fn)
  | .hostLinkDown => true
  | .flr _ => true
  | .perstN _ => true
  | .hostLinkUp gen width => gen.toNat ∈ [4, 5, 6] && width.toNat ∈ [1, 2, 4]
  | .flitReceive _ _ _ flit => oneChannel flit.types
  | .retrainTimeout _ => true
  | .portTrained _ _ => true
  | .keyingMessage _ _ _ _ _ => true
  | .keyingTimeout _ => true
  | .fabricRekey _ => true
  | .wr _ _ _ => true
  | .rd _ _ => true
  | .wr4 _ _ => true
  | .rdRsp _ _ _ => true
  | .ack _ _ => true
  | .nak _ _ => true
  | .remoteResend _ => true
  | .remoteTimeout _ => true
  | .linkWordReceive link bundle _ => decide (bundle.val < bundlesOf link)
  | .linkTraining link working => decide (working.toNat < 2 ^ bundlesOf link)
  | .dieResetExit _ => true
  | .tsyncRound offsets _ => decide (offsets.length = 9)
  | .refLost => true
  | .refRestored => true
  | .referenceClockLost _ => true
  | .undervoltageFreeze _ _ => true
  | .freezeResume _ _ => true
  | .freezeTimeout _ => true
  | .islandSupplyHold _ => true
  | .budgetInterval demand => decide (demand.length = 24)
  | .budgetMessage _ _ => true
  | .budgetMissed _ => true
  | .paceOverloadStep _ _ => true
  | .headstockGovernorStep _ _ => true
  | .phaseRaiseStart _ => true
  | .chatterDetect _ => true
  | .dampedExit _ => true
  | .chatterPersist _ => true
  | .sensorReport temps levels => decide (temps.length = 400) && decide (levels.length = 20)
  | .thermalTrip _ _ => true
  | .powerUpComplete _ => true
  | .powerDownComplete _ => true
  | .rdS _ _ _ => true
  | .rdX _ _ _ => true
  | .upg _ _ _ => true
  | .putC _ _ _ => true
  | .putM _ _ _ => true
  | .rdNa _ _ _ => true
  | .wrInv _ _ _ data _ => decide (data.length = 64)
  | .snpS _ _ _ => true
  | .snpI _ _ _ => true
  | .snpPeek _ _ _ => true
  | .snpBi _ _ _ _ => true
  | .snoopResponse _ _ _ => true
  | .homeGrant _ _ _ => true
  | .homeNak _ _ _ => true
  | .nakRetry _ _ => true
  | .writebackAccepted _ _ => true
  | .snoopTimeout _ _ _ => true
  | .deadAgentReclaimed _ _ => true
  | .load _ _ size _ => memSize size
  | .store _ _ size _ _ => memSize size
  | .storeRefused _ _ => true
  | .atomAdd _ _ size _ _ => atomSize size
  | .atomSwp _ _ size _ _ => atomSize size
  | .atomCas _ _ size _ _ _ => atomSize size
  | .atomMax _ _ size _ _ => atomSize size
  | .ordLd _ => true
  | .ordSt _ => true
  | .ordFull _ => true
  | .ordDev _ => true
  | .touchL1 _ _ _ => true
  | .touchL2 _ _ _ => true
  | .touchSc _ _ _ => true
  | .touchEx _ _ _ => true
  | .cmoClean _ _ scope _ => scopeOk scope
  | .cmoInv _ _ scope _ _ => scopeOk scope
  | .cmoClinv _ _ scope _ => scopeOk scope
  | .faultRecordSend _ => true
  | .faultRingRetry _ => true
  | .holdingStackReturn _ => true
  | .watchdogCatch _ _ => true
  | .heartbeatCheck _ _ => true
  | .recoveryStart _ => true
  | .quiesceDone _ => true
  | .recoverySlotGrant _ => true
  | .stackReinitDone _ => true
  | .stackScrubDone _ => true
  | .firmwareReloadDone _ => true
  | .reloadEntry _ => true
  | .replayWaitTimeout _ => true
  | .dumpDone _ => true
  | .lockstepMismatch => true
  | .pwrGoodRise => true
  | .pwrGoodFall => true
  | .warmRstN => true
  | .broadcastEnd _ => true
  | .partitionJoin _ _ => true
  | .t2InService dimms _ => decide (dimms.length = 12)
  | .ddrRetrainDone _ => true
  | .l2Entry => true
  | .t2ScrubComplete => true
  | .islandSupplyReturn _ => true
  | .islandHoldTimeout _ => true
  | .referenceClockReturn _ => true
  | .warmRstNRise => true
  | .powerLoss => true

end Sys2Proof
end

