-- ==== Sys2Proof/Decode.lean ====
section
/-! DEFINITION. The words of the table of operations. The table gives no row any bits: a command of this block is no word,
so no word spells one. -/

namespace Sys2Proof

/-- The command that a word spells by the table's bits: the table gives no row bits, so none.
DEDUCED, safe (log entry 43). -/
def decodeTableWord (_nbits _w : Nat) : Option Instr := none

end Sys2Proof
end

