-- ==== Sys2Proof/Config.lean ====
section
/-! DEFINITION. What an implementation fixes, and the free values: constants without a body, of which nothing can be
proved. A value that the spec leaves open is one of these (log entries 2 and 5). -/

namespace Sys2Proof.Config

/-- The n-th free byte: stands for data the spec calls undefined, unintelligible or a mixture (R180, R204, R421). -/
opaque freeByte : Nat → BitVec 8

/-- What AES-256-XTS yields when a unit that holds the given plaintext under one key is read under another: written key,
reading key, unit address, byte position, stored plaintext. Unintelligible data (R180, R421). -/
opaque crossKey : Nat → Nat → Nat → Nat → List (BitVec 8) → BitVec 8

/-- Whether the n-th event sees the i-th of the pieces that running jobs leave open, in place of memory (R59, R204, R205). -/
opaque sees : Nat → Nat → Bool

/-- How many credits of a channel (0 REQ, 1 RSP) a port has free at the n-th event: event, port, channel (R289, R294). Its peer
returns them. -/
opaque credits : Nat → Nat → Nat → Nat

/-- The n-th free choice between two allowed outcomes (R33, R204, R220, R262). -/
opaque freeBool : Nat → Bool

/-- The n-th free number (a key identity's entropy, a nonce, an unordered choice). -/
opaque freeNat : Nat → Nat

/-- The fused bits of the register at a local address (R68, R27, R224, MG_CFG, MG_FLOOR, MG_LICFLOOR). -/
opaque fuse : Nat → BitVec 64

/-- How many enabled cores lie below the i-th physical core that is fused out (R223). -/
opaque coreGap : Nat → Nat

/-- The device serial fused at manufacture (R356). -/
opaque serial : BitVec 64

/-- The hashes of the Tagrimet key and of the operator configuration key (R356), as uninterpreted key names. -/
opaque tagrimetKey : Nat

/-- The operator configuration key (R356). -/
opaque operatorKey : Nat

/-- SHA-384 as an uninterpreted function (R357, R384). -/
opaque sha384 : List (BitVec 8) → List (BitVec 8)

/-- The extension of a measurement by an object (R384): old digest, object. -/
opaque extend : List (BitVec 8) → List (BitVec 8) → List (BitVec 8)

/-- Whether the digests of the components that a slot's body lists match them (R357; the layout of the list is not given). -/
opaque componentsOk : List (BitVec 8) → Bool

/-- A byte of a crash dump that the model does not compute: dump number, offset in its slot (R351, R352). -/
opaque dumpByte : Nat → Nat → BitVec 8

/-- A byte of the partition image that Banjo broadcasts (R366). -/
opaque imageByte : Nat → BitVec 8

/-- ECDSA P-384 verification as an uninterpreted predicate: key, signed bytes, signature (R356, R395). -/
opaque ecdsaOk : Nat → List (BitVec 8) → List (BitVec 8) → Bool

/-- AES-256-GCM unwrapping of a 64-byte key inside a secured session (R387): whether the tag verifies. -/
opaque unwrapOk : Nat → List (BitVec 8) → Bool

/-- The device secret, fused at manufacture, and the alias key it makes with measurements 1 to 5 (R383). -/
opaque deviceSecret : BitVec 256
opaque aliasKey : BitVec 256 → List (List (BitVec 8)) → Nat

/-- The SPDM responder's answer to a message, signed with a key, given the measurements and a fresh nonce (R281, R383, R384). -/
opaque spdmAnswer : Nat → List (BitVec 8) → List (List (BitVec 8)) → Nat → List (BitVec 8)

/-- The boot ROM and the fuse state, as they are measured (R384). -/
opaque bootState : List (BitVec 8)

/-- The digest of the requester certificate of a secured session (R384). -/
opaque requesterDigest : Nat → List (BitVec 8)

/-- How far the background scrub of T2 has come at a time (R370). -/
opaque scrubPoint : Nat → Nat

/-- What a DOE message leaves of the IDE stream: whether it carries traffic afterwards (R281). -/
opaque ideAfter : List (BitVec 8) → Bool → Bool

/-- The secured session that an SPDM message opens, if it opens one (R381, R387). -/
opaque spdmOpens : List (BitVec 8) → Option Nat

/-- The secured session that an SPDM message ends, if it ends one (R387). -/
opaque spdmEnds : List (BitVec 8) → Option Nat

/-- Whether a session's requester certificate chains to the operator configuration key (R381). -/
opaque operatorSession : Nat → Bool

/-- The coefficients of the firmware function tables: slot, segment, coefficient (R76 gives no coefficient). -/
opaque fwCoef : Nat → Nat → Nat → BitVec 32

/-- The coefficient a segment index past the last one would name (R75: f may round up to 1). -/
opaque coefBeyond : Nat → BitVec 32

/-- NAN_VAL of a firmware table slot for which R76 states no value at NaN. -/
opaque fwNan : Nat → BitVec 32

/-- Whether ATOM.MAX compares as signed numbers (R215 does not say). -/
opaque maxSigned : Bool

/-- The two results of CMPLT and CMPEQ: false, true (R72 names the operations and states no result values). -/
opaque cmpResult : Bool → BitVec 32

/-- Whether a value of IN0 makes SELECT take IN1 (R72 does not say which). -/
opaque selects : BitVec 32 → Bool

/-- The index ARGMAX returns for elements of which one is NaN (R72, R102). -/
opaque argmaxNan : List (BitVec 32) → Nat

/-- Which of two orders of steps the vector engines take in SOFTMAX, LAYERNORM and RMSNORM, step by step (R72 gives none). -/
opaque normStep : Nat → Bool

/-- Where a VEC operand of a scaled format holds the scale of its v-th vector, in bytes from its start: format, count,
inner length, axis, v (R152 does not say). -/
opaque vecScaleAt : Nat → Nat → Nat → Nat → Nat → Nat

/-- Where a VEC operand of a scaled format holds its elements: format, count, inner length, axis (R152). -/
opaque vecDataAt : Nat → Nat → Nat → Nat → Nat

/-- The directory set of a line (R245 gives 16 ways and no index function). -/
opaque dirSet : Nat → Nat

end Sys2Proof.Config
end

