-- ==== Sys2Proof/Machine/Sparse.lean ====
section
/-! DEFINITION. Sparse maps in one canonical form: keys strictly rising, no entry equal to the default. Every memory,
register file and array of the device is one of these, so equal contents are equal data. -/

namespace Sys2Proof.Machine

/-- What a map with default d holds at a key. -/
def Sparse.get {V : Type} (d : Nat → V) : Sparse V → Nat → V
  | [], k => d k
  | (a, v) :: m, k => if a = k then v else Sparse.get d m k

/-- Writes one key and keeps the canonical form: writing the default removes the entry. -/
def Sparse.put {V : Type} [DecidableEq V] (d : Nat → V) : Sparse V → Nat → V → Sparse V
  | [], k, v => if v = d k then [] else [(k, v)]
  | (a, w) :: m, k, v =>
    if k < a then (if v = d k then (a, w) :: m else (k, v) :: (a, w) :: m)
    else if k = a then (if v = d k then m else (k, v) :: m)
    else (a, w) :: Sparse.put d m k v

/-- Keys strictly above a bound, rising. -/
def Sparse.above {V : Type} (b : Nat) : Sparse V → Bool
  | [] => true
  | (a, _) :: m => decide (b < a) && Sparse.above a m

/-- Keys strictly rising. -/
def Sparse.sorted {V : Type} : Sparse V → Bool
  | [] => true
  | (a, _) :: m => Sparse.above a m

/-- The canonical form. -/
def Sparse.wf {V : Type} [DecidableEq V] (d : Nat → V) (m : Sparse V) : Bool :=
  Sparse.sorted m && m.all (fun e => decide (e.2 ≠ d e.1))

/-- Drops the entries whose key satisfies p: those keys read as the default again. -/
def Sparse.drop {V : Type} (p : Nat → Bool) (m : Sparse V) : Sparse V := m.filter (fun e => !p e.1)

end Sys2Proof.Machine
end

