-- ==== Sys2Proof/Machine/Bits.lean ====
section
/-! DEFINITION. Bit fields of 64-bit words, little-endian bytes, and the shapes of the register tables (R12, R13). -/

namespace Sys2Proof.Machine

/-- A bit range high:low of a 64-bit word. -/
structure Fld where
  hi : Nat
  lo : Nat
deriving DecidableEq, Repr

/-- Access codes (R13). -/
inductive Access where
  | rw | ro | wo | w1c | w1s | rc | st
deriving DecidableEq, Repr

/-- One field of a register: its bits, its access code, its reset value; fused fields take theirs from Config.fuse. -/
structure FieldSpec where
  fld : Fld
  acc : Access
  reset : Nat
  fused : Bool
deriving DecidableEq, Repr

/-- The power domain of a register: PD_Ppp_CTL by the register's first index, the PD_TAILn_SW or SD of a fabric port,
or one fixed domain (numbers of R325). -/
inductive RegDomain where
  | partCtl
  | portSw
  | fixed (n : Nat)
deriving DecidableEq, Repr

/-- The width of a bit range. -/
def Fld.width (f : Fld) : Nat := f.hi + 1 - f.lo

/-- The value of a bit range of a number. -/
def natBits (w hi lo : Nat) : Nat := (w / 2 ^ lo) % 2 ^ (hi + 1 - lo)

/-- The value of a field of a word. -/
def Fld.get (f : Fld) (w : Word) : Nat := natBits w.toNat f.hi f.lo

/-- A word with one field replaced; a value too wide keeps its low bits. -/
def Fld.set (f : Fld) (w : Word) (v : Nat) : Word :=
  BitVec.ofNat 64 (w.toNat - f.get w * 2 ^ f.lo + v % 2 ^ f.width * 2 ^ f.lo)

/-- Bit b of a number. -/
def natBit (w b : Nat) : Bool := w / 2 ^ b % 2 == 1

/-- A number with bit b set. -/
def natSetBit (w b : Nat) (v : Bool) : Nat :=
  match natBit w b, v with
  | true, false => w - 2 ^ b
  | false, true => w + 2 ^ b
  | _, _ => w

/-- The count of 1 bits among the low n bits. -/
def popcount (w : Nat) : Nat → Nat
  | 0 => 0
  | n + 1 => popcount w n + (if natBit w n then 1 else 0)

/-- The lowest b, b < n, that satisfies p. -/
def lowestWhere (p : Nat → Bool) (n : Nat) : Option Nat := (List.range n).find? p

/-- 1 for true. -/
def b2n (b : Bool) : Nat := if b then 1 else 0

/-- Ceiling division. -/
def ceilDiv (a b : Nat) : Nat := (a + b - 1) / b

/-- ceil(log2 n), 0 for n of 0 or 1, by counting doublings. -/
def clog2 (n : Nat) : Nat := ((List.range 64).find? (fun k => decide (n ≤ 2 ^ k))).getD 64

/-- n little-endian bytes of a number. -/
def leBytes (v : Nat) : Nat → List Byte
  | 0 => []
  | n + 1 => BitVec.ofNat 8 v :: leBytes (v / 256) n

/-- The number that little-endian bytes spell. -/
def ofLeBytes : List Byte → Nat
  | [] => 0
  | b :: bs => b.toNat + 256 * ofLeBytes bs

/-- The 64-bit words that bytes spell, little-endian; a shorter tail counts as padded with zeros. -/
def wordsOf (bs : List Byte) : Nat → List Word
  | 0 => []
  | n + 1 => BitVec.ofNat 64 (ofLeBytes (bs.take 8)) :: wordsOf (bs.drop 8) n

/-- The bytes of a list of words. -/
def bytesOfWords (ws : List Word) : List Byte := (ws.map (fun w => leBytes w.toNat 8)).flatten

/-- Saturating addition under a bound. -/
def satAdd (a n bound : Nat) : Nat := if a + n ≤ bound then a + n else bound

/-- Ranges [a, a + n) and [b, b + m) share a byte. -/
def overlap (a n b m : Nat) : Bool := decide (a < b + m) && decide (b < a + n) && decide (0 < n) && decide (0 < m)

/-- [a, a + n) lies within [b, b + m). -/
def within (a n b m : Nat) : Bool := decide (b ≤ a) && decide (a + n ≤ b + m)

/-- The insertion of one element into a list sorted by key. -/
def insertBy {α : Type} (key : α → Nat) (x : α) : List α → List α
  | [] => [x]
  | y :: ys => if key x < key y then x :: y :: ys else y :: insertBy key x ys

/-- A stable sort by a numeric key. -/
def sortBy {α : Type} (key : α → Nat) (xs : List α) : List α := xs.foldl (fun acc x => insertBy key x acc) []

/-- The smallest of some positions. -/
def smallest : List Nat → Option Nat
  | [] => none
  | x :: xs => some (xs.foldl min x)

/-- A list with the elements at one position replaced. -/
def setAt {α : Type} (i : Nat) (x : α) (xs : List α) : List α := xs.set i x

end Sys2Proof.Machine
end

