-- ==== Sys2Proof/Machine/Arith.lean ====
section
/-! DEFINITION. The ten number formats and their arithmetic (R83–R104): exact values, decoding, FP32 operations rounded
to nearest even, the block dot product, the addition tree, output conversion with its three rounding modes, and the
evaluation of function tables (R74–R76). -/

namespace Sys2Proof.Machine

/-- A value: NaN, a signed infinity, or (−1)^neg · m · 2^e. A zero keeps its sign. -/
inductive Num where
  | nan
  | inf (neg : Bool)
  | fin (neg : Bool) (m : Nat) (e : Int)
deriving DecidableEq, Repr

/-- The number of bits of a magnitude. -/
def bitLen (n : Nat) : Nat := if n = 0 then 0 else Nat.log2 n + 1

/-- +0. -/
def Num.zero : Num := .fin false 0 0

def Num.isNan : Num → Bool
  | .nan => true
  | _ => false

def Num.isZero : Num → Bool
  | .fin _ m _ => m == 0
  | _ => false

def Num.isInf : Num → Bool
  | .inf _ => true
  | _ => false

def Num.isNeg : Num → Bool
  | .nan => false
  | .inf n => n
  | .fin n _ _ => n

def Num.negate : Num → Num
  | .nan => .nan
  | .inf n => .inf (!n)
  | .fin n m e => .fin (!n) m e

def Num.abs : Num → Num
  | .nan => .nan
  | .inf _ => .inf false
  | .fin _ m e => .fin false m e

/-- A value times a power of two. -/
def Num.scaleBy : Num → Int → Num
  | .fin n m e, k => .fin n m (e + k)
  | x, _ => x

/-! ### Formats (R83, R85) -/

/-- Special encodings of a floating-point format: none, the IEEE ones, or the two NaNs of E4M3. -/
inductive Specials where
  | none | ieee | e4m3
deriving DecidableEq, Repr

/-- A floating-point format: exponent bits, mantissa bits, bias, specials. -/
structure FpFmt where
  eb : Nat
  mb : Nat
  bias : Nat
  sp : Specials
deriving DecidableEq, Repr

def fpFmt (f : Nat) : FpFmt :=
  match f with
  | 0 => ⟨8, 23, 127, .ieee⟩
  | 1 => ⟨8, 7, 127, .ieee⟩
  | 2 => ⟨5, 10, 15, .ieee⟩
  | 3 => ⟨4, 3, 7, .e4m3⟩
  | 4 => ⟨5, 2, 15, .ieee⟩
  | 5 => ⟨2, 3, 1, .none⟩
  | 6 => ⟨3, 2, 3, .none⟩
  | _ => ⟨2, 1, 1, .none⟩

/-- Precision with the hidden bit. -/
def FpFmt.prec (f : FpFmt) : Nat := f.mb + 1

/-- The exponent of the spacing of subnormals. -/
def FpFmt.qmin (f : FpFmt) : Int := 1 - (f.bias : Int) - f.mb

/-- The largest finite value, as magnitude and exponent (R85). -/
def FpFmt.maxFin (f : FpFmt) : Nat × Int :=
  match f.sp with
  | .ieee => (2 ^ (f.mb + 1) - 1, (2 ^ f.eb - 2 : Int) - f.bias - f.mb)
  | .e4m3 => (14, 5)
  | .none => (2 ^ (f.mb + 1) - 1, (2 ^ f.eb - 1 : Int) - f.bias - f.mb)

/-- The value of an encoding (R85). -/
def FpFmt.decode (f : FpFmt) (code : Nat) : Num :=
  let m := code % 2 ^ f.mb
  let e := code / 2 ^ f.mb % 2 ^ f.eb
  let neg := code / 2 ^ (f.mb + f.eb) % 2 == 1
  if f.sp = .ieee ∧ e = 2 ^ f.eb - 1 then (if m = 0 then .inf neg else .nan)
  else if f.sp = .e4m3 ∧ e = 15 ∧ m = 7 then .nan
  else if e = 0 then .fin neg m f.qmin
  else .fin neg (2 ^ f.mb + m) ((e : Int) - f.bias - f.mb)

/-- The encoding of a magnitude that lies on the grid of the format. -/
def FpFmt.encodeMag (f : FpFmt) (m : Nat) (e : Int) : Nat :=
  if m = 0 then 0
  else
    let ex := e + (bitLen m : Int) - 1 + f.bias
    if 1 ≤ ex then
      let l := bitLen m
      let sig := if l ≤ f.mb + 1 then m * 2 ^ (f.mb + 1 - l) else m / 2 ^ (l - f.mb - 1)
      ex.toNat * 2 ^ f.mb + sig % 2 ^ f.mb
    else if f.qmin ≤ e then m * 2 ^ (e - f.qmin).toNat
    else m / 2 ^ (f.qmin - e).toNat

/-- The encoding of a value on the grid; a NaN is the canonical one (R86). -/
def FpFmt.encode (f : FpFmt) (x : Num) : Nat :=
  let top := 2 ^ (f.mb + f.eb)
  match x with
  | .nan => if f.sp = .e4m3 then 127 else (2 ^ f.eb - 1) * 2 ^ f.mb + 2 ^ (f.mb - 1)
  | .inf neg => b2n neg * top + (2 ^ f.eb - 1) * 2 ^ f.mb
  | .fin neg m e => b2n neg * top + f.encodeMag m e

def f32 : FpFmt := ⟨8, 23, 127, .ieee⟩

/-- The value of an FP32 pattern and the pattern of a value. -/
def ofF32 (w : Nat) : Num := f32.decode w
def toF32 (x : Num) : Nat := f32.encode x

/-! ### Rounding (R96, R99, R100) -/

/-- Rounding modes: to nearest even, toward zero, stochastic with a 16-bit number. -/
inductive Rnd where
  | rne
  | rtz
  | stoch (r : Nat)
deriving DecidableEq, Repr

/-- Whether lo + rem ÷ den moves one step away from zero. -/
def Rnd.up (mode : Rnd) (lo rem den : Nat) : Bool :=
  match mode with
  | .rne => decide (den < 2 * rem) || (2 * rem == den && lo % 2 == 1)
  | .rtz => false
  | .stoch r => decide (r < rem * 65536 / den)

/-- Rounds m · 2^e onto the grid of p bits with least spacing 2^qmin: a magnitude and its exponent. -/
def roundMag (mode : Rnd) (p : Nat) (qmin : Int) (m : Nat) (e : Int) : Nat × Int :=
  let q := max (e + (bitLen m : Int) - p) qmin
  if q ≤ e then (m * 2 ^ (e - q).toNat, q)
  else
    let den := 2 ^ (q - e).toNat
    (m / den + b2n (mode.up (m / den) (m % den) den), q)

/-- m · 2^e exceeds n · 2^k. -/
def magGt (m : Nat) (e : Int) (n : Nat) (k : Int) : Bool :=
  if k ≤ e then decide (n < m * 2 ^ (e - k).toNat) else decide (n * 2 ^ (k - e).toNat < m)

/-- FP32 rounding to nearest even under IEEE 754 (R91, R102). -/
def round32 : Num → Num
  | .fin neg m e =>
    let (m', q) := roundMag .rne 24 (-149) m e
    if magGt m' q (2 ^ 24 - 1) 104 then .inf neg else .fin neg m' q
  | x => x

/-! ### Exact sums and products -/

/-- Two finite values over their common exponent. -/
def addFin (n1 : Bool) (m1 : Nat) (e1 : Int) (n2 : Bool) (m2 : Nat) (e2 : Int) : Num :=
  let e := min e1 e2
  let a := m1 * 2 ^ (e1 - e).toNat
  let b := m2 * 2 ^ (e2 - e).toNat
  if n1 = n2 then .fin n1 (a + b) e
  else if b < a then .fin n1 (a - b) e
  else if a < b then .fin n2 (b - a) e
  else .fin false 0 e

/-- The exact sum; a sum of zeros of unlike sign and an exact cancellation are +0. -/
def Num.add (x y : Num) : Num :=
  match x, y with
  | .nan, _ => .nan
  | _, .nan => .nan
  | .inf a, .inf b => if a = b then .inf a else .nan
  | .inf a, _ => .inf a
  | _, .inf b => .inf b
  | .fin n1 m1 e1, .fin n2 m2 e2 => addFin n1 m1 e1 n2 m2 e2

/-- The exact product, with the IEEE rules for infinity and NaN. -/
def Num.mul (x y : Num) : Num :=
  match x, y with
  | .nan, _ => .nan
  | _, .nan => .nan
  | .inf a, .inf b => .inf (a != b)
  | .inf a, .fin b m _ => if m = 0 then .nan else .inf (a != b)
  | .fin a m _, .inf b => if m = 0 then .nan else .inf (a != b)
  | .fin a m e, .fin b n k => .fin (a != b) (m * n) (e + k)

/-- FP32 operations (R102): each rounds once. -/
def add32 (x y : Num) : Num := round32 (x.add y)
def sub32 (x y : Num) : Num := round32 (x.add y.negate)
def mul32 (x y : Num) : Num := round32 (x.mul y)
def fma32 (x y z : Num) : Num := round32 ((x.mul y).add z)

/-- A quotient with sticky low bit: enough bits that one rounding is correct. -/
def quotient (m n : Nat) : Nat × Int :=
  let k := 30 + bitLen n
  let q := m * 2 ^ k / n
  (2 * q + b2n (m * 2 ^ k % n != 0), -(k : Int) - 1)

/-- FP32 division, correctly rounded (R102). -/
def div32 (x y : Num) : Num :=
  match x, y with
  | .nan, _ => .nan
  | _, .nan => .nan
  | .inf _, .inf _ => .nan
  | .inf a, .fin b _ _ => .inf (a != b)
  | .fin a _ _, .inf b => .fin (a != b) 0 0
  | .fin a m e, .fin b n k =>
    if n = 0 then (if m = 0 then .nan else .inf (a != b))
    else
      let (q, t) := quotient m n
      round32 (.fin (a != b) q (e - k + t))

/-- The integer square root, one bit at a time. -/
def isqrt (n : Nat) : Nat → Nat → Nat
  | 0, r => r
  | b + 1, r => isqrt n b (if (r + 2 ^ b) * (r + 2 ^ b) ≤ n then r + 2 ^ b else r)

/-- FP32 square root, correctly rounded (R102). -/
def sqrt32 : Num → Num
  | .nan => .nan
  | .inf false => .inf false
  | .inf true => .nan
  | .fin neg m e =>
    if m = 0 then .fin neg 0 0
    else if neg then .nan
    else
      let sh : Nat := 60 + (if (e - 60) % 2 = 0 then 0 else 1)
      let n := m * 2 ^ sh
      let r := isqrt n (bitLen n / 2 + 1) 0
      round32 (.fin false (2 * r + b2n (r * r != n)) ((e - sh) / 2 - 1))

/-- FP32 reciprocal and reciprocal square root, correctly rounded (R102): of a root the exact value is taken, not the
rounded one. -/
def recip32 (x : Num) : Num := div32 (.fin false 1 0) x
def rsqrt32 : Num → Num
  | .fin neg m e =>
    if m = 0 then .inf neg
    else if neg then .nan
    else
      let sh : Nat := 200 + 2 * bitLen m + (if (e + 200) % 2 = 0 then 0 else 1)
      -- 1 / sqrt(m 2^e) = sqrt(2^(sh) / m) * 2^(-(sh + e) / 2)
      let r := isqrt (2 ^ sh / m) (sh / 2 + 1) 0
      round32 (.fin false (2 * r + b2n (r * r * m != 2 ^ sh)) (-((sh : Int) + e) / 2 - 1))
  | .inf false => .fin false 0 0
  | _ => .nan

/-- x < y as numbers; nothing is below or above NaN. -/
def Num.lt (x y : Num) : Bool :=
  match x, y with
  | .nan, _ => false
  | _, .nan => false
  | .inf a, .inf b => a && !b
  | .inf a, _ => a
  | _, .inf b => !b
  | _, _ => match x.add y.negate with
    | .fin neg m _ => neg && m != 0
    | _ => false

/-- Equal as numbers: +0 and −0 are. -/
def Num.eq (x y : Num) : Bool := !x.isNan && !y.isNan && !x.lt y && !y.lt x

/-- The order of MAX and MIN: −0 lies below +0 (R102). -/
def Num.below (x y : Num) : Bool := x.lt y || (x.isZero && y.isZero && x.isNeg && !y.isNeg)

def max32 (x y : Num) : Num := if x.isNan || y.isNan then .nan else if x.below y then y else x
def min32 (x y : Num) : Num := if x.isNan || y.isNan then .nan else if y.below x then y else x

/-- The greatest integer not above a finite value; 0 for the others. -/
def Num.floor : Num → Int
  | .fin neg m e =>
    let v : Int := if neg then -(m : Int) else m
    if 0 ≤ e then v * 2 ^ e.toNat else v / 2 ^ (-e).toNat
  | _ => 0

def Num.ofInt (i : Int) : Num := .fin (decide (i < 0)) i.natAbs 0

/-! ### Decoding elements (R87–R89) -/

/-- Two's complement. -/
def signed (bits v : Nat) : Int := if v < 2 ^ (bits - 1) then v else (v : Int) - 2 ^ bits

/-- An element without its scale. -/
def elem (f code : Nat) : Num :=
  match f with
  | 8 => Num.ofInt (signed 8 code)
  | 9 => Num.ofInt (signed 4 code)
  | _ => (fpFmt f).decode code

/-- A scale: E8M0 for the MX formats, FP16 for the integers, 1 elsewhere. -/
def scaleOf (f code : Nat) : Num :=
  if f ≤ 2 then .fin false 1 0
  else if f ≤ 7 then (if code = 255 then .nan else .fin false 1 ((code : Int) - 127))
  else (fpFmt 2).decode code

/-- An element with its scale, in FP32 (R89).
DEDUCED, unsafe (log entry 55): a zero element under a negative scale is −0 and under an infinite one NaN, as IEEE products are. -/
def decodeElem (f code scale : Nat) : Num := if f ≤ 2 then elem f code else round32 ((elem f code).mul (scaleOf f scale))

/-! ### The block dot product (R91–R93) -/

/-- The block result of 32 element pairs and the two scales. -/
def blockDot (as bs : List Num) (sa sb : Num) : Num :=
  let rest := ((as.zip bs).filter (fun x => !x.1.isZero && !x.2.isZero)).map (fun x => x.1.mul x.2)
  let p := sa.mul sb
  let s := rest.foldl (fun acc x => acc.add x) Num.zero
  if rest.isEmpty then Num.zero
  else if p.isNan || s.isNan then .nan
  else if s.isInf then (if p.isZero then .nan else .inf (s.isNeg != p.isNeg))
  else if s.isZero then (if p.isInf then .nan else Num.zero)
  else if p.isZero then Num.zero
  else if p.isInf then .inf (s.isNeg != p.isNeg)
  else round32 (s.mul p)

/-! ### The addition tree (R94) -/

/-- One level. -/
def treeLevel : List Num → List Num
  | a :: b :: r => add32 a b :: treeLevel r
  | l => l

/-- The root after enough levels; an empty list sums to +0. -/
def treeSum : Nat → List Num → Num
  | 0, l => l.headD Num.zero
  | n + 1, l => if l.length ≤ 1 then l.headD Num.zero else treeSum n (treeLevel l)

/-- The sum of a list in the tree. -/
def sumTree (l : List Num) : Num := treeSum (bitLen l.length + 1) l

/-! ### Stochastic numbers (R101) -/

/-- r for a seed, a stream, a row and a column. -/
def stochR (seed stream row col : Nat) : Nat :=
  let m := 2 ^ 64
  let z := (seed + stream * 0x9E3779B97F4A7C15 + (row * 2 ^ 32 + col) * 0xD1B54A32D192ED03) % m
  let z := ((z ^^^ (z / 2 ^ 30)) * 0xBF58476D1CE4E5B9) % m
  let z := ((z ^^^ (z / 2 ^ 27)) * 0x94D049BB133111EB) % m
  (z ^^^ (z / 2 ^ 31)) % 65536

/-- The rounding mode of a ROUND field for one element. -/
def modeOf (round seed stream row col : Nat) : Rnd :=
  match round with
  | 0 => .rne
  | 1 => .rtz
  | _ => .stoch (stochR seed stream row col)

/-! ### Output conversion (R96–R100) -/

/-- BF16 and FP16 (R97). -/
def toHalf (f : FpFmt) (sat : Bool) (mode : Rnd) : Num → Nat
  | .fin neg m e =>
    let (m', q) := roundMag mode f.prec f.qmin m e
    let (mm, me) := f.maxFin
    if magGt m' q mm me then f.encode (if sat then .fin neg mm me else .inf neg) else f.encode (.fin neg m' q)
  | x => f.encode x

/-- One element of an MX vector under its scale exponent (R98 step 4). -/
def toMx (f : FpFmt) (mode : Rnd) (x : Int) : Num → Nat
  | .fin neg m e =>
    let (m', q) := roundMag mode f.prec f.qmin m (e - x)
    let (mm, me) := f.maxFin
    if magGt m' q mm me then f.encode (.fin neg mm me) else f.encode (.fin neg m' q)
  | _ => 0

/-- emax (R98). -/
def mxEmax (f : Nat) : Int :=
  match f with
  | 3 => 8
  | 4 => 15
  | 6 => 4
  | _ => 2

/-- The largest magnitude of finite values. -/
def amaxOf (vs : List Num) : Num := vs.foldl (fun a v => if a.lt v.abs then v.abs else a) Num.zero

/-- floor(log2 v) of a positive finite value. -/
def log2Floor : Num → Int
  | .fin _ m e => e + (bitLen m : Int) - 1
  | _ => 0

/-- The FP16 scale of an integer vector: amax ÷ Q rounded to nearest even, at most 65,504 (R98). -/
def intScale (amax : Num) (q : Nat) : Nat :=
  match amax with
  | .fin _ m e =>
    let (k, t) := quotient m q
    let (m', x) := roundMag .rne 11 (-24) k (e + t)
    if magGt m' x 2047 5 then 0x7BFF else (fpFmt 2).encode (.fin false m' x)
  | _ => 0

/-- v ÷ s rounded to an integer and clamped to −Q to Q, in two's complement (R98). -/
def toInt (bits q : Nat) (s : Num) (mode : Rnd) (v : Num) : Nat :=
  match v, s with
  | .fin neg m e, .fin _ n k =>
    let x := e - k
    let num := if 0 ≤ x then m * 2 ^ x.toNat else m
    let den := if 0 ≤ x then n else n * 2 ^ (-x).toNat
    let r := num / den + b2n (mode.up (num / den) (num % den) den)
    let r := min r q
    if neg ∧ r ≠ 0 then 2 ^ bits - r else r
  | _, _ => 0

/-- Converts one output vector: the element codes and the scale code (R96–R98). -/
def convertVec (f : Nat) (sat : Bool) (vs : List (Num × Rnd)) : List Nat × Nat :=
  let bad := vs.any (fun v => v.1.isNan || v.1.isInf)
  let amax := amaxOf (vs.map (fun v => v.1))
  if f = 0 then (vs.map (fun v => toF32 v.1), 0)
  else if f ≤ 2 then (vs.map (fun v => toHalf (fpFmt f) sat v.2 v.1), 0)
  else if f ≤ 7 then
    if bad then (vs.map (fun _ => 0), 255)
    else if amax.isZero then (vs.map (fun _ => 0), 0)
    else
      let x := max (-127) (min 127 (log2Floor amax - mxEmax f))
      (vs.map (fun v => toMx (fpFmt f) v.2 x v.1), (x + 127).toNat)
  else
    let bits := if f = 8 then 8 else 4
    let q := if f = 8 then 127 else 7
    if bad then (vs.map (fun _ => 0), 0x7E00)
    else
      let s := intScale amax q
      if s = 0 then (vs.map (fun _ => 0), 0)
      else (vs.map (fun v => toInt bits q ((fpFmt 2).decode s) v.2 v.1), s)

/-! ### Packing (R84) -/

/-- Element i of w bits of little-endian bytes. -/
def unpack (w : Nat) (bs : List Byte) (n : Nat) : List Nat :=
  let v := ofLeBytes bs
  (List.range n).map (fun i => v / 2 ^ (w * i) % 2 ^ w)

/-- Replaces element i of w bits of a number. -/
def putElem (w v i x : Nat) : Nat := v - v / 2 ^ (w * i) % 2 ^ w * 2 ^ (w * i) + x % 2 ^ w * 2 ^ (w * i)

/-- Replaces some elements of bytes. -/
def packInto (w : Nat) (bs : List Byte) (xs : List (Nat × Nat)) : List Byte :=
  leBytes (xs.foldl (fun v x => putElem w v x.1 x.2) (ofLeBytes bs)) bs.length

/-! ### Function tables (R74–R76) -/

/-- A table: header and a coefficient function segment, 0 to 2. Values are FP32 patterns. -/
structure Table where
  mode : Nat
  inScale : Nat
  xMin : Nat
  xMax : Nat
  low : Nat
  high : Nat
  nanVal : Nat
  outScale : Nat
  flags : Nat
  coef : List (Nat × Nat × Nat)
deriving DecidableEq, Repr

/-- The coefficients of a segment. -/
def Table.seg (t : Table) (i : Nat) : Num × Num × Num :=
  match t.coef[i]? with
  | some (a, b, c) => (ofF32 a, ofF32 b, ofF32 c)
  | none => (ofF32 (Config.coefBeyond 0).toNat, ofF32 (Config.coefBeyond 1).toNat, ofF32 (Config.coefBeyond 2).toNat)

/-- c0 + t (c1 + t c2), each operation rounded. -/
def Table.poly (t : Table) (i : Nat) (x : Num) : Num :=
  let (c0, c1, c2) := t.seg i
  add32 c0 (mul32 x (add32 c1 (mul32 x c2)))

/-- The output scale applied to a segment's value. -/
def Table.out (t : Table) (y : Num) : Num := if (ofF32 t.outScale).isZero then y else mul32 y (ofF32 t.outScale)

/-- i ÷ 64 as a value. -/
def sixtyfourth (i : Nat) : Num := .fin false i (-6)

/-- The segment of a quotient in LINEAR mode, clamped to 0 to 63 (R75).
DESIGN CHOICE, unsafe (log entry 54): the spec gives no floor of NaN, for which segment 0 is taken. -/
def segmentOf (q : Num) : Nat :=
  match q with
  | .inf false => 63
  | q => min 63 q.floor.toNat

/-- The evaluation of a table (R75). -/
def Table.eval (t : Table) (x0 : Num) : Num :=
  let x := mul32 x0 (ofF32 t.inScale)
  if x.isNan then ofF32 t.nanVal
  else if t.mode = 0 then
    let lo := ofF32 t.xMin
    let hi := ofF32 t.xMax
    if x.lt lo then (if natBit t.flags 0 then x else ofF32 t.low)
    else if !x.lt hi then (if natBit t.flags 1 then x else ofF32 t.high)
    else
      let w := div32 (sub32 hi lo) (.fin false 64 0)
      let i := segmentOf (div32 (sub32 x lo) w)
      t.out (t.poly i (sub32 x (add32 lo (mul32 (.fin false i 0) w))))
  else if t.mode = 1 then
    if x.lt (.fin true 150 0) then ofF32 t.low
    else if !x.lt (.fin false 128 0) then ofF32 t.high
    else
      let n := x.floor
      let f := sub32 x (Num.ofInt n)
      let i := (f.scaleBy 6).floor.toNat
      t.out (round32 ((t.poly i (sub32 f (sixtyfourth i))).scaleBy n))
  else
    if x.isZero then ofF32 t.low
    else if x.isNeg then ofF32 t.nanVal
    else match x with
      | .fin _ m _ =>
        let e := log2Floor x
        let g := (Num.fin false m (1 - (bitLen m : Int))).add (.fin true 1 0)
        let i := (g.scaleBy 6).floor.toNat
        t.out (add32 (t.poly i (round32 (g.add (sixtyfourth i).negate))) (Num.ofInt e))
      | _ => ofF32 t.high

/-- The firmware tables' headers (R76); their coefficients are free, and FwAccurate says what they promise. -/
def fwTable (slot : Nat) : Table :=
  let coef := (List.range 64).map (fun i =>
    ((Config.fwCoef slot i 0).toNat, (Config.fwCoef slot i 1).toNat, (Config.fwCoef slot i 2).toNat))
  let nan := (Config.fwNan slot).toNat
  let one := 0x3F800000
  let base : Table := { mode := 0, inScale := one, xMin := 0, xMax := 0, low := 0, high := one, nanVal := nan, outScale := 0,
                        flags := 0, coef := coef }
  match slot with
  | 0 => { base with mode := 1, high := 0x7F800000 }
  | 1 => { base with mode := 1, inScale := 0x3FB8AA3B, high := 0x7F800000 }
  | 2 => { base with mode := 2, low := 0xFF800000, high := 0x7F800000, nanVal := 0x7FC00000 }
  | 3 => { base with mode := 2, low := 0xFF800000, high := 0x7F800000, nanVal := 0x7FC00000, outScale := 0x3F317218 }
  | 4 => { base with xMin := 0xC0800000, xMax := 0x40800000, low := 0xBF800000 }
  | 5 => { base with xMin := 0xC1100000, xMax := 0x41100000, low := 0xBF800000 }
  | 6 => { base with xMin := 0xC1880000, xMax := 0x41880000 }
  | _ => { base with xMin := 0xC1000000, xMax := 0x41000000, flags := 2 }

/-- The table of an 832-byte image; none when a header field is illegal (R74). X_MIN and X_MAX count in LINEAR only. -/
def tableOfImage (bs : List Byte) : Option Table :=
  let w (i : Nat) : Nat := ofLeBytes ((bs.drop (4 * i)).take 4)
  let fin (v : Nat) : Bool := !(ofF32 v).isNan && !(ofF32 v).isInf
  let t : Table := { mode := w 0, inScale := w 1, xMin := w 2, xMax := w 3, low := w 4, high := w 5, nanVal := w 6,
                     outScale := w 7, flags := w 8,
                     coef := (List.range 64).map (fun i => (w (16 + 3 * i), w (17 + 3 * i), w (18 + 3 * i))) }
  let linear := fin t.xMin && fin t.xMax && (ofF32 t.xMin).lt (ofF32 t.xMax)
  if decide (t.mode ≤ 2) && fin t.inScale && !(ofF32 t.inScale).isZero && fin t.outScale && decide (t.flags < 4)
      && (t.mode != 0 || linear) && ((bs.drop 36).take 28).all (fun b => b == 0) then some t
  else none

/-! ### What the firmware's coefficients promise (R76) -/

/-- A value is the real number v. -/
def Num.isReal (x : Num) (v : ℝ) : Prop :=
  match x with
  | .fin n m e => v = (if n then -1 else 1) * (m : ℝ) * (2 : ℝ) ^ e
  | _ => False

/-- z is the exact value at x of the function of a firmware slot. -/
def fwExact (slot : Nat) (x z : ℝ) : Prop :=
  match slot with
  | 0 => z = (2 : ℝ) ^ x
  | 1 => z = Real.exp x
  | 2 => 0 < x ∧ z = Real.logb 2 x
  | 3 => 0 < x ∧ z = Real.log x
  | 4 => z * Real.sqrt Real.pi = 2 * ∫ t in (0 : ℝ)..x, Real.exp (-t ^ 2)
  | 5 => z = Real.tanh x
  | 6 => z * (1 + Real.exp (-x)) = 1
  | _ => 2 * Real.sqrt Real.pi * z = x * (Real.sqrt Real.pi + 2 * ∫ t in (0 : ℝ)..(x / Real.sqrt 2), Real.exp (-t ^ 2))

/-- The answer y lies within the slot's maximum error of the exact z at x. -/
def fwWithin (slot : Nat) (x y z : ℝ) : Prop :=
  let u : ℝ := (2 : ℝ) ^ (-23 : ℤ)
  match slot with
  | 0 => if (2 : ℝ) ^ (-126 : ℤ) ≤ z then |y - z| ≤ 4 * u * |z| else |y - z| ≤ (2 : ℝ) ^ (-149 : ℤ)
  | 1 => if (2 : ℝ) ^ (-126 : ℤ) ≤ z then |y - z| ≤ 4 * u * max 1 |x| * |z| else |y - z| ≤ (2 : ℝ) ^ (-149 : ℤ)
  | 2 | 3 => |y - z| ≤ max (2 * u) (u * |y|)
  | 4 | 5 | 6 => |y - z| ≤ (2 : ℝ) ^ (-16 : ℤ)
  | _ => |y - z| ≤ (2 : ℝ) ^ (-16 : ℤ) * max 1 |x|

/-- The firmware tables answer every finite input within R76's maximum error. The coefficients are free (Config.fwCoef): a claim
about a function's value takes this as its premise, and a part whose tables fail it does not follow R76. -/
def FwAccurate : Prop :=
  ∀ slot < 8, ∀ w < 2 ^ 32, ∀ x y z : ℝ, (ofF32 w).isReal x → ((fwTable slot).eval (ofF32 w)).isReal y → fwExact slot x z →
    fwWithin slot x y z

end Sys2Proof.Machine
end

