-- ==== Sys2Proof/Machine/RegTable.lean ====
section
/-! DEFINITION. The register maps of the manual: every register class with its base address, strides and counts (R418),
its power domain (R325 and the chapter that defines it), its retention, and its fields with access codes and reset
values (R12, R13). Field constants carry the manual's own names: REGISTER_FIELD. -/

namespace Sys2Proof.Machine

/-- The register classes of R418. HO_DIRSTAT and HO_NAKCNT exist per stack home and per DDR home. -/
inductive RegClass where
  | ptCommit
  | ptPred
  | ptPredown
  | ptCtxcfg
  | ptCtxquota
  | ptCtxseed
  | ptCtxstat
  | ptCtxuse
  | meMap
  | meBusy
  | meRamp
  | meCommit
  | veTabvalid
  | tsErrcnt
  | ptStkerr
  | sqLen
  | sqRingbase
  | sqCplbase
  | sqRingcfg
  | sqDb
  | sqHead
  | sqCommit
  | bdSem
  | bdSemadd
  | bdSemgrp
  | ptTmcfg
  | ptTmpool1
  | ptTmpool2
  | ptTmtab
  | ptTmcommit
  | ptTmctl
  | ptTmstat
  | ptTmcnt
  | hoDirstat
  | hoNakcnt
  | pwPhasecfg
  | pwPhcommit
  | pwPhtag
  | fqCfg
  | fqCommit
  | fqHead
  | fqTail
  | fqOvf
  | fqFatal
  | ptWatchdog
  | ptRecctl
  | ptRecstat
  | ptReload
  | hsCoreCeil
  | hsCorekey
  | scWaymask
  | scCommit
  | hsIrqroute
  | hsIrqpend
  | ddTier
  | ddErrcnt
  | hoDirstatDdr
  | hoNakcntDdr
  | hoDead0
  | hoDead1
  | lkRole
  | lkCommit
  | lkStatus
  | lkRepair
  | lkErrcnt
  | bdBarcfg
  | bdBargen
  | xlAscfg
  | xlAsstat
  | xlFence
  | xlAscount
  | xlCommit
  | xlWinbase
  | xlWincfg
  | xlWinstat
  | xlWincommit
  | xlRxcfg
  | hiQcfg
  | hiQdata
  | hiQegr
  | hiQdb
  | hiQstat
  | hiQacc
  | hiQegprod
  | hiQegcons
  | hiQcommit
  | hiLink
  | fbRoute
  | fbCommit
  | fbDevid
  | fbTimeout
  | fbTocnt
  | fbPortctl
  | fbPortstat
  | fbPorterr
  | mgTime
  | mgTsync
  | pwPkgcap
  | pwSplit
  | pwCommit
  | pwPkgstat
  | pwTherm
  | pwDie
  | pwDomctl
  | pwDomstat
  | pwTemp
  | mgSens
  | fqDevhead
  | fqDevtail
  | fqDevovf
  | fqDevfatal
  | mgDumpctl
  | mgDumpcnt
  | mgDumpstat
  | mgBootstat
  | mgMode
  | mgLicence
  | mgParten
  | mgResetctl
  | mgCfg
  | mgFloor
  | mgMbxcfg
  | mgLicfloor
  | mgIoctl
deriving DecidableEq, Repr

/-- Where a register class lies: base, strides with counts (largest first), power domain, and whether a partition reset
(for HI_QCFG: the host interface reset) keeps it. -/
structure RegRow where
  cls : RegClass
  base : Nat
  dims : List (Nat × Nat)
  domain : RegDomain
  kept : Bool
  fields : List FieldSpec
deriving Repr

/-- R133. -/
def PT_COMMIT_RESUME : Fld := ⟨9, 9⟩
/-- R133. -/
def PT_COMMIT_GO : Fld := ⟨8, 8⟩
/-- R133. -/
def PT_COMMIT_SLOT : Fld := ⟨7, 0⟩
/-- R124. -/
def PT_PRED_VALUE : Fld := ⟨63, 0⟩
/-- R124. -/
def PT_PREDOWN_OWN7 : Fld := ⟨63, 56⟩
/-- R124. -/
def PT_PREDOWN_OWN6 : Fld := ⟨55, 48⟩
/-- R124. -/
def PT_PREDOWN_OWN5 : Fld := ⟨47, 40⟩
/-- R124. -/
def PT_PREDOWN_OWN4 : Fld := ⟨39, 32⟩
/-- R124. -/
def PT_PREDOWN_OWN3 : Fld := ⟨31, 24⟩
/-- R124. -/
def PT_PREDOWN_OWN2 : Fld := ⟨23, 16⟩
/-- R124. -/
def PT_PREDOWN_OWN1 : Fld := ⟨15, 8⟩
/-- R124. -/
def PT_PREDOWN_OWN0 : Fld := ⟨7, 0⟩
/-- R133. -/
def PT_CTXCFG_TENANT : Fld := ⟨63, 48⟩
/-- R133. -/
def PT_CTXCFG_ASID : Fld := ⟨47, 36⟩
/-- R133. -/
def PT_CTXCFG_RECOVERY : Fld := ⟨35, 34⟩
/-- R133. -/
def PT_CTXCFG_HOST_OWNED : Fld := ⟨33, 33⟩
/-- R133. -/
def PT_CTXCFG_HALT_ON_ERR : Fld := ⟨32, 32⟩
/-- R133. -/
def PT_CTXCFG_IRQ_VEC : Fld := ⟨31, 22⟩
/-- R133. -/
def PT_CTXCFG_ENABLE : Fld := ⟨21, 21⟩
/-- R133. -/
def PT_CTXCFG_WAIT_TO : Fld := ⟨15, 0⟩
/-- R133. -/
def PT_CTXQUOTA_T2_Q : Fld := ⟨63, 48⟩
/-- R133. -/
def PT_CTXQUOTA_T1_Q : Fld := ⟨47, 32⟩
/-- R133. -/
def PT_CTXQUOTA_T0_Q : Fld := ⟨10, 0⟩
/-- R133. -/
def PT_CTXSEED_SEED : Fld := ⟨63, 0⟩
/-- R133. -/
def PT_CTXSTAT_LAST_MARK : Fld := ⟨63, 32⟩
/-- R133. -/
def PT_CTXSTAT_T0_USED : Fld := ⟨20, 10⟩
/-- R133. -/
def PT_CTXSTAT_KEY_VALID : Fld := ⟨9, 9⟩
/-- R133. -/
def PT_CTXSTAT_STATE : Fld := ⟨3, 0⟩
/-- R175. -/
def PT_CTXUSE_T2_USED : Fld := ⟨63, 32⟩
/-- R175. -/
def PT_CTXUSE_T1_USED : Fld := ⟨31, 0⟩
/-- R68. -/
def ME_MAP_SPARE_USED : Fld := ⟨8, 8⟩
/-- R68. -/
def ME_MAP_SPARE_POS : Fld := ⟨4, 0⟩
/-- R68. -/
def ME_BUSY_COLD : Fld := ⟨51, 32⟩
/-- R68. -/
def ME_BUSY_BUSY : Fld := ⟨19, 0⟩
/-- R71. -/
def ME_RAMP_IDLE : Fld := ⟨31, 16⟩
/-- R71. -/
def ME_RAMP_INTERVAL : Fld := ⟨13, 0⟩
/-- R71. -/
def ME_COMMIT_GO : Fld := ⟨0, 0⟩
/-- R76. -/
def VE_TABVALID_VALID : Fld := ⟨31, 0⟩
/-- R62. -/
def TS_ERRCNT_UNCORR : Fld := ⟨47, 32⟩
/-- R62. -/
def TS_ERRCNT_CORRECTED : Fld := ⟨31, 0⟩
/-- R182. -/
def PT_STKERR_UNCORR : Fld := ⟨47, 32⟩
/-- R182. -/
def PT_STKERR_CORRECTED : Fld := ⟨31, 0⟩
/-- R126. -/
def SQ_LEN_LEN : Fld := ⟨31, 0⟩
/-- R138. -/
def SQ_RINGBASE_BASE : Fld := ⟨44, 6⟩
/-- R138. -/
def SQ_CPLBASE_BASE : Fld := ⟨44, 4⟩
/-- R138. -/
def SQ_RINGCFG_ENABLE : Fld := ⟨8, 8⟩
/-- R138. -/
def SQ_RINGCFG_LOG2SIZE : Fld := ⟨4, 0⟩
/-- R138. -/
def SQ_DB_TAIL : Fld := ⟨15, 0⟩
/-- R138. -/
def SQ_HEAD_TAIL : Fld := ⟨47, 32⟩
/-- R138. -/
def SQ_HEAD_FETCH : Fld := ⟨31, 16⟩
/-- R138. -/
def SQ_HEAD_HEAD : Fld := ⟨15, 0⟩
/-- R138. -/
def SQ_COMMIT_GO : Fld := ⟨8, 8⟩
/-- R138. -/
def SQ_COMMIT_SLOT : Fld := ⟨7, 0⟩
/-- R167. -/
def BD_SEM_VALUE : Fld := ⟨31, 0⟩
/-- R167. -/
def BD_SEMADD_ADDEND : Fld := ⟨31, 0⟩
/-- R167. -/
def BD_SEMGRP_VALID : Fld := ⟨16, 16⟩
/-- R167. -/
def BD_SEMGRP_TENANT : Fld := ⟨15, 0⟩
/-- R189. -/
def PT_TMCFG_ENABLE : Fld := ⟨63, 63⟩
/-- R189. -/
def PT_TMCFG_HI_PCT : Fld := ⟨62, 56⟩
/-- R189. -/
def PT_TMCFG_LO_PCT : Fld := ⟨55, 49⟩
/-- R189. -/
def PT_TMCFG_AGE_MS : Fld := ⟨43, 32⟩
/-- R189. -/
def PT_TMCFG_HOT_MIN : Fld := ⟨31, 16⟩
/-- R189. -/
def PT_TMCFG_COLD_MAX : Fld := ⟨15, 0⟩
/-- R189. -/
def PT_TMPOOL1_COUNT : Fld := ⟨61, 48⟩
/-- R189. -/
def PT_TMPOOL1_BASE : Fld := ⟨44, 21⟩
/-- R189. -/
def PT_TMTAB_BASE : Fld := ⟨44, 19⟩
/-- R189. -/
def PT_TMCOMMIT_GO : Fld := ⟨0, 0⟩
/-- R189. -/
def PT_TMCTL_HOLD : Fld := ⟨0, 0⟩
/-- R189. -/
def PT_TMSTAT_BUSY : Fld := ⟨63, 63⟩
/-- R189. -/
def PT_TMSTAT_HELD : Fld := ⟨62, 62⟩
/-- R189. -/
def PT_TMSTAT_REGIONS : Fld := ⟨14, 0⟩
/-- R189. -/
def PT_TMCNT_ABANDONED : Fld := ⟨63, 48⟩
/-- R189. -/
def PT_TMCNT_NO_ROOM : Fld := ⟨47, 32⟩
/-- R189. -/
def PT_TMCNT_PROMOTED : Fld := ⟨31, 16⟩
/-- R189. -/
def PT_TMCNT_DEMOTED : Fld := ⟨15, 0⟩
/-- R268. -/
def HO_DIRSTAT_IMPRECISE : Fld := ⟨48, 32⟩
/-- R268. -/
def HO_DIRSTAT_ENTRIES : Fld := ⟨19, 0⟩
/-- R268. -/
def HO_NAKCNT_NAKS : Fld := ⟨63, 32⟩
/-- R268. -/
def HO_NAKCNT_URGENT : Fld := ⟨31, 16⟩
/-- R268. -/
def HO_NAKCNT_BROADCASTS : Fld := ⟨15, 0⟩
/-- R328. -/
def PW_PHASECFG_AUTO : Fld := ⟨63, 63⟩
/-- R328. -/
def PW_PHASECFG_HEAVY_MV : Fld := ⟨39, 30⟩
/-- R328. -/
def PW_PHASECFG_MEM_MV : Fld := ⟨29, 20⟩
/-- R328. -/
def PW_PHASECFG_LIGHT_MV : Fld := ⟨19, 10⟩
/-- R328. -/
def PW_PHASECFG_IDLE_MV : Fld := ⟨9, 0⟩
/-- R328. -/
def PW_PHCOMMIT_CLEAR : Fld := ⟨1, 1⟩
/-- R328. -/
def PW_PHCOMMIT_GO : Fld := ⟨0, 0⟩
/-- R328. -/
def PW_PHTAG_POWER : Fld := ⟨63, 52⟩
/-- R328. -/
def PW_PHTAG_BUSY : Fld := ⟨51, 44⟩
/-- R328. -/
def PW_PHTAG_DUR_US : Fld := ⟨43, 20⟩
/-- R328. -/
def PW_PHTAG_NEXT_TAG : Fld := ⟨19, 14⟩
/-- R328. -/
def PW_PHTAG_NEXT_VALID : Fld := ⟨13, 13⟩
/-- R328. -/
def PW_PHTAG_CLASS : Fld := ⟨12, 11⟩
/-- R328. -/
def PW_PHTAG_SET_MV : Fld := ⟨9, 0⟩
/-- R353. -/
def FQ_CFG_ENABLE : Fld := ⟨63, 63⟩
/-- R353. -/
def FQ_CFG_BASE : Fld := ⟨44, 16⟩
/-- R353. -/
def FQ_COMMIT_GO : Fld := ⟨0, 0⟩
/-- R353. -/
def FQ_HEAD_HEAD : Fld := ⟨15, 0⟩
/-- R353. -/
def FQ_TAIL_TAIL : Fld := ⟨15, 0⟩
/-- R353. -/
def FQ_OVF_SUMMARY : Fld := ⟨47, 32⟩
/-- R353. -/
def FQ_OVF_COUNT : Fld := ⟨31, 0⟩
/-- R353. -/
def FQ_FATAL_REPLACED : Fld := ⟨63, 48⟩
/-- R353. -/
def FQ_FATAL_VALID : Fld := ⟨15, 0⟩
/-- R353. -/
def PT_WATCHDOG_WD_ENGINE : Fld := ⟨13, 0⟩
/-- R353. -/
def PT_RECCTL_RELEASE : Fld := ⟨1, 1⟩
/-- R353. -/
def PT_RECCTL_RESET : Fld := ⟨0, 0⟩
/-- R353. -/
def PT_RECSTAT_STATE : Fld := ⟨63, 61⟩
/-- R353. -/
def PT_RECSTAT_STEP : Fld := ⟨59, 56⟩
/-- R353. -/
def PT_RECSTAT_FAULTS : Fld := ⟨55, 54⟩
/-- R353. -/
def PT_RECSTAT_EPISODES : Fld := ⟨47, 32⟩
/-- R353. -/
def PT_RECSTAT_REPLAY_CTX : Fld := ⟨28, 16⟩
/-- R353. -/
def PT_RECSTAT_SUSPECTS : Fld := ⟨15, 8⟩
/-- R353. -/
def PT_RELOAD_COUNT : Fld := ⟨63, 52⟩
/-- R353. -/
def PT_RELOAD_BASE : Fld := ⟨44, 5⟩
/-- R224. -/
def HS_CORE_CEIL_PHYS : Fld := ⟨39, 32⟩
/-- R224. -/
def HS_CORE_CEIL_CEIL_MV : Fld := ⟨9, 0⟩
/-- R395. -/
def HS_COREKEY_CELL_TENANT : Fld := ⟨63, 48⟩
/-- R395. -/
def HS_COREKEY_CELL : Fld := ⟨47, 47⟩
/-- R395. -/
def HS_COREKEY_KEYIDX : Fld := ⟨12, 0⟩
/-- R234. -/
def SC_WAYMASK_MASK : Fld := ⟨15, 0⟩
/-- R234. -/
def SC_COMMIT_GO : Fld := ⟨0, 0⟩
/-- R241. -/
def HS_IRQROUTE_ENABLE : Fld := ⟨15, 15⟩
/-- R241. -/
def HS_IRQROUTE_CORE : Fld := ⟨7, 0⟩
/-- R241. -/
def HS_IRQPEND_PEND : Fld := ⟨63, 0⟩
/-- R182. -/
def DD_TIER_ACTIVE : Fld := ⟨63, 63⟩
/-- R182. -/
def DD_TIER_POP : Fld := ⟨55, 44⟩
/-- R182. -/
def DD_TIER_DIMM_GIB : Fld := ⟨40, 32⟩
/-- R182. -/
def DD_TIER_SPEED : Fld := ⟨15, 0⟩
/-- R182. -/
def DD_ERRCNT_UNCORR : Fld := ⟨47, 32⟩
/-- R182. -/
def DD_ERRCNT_CORRECTED : Fld := ⟨31, 0⟩
/-- R269. -/
def HO_DEAD0_DEAD : Fld := ⟨63, 0⟩
/-- R269. -/
def HO_DEAD1_DEAD : Fld := ⟨63, 0⟩
/-- R27. -/
def LK_ROLE_CTRL_N : Fld := ⟨18, 16⟩
/-- R27. -/
def LK_ROLE_TILE_N : Fld := ⟨13, 8⟩
/-- R27. -/
def LK_ROLE_COH_N : Fld := ⟨5, 0⟩
/-- R27. -/
def LK_COMMIT_GO : Fld := ⟨0, 0⟩
/-- R27. -/
def LK_STATUS_COH_USE : Fld := ⟨53, 48⟩
/-- R27. -/
def LK_STATUS_TILE_USE : Fld := ⟨45, 40⟩
/-- R27. -/
def LK_STATUS_CTRL_USE : Fld := ⟨34, 32⟩
/-- R27. -/
def LK_STATUS_BUNDLES_OK : Fld := ⟨29, 24⟩
/-- R27. -/
def LK_STATUS_COMMIT_RESULT : Fld := ⟨17, 16⟩
/-- R27. -/
def LK_STATUS_STATE : Fld := ⟨3, 0⟩
/-- R27. -/
def LK_REPAIR_FIELD : Fld := ⟨48, 48⟩
/-- R27. -/
def LK_REPAIR_SPARE_USED : Fld := ⟨41, 40⟩
/-- R27. -/
def LK_REPAIR_OUT_MAP : Fld := ⟨33, 0⟩
/-- R27. -/
def LK_ERRCNT_RESENDS : Fld := ⟨47, 32⟩
/-- R27. -/
def LK_ERRCNT_CORRECTED : Fld := ⟨31, 0⟩
/-- R167. -/
def BD_BARCFG_TENANT : Fld := ⟨63, 48⟩
/-- R167. -/
def BD_BARCFG_VALID : Fld := ⟨47, 47⟩
/-- R167. -/
def BD_BARCFG_SCOPE : Fld := ⟨46, 45⟩
/-- R167. -/
def BD_BARCFG_HOME : Fld := ⟨44, 40⟩
/-- R167. -/
def BD_BARCFG_COUNT : Fld := ⟨12, 0⟩
/-- R167. -/
def BD_BARGEN_ARRIVE : Fld := ⟨63, 63⟩
/-- R167. -/
def BD_BARGEN_ARRIVED : Fld := ⟨44, 32⟩
/-- R167. -/
def BD_BARGEN_GEN : Fld := ⟨31, 0⟩
/-- R203. -/
def XL_ASCFG_VALID : Fld := ⟨63, 63⟩
/-- R203. -/
def XL_ASCFG_RMODE : Fld := ⟨62, 61⟩
/-- R203. -/
def XL_ASCFG_TBASE : Fld := ⟨44, 12⟩
/-- R203. -/
def XL_ASSTAT_DONE_EPOCH : Fld := ⟨31, 16⟩
/-- R203. -/
def XL_ASSTAT_EPOCH : Fld := ⟨15, 0⟩
/-- R203. -/
def XL_FENCE_GO : Fld := ⟨0, 0⟩
/-- R418. -/
def XL_ASCOUNT_COUNT : Fld := ⟨14, 0⟩
/-- R203. -/
def XL_COMMIT_GO : Fld := ⟨12, 12⟩
/-- R203. -/
def XL_COMMIT_ASID : Fld := ⟨11, 0⟩
/-- R203. -/
def XL_WINBASE_BASE : Fld := ⟨44, 16⟩
/-- R203. -/
def XL_WINCFG_VALID : Fld := ⟨63, 63⟩
/-- R203. -/
def XL_WINCFG_WRITE : Fld := ⟨62, 62⟩
/-- R203. -/
def XL_WINCFG_READ : Fld := ⟨61, 61⟩
/-- R203. -/
def XL_WINCFG_CTXID : Fld := ⟨60, 48⟩
/-- R203. -/
def XL_WINCFG_LENGTH : Fld := ⟨21, 0⟩
/-- R203. -/
def XL_WINSTAT_INFLIGHT : Fld := ⟨31, 0⟩
/-- R203. -/
def XL_WINCOMMIT_GO : Fld := ⟨8, 8⟩
/-- R203. -/
def XL_WINCOMMIT_WIN : Fld := ⟨7, 0⟩
/-- R203. -/
def XL_RXCFG_DIRECT_EN : Fld := ⟨0, 0⟩
/-- R284. -/
def HI_QCFG_ENABLE : Fld := ⟨63, 63⟩
/-- R284. -/
def HI_QCFG_FUNC : Fld := ⟨62, 56⟩
/-- R284. -/
def HI_QCFG_LOG2DATA : Fld := ⟨55, 51⟩
/-- R284. -/
def HI_QCFG_LOG2EGR : Fld := ⟨50, 46⟩
/-- R284. -/
def HI_QCFG_STALL_VEC : Fld := ⟨45, 36⟩
/-- R284. -/
def HI_QCFG_CTXID : Fld := ⟨28, 16⟩
/-- R284. -/
def HI_QDATA_BASE : Fld := ⟨44, 16⟩
/-- R284. -/
def HI_QEGR_BASE : Fld := ⟨44, 16⟩
/-- R284. -/
def HI_QDB_BYTES : Fld := ⟨63, 16⟩
/-- R284. -/
def HI_QDB_TAIL : Fld := ⟨15, 0⟩
/-- R284. -/
def HI_QSTAT_STALLED : Fld := ⟨63, 63⟩
/-- R284. -/
def HI_QSTAT_DETACHED : Fld := ⟨62, 62⟩
/-- R284. -/
def HI_QSTAT_HELD : Fld := ⟨61, 61⟩
/-- R284. -/
def HI_QSTAT_RING_HEAD : Fld := ⟨47, 32⟩
/-- R284. -/
def HI_QSTAT_RING_TAIL : Fld := ⟨31, 16⟩
/-- R284. -/
def HI_QSTAT_DROPPED : Fld := ⟨15, 0⟩
/-- R284. -/
def HI_QACC_ACCEPTED : Fld := ⟨47, 0⟩
/-- R284. -/
def HI_QEGPROD_PROD : Fld := ⟨47, 0⟩
/-- R284. -/
def HI_QEGCONS_CONS : Fld := ⟨47, 0⟩
/-- R285. -/
def HI_QCOMMIT_RESUME : Fld := ⟨9, 9⟩
/-- R285. -/
def HI_QCOMMIT_GO : Fld := ⟨8, 8⟩
/-- R285. -/
def HI_QCOMMIT_Q : Fld := ⟨7, 0⟩
/-- R285. -/
def HI_LINK_IDE_REQUIRED : Fld := ⟨63, 63⟩
/-- R285. -/
def HI_LINK_IDE_ACTIVE : Fld := ⟨62, 62⟩
/-- R285. -/
def HI_LINK_GEN : Fld := ⟨23, 20⟩
/-- R285. -/
def HI_LINK_WIDTH : Fld := ⟨19, 16⟩
/-- R285. -/
def HI_LINK_LOSSES : Fld := ⟨15, 0⟩
/-- R303. -/
def FB_ROUTE_NPORTS : Fld := ⟨19, 16⟩
/-- R303. -/
def FB_ROUTE_PORT3 : Fld := ⟨15, 12⟩
/-- R303. -/
def FB_ROUTE_PORT2 : Fld := ⟨11, 8⟩
/-- R303. -/
def FB_ROUTE_PORT1 : Fld := ⟨7, 4⟩
/-- R303. -/
def FB_ROUTE_PORT0 : Fld := ⟨3, 0⟩
/-- R303. -/
def FB_COMMIT_GO : Fld := ⟨0, 0⟩
/-- R303. -/
def FB_DEVID_DEV : Fld := ⟨11, 0⟩
/-- R304. -/
def FB_TIMEOUT_TIMEOUT_US : Fld := ⟨16, 0⟩
/-- R304. -/
def FB_TOCNT_EXPIRED : Fld := ⟨31, 0⟩
/-- R304. -/
def FB_PORTCTL_RETRAIN : Fld := ⟨1, 1⟩
/-- R304. -/
def FB_PORTCTL_ENABLE : Fld := ⟨0, 0⟩
/-- R304. -/
def FB_PORTSTAT_PEER_SW : Fld := ⟨63, 63⟩
/-- R304. -/
def FB_PORTSTAT_PEER_DEV : Fld := ⟨59, 48⟩
/-- R304. -/
def FB_PORTSTAT_LANES_OK : Fld := ⟨35, 32⟩
/-- R304. -/
def FB_PORTSTAT_STATE : Fld := ⟨3, 0⟩
/-- R304. -/
def FB_PORTERR_RETRAINS : Fld := ⟨63, 48⟩
/-- R304. -/
def FB_PORTERR_AUTH_FAIL : Fld := ⟨47, 32⟩
/-- R304. -/
def FB_PORTERR_REPLAYS : Fld := ⟨31, 0⟩
/-- R47. -/
def MG_TIME_NOW : Fld := ⟨63, 0⟩
/-- R47. -/
def MG_TSYNC_REF_LOST : Fld := ⟨63, 63⟩
/-- R47. -/
def MG_TSYNC_REF_HOLDOVER : Fld := ⟨62, 62⟩
/-- R47. -/
def MG_TSYNC_MAX_OFFSET : Fld := ⟨47, 32⟩
/-- R47. -/
def MG_TSYNC_SYNC_OK : Fld := ⟨8, 0⟩
/-- R328. -/
def PW_PKGCAP_LIQUID : Fld := ⟨63, 63⟩
/-- R328. -/
def PW_PKGCAP_CAP_W : Fld := ⟨11, 0⟩
/-- R328. -/
def PW_SPLIT_HS_W : Fld := ⟨40, 32⟩
/-- R328. -/
def PW_SPLIT_TAIL_W : Fld := ⟨30, 24⟩
/-- R328. -/
def PW_SPLIT_STACK_W : Fld := ⟨21, 16⟩
/-- R328. -/
def PW_SPLIT_LEAK_W : Fld := ⟨6, 0⟩
/-- R328. -/
def PW_COMMIT_GO : Fld := ⟨0, 0⟩
/-- R328. -/
def PW_PKGSTAT_POWER : Fld := ⟨63, 48⟩
/-- R328. -/
def PW_PKGSTAT_THROTTLING : Fld := ⟨31, 31⟩
/-- R328. -/
def PW_PKGSTAT_LIMITED : Fld := ⟨30, 30⟩
/-- R328. -/
def PW_PKGSTAT_EPISODES : Fld := ⟨15, 0⟩
/-- R328. -/
def PW_THERM_HOT_SENSOR : Fld := ⟨24, 16⟩
/-- R328. -/
def PW_THERM_HOTTEST : Fld := ⟨15, 8⟩
/-- R328. -/
def PW_THERM_THROTTLE_C : Fld := ⟨7, 0⟩
/-- R328. -/
def PW_DIE_GRANT : Fld := ⟨63, 48⟩
/-- R328. -/
def PW_DIE_USED : Fld := ⟨47, 32⟩
/-- R328. -/
def PW_DIE_PACE_MIN : Fld := ⟨24, 16⟩
/-- R328. -/
def PW_DIE_MISSED : Fld := ⟨15, 8⟩
/-- R328. -/
def PW_DIE_TMAX : Fld := ⟨7, 0⟩
/-- R328. -/
def PW_DOMCTL_ON : Fld := ⟨31, 31⟩
/-- R328. -/
def PW_DOMCTL_SET_MV : Fld := ⟨9, 0⟩
/-- R328. -/
def PW_DOMSTAT_FREEZES : Fld := ⟨63, 48⟩
/-- R328. -/
def PW_DOMSTAT_CHATTER : Fld := ⟨47, 32⟩
/-- R328. -/
def PW_DOMSTAT_ON : Fld := ⟨31, 31⟩
/-- R328. -/
def PW_DOMSTAT_BUSY : Fld := ⟨30, 30⟩
/-- R328. -/
def PW_DOMSTAT_REFUSED : Fld := ⟨29, 29⟩
/-- R328. -/
def PW_DOMSTAT_DAMPED : Fld := ⟨28, 28⟩
/-- R328. -/
def PW_DOMSTAT_LIVE_MV : Fld := ⟨9, 0⟩
/-- R328. -/
def PW_TEMP_TEMP : Fld := ⟨15, 0⟩
/-- R375. -/
def MG_SENS_VALID : Fld := ⟨63, 63⟩
/-- R375. -/
def MG_SENS_VALUE : Fld := ⟨15, 0⟩
/-- R353. -/
def FQ_DEVHEAD_HEAD : Fld := ⟨15, 0⟩
/-- R353. -/
def FQ_DEVTAIL_TAIL : Fld := ⟨15, 0⟩
/-- R353. -/
def FQ_DEVOVF_SUMMARY : Fld := ⟨47, 32⟩
/-- R353. -/
def FQ_DEVOVF_COUNT : Fld := ⟨31, 0⟩
/-- R353. -/
def FQ_DEVFATAL_REPLACED : Fld := ⟨63, 48⟩
/-- R353. -/
def FQ_DEVFATAL_VALID : Fld := ⟨15, 0⟩
/-- R353. -/
def MG_DUMPCTL_TRIGGER : Fld := ⟨63, 63⟩
/-- R353. -/
def MG_DUMPCTL_RELEASE : Fld := ⟨3, 0⟩
/-- R353. -/
def MG_DUMPCNT_OVERWRITTEN : Fld := ⟨15, 0⟩
/-- R353. -/
def MG_DUMPSTAT_VALID : Fld := ⟨63, 63⟩
/-- R353. -/
def MG_DUMPSTAT_TRUNCATED : Fld := ⟨62, 62⟩
/-- R353. -/
def MG_DUMPSTAT_LEVEL : Fld := ⟨61, 61⟩
/-- R353. -/
def MG_DUMPSTAT_LENGTH_KIB : Fld := ⟨51, 32⟩
/-- R353. -/
def MG_DUMPSTAT_DUMP_ID : Fld := ⟨31, 0⟩
/-- R373. -/
def MG_BOOTSTAT_LEVEL : Fld := ⟨63, 62⟩
/-- R373. -/
def MG_BOOTSTAT_SLOT : Fld := ⟨61, 61⟩
/-- R373. -/
def MG_BOOTSTAT_FALLBACK : Fld := ⟨60, 60⟩
/-- R373. -/
def MG_BOOTSTAT_MODE : Fld := ⟨59, 56⟩
/-- R373. -/
def MG_BOOTSTAT_OVERLAY_USED : Fld := ⟨55, 55⟩
/-- R373. -/
def MG_BOOTSTAT_WARM : Fld := ⟨54, 54⟩
/-- R373. -/
def MG_BOOTSTAT_SCRUBBED : Fld := ⟨53, 53⟩
/-- R373. -/
def MG_BOOTSTAT_CFG_REFUSED : Fld := ⟨47, 40⟩
/-- R373. -/
def MG_BOOTSTAT_HALT : Fld := ⟨39, 32⟩
/-- R373. -/
def MG_BOOTSTAT_JOINED : Fld := ⟨23, 0⟩
/-- R373. -/
def MG_MODE_OVR_VALID : Fld := ⟨63, 63⟩
/-- R373. -/
def MG_MODE_OVR_MODE : Fld := ⟨3, 0⟩
/-- R373. -/
def MG_LICENCE_SEQ : Fld := ⟨63, 32⟩
/-- R373. -/
def MG_LICENCE_VALID : Fld := ⟨31, 31⟩
/-- R373. -/
def MG_LICENCE_FP46 : Fld := ⟨30, 30⟩
/-- R373. -/
def MG_LICENCE_DUMP : Fld := ⟨29, 29⟩
/-- R373. -/
def MG_LICENCE_PARTS : Fld := ⟨28, 24⟩
/-- R373. -/
def MG_LICENCE_PORTS : Fld := ⟨23, 19⟩
/-- R373. -/
def MG_LICENCE_VFS : Fld := ⟨18, 12⟩
/-- R373. -/
def MG_LICENCE_CTX : Fld := ⟨11, 4⟩
/-- R373. -/
def MG_PARTEN_ENABLED : Fld := ⟨23, 0⟩
/-- R373. -/
def MG_RESETCTL_WARM : Fld := ⟨0, 0⟩
/-- R395. -/
def MG_CFG_LOCKSTEP : Fld := ⟨63, 63⟩
/-- R395. -/
def MG_CFG_PROD_LOCKED : Fld := ⟨62, 62⟩
/-- R395. -/
def MG_CFG_DEBUG_OPEN : Fld := ⟨61, 61⟩
/-- R395. -/
def MG_CFG_BOARD_TEST : Fld := ⟨60, 60⟩
/-- R395. -/
def MG_CFG_OWNER_KEY : Fld := ⟨59, 59⟩
/-- R395. -/
def MG_FLOOR_LIC_RAISES : Fld := ⟨47, 43⟩
/-- R395. -/
def MG_FLOOR_FW_RAISES : Fld := ⟨42, 38⟩
/-- R395. -/
def MG_FLOOR_FW_FLOOR : Fld := ⟨31, 0⟩
/-- R395. -/
def MG_MBXCFG_CH3_MSIX : Fld := ⟨63, 54⟩
/-- R395. -/
def MG_MBXCFG_CH3_IRQ : Fld := ⟨53, 44⟩
/-- R395. -/
def MG_MBXCFG_CH2_IRQ : Fld := ⟨43, 34⟩
/-- R395. -/
def MG_MBXCFG_CH1_IRQ : Fld := ⟨33, 24⟩
/-- R395. -/
def MG_MBXCFG_CH0_MSIX : Fld := ⟨23, 14⟩
/-- R395. -/
def MG_LICFLOOR_LIC_FLOOR : Fld := ⟨31, 0⟩
/-- R411. -/
def MG_IOCTL_JTAG_DRV : Fld := ⟨23, 22⟩
/-- R411. -/
def MG_IOCTL_JTAG_SLEW : Fld := ⟨21, 20⟩
/-- R411. -/
def MG_IOCTL_UART_DRV : Fld := ⟨19, 18⟩
/-- R411. -/
def MG_IOCTL_UART_SLEW : Fld := ⟨17, 16⟩
/-- R411. -/
def MG_IOCTL_I3C_DRV : Fld := ⟨15, 14⟩
/-- R411. -/
def MG_IOCTL_I3C_SLEW : Fld := ⟨13, 12⟩
/-- R411. -/
def MG_IOCTL_RGMII_DRV : Fld := ⟨11, 10⟩
/-- R411. -/
def MG_IOCTL_RGMII_SLEW : Fld := ⟨9, 8⟩
/-- R411. -/
def MG_IOCTL_XSPI_DRV : Fld := ⟨7, 6⟩
/-- R411. -/
def MG_IOCTL_XSPI_SLEW : Fld := ⟨5, 4⟩
/-- R411. -/
def MG_IOCTL_OD_SLEW : Fld := ⟨1, 0⟩

/-- Rows of R418, part 1. -/
def regRows1 : List RegRow := [
  ⟨.ptCommit, 0x1F0000000100, [(0x1000000, 24)], .partCtl, false,
    [⟨⟨9, 9⟩, .wo, 0x0, false⟩, ⟨⟨8, 8⟩, .wo, 0x0, false⟩, ⟨⟨7, 0⟩, .wo, 0x0, false⟩]⟩,
  ⟨.ptPred, 0x1F0000002000, [(0x1000000, 24), (0x8, 4)], .partCtl, false,
    [⟨⟨63, 0⟩, .rw, 0x0, false⟩]⟩,
  ⟨.ptPredown, 0x1F0000002100, [(0x1000000, 24), (0x8, 32)], .partCtl, true,
    [⟨⟨63, 56⟩, .rw, 0xFF, false⟩, ⟨⟨55, 48⟩, .rw, 0xFF, false⟩, ⟨⟨47, 40⟩, .rw, 0xFF, false⟩, ⟨⟨39, 32⟩, .rw, 0xFF, false⟩, ⟨⟨31, 24⟩, .rw, 0xFF, false⟩, ⟨⟨23, 16⟩, .rw, 0xFF, false⟩, ⟨⟨15, 8⟩, .rw, 0xFF, false⟩, ⟨⟨7, 0⟩, .rw, 0xFF, false⟩]⟩,
  ⟨.ptCtxcfg, 0x1F0000010000, [(0x1000000, 24), (0x40, 192)], .partCtl, true,
    [⟨⟨63, 48⟩, .st, 0x0, false⟩, ⟨⟨47, 36⟩, .st, 0x0, false⟩, ⟨⟨35, 34⟩, .st, 0x0, false⟩, ⟨⟨33, 33⟩, .st, 0x0, false⟩, ⟨⟨32, 32⟩, .st, 0x0, false⟩, ⟨⟨31, 22⟩, .st, 0x0, false⟩, ⟨⟨21, 21⟩, .st, 0x0, false⟩, ⟨⟨15, 0⟩, .st, 0x3E8, false⟩]⟩,
  ⟨.ptCtxquota, 0x1F0000010008, [(0x1000000, 24), (0x40, 192)], .partCtl, true,
    [⟨⟨63, 48⟩, .st, 0x0, false⟩, ⟨⟨47, 32⟩, .st, 0x0, false⟩, ⟨⟨10, 0⟩, .st, 0x0, false⟩]⟩,
  ⟨.ptCtxseed, 0x1F0000010010, [(0x1000000, 24), (0x40, 192)], .partCtl, true,
    [⟨⟨63, 0⟩, .st, 0x0, false⟩]⟩,
  ⟨.ptCtxstat, 0x1F0000010018, [(0x1000000, 24), (0x40, 192)], .partCtl, true,
    [⟨⟨63, 32⟩, .ro, 0x0, false⟩, ⟨⟨20, 10⟩, .ro, 0x0, false⟩, ⟨⟨9, 9⟩, .ro, 0x0, false⟩, ⟨⟨3, 0⟩, .ro, 0x0, false⟩]⟩,
  ⟨.ptCtxuse, 0x1F0000010020, [(0x1000000, 24), (0x40, 192)], .partCtl, true,
    [⟨⟨63, 32⟩, .ro, 0x0, false⟩, ⟨⟨31, 0⟩, .ro, 0x0, false⟩]⟩,
  ⟨.meMap, 0x1F0000100000, [(0x1000000, 24)], .partCtl, false,
    [⟨⟨8, 8⟩, .ro, 0, true⟩, ⟨⟨4, 0⟩, .ro, 0, true⟩]⟩,
  ⟨.meBusy, 0x1F0000100008, [(0x1000000, 24)], .partCtl, false,
    [⟨⟨51, 32⟩, .ro, 0xFFFFF, false⟩, ⟨⟨19, 0⟩, .ro, 0x0, false⟩]⟩,
  ⟨.meRamp, 0x1F0000100010, [(0x1000000, 24)], .partCtl, false,
    [⟨⟨31, 16⟩, .st, 0x3E8, false⟩, ⟨⟨13, 0⟩, .st, 0xA0, false⟩]⟩,
  ⟨.meCommit, 0x1F0000100018, [(0x1000000, 24)], .partCtl, false,
    [⟨⟨0, 0⟩, .wo, 0x0, false⟩]⟩]

/-- Rows of R418, part 2. -/
def regRows2 : List RegRow := [
  ⟨.veTabvalid, 0x1F0000140000, [(0x1000000, 24)], .partCtl, false,
    [⟨⟨31, 0⟩, .ro, 0x0, false⟩]⟩,
  ⟨.tsErrcnt, 0x1F0000180000, [(0x1000000, 24)], .partCtl, false,
    [⟨⟨47, 32⟩, .rc, 0x0, false⟩, ⟨⟨31, 0⟩, .rc, 0x0, false⟩]⟩,
  ⟨.ptStkerr, 0x1F0000180100, [(0x1000000, 24)], .partCtl, false,
    [⟨⟨47, 32⟩, .rc, 0x0, false⟩, ⟨⟨31, 0⟩, .rc, 0x0, false⟩]⟩,
  ⟨.sqLen, 0x1F0000200000, [(0x1000000, 24), (0x200, 192), (0x8, 64)], .partCtl, false,
    [⟨⟨31, 0⟩, .rw, 0x0, false⟩]⟩,
  ⟨.sqRingbase, 0x1F0000300000, [(0x1000000, 24), (0x40, 192)], .partCtl, true,
    [⟨⟨44, 6⟩, .st, 0x0, false⟩]⟩,
  ⟨.sqCplbase, 0x1F0000300008, [(0x1000000, 24), (0x40, 192)], .partCtl, true,
    [⟨⟨44, 4⟩, .st, 0x0, false⟩]⟩,
  ⟨.sqRingcfg, 0x1F0000300010, [(0x1000000, 24), (0x40, 192)], .partCtl, true,
    [⟨⟨8, 8⟩, .st, 0x0, false⟩, ⟨⟨4, 0⟩, .st, 0x6, false⟩]⟩,
  ⟨.sqDb, 0x1F0000300018, [(0x1000000, 24), (0x40, 192)], .partCtl, true,
    [⟨⟨15, 0⟩, .wo, 0x0, false⟩]⟩,
  ⟨.sqHead, 0x1F0000300020, [(0x1000000, 24), (0x40, 192)], .partCtl, true,
    [⟨⟨47, 32⟩, .ro, 0x0, false⟩, ⟨⟨31, 16⟩, .ro, 0x0, false⟩, ⟨⟨15, 0⟩, .ro, 0x0, false⟩]⟩,
  ⟨.sqCommit, 0x1F0000308000, [(0x1000000, 24)], .partCtl, false,
    [⟨⟨8, 8⟩, .wo, 0x0, false⟩, ⟨⟨7, 0⟩, .wo, 0x0, false⟩]⟩,
  ⟨.bdSem, 0x1F0000400000, [(0x1000000, 24), (0x8, 4096)], .partCtl, false,
    [⟨⟨31, 0⟩, .rw, 0x0, false⟩]⟩,
  ⟨.bdSemadd, 0x1F0000408000, [(0x1000000, 24), (0x8, 4096)], .partCtl, false,
    [⟨⟨31, 0⟩, .wo, 0x0, false⟩]⟩]

/-- Rows of R418, part 3. -/
def regRows3 : List RegRow := [
  ⟨.bdSemgrp, 0x1F0000410000, [(0x1000000, 24), (0x8, 64)], .partCtl, false,
    [⟨⟨16, 16⟩, .rw, 0x0, false⟩, ⟨⟨15, 0⟩, .rw, 0x0, false⟩]⟩,
  ⟨.ptTmcfg, 0x1F0000500000, [(0x1000000, 24)], .partCtl, false,
    [⟨⟨63, 63⟩, .st, 0x0, false⟩, ⟨⟨62, 56⟩, .st, 0x5A, false⟩, ⟨⟨55, 49⟩, .st, 0x4B, false⟩, ⟨⟨43, 32⟩, .st, 0x64, false⟩, ⟨⟨31, 16⟩, .st, 0x40, false⟩, ⟨⟨15, 0⟩, .st, 0x4, false⟩]⟩,
  ⟨.ptTmpool1, 0x1F0000500008, [(0x1000000, 24)], .partCtl, false,
    [⟨⟨61, 48⟩, .st, 0x0, false⟩, ⟨⟨44, 21⟩, .st, 0x0, false⟩]⟩,
  ⟨.ptTmpool2, 0x1F0000500010, [(0x1000000, 24)], .partCtl, false,
    [⟨⟨61, 48⟩, .st, 0x0, false⟩, ⟨⟨44, 21⟩, .st, 0x0, false⟩]⟩,
  ⟨.ptTmtab, 0x1F0000500018, [(0x1000000, 24)], .partCtl, false,
    [⟨⟨44, 19⟩, .st, 0x0, false⟩]⟩,
  ⟨.ptTmcommit, 0x1F0000500020, [(0x1000000, 24)], .partCtl, false,
    [⟨⟨0, 0⟩, .wo, 0x0, false⟩]⟩,
  ⟨.ptTmctl, 0x1F0000500028, [(0x1000000, 24)], .partCtl, false,
    [⟨⟨0, 0⟩, .rw, 0x0, false⟩]⟩,
  ⟨.ptTmstat, 0x1F0000500030, [(0x1000000, 24)], .partCtl, false,
    [⟨⟨63, 63⟩, .ro, 0x0, false⟩, ⟨⟨62, 62⟩, .ro, 0x0, false⟩, ⟨⟨14, 0⟩, .ro, 0x0, false⟩]⟩,
  ⟨.ptTmcnt, 0x1F0000500038, [(0x1000000, 24)], .partCtl, false,
    [⟨⟨63, 48⟩, .rc, 0x0, false⟩, ⟨⟨47, 32⟩, .rc, 0x0, false⟩, ⟨⟨31, 16⟩, .rc, 0x0, false⟩, ⟨⟨15, 0⟩, .rc, 0x0, false⟩]⟩,
  ⟨.hoDirstat, 0x1F0000600000, [(0x1000000, 24)], .partCtl, false,
    [⟨⟨48, 32⟩, .ro, 0x0, false⟩, ⟨⟨19, 0⟩, .ro, 0x0, false⟩]⟩,
  ⟨.hoNakcnt, 0x1F0000600008, [(0x1000000, 24)], .partCtl, false,
    [⟨⟨63, 32⟩, .rc, 0x0, false⟩, ⟨⟨31, 16⟩, .rc, 0x0, false⟩, ⟨⟨15, 0⟩, .rc, 0x0, false⟩]⟩,
  ⟨.pwPhasecfg, 0x1F0000700000, [(0x1000000, 24)], .partCtl, true,
    [⟨⟨63, 63⟩, .st, 0x1, false⟩, ⟨⟨39, 30⟩, .st, 0x2EE, false⟩, ⟨⟨29, 20⟩, .st, 0x28A, false⟩, ⟨⟨19, 10⟩, .st, 0x28A, false⟩, ⟨⟨9, 0⟩, .st, 0x258, false⟩]⟩]

/-- Rows of R418, part 4. -/
def regRows4 : List RegRow := [
  ⟨.pwPhcommit, 0x1F0000700008, [(0x1000000, 24)], .partCtl, false,
    [⟨⟨1, 1⟩, .wo, 0x0, false⟩, ⟨⟨0, 0⟩, .wo, 0x0, false⟩]⟩,
  ⟨.pwPhtag, 0x1F0000700100, [(0x1000000, 24), (0x8, 64)], .partCtl, false,
    [⟨⟨63, 52⟩, .ro, 0x0, false⟩, ⟨⟨51, 44⟩, .ro, 0x0, false⟩, ⟨⟨43, 20⟩, .ro, 0x0, false⟩, ⟨⟨19, 14⟩, .ro, 0x0, false⟩, ⟨⟨13, 13⟩, .ro, 0x0, false⟩, ⟨⟨12, 11⟩, .ro, 0x0, false⟩, ⟨⟨9, 0⟩, .ro, 0x0, false⟩]⟩,
  ⟨.fqCfg, 0x1F0000800000, [(0x1000000, 24)], .partCtl, true,
    [⟨⟨63, 63⟩, .st, 0x0, false⟩, ⟨⟨44, 16⟩, .st, 0x0, false⟩]⟩,
  ⟨.fqCommit, 0x1F0000800008, [(0x1000000, 24)], .partCtl, true,
    [⟨⟨0, 0⟩, .wo, 0x0, false⟩]⟩,
  ⟨.fqHead, 0x1F0000800010, [(0x1000000, 24)], .partCtl, true,
    [⟨⟨15, 0⟩, .rw, 0x0, false⟩]⟩,
  ⟨.fqTail, 0x1F0000800018, [(0x1000000, 24)], .partCtl, true,
    [⟨⟨15, 0⟩, .ro, 0x0, false⟩]⟩,
  ⟨.fqOvf, 0x1F0000800020, [(0x1000000, 24)], .partCtl, true,
    [⟨⟨47, 32⟩, .ro, 0x0, false⟩, ⟨⟨31, 0⟩, .ro, 0x0, false⟩]⟩,
  ⟨.fqFatal, 0x1F0000800028, [(0x1000000, 24)], .partCtl, true,
    [⟨⟨63, 48⟩, .ro, 0x0, false⟩, ⟨⟨15, 0⟩, .w1c, 0x0, false⟩]⟩,
  ⟨.ptWatchdog, 0x1F0000800040, [(0x1000000, 24)], .partCtl, true,
    [⟨⟨13, 0⟩, .rw, 0x32, false⟩]⟩,
  ⟨.ptRecctl, 0x1F0000800048, [(0x1000000, 24)], .partCtl, false,
    [⟨⟨1, 1⟩, .wo, 0x0, false⟩, ⟨⟨0, 0⟩, .wo, 0x0, false⟩]⟩,
  ⟨.ptRecstat, 0x1F0000800050, [(0x1000000, 24)], .partCtl, true,
    [⟨⟨63, 61⟩, .ro, 0x0, false⟩, ⟨⟨59, 56⟩, .ro, 0x0, false⟩, ⟨⟨55, 54⟩, .ro, 0x0, false⟩, ⟨⟨47, 32⟩, .ro, 0x0, false⟩, ⟨⟨28, 16⟩, .ro, 0x0, false⟩, ⟨⟨15, 8⟩, .ro, 0x0, false⟩]⟩,
  ⟨.ptReload, 0x1F0000801000, [(0x1000000, 24), (0x8, 192)], .partCtl, true,
    [⟨⟨63, 52⟩, .rw, 0x0, false⟩, ⟨⟨44, 5⟩, .rw, 0x0, false⟩]⟩]

/-- Rows of R418, part 5. -/
def regRows5 : List RegRow := [
  ⟨.hsCoreCeil, 0x1F1000100000, [(0x8, 96)], .fixed 110, false,
    [⟨⟨39, 32⟩, .ro, 0, true⟩, ⟨⟨9, 0⟩, .ro, 0, true⟩]⟩,
  ⟨.hsCorekey, 0x1F1000101000, [(0x8, 96)], .fixed 110, false,
    [⟨⟨63, 48⟩, .ro, 0x0, false⟩, ⟨⟨47, 47⟩, .ro, 0x0, false⟩, ⟨⟨12, 0⟩, .rw, 0x1802, false⟩]⟩,
  ⟨.scWaymask, 0x1F1000200000, [(0x8, 32)], .fixed 110, false,
    [⟨⟨15, 0⟩, .st, 0xFFFF, false⟩]⟩,
  ⟨.scCommit, 0x1F1000200100, [], .fixed 110, false,
    [⟨⟨0, 0⟩, .wo, 0x0, false⟩]⟩,
  ⟨.hsIrqroute, 0x1F1000300000, [(0x8, 1024)], .fixed 110, false,
    [⟨⟨15, 15⟩, .rw, 0x0, false⟩, ⟨⟨7, 0⟩, .rw, 0x0, false⟩]⟩,
  ⟨.hsIrqpend, 0x1F1000302000, [(0x8, 16)], .fixed 110, false,
    [⟨⟨63, 0⟩, .w1c, 0x0, false⟩]⟩,
  ⟨.ddTier, 0x1F1000400000, [], .fixed 110, false,
    [⟨⟨63, 63⟩, .ro, 0x0, false⟩, ⟨⟨55, 44⟩, .ro, 0x0, false⟩, ⟨⟨40, 32⟩, .ro, 0x0, false⟩, ⟨⟨15, 0⟩, .ro, 0x0, false⟩]⟩,
  ⟨.ddErrcnt, 0x1F1000400100, [(0x8, 12)], .fixed 110, false,
    [⟨⟨47, 32⟩, .rc, 0x0, false⟩, ⟨⟨31, 0⟩, .rc, 0x0, false⟩]⟩,
  ⟨.hoDirstatDdr, 0x1F1000500000, [(0x100, 12)], .fixed 110, false,
    [⟨⟨48, 32⟩, .ro, 0x0, false⟩, ⟨⟨19, 0⟩, .ro, 0x0, false⟩]⟩,
  ⟨.hoNakcntDdr, 0x1F1000500008, [(0x100, 12)], .fixed 110, false,
    [⟨⟨63, 32⟩, .rc, 0x0, false⟩, ⟨⟨31, 16⟩, .rc, 0x0, false⟩, ⟨⟨15, 0⟩, .rc, 0x0, false⟩]⟩,
  ⟨.hoDead0, 0x1F1000501000, [], .fixed 110, false,
    [⟨⟨63, 0⟩, .ro, 0x0, false⟩]⟩,
  ⟨.hoDead1, 0x1F1000501008, [], .fixed 110, false,
    [⟨⟨63, 0⟩, .ro, 0x0, false⟩]⟩]

/-- Rows of R418, part 6. -/
def regRows6 : List RegRow := [
  ⟨.lkRole, 0x1F1000600000, [(0x1000, 6)], .fixed 110, false,
    [⟨⟨18, 16⟩, .st, 0x2, false⟩, ⟨⟨13, 8⟩, .st, 0x12, false⟩, ⟨⟨5, 0⟩, .st, 0xC, false⟩]⟩,
  ⟨.lkCommit, 0x1F1000600008, [(0x1000, 6)], .fixed 110, false,
    [⟨⟨0, 0⟩, .wo, 0x0, false⟩]⟩,
  ⟨.lkStatus, 0x1F1000600010, [(0x1000, 16)], .fixed 110, false,
    [⟨⟨53, 48⟩, .ro, 0x0, false⟩, ⟨⟨45, 40⟩, .ro, 0x0, false⟩, ⟨⟨34, 32⟩, .ro, 0x0, false⟩, ⟨⟨29, 24⟩, .ro, 0x0, false⟩, ⟨⟨17, 16⟩, .ro, 0x0, false⟩, ⟨⟨3, 0⟩, .ro, 0x0, false⟩]⟩,
  ⟨.lkRepair, 0x1F1000600018, [(0x1000, 16)], .fixed 110, false,
    [⟨⟨48, 48⟩, .ro, 0x0, false⟩, ⟨⟨41, 40⟩, .ro, 0, true⟩, ⟨⟨33, 0⟩, .ro, 0, true⟩]⟩,
  ⟨.lkErrcnt, 0x1F1000600020, [(0x1000, 16)], .fixed 110, false,
    [⟨⟨47, 32⟩, .rc, 0x0, false⟩, ⟨⟨31, 0⟩, .rc, 0x0, false⟩]⟩,
  ⟨.bdBarcfg, 0x1F1000700000, [(0x10, 256)], .fixed 110, false,
    [⟨⟨63, 48⟩, .rw, 0x0, false⟩, ⟨⟨47, 47⟩, .rw, 0x0, false⟩, ⟨⟨46, 45⟩, .rw, 0x0, false⟩, ⟨⟨44, 40⟩, .rw, 0x0, false⟩, ⟨⟨12, 0⟩, .rw, 0x1, false⟩]⟩,
  ⟨.bdBargen, 0x1F1000700008, [(0x10, 256)], .fixed 110, false,
    [⟨⟨63, 63⟩, .wo, 0x0, false⟩, ⟨⟨44, 32⟩, .ro, 0x0, false⟩, ⟨⟨31, 0⟩, .ro, 0x0, false⟩]⟩,
  ⟨.xlAscfg, 0x1F1000800000, [(0x20, 4096)], .fixed 110, false,
    [⟨⟨63, 63⟩, .st, 0x0, false⟩, ⟨⟨62, 61⟩, .st, 0x0, false⟩, ⟨⟨44, 12⟩, .st, 0x0, false⟩]⟩,
  ⟨.xlAsstat, 0x1F1000800008, [(0x20, 4096)], .fixed 110, false,
    [⟨⟨31, 16⟩, .ro, 0x0, false⟩, ⟨⟨15, 0⟩, .ro, 0x0, false⟩]⟩,
  ⟨.xlFence, 0x1F1000800010, [(0x20, 4096)], .fixed 110, false,
    [⟨⟨0, 0⟩, .wo, 0x0, false⟩]⟩,
  ⟨.xlAscount, 0x1F1000800018, [(0x20, 4096)], .fixed 110, false,
    [⟨⟨14, 0⟩, .st, 0x0, false⟩]⟩,
  ⟨.xlCommit, 0x1F1000820000, [], .fixed 110, false,
    [⟨⟨12, 12⟩, .wo, 0x0, false⟩, ⟨⟨11, 0⟩, .wo, 0x0, false⟩]⟩]

/-- Rows of R418, part 7. -/
def regRows7 : List RegRow := [
  ⟨.xlWinbase, 0x1F1000900000, [(0x20, 256)], .fixed 110, false,
    [⟨⟨44, 16⟩, .st, 0x0, false⟩]⟩,
  ⟨.xlWincfg, 0x1F1000900008, [(0x20, 256)], .fixed 110, false,
    [⟨⟨63, 63⟩, .st, 0x0, false⟩, ⟨⟨62, 62⟩, .st, 0x0, false⟩, ⟨⟨61, 61⟩, .st, 0x0, false⟩, ⟨⟨60, 48⟩, .st, 0x0, false⟩, ⟨⟨21, 0⟩, .st, 0x0, false⟩]⟩,
  ⟨.xlWinstat, 0x1F1000900010, [(0x20, 256)], .fixed 110, false,
    [⟨⟨31, 0⟩, .ro, 0x0, false⟩]⟩,
  ⟨.xlWincommit, 0x1F1000902000, [], .fixed 110, false,
    [⟨⟨8, 8⟩, .wo, 0x0, false⟩, ⟨⟨7, 0⟩, .wo, 0x0, false⟩]⟩,
  ⟨.xlRxcfg, 0x1F1000902008, [], .fixed 110, false,
    [⟨⟨0, 0⟩, .rw, 0x0, false⟩]⟩,
  ⟨.hiQcfg, 0x1F2000100000, [(0x40, 256)], .fixed 121, true,
    [⟨⟨63, 63⟩, .st, 0x0, false⟩, ⟨⟨62, 56⟩, .st, 0x0, false⟩, ⟨⟨55, 51⟩, .st, 0x10, false⟩, ⟨⟨50, 46⟩, .st, 0x10, false⟩, ⟨⟨45, 36⟩, .st, 0x0, false⟩, ⟨⟨28, 16⟩, .st, 0x0, false⟩]⟩,
  ⟨.hiQdata, 0x1F2000100008, [(0x40, 256)], .fixed 121, false,
    [⟨⟨44, 16⟩, .st, 0x0, false⟩]⟩,
  ⟨.hiQegr, 0x1F2000100010, [(0x40, 256)], .fixed 121, false,
    [⟨⟨44, 16⟩, .st, 0x0, false⟩]⟩,
  ⟨.hiQdb, 0x1F2000100018, [(0x40, 256)], .fixed 121, false,
    [⟨⟨63, 16⟩, .wo, 0x0, false⟩, ⟨⟨15, 0⟩, .wo, 0x0, false⟩]⟩,
  ⟨.hiQstat, 0x1F2000100020, [(0x40, 256)], .fixed 121, false,
    [⟨⟨63, 63⟩, .ro, 0x0, false⟩, ⟨⟨62, 62⟩, .ro, 0x0, false⟩, ⟨⟨61, 61⟩, .ro, 0x0, false⟩, ⟨⟨47, 32⟩, .ro, 0x0, false⟩, ⟨⟨31, 16⟩, .ro, 0x0, false⟩, ⟨⟨15, 0⟩, .rc, 0x0, false⟩]⟩,
  ⟨.hiQacc, 0x1F2000100028, [(0x40, 256)], .fixed 121, false,
    [⟨⟨47, 0⟩, .ro, 0x0, false⟩]⟩,
  ⟨.hiQegprod, 0x1F2000100030, [(0x40, 256)], .fixed 121, false,
    [⟨⟨47, 0⟩, .rw, 0x0, false⟩]⟩]

/-- Rows of R418, part 8. -/
def regRows8 : List RegRow := [
  ⟨.hiQegcons, 0x1F2000100038, [(0x40, 256)], .fixed 121, false,
    [⟨⟨47, 0⟩, .ro, 0x0, false⟩]⟩,
  ⟨.hiQcommit, 0x1F2000104000, [], .fixed 121, false,
    [⟨⟨9, 9⟩, .wo, 0x0, false⟩, ⟨⟨8, 8⟩, .wo, 0x0, false⟩, ⟨⟨7, 0⟩, .wo, 0x0, false⟩]⟩,
  ⟨.hiLink, 0x1F2000104008, [], .fixed 121, false,
    [⟨⟨63, 63⟩, .rw, 0x0, false⟩, ⟨⟨62, 62⟩, .ro, 0x0, false⟩, ⟨⟨23, 20⟩, .ro, 0x0, false⟩, ⟨⟨19, 16⟩, .ro, 0x0, false⟩, ⟨⟨15, 0⟩, .rc, 0x0, false⟩]⟩,
  ⟨.fbRoute, 0x1F2000200000, [(0x8, 4096)], .fixed 119, false,
    [⟨⟨19, 16⟩, .st, 0x0, false⟩, ⟨⟨15, 12⟩, .st, 0x0, false⟩, ⟨⟨11, 8⟩, .st, 0x0, false⟩, ⟨⟨7, 4⟩, .st, 0x0, false⟩, ⟨⟨3, 0⟩, .st, 0x0, false⟩]⟩,
  ⟨.fbCommit, 0x1F2000208000, [], .fixed 119, false,
    [⟨⟨0, 0⟩, .wo, 0x0, false⟩]⟩,
  ⟨.fbDevid, 0x1F2000208008, [], .fixed 119, false,
    [⟨⟨11, 0⟩, .st, 0x0, false⟩]⟩,
  ⟨.fbTimeout, 0x1F2000208010, [], .fixed 119, false,
    [⟨⟨16, 0⟩, .rw, 0xC8, false⟩]⟩,
  ⟨.fbTocnt, 0x1F2000208018, [], .fixed 119, false,
    [⟨⟨31, 0⟩, .rc, 0x0, false⟩]⟩,
  ⟨.fbPortctl, 0x1F2000210000, [(0x20, 16)], .portSw, false,
    [⟨⟨1, 1⟩, .wo, 0x0, false⟩, ⟨⟨0, 0⟩, .rw, 0x0, false⟩]⟩,
  ⟨.fbPortstat, 0x1F2000210008, [(0x20, 16)], .portSw, false,
    [⟨⟨63, 63⟩, .ro, 0x0, false⟩, ⟨⟨59, 48⟩, .ro, 0x0, false⟩, ⟨⟨35, 32⟩, .ro, 0x0, false⟩, ⟨⟨3, 0⟩, .ro, 0x0, false⟩]⟩,
  ⟨.fbPorterr, 0x1F2000210010, [(0x20, 16)], .portSw, false,
    [⟨⟨63, 48⟩, .rc, 0x0, false⟩, ⟨⟨47, 32⟩, .rc, 0x0, false⟩, ⟨⟨31, 0⟩, .rc, 0x0, false⟩]⟩,
  ⟨.mgTime, 0x1F3000001000, [], .fixed 122, false,
    [⟨⟨63, 0⟩, .ro, 0x0, false⟩]⟩]

/-- Rows of R418, part 9. -/
def regRows9 : List RegRow := [
  ⟨.mgTsync, 0x1F3000001008, [], .fixed 122, false,
    [⟨⟨63, 63⟩, .w1c, 0x0, false⟩, ⟨⟨62, 62⟩, .ro, 0x0, false⟩, ⟨⟨47, 32⟩, .ro, 0x0, false⟩, ⟨⟨8, 0⟩, .ro, 0x0, false⟩]⟩,
  ⟨.pwPkgcap, 0x1F3000010000, [], .fixed 122, false,
    [⟨⟨63, 63⟩, .st, 0x0, false⟩, ⟨⟨11, 0⟩, .st, 0x5DC, false⟩]⟩,
  ⟨.pwSplit, 0x1F3000010008, [], .fixed 122, false,
    [⟨⟨40, 32⟩, .st, 0xC8, false⟩, ⟨⟨30, 24⟩, .st, 0x3C, false⟩, ⟨⟨21, 16⟩, .st, 0x14, false⟩, ⟨⟨6, 0⟩, .st, 0x3C, false⟩]⟩,
  ⟨.pwCommit, 0x1F3000010010, [], .fixed 122, false,
    [⟨⟨0, 0⟩, .wo, 0x0, false⟩]⟩,
  ⟨.pwPkgstat, 0x1F3000010018, [], .fixed 122, false,
    [⟨⟨63, 48⟩, .ro, 0x0, false⟩, ⟨⟨31, 31⟩, .ro, 0x0, false⟩, ⟨⟨30, 30⟩, .ro, 0x0, false⟩, ⟨⟨15, 0⟩, .rc, 0x0, false⟩]⟩,
  ⟨.pwTherm, 0x1F3000010020, [], .fixed 122, false,
    [⟨⟨24, 16⟩, .ro, 0x0, false⟩, ⟨⟨15, 8⟩, .ro, 0x0, false⟩, ⟨⟨7, 0⟩, .rw, 0x5F, false⟩]⟩,
  ⟨.pwDie, 0x1F3000010100, [(0x8, 9)], .fixed 122, false,
    [⟨⟨63, 48⟩, .ro, 0x0, false⟩, ⟨⟨47, 32⟩, .ro, 0x0, false⟩, ⟨⟨24, 16⟩, .ro, 0x0, false⟩, ⟨⟨15, 8⟩, .rc, 0x0, false⟩, ⟨⟨7, 0⟩, .ro, 0x0, false⟩]⟩,
  ⟨.pwDomctl, 0x1F3000011000, [(0x10, 124)], .fixed 122, false,
    [⟨⟨31, 31⟩, .rw, 0x0, false⟩, ⟨⟨9, 0⟩, .rw, 0x2EE, false⟩]⟩,
  ⟨.pwDomstat, 0x1F3000011008, [(0x10, 124)], .fixed 122, false,
    [⟨⟨63, 48⟩, .rc, 0x0, false⟩, ⟨⟨47, 32⟩, .rc, 0x0, false⟩, ⟨⟨31, 31⟩, .ro, 0x0, false⟩, ⟨⟨30, 30⟩, .ro, 0x0, false⟩, ⟨⟨29, 29⟩, .w1c, 0x0, false⟩, ⟨⟨28, 28⟩, .ro, 0x0, false⟩, ⟨⟨9, 0⟩, .ro, 0x0, false⟩]⟩,
  ⟨.pwTemp, 0x1F3000012000, [(0x8, 400)], .fixed 122, false,
    [⟨⟨15, 0⟩, .ro, 0x0, false⟩]⟩,
  ⟨.mgSens, 0x1F3000012C80, [(0x8, 20)], .fixed 122, false,
    [⟨⟨63, 63⟩, .ro, 0x0, false⟩, ⟨⟨15, 0⟩, .ro, 0x0, false⟩]⟩,
  ⟨.fqDevhead, 0x1F3000028000, [], .fixed 122, false,
    [⟨⟨15, 0⟩, .rw, 0x0, false⟩]⟩]

/-- Rows of R418, part 10. -/
def regRows10 : List RegRow := [
  ⟨.fqDevtail, 0x1F3000028008, [], .fixed 122, false,
    [⟨⟨15, 0⟩, .ro, 0x0, false⟩]⟩,
  ⟨.fqDevovf, 0x1F3000028010, [], .fixed 122, false,
    [⟨⟨47, 32⟩, .ro, 0x0, false⟩, ⟨⟨31, 0⟩, .ro, 0x0, false⟩]⟩,
  ⟨.fqDevfatal, 0x1F3000028018, [], .fixed 122, false,
    [⟨⟨63, 48⟩, .ro, 0x0, false⟩, ⟨⟨15, 0⟩, .w1c, 0x0, false⟩]⟩,
  ⟨.mgDumpctl, 0x1F3000030000, [], .fixed 122, false,
    [⟨⟨63, 63⟩, .wo, 0x0, false⟩, ⟨⟨3, 0⟩, .wo, 0x0, false⟩]⟩,
  ⟨.mgDumpcnt, 0x1F3000030008, [], .fixed 122, false,
    [⟨⟨15, 0⟩, .rc, 0x0, false⟩]⟩,
  ⟨.mgDumpstat, 0x1F3000030010, [(0x8, 4)], .fixed 122, false,
    [⟨⟨63, 63⟩, .ro, 0x0, false⟩, ⟨⟨62, 62⟩, .ro, 0x0, false⟩, ⟨⟨61, 61⟩, .ro, 0x0, false⟩, ⟨⟨51, 32⟩, .ro, 0x0, false⟩, ⟨⟨31, 0⟩, .ro, 0x0, false⟩]⟩,
  ⟨.mgBootstat, 0x1F3000040000, [], .fixed 122, false,
    [⟨⟨63, 62⟩, .ro, 0x0, false⟩, ⟨⟨61, 61⟩, .ro, 0x0, false⟩, ⟨⟨60, 60⟩, .ro, 0x0, false⟩, ⟨⟨59, 56⟩, .ro, 0x0, false⟩, ⟨⟨55, 55⟩, .ro, 0x0, false⟩, ⟨⟨54, 54⟩, .ro, 0x0, false⟩, ⟨⟨53, 53⟩, .ro, 0x0, false⟩, ⟨⟨47, 40⟩, .rc, 0x0, false⟩, ⟨⟨39, 32⟩, .ro, 0x0, false⟩, ⟨⟨23, 0⟩, .ro, 0x0, false⟩]⟩,
  ⟨.mgMode, 0x1F3000040008, [], .fixed 122, false,
    [⟨⟨63, 63⟩, .rw, 0x0, false⟩, ⟨⟨3, 0⟩, .rw, 0x0, false⟩]⟩,
  ⟨.mgLicence, 0x1F3000040010, [], .fixed 122, false,
    [⟨⟨63, 32⟩, .ro, 0x0, false⟩, ⟨⟨31, 31⟩, .ro, 0x0, false⟩, ⟨⟨30, 30⟩, .ro, 0x0, false⟩, ⟨⟨29, 29⟩, .ro, 0x0, false⟩, ⟨⟨28, 24⟩, .ro, 0x8, false⟩, ⟨⟨23, 19⟩, .ro, 0x0, false⟩, ⟨⟨18, 12⟩, .ro, 0x0, false⟩, ⟨⟨11, 4⟩, .ro, 0x40, false⟩]⟩,
  ⟨.mgParten, 0x1F3000040018, [], .fixed 122, false,
    [⟨⟨23, 0⟩, .ro, 0x0, false⟩]⟩,
  ⟨.mgResetctl, 0x1F3000040020, [], .fixed 122, false,
    [⟨⟨0, 0⟩, .wo, 0x0, false⟩]⟩,
  ⟨.mgCfg, 0x1F3000050000, [], .fixed 122, false,
    [⟨⟨63, 63⟩, .ro, 0, true⟩, ⟨⟨62, 62⟩, .ro, 0, true⟩, ⟨⟨61, 61⟩, .ro, 0x0, false⟩, ⟨⟨60, 60⟩, .ro, 0x0, false⟩, ⟨⟨59, 59⟩, .ro, 0, true⟩]⟩]

/-- Rows of R418, part 11. -/
def regRows11 : List RegRow := [
  ⟨.mgFloor, 0x1F3000050008, [], .fixed 122, false,
    [⟨⟨47, 43⟩, .ro, 0, true⟩, ⟨⟨42, 38⟩, .ro, 0, true⟩, ⟨⟨31, 0⟩, .ro, 0, true⟩]⟩,
  ⟨.mgMbxcfg, 0x1F3000050010, [], .fixed 122, false,
    [⟨⟨63, 54⟩, .rw, 0x0, false⟩, ⟨⟨53, 44⟩, .rw, 0x0, false⟩, ⟨⟨43, 34⟩, .rw, 0x0, false⟩, ⟨⟨33, 24⟩, .rw, 0x0, false⟩, ⟨⟨23, 14⟩, .rw, 0x0, false⟩]⟩,
  ⟨.mgLicfloor, 0x1F3000050018, [], .fixed 122, false,
    [⟨⟨31, 0⟩, .ro, 0, true⟩]⟩,
  ⟨.mgIoctl, 0x1F3000060000, [], .fixed 122, false,
    [⟨⟨23, 22⟩, .rw, 0x1, false⟩, ⟨⟨21, 20⟩, .rw, 0x2, false⟩, ⟨⟨19, 18⟩, .rw, 0x0, false⟩, ⟨⟨17, 16⟩, .rw, 0x3, false⟩, ⟨⟨15, 14⟩, .rw, 0x1, false⟩, ⟨⟨13, 12⟩, .rw, 0x1, false⟩, ⟨⟨11, 10⟩, .rw, 0x1, false⟩, ⟨⟨9, 8⟩, .rw, 0x0, false⟩, ⟨⟨7, 6⟩, .rw, 0x2, false⟩, ⟨⟨5, 4⟩, .rw, 0x0, false⟩, ⟨⟨1, 0⟩, .rw, 0x2, false⟩]⟩]

/-- All register classes (R418). -/
def regRows : List RegRow :=
  regRows1 ++ regRows2 ++ regRows3 ++ regRows4 ++ regRows5 ++ regRows6 ++ regRows7 ++ regRows8 ++ regRows9 ++ regRows10 ++ regRows11

/-- Local address of PT_COMMIT (R418). -/
def a_PT_COMMIT (i : Nat) : Nat := 0x1F0000000100 + i * 0x1000000
/-- Local address of PT_PRED (R418). -/
def a_PT_PRED (i : Nat) (j : Nat) : Nat := 0x1F0000002000 + i * 0x1000000 + j * 0x8
/-- Local address of PT_PREDOWN (R418). -/
def a_PT_PREDOWN (i : Nat) (j : Nat) : Nat := 0x1F0000002100 + i * 0x1000000 + j * 0x8
/-- Local address of PT_CTXCFG (R418). -/
def a_PT_CTXCFG (i : Nat) (j : Nat) : Nat := 0x1F0000010000 + i * 0x1000000 + j * 0x40
/-- Local address of PT_CTXQUOTA (R418). -/
def a_PT_CTXQUOTA (i : Nat) (j : Nat) : Nat := 0x1F0000010008 + i * 0x1000000 + j * 0x40
/-- Local address of PT_CTXSEED (R418). -/
def a_PT_CTXSEED (i : Nat) (j : Nat) : Nat := 0x1F0000010010 + i * 0x1000000 + j * 0x40
/-- Local address of PT_CTXSTAT (R418). -/
def a_PT_CTXSTAT (i : Nat) (j : Nat) : Nat := 0x1F0000010018 + i * 0x1000000 + j * 0x40
/-- Local address of PT_CTXUSE (R418). -/
def a_PT_CTXUSE (i : Nat) (j : Nat) : Nat := 0x1F0000010020 + i * 0x1000000 + j * 0x40
/-- Local address of ME_MAP (R418). -/
def a_ME_MAP (i : Nat) : Nat := 0x1F0000100000 + i * 0x1000000
/-- Local address of ME_BUSY (R418). -/
def a_ME_BUSY (i : Nat) : Nat := 0x1F0000100008 + i * 0x1000000
/-- Local address of ME_RAMP (R418). -/
def a_ME_RAMP (i : Nat) : Nat := 0x1F0000100010 + i * 0x1000000
/-- Local address of ME_COMMIT (R418). -/
def a_ME_COMMIT (i : Nat) : Nat := 0x1F0000100018 + i * 0x1000000
/-- Local address of VE_TABVALID (R418). -/
def a_VE_TABVALID (i : Nat) : Nat := 0x1F0000140000 + i * 0x1000000
/-- Local address of TS_ERRCNT (R418). -/
def a_TS_ERRCNT (i : Nat) : Nat := 0x1F0000180000 + i * 0x1000000
/-- Local address of PT_STKERR (R418). -/
def a_PT_STKERR (i : Nat) : Nat := 0x1F0000180100 + i * 0x1000000
/-- Local address of SQ_LEN (R418). -/
def a_SQ_LEN (i : Nat) (j : Nat) (k : Nat) : Nat := 0x1F0000200000 + i * 0x1000000 + j * 0x200 + k * 0x8
/-- Local address of SQ_RINGBASE (R418). -/
def a_SQ_RINGBASE (i : Nat) (j : Nat) : Nat := 0x1F0000300000 + i * 0x1000000 + j * 0x40
/-- Local address of SQ_CPLBASE (R418). -/
def a_SQ_CPLBASE (i : Nat) (j : Nat) : Nat := 0x1F0000300008 + i * 0x1000000 + j * 0x40
/-- Local address of SQ_RINGCFG (R418). -/
def a_SQ_RINGCFG (i : Nat) (j : Nat) : Nat := 0x1F0000300010 + i * 0x1000000 + j * 0x40
/-- Local address of SQ_DB (R418). -/
def a_SQ_DB (i : Nat) (j : Nat) : Nat := 0x1F0000300018 + i * 0x1000000 + j * 0x40
/-- Local address of SQ_HEAD (R418). -/
def a_SQ_HEAD (i : Nat) (j : Nat) : Nat := 0x1F0000300020 + i * 0x1000000 + j * 0x40
/-- Local address of SQ_COMMIT (R418). -/
def a_SQ_COMMIT (i : Nat) : Nat := 0x1F0000308000 + i * 0x1000000
/-- Local address of BD_SEM (R418). -/
def a_BD_SEM (i : Nat) (j : Nat) : Nat := 0x1F0000400000 + i * 0x1000000 + j * 0x8
/-- Local address of BD_SEMADD (R418). -/
def a_BD_SEMADD (i : Nat) (j : Nat) : Nat := 0x1F0000408000 + i * 0x1000000 + j * 0x8
/-- Local address of BD_SEMGRP (R418). -/
def a_BD_SEMGRP (i : Nat) (j : Nat) : Nat := 0x1F0000410000 + i * 0x1000000 + j * 0x8
/-- Local address of PT_TMCFG (R418). -/
def a_PT_TMCFG (i : Nat) : Nat := 0x1F0000500000 + i * 0x1000000
/-- Local address of PT_TMPOOL1 (R418). -/
def a_PT_TMPOOL1 (i : Nat) : Nat := 0x1F0000500008 + i * 0x1000000
/-- Local address of PT_TMPOOL2 (R418). -/
def a_PT_TMPOOL2 (i : Nat) : Nat := 0x1F0000500010 + i * 0x1000000
/-- Local address of PT_TMTAB (R418). -/
def a_PT_TMTAB (i : Nat) : Nat := 0x1F0000500018 + i * 0x1000000
/-- Local address of PT_TMCOMMIT (R418). -/
def a_PT_TMCOMMIT (i : Nat) : Nat := 0x1F0000500020 + i * 0x1000000
/-- Local address of PT_TMCTL (R418). -/
def a_PT_TMCTL (i : Nat) : Nat := 0x1F0000500028 + i * 0x1000000
/-- Local address of PT_TMSTAT (R418). -/
def a_PT_TMSTAT (i : Nat) : Nat := 0x1F0000500030 + i * 0x1000000
/-- Local address of PT_TMCNT (R418). -/
def a_PT_TMCNT (i : Nat) : Nat := 0x1F0000500038 + i * 0x1000000
/-- Local address of HO_DIRSTAT (R418). -/
def a_HO_DIRSTAT (i : Nat) : Nat := 0x1F0000600000 + i * 0x1000000
/-- Local address of HO_NAKCNT (R418). -/
def a_HO_NAKCNT (i : Nat) : Nat := 0x1F0000600008 + i * 0x1000000
/-- Local address of PW_PHASECFG (R418). -/
def a_PW_PHASECFG (i : Nat) : Nat := 0x1F0000700000 + i * 0x1000000
/-- Local address of PW_PHCOMMIT (R418). -/
def a_PW_PHCOMMIT (i : Nat) : Nat := 0x1F0000700008 + i * 0x1000000
/-- Local address of PW_PHTAG (R418). -/
def a_PW_PHTAG (i : Nat) (j : Nat) : Nat := 0x1F0000700100 + i * 0x1000000 + j * 0x8
/-- Local address of FQ_CFG (R418). -/
def a_FQ_CFG (i : Nat) : Nat := 0x1F0000800000 + i * 0x1000000
/-- Local address of FQ_COMMIT (R418). -/
def a_FQ_COMMIT (i : Nat) : Nat := 0x1F0000800008 + i * 0x1000000
/-- Local address of FQ_HEAD (R418). -/
def a_FQ_HEAD (i : Nat) : Nat := 0x1F0000800010 + i * 0x1000000
/-- Local address of FQ_TAIL (R418). -/
def a_FQ_TAIL (i : Nat) : Nat := 0x1F0000800018 + i * 0x1000000
/-- Local address of FQ_OVF (R418). -/
def a_FQ_OVF (i : Nat) : Nat := 0x1F0000800020 + i * 0x1000000
/-- Local address of FQ_FATAL (R418). -/
def a_FQ_FATAL (i : Nat) : Nat := 0x1F0000800028 + i * 0x1000000
/-- Local address of PT_WATCHDOG (R418). -/
def a_PT_WATCHDOG (i : Nat) : Nat := 0x1F0000800040 + i * 0x1000000
/-- Local address of PT_RECCTL (R418). -/
def a_PT_RECCTL (i : Nat) : Nat := 0x1F0000800048 + i * 0x1000000
/-- Local address of PT_RECSTAT (R418). -/
def a_PT_RECSTAT (i : Nat) : Nat := 0x1F0000800050 + i * 0x1000000
/-- Local address of PT_RELOAD (R418). -/
def a_PT_RELOAD (i : Nat) (j : Nat) : Nat := 0x1F0000801000 + i * 0x1000000 + j * 0x8
/-- Local address of HS_CORE_CEIL (R418). -/
def a_HS_CORE_CEIL (i : Nat) : Nat := 0x1F1000100000 + i * 0x8
/-- Local address of HS_COREKEY (R418). -/
def a_HS_COREKEY (i : Nat) : Nat := 0x1F1000101000 + i * 0x8
/-- Local address of SC_WAYMASK (R418). -/
def a_SC_WAYMASK (i : Nat) : Nat := 0x1F1000200000 + i * 0x8
/-- Local address of SC_COMMIT (R418). -/
def a_SC_COMMIT : Nat := 0x1F1000200100
/-- Local address of HS_IRQROUTE (R418). -/
def a_HS_IRQROUTE (i : Nat) : Nat := 0x1F1000300000 + i * 0x8
/-- Local address of HS_IRQPEND (R418). -/
def a_HS_IRQPEND (i : Nat) : Nat := 0x1F1000302000 + i * 0x8
/-- Local address of DD_TIER (R418). -/
def a_DD_TIER : Nat := 0x1F1000400000
/-- Local address of DD_ERRCNT (R418). -/
def a_DD_ERRCNT (i : Nat) : Nat := 0x1F1000400100 + i * 0x8
/-- Local address of HO_DIRSTAT_DDR (R418). -/
def a_HO_DIRSTAT_DDR (i : Nat) : Nat := 0x1F1000500000 + i * 0x100
/-- Local address of HO_NAKCNT_DDR (R418). -/
def a_HO_NAKCNT_DDR (i : Nat) : Nat := 0x1F1000500008 + i * 0x100
/-- Local address of HO_DEAD0 (R418). -/
def a_HO_DEAD0 : Nat := 0x1F1000501000
/-- Local address of HO_DEAD1 (R418). -/
def a_HO_DEAD1 : Nat := 0x1F1000501008
/-- Local address of LK_ROLE (R418). -/
def a_LK_ROLE (i : Nat) : Nat := 0x1F1000600000 + i * 0x1000
/-- Local address of LK_COMMIT (R418). -/
def a_LK_COMMIT (i : Nat) : Nat := 0x1F1000600008 + i * 0x1000
/-- Local address of LK_STATUS (R418). -/
def a_LK_STATUS (i : Nat) : Nat := 0x1F1000600010 + i * 0x1000
/-- Local address of LK_REPAIR (R418). -/
def a_LK_REPAIR (i : Nat) : Nat := 0x1F1000600018 + i * 0x1000
/-- Local address of LK_ERRCNT (R418). -/
def a_LK_ERRCNT (i : Nat) : Nat := 0x1F1000600020 + i * 0x1000
/-- Local address of BD_BARCFG (R418). -/
def a_BD_BARCFG (i : Nat) : Nat := 0x1F1000700000 + i * 0x10
/-- Local address of BD_BARGEN (R418). -/
def a_BD_BARGEN (i : Nat) : Nat := 0x1F1000700008 + i * 0x10
/-- Local address of XL_ASCFG (R418). -/
def a_XL_ASCFG (i : Nat) : Nat := 0x1F1000800000 + i * 0x20
/-- Local address of XL_ASSTAT (R418). -/
def a_XL_ASSTAT (i : Nat) : Nat := 0x1F1000800008 + i * 0x20
/-- Local address of XL_FENCE (R418). -/
def a_XL_FENCE (i : Nat) : Nat := 0x1F1000800010 + i * 0x20
/-- Local address of XL_ASCOUNT (R418). -/
def a_XL_ASCOUNT (i : Nat) : Nat := 0x1F1000800018 + i * 0x20
/-- Local address of XL_COMMIT (R418). -/
def a_XL_COMMIT : Nat := 0x1F1000820000
/-- Local address of XL_WINBASE (R418). -/
def a_XL_WINBASE (i : Nat) : Nat := 0x1F1000900000 + i * 0x20
/-- Local address of XL_WINCFG (R418). -/
def a_XL_WINCFG (i : Nat) : Nat := 0x1F1000900008 + i * 0x20
/-- Local address of XL_WINSTAT (R418). -/
def a_XL_WINSTAT (i : Nat) : Nat := 0x1F1000900010 + i * 0x20
/-- Local address of XL_WINCOMMIT (R418). -/
def a_XL_WINCOMMIT : Nat := 0x1F1000902000
/-- Local address of XL_RXCFG (R418). -/
def a_XL_RXCFG : Nat := 0x1F1000902008
/-- Local address of HI_QCFG (R418). -/
def a_HI_QCFG (i : Nat) : Nat := 0x1F2000100000 + i * 0x40
/-- Local address of HI_QDATA (R418). -/
def a_HI_QDATA (i : Nat) : Nat := 0x1F2000100008 + i * 0x40
/-- Local address of HI_QEGR (R418). -/
def a_HI_QEGR (i : Nat) : Nat := 0x1F2000100010 + i * 0x40
/-- Local address of HI_QDB (R418). -/
def a_HI_QDB (i : Nat) : Nat := 0x1F2000100018 + i * 0x40
/-- Local address of HI_QSTAT (R418). -/
def a_HI_QSTAT (i : Nat) : Nat := 0x1F2000100020 + i * 0x40
/-- Local address of HI_QACC (R418). -/
def a_HI_QACC (i : Nat) : Nat := 0x1F2000100028 + i * 0x40
/-- Local address of HI_QEGPROD (R418). -/
def a_HI_QEGPROD (i : Nat) : Nat := 0x1F2000100030 + i * 0x40
/-- Local address of HI_QEGCONS (R418). -/
def a_HI_QEGCONS (i : Nat) : Nat := 0x1F2000100038 + i * 0x40
/-- Local address of HI_QCOMMIT (R418). -/
def a_HI_QCOMMIT : Nat := 0x1F2000104000
/-- Local address of HI_LINK (R418). -/
def a_HI_LINK : Nat := 0x1F2000104008
/-- Local address of FB_ROUTE (R418). -/
def a_FB_ROUTE (i : Nat) : Nat := 0x1F2000200000 + i * 0x8
/-- Local address of FB_COMMIT (R418). -/
def a_FB_COMMIT : Nat := 0x1F2000208000
/-- Local address of FB_DEVID (R418). -/
def a_FB_DEVID : Nat := 0x1F2000208008
/-- Local address of FB_TIMEOUT (R418). -/
def a_FB_TIMEOUT : Nat := 0x1F2000208010
/-- Local address of FB_TOCNT (R418). -/
def a_FB_TOCNT : Nat := 0x1F2000208018
/-- Local address of FB_PORTCTL (R418). -/
def a_FB_PORTCTL (i : Nat) : Nat := 0x1F2000210000 + i * 0x20
/-- Local address of FB_PORTSTAT (R418). -/
def a_FB_PORTSTAT (i : Nat) : Nat := 0x1F2000210008 + i * 0x20
/-- Local address of FB_PORTERR (R418). -/
def a_FB_PORTERR (i : Nat) : Nat := 0x1F2000210010 + i * 0x20
/-- Local address of MG_TIME (R418). -/
def a_MG_TIME : Nat := 0x1F3000001000
/-- Local address of MG_TSYNC (R418). -/
def a_MG_TSYNC : Nat := 0x1F3000001008
/-- Local address of PW_PKGCAP (R418). -/
def a_PW_PKGCAP : Nat := 0x1F3000010000
/-- Local address of PW_SPLIT (R418). -/
def a_PW_SPLIT : Nat := 0x1F3000010008
/-- Local address of PW_COMMIT (R418). -/
def a_PW_COMMIT : Nat := 0x1F3000010010
/-- Local address of PW_PKGSTAT (R418). -/
def a_PW_PKGSTAT : Nat := 0x1F3000010018
/-- Local address of PW_THERM (R418). -/
def a_PW_THERM : Nat := 0x1F3000010020
/-- Local address of PW_DIE (R418). -/
def a_PW_DIE (i : Nat) : Nat := 0x1F3000010100 + i * 0x8
/-- Local address of PW_DOMCTL (R418). -/
def a_PW_DOMCTL (i : Nat) : Nat := 0x1F3000011000 + i * 0x10
/-- Local address of PW_DOMSTAT (R418). -/
def a_PW_DOMSTAT (i : Nat) : Nat := 0x1F3000011008 + i * 0x10
/-- Local address of PW_TEMP (R418). -/
def a_PW_TEMP (i : Nat) : Nat := 0x1F3000012000 + i * 0x8
/-- Local address of MG_SENS (R418). -/
def a_MG_SENS (i : Nat) : Nat := 0x1F3000012C80 + i * 0x8
/-- Local address of FQ_DEVHEAD (R418). -/
def a_FQ_DEVHEAD : Nat := 0x1F3000028000
/-- Local address of FQ_DEVTAIL (R418). -/
def a_FQ_DEVTAIL : Nat := 0x1F3000028008
/-- Local address of FQ_DEVOVF (R418). -/
def a_FQ_DEVOVF : Nat := 0x1F3000028010
/-- Local address of FQ_DEVFATAL (R418). -/
def a_FQ_DEVFATAL : Nat := 0x1F3000028018
/-- Local address of MG_DUMPCTL (R418). -/
def a_MG_DUMPCTL : Nat := 0x1F3000030000
/-- Local address of MG_DUMPCNT (R418). -/
def a_MG_DUMPCNT : Nat := 0x1F3000030008
/-- Local address of MG_DUMPSTAT (R418). -/
def a_MG_DUMPSTAT (i : Nat) : Nat := 0x1F3000030010 + i * 0x8
/-- Local address of MG_BOOTSTAT (R418). -/
def a_MG_BOOTSTAT : Nat := 0x1F3000040000
/-- Local address of MG_MODE (R418). -/
def a_MG_MODE : Nat := 0x1F3000040008
/-- Local address of MG_LICENCE (R418). -/
def a_MG_LICENCE : Nat := 0x1F3000040010
/-- Local address of MG_PARTEN (R418). -/
def a_MG_PARTEN : Nat := 0x1F3000040018
/-- Local address of MG_RESETCTL (R418). -/
def a_MG_RESETCTL : Nat := 0x1F3000040020
/-- Local address of MG_CFG (R418). -/
def a_MG_CFG : Nat := 0x1F3000050000
/-- Local address of MG_FLOOR (R418). -/
def a_MG_FLOOR : Nat := 0x1F3000050008
/-- Local address of MG_MBXCFG (R418). -/
def a_MG_MBXCFG : Nat := 0x1F3000050010
/-- Local address of MG_LICFLOOR (R418). -/
def a_MG_LICFLOOR : Nat := 0x1F3000050018
/-- Local address of MG_IOCTL (R418). -/
def a_MG_IOCTL : Nat := 0x1F3000060000

end Sys2Proof.Machine
end

