-- ==== Sys2Proof/Machine/State.lean ====
section
/-! DEFINITION. The state of the device as plain data: the register file, the memories, and what the blocks hold
inside. Every array is a sparse map (Machine/Sparse.lean) whose unlisted entries hold the reset value. -/

namespace Sys2Proof.Machine

/-- Nothing in this model faults: the device reports its errors in fault records, completion records and registers, and
goes on. The one constructor is kept for the host's interface; no meaning raises it (safe).
DESIGN CHOICE, safe (log entry 7): a command without its event changes nothing. -/
inductive Fault where
  /-- Raised by nothing (safe). -/
  | none
deriving DecidableEq, Repr

/-- Refusals. -/
inductive Refusal where
  /-- Raised by an arm of exec whose command has no meaning yet (safe). -/
  | notModelled (mnemonic : String)
deriving DecidableEq, Repr

/-- One extent of a translated operand (R193): virtual start, 57-bit physical start, bytes, tier, permissions
(1 READ, 2 WRITE), remote context. -/
structure Extent where
  va : Nat
  pa : Nat
  len : Nat
  tier : Nat
  perm : Nat
  rctx : Nat
deriving DecidableEq, Repr

/-- A translated operand: 0 SRC, 1 DST, 2 FLAG_VA, 3 ADDR; its extents in order; why the translation of an unsplit
span stopped: 0 at its end, otherwise the subcode a run-time access beyond it carries (R194). -/
structure Operand where
  which : Nat
  exts : List Extent
  stop : Nat
deriving DecidableEq, Repr

/-- A translation in progress (R193): the operand in hand, the operands after it, the next byte to cover, entries found
not to lie above that byte, search probes left, the entry the search rests on, the sequential phase, and the table that
was live at the first probe (R196), once begun. since: one more than the time at which the home of a probe first refused it,
0 while none has (R340). cands: 2 MiB migratable entries met by an ALLOC (R183). -/
structure Xlate where
  which : Nat
  todo : List Nat
  cur : Nat
  pos : Nat
  left : Nat
  best : List Word
  inSeq : Bool
  exts : List Extent
  cands : List (Nat × Nat × Nat)
  tbase : Nat
  count : Nat
  rmode : Nat
  begun : Bool
  since : Nat
deriving DecidableEq, Repr

/-- Where a descriptor stands: fetched by the port, its ring read returned and being translated, ready to dispatch,
blocked as a WAIT or running in a block, complete with its record not yet written, record written. -/
inductive DStage where
  | fetching | translating | ready | running | complete | recorded
deriving DecidableEq, Repr

/-- A descriptor held by the sequencer (R80, R143). index counts from the enabling of the ring; words are QW0 to QW7;
status and detail are those of its record (R141), ended the time of its completion (R140); until_ is the time its timeout
expires; cfgw and seed are PT_CTXCFG and PT_CTXSEED as they stood at dispatch (R131); rmode is the RMODE it was translated
under (R200); eccSeq is the number of the ECC_UNCORR record that its own reads caused (R61). -/
structure Desc where
  index : Nat
  words : List Word
  stage : DStage
  epoch : Nat
  marked : Bool
  retranslated : Bool
  opnds : List Operand
  cands : List (Nat × Nat × Nat)
  xlate : Option Xlate
  status : Nat
  detail : Nat
  condFalse : Bool
  poisoned : Bool
  lenClamped : Bool
  len : Nat
  len2 : Nat
  started : Nat
  until_ : Nat
  order : Nat
  cfgw : Word
  seed : Word
  ended : Nat
  rmode : Nat
  eccSeq : Option Nat
deriving DecidableEq, Repr

/-- A claim of tier capacity (R159): tier, start (T0: tile store offset, else virtual address), bytes. -/
structure Claim where
  tier : Nat
  addr : Nat
  bytes : Nat
deriving DecidableEq, Repr

/-- What a context holds beside its registers. head, fetch, tail count ring entries since the ring was enabled (R135,
R138); PT_CTXSTAT.STATE is the state of R129. replayable: the group that holds the head was opened by a MARK with
REPLAYABLE (R161). phaseTag is 64 in the untagged phase (R315). before is the state before recovery (R341); drainAfter:
a commit with ENABLE = 0 was accepted during the recovery (R131); drainFrom: when DRAINING could end at the latest.
replayed: what R343 recorded: 0 nothing, 1 whole group, n + 2: cleared at the blocked WAIT with index n. -/
structure Ctx where
  head : Nat
  fetch : Nat
  tail : Nat
  descs : List Desc
  claims : List Claim
  replayable : Bool
  phaseTag : Nat
  phaseAt : Nat
  phaseClass : Nat
  before : Nat
  drainAfter : Bool
  replayed : Nat
deriving DecidableEq, Repr

/-- A context whose slot is free. -/
def Ctx.init : Ctx :=
  { head := 0, fetch := 0, tail := 0, descs := [], claims := [], replayable := false, phaseTag := 64, phaseAt := 0,
    phaseClass := 0, before := 0, drainAfter := false, replayed := 0 }

/-- A descriptor named from a block: the slot of its context and its index. -/
structure DRef where
  slot : Nat
  index : Nat
deriving DecidableEq, Repr

/-- A binding entry (R150, R177): tile store range, source virtual start, extents and their epoch; group numbers the
binding its entry belongs to. -/
structure Binding where
  slot : Nat
  off : Nat
  len : Nat
  va : Nat
  exts : List Extent
  epoch : Nat
  group : Nat
deriving DecidableEq, Repr

/-- A work unit in an accumulator slot (R64, R66): its descriptor, output block row and column pair, the next
reduction position to fire or skip, the accumulators of its 32 × 64 positions as FP32 patterns (empty before the first
wavefront adds into them), and the poison it has consumed. -/
structure WorkUnit where
  ref : DRef
  row : Nat
  col : Nat
  pos : Nat
  acc : List Nat
  poison : Bool
  bad : Bool
deriving DecidableEq, Repr

/-- A matrix engine (R64, R69): two accumulator slots, cold or warm, since when it waits for a start token, and the
times of its last work and last wavefront. -/
structure Engine where
  slots : List (Option WorkUnit)
  cold : Bool
  waitFrom : Option Nat
  lastWork : Nat
  lastWave : Nat
deriving DecidableEq, Repr

/-- An engine after reset: cold, idle (R69). -/
def Engine.init : Engine := { slots := [none, none], cold := true, waitFrom := none, lastWork := 0, lastWave := 0 }

/-- A dispatched MM (R64, R145): block rows, column pairs, the next work unit to hand out, results written. -/
structure MmJob where
  ref : DRef
  rows : Nat
  cols : Nat
  next : Nat
  done : Nat
  engMask : Nat
deriving DecidableEq, Repr

/-- A half-open range of physical addresses; tile store offsets stand at their window addresses (R62). -/
structure Range where
  addr : Nat
  len : Nat
deriving DecidableEq, Repr

/-- Bytes that stand beside memory while a descriptor runs, with their poison; no piece crosses a unit of R205. -/
structure Piece where
  addr : Nat
  bytes : List Byte
  poison : Bool
deriving DecidableEq, Repr

/-- A running data job: the ranges it reads and writes. racy: units it reads as they stood before another agent wrote them: it
may have read them so; struck: writes of others to the ranges it writes, which may outlast its own (R204). alt: what another agent may see in place of memory before the job completes, unit by unit: the new data of
a job whose writes have not landed, the old data of one whose writes land as it goes (R59, R204, R205). dirty: tile store units to write back (R177). got: remote units read so far,
by physical address, with poison; sent: remote units whose write packets have left (R297). -/
structure Job where
  pp : Nat
  ref : DRef
  reads : List Range
  writes : List Range
  racy : List Piece
  struck : List Range
  alt : List Piece
  dirty : List Nat
  got : List (Nat × List Byte × Bool)
  sent : List Nat
deriving DecidableEq, Repr

/-- A migratable region (R183): its context slot, virtual and physical start, tier, access count. -/
structure Region where
  slot : Nat
  va : Nat
  pa : Nat
  tier : Nat
  count : Nat
  moving : Bool
deriving DecidableEq, Repr

/-- A migration (R186): the region's virtual start and slot, its destination, its step (1 to 7), the epoch it waits for
and when it began to wait. -/
structure Migration where
  slot : Nat
  va : Nat
  dst : Nat
  toTier : Nat
  step : Nat
  epoch : Nat
  waitFrom : Nat
deriving DecidableEq, Repr

/-- A fault record before it is laid out (R330). -/
structure FRec where
  kind : Nat
  cls : Nat
  fatal : Bool
  sub : Nat
  die : Nat
  unit : Nat
  part : Nat
  time : Nat
  tenant : Nat
  ctxValid : Bool
  ctxid : Nat
  seqValid : Bool
  seq : Nat
  addr : Nat
  length : Nat
  info0 : Nat
  info1 : Nat
  rseq : Nat
  count : Nat
deriving DecidableEq, Repr

/-- A recovery episode (R339): the time and class of the record that began it, the suspects not yet judged in ascending
CTXID, the reload position (slot, entry) and since when its source refuses (0: it does not), whether the first suspect's
group is running, whether it is the release of a quarantined partition (R348). -/
structure Episode where
  start : Nat
  cls : Nat
  suspects : List Nat
  slot : Nat
  entry : Nat
  since : Nat
  replaying : Bool
  release : Bool
deriving DecidableEq, Repr

/-- The inside of one partition. lastFetch and lastDisp: the slots that the fetch port and the dispatcher served last, 192
before the first (R80, R81). rampIdle: the IDLE in force since the last token issue (R71). pacedAt: the last time at which
PACE is known to have stood below 256 (R69). -/
structure Part where
  binds : List Binding
  bindSeq : Nat
  moverQ : List DRef
  dms : List (Option DRef)
  du : Option DRef
  ves : List (Option DRef × Nat)
  engines : List Engine
  mms : List MmJob
  token : Bool
  lastIssue : Nat
  lastTake : Nat
  rampIdle : Nat
  pacedAt : Nat
  lastFetch : Nat
  lastDisp : Nat
  wd : Sparse Nat
  wdLast : Sparse Nat
  hbAt : Nat
  pace : Nat
  paceGoal : Nat
  paceAt : Nat
  overAt : Nat
  grant : Nat
  demand : Nat
  dispatchSeq : Nat
  regions : List Region
  choices : List (Nat × Nat × Nat)
  migration : Option Migration
  used1 : List Nat
  used2 : List Nat
  nextHalving : Nat
  hold : List FRec
  fatalHold : List FRec
  lostDue : Bool
  rseq : Nat
  episode : Option Episode
  inReset : Bool
  stackOut : Bool
  joined : Bool
  raises : List (Nat × Nat)
deriving DecidableEq, Repr

/-- A partition after reset; the ramp holds a token (R70), the sequencer holds nothing.
PRESUMED, unsafe (log entry 12): PACE 256. -/
def Part.init : Part :=
  { binds := [], bindSeq := 0, moverQ := [], dms := [none, none], du := none,
    ves := [(none, 0), (none, 0), (none, 0), (none, 0)],
    engines := List.replicate 20 Engine.init, mms := [], token := true, lastIssue := 0, lastTake := 0,
    rampIdle := 1000, pacedAt := 0, lastFetch := 192, lastDisp := 192, wd := [], wdLast := [], hbAt := 0, pace := 256,
    paceGoal := 256, paceAt := 0, overAt := 0, grant := 0, demand := 0, dispatchSeq := 0, regions := [], choices := [], migration := none,
    used1 := [], used2 := [], nextHalving := 0, hold := [], fatalHold := [], lostDue := false,
    rseq := 0, episode := none, inReset := false, stackOut := false, joined := false, raises := [] }

/-- A 64-byte unit of T1 or T2: the identity of the key it was last written under (0: no key since the scrub) and its
poison attribute (R179, R180, R421). DESIGN CHOICE, unsafe (log entry 40): no command brings a new ECC error. -/
structure UnitMeta where
  key : Nat
  poison : Bool
deriving DecidableEq, Repr

/-- Who made a semaphore update. -/
inductive SemSource where
  | desc (pp : Nat) (ref : DRef)
  | duAdd (pp : Nat)
  | core
deriving DecidableEq, Repr

/-- What a semaphore update does (R154, R164). -/
inductive SemOp where
  | add (v : Nat)
  | set (v : Nat)
  | max (v : Nat)
  | cas (cmp v : Nat)
deriving DecidableEq, Repr

/-- Messages on the Bead network (R39). -/
inductive Bead where
  | update (pp sem : Nat) (op : SemOp) (src : SemSource)
  | waitArrive (pp : Nat) (ref : DRef) (part sem cond value : Nat) (test : Bool)
  | waitRelease (pp : Nat) (ref : DRef) (ok : Bool)
  | barArrive (bar : Nat) (src : Option (Nat × DRef))
  | barRelease (bar : Nat) (waiters : List (Nat × DRef))
deriving DecidableEq, Repr

/-- A WAIT held at a semaphore's endpoint (R39). -/
structure SemWait where
  pp : Nat
  ref : DRef
  part : Nat
  sem : Nat
  cond : Nat
  value : Nat
deriving DecidableEq, Repr

/-- An address space's epoch increments that wait to be applied, oldest first, with their source (R198). -/
inductive EpochSrc where
  | fence (pp : Nat) (ref : DRef)
  | write
  | migration (pp : Nat)
deriving DecidableEq, Repr

/-- Cache line states (R244). -/
inductive LineState where
  | s | e | m
deriving DecidableEq, Repr

/-- A line held by a caching agent: its address, key index, data, poison (R243, R244, R389). l1: also in the L1D. -/
structure Line where
  addr : Nat
  key : Nat
  st : LineState
  data : List Byte
  poison : Bool
  l1 : Bool
deriving DecidableEq, Repr

/-- A request of an agent that has not been answered (R248, R252): request code, key index, NAKs, URGENT, waiting out a
backoff, requester class for a slice's fill (R232), the core's loads (address, bytes) that wait for it, whether it fills the
L1D too (R236), the core whose queue at the slice it came from, and whether it still waits in that queue (R230). -/
structure Miss where
  addr : Nat
  req : Nat
  key : Nat
  naks : Nat
  urgent : Bool
  waiting : Bool
  cls : Nat
  loads : List (Nat × Nat)
  l1 : Bool
  queue : Nat
  held : Bool
deriving DecidableEq, Repr

/-- A caching agent: an L2 (0–95) or a system cache slice (96–127). -/
structure Agent where
  lines : List Line
  misses : List Miss
deriving DecidableEq, Repr

/-- A request of a non-caching agent that a home has refused: the agent, the line, its NAKs (R254). -/
structure Ask where
  who : Nat
  line : Nat
  naks : Nat
deriving DecidableEq, Repr

/-- An agent without lines. -/
def Agent.init : Agent := { lines := [], misses := [] }

/-- A directory entry (R245). -/
inductive DirState where
  | shared (agents : List Nat)
  | owned (agent : Nat)
deriving DecidableEq, Repr

/-- An open transaction of a home (R248, R250): the line, the request code, the requester (none: a non-caching agent, or cancelled), its
key index, the agents whose snoop answers are due with the time each snoop left, the agents that keep the line, and the
bytes a WR_INV writes with their mask. -/
structure Txn where
  addr : Nat
  req : Nat
  who : Option Nat
  key : Nat
  due : List (Nat × Nat)
  keep : List Nat
  data : List Byte
  mask : Nat
deriving DecidableEq, Repr

/-- A home (R242, R245–R247, R252–R254, R258). sweep: the bucket under sweep and the agents that have not answered; sweepAt: when
the sweep began; urgent: the reservations in order; reclaim: the dead agents in hand. -/
structure Home where
  dir : List (Nat × DirState)
  buckets : List Nat
  txns : List Txn
  urgent : List (Nat × Nat)
  sweep : Option (Nat × List Nat)
  sweepAt : Nat
  reclaim : List Nat
deriving DecidableEq, Repr

/-- A home without entries. -/
def Home.init : Home := { dir := [], buckets := [], txns := [], urgent := [], sweep := none, sweepAt := 0, reclaim := [] }

/-- Messages between homes and agents (R248). -/
inductive CMsg where
  | req (home agent addr code : Nat) (urgent : Bool)
  | snoop (home agent addr code : Nat)
  | rsp (home agent addr code : Nat) (key : Nat) (data : List Byte) (poison : Bool)
  | grant (home agent addr code : Nat) (data : List Byte) (poison : Bool)
  | nak (home agent addr : Nat)
deriving DecidableEq, Repr

/-- A way of a slice in WRITING: the victim, its way, and the fill that waits for its write-back (R231). -/
structure SliceWait where
  addr : Nat
  way : Nat
  fill : Line
deriving DecidableEq, Repr

/-- A system cache slice beside its agent's lines: way and line, least recently used first, and its waits. -/
structure Slice where
  lru : List (Nat × Nat)
  waits : List SliceWait
deriving DecidableEq, Repr

/-- A slice without lines. -/
def Slice.init : Slice := { lru := [], waits := [] }

/-- A store waiting in a core's store buffer (R262, R263). -/
structure BufStore where
  addr : Nat
  data : List Byte
  attr : MemAttr
  key : Nat
deriving DecidableEq, Repr

/-- A core (R239, R241, R262, R390, R392): store buffer, oldest first; the last loaded value; the last synchronous
exception taken (0 none) with its address; asynchronous errors pending; interrupts signalled and not yet taken; the key
index its accesses use since its last ORD.DEV; the address a cell starts it at; the barriers it has not completed: they wait
for loads, for stores, or are ORD.DEV (R263); the stores to other devices that nothing will acknowledge any more (R218). -/
structure CoreSt where
  buf : List BufStore
  loaded : Word
  exc : Nat
  excAddr : Nat
  asyncErr : List Nat
  irqs : List Nat
  key : Nat
  startAt : Nat
  waitLd : Bool
  waitSt : Bool
  waitDev : Bool
  lostSt : Nat
deriving DecidableEq, Repr

/-- A core after reset. -/
def CoreSt.init : CoreSt :=
  { buf := [], loaded := 0, exc := 0, excAddr := 0, asyncErr := [], irqs := [], key := 6146, startAt := 0,
    waitLd := false, waitSt := false, waitDev := false, lostSt := 0 }

/-- A power domain: on; a switch requested and not complete, with the time Banjo last logged a rail out of its window; in
a die, tail, host, quad or device reset; frozen by undervoltage and held by its island's supply since when, with the freeze
or hold already logged; damped since when, the last chatter, PACE halved by chatter; mV the Headstock governor has taken
off; holds counted; configuration writes to apply when the domain comes up (R49, R51, R319, R321, R326, R360, R404). -/
structure Dom where
  on : Bool
  switchOn : Bool
  switchOff : Bool
  railAt : Nat
  inReset : Bool
  frozen : Option Nat
  freezeLogged : Bool
  held : Option Nat
  holdLogged : Bool
  holds : Nat
  damped : Option Nat
  chatterAt : Nat
  halved : Bool
  lowered : Nat
  cfgWrites : List (Nat × Word)
deriving DecidableEq, Repr

/-- A domain that is off. -/
def Dom.init : Dom :=
  { on := false, switchOn := false, switchOff := false, railAt := 0, inReset := false, frozen := none,
    freezeLogged := false, held := none, holdLogged := false, holds := 0, damped := none, chatterAt := 0, halved := false,
    lowered := 0, cfgWrites := [] }

/-- A die: in die reset, held there because the training of its link failed (R24), replica synchronised since, how far the replica stood ahead of the time base at the last round and
when that was (R42), the last budget message it took, the message on its way (time sent, grant), the grant in force, the
power of the last interval, the thermal grant while it is throttled, at its floor, instruction issue paced (R45, R307, R319, R323).
Powers are in mW. -/
structure Die where
  inReset : Bool
  untrained : Bool
  synced : Bool
  offset : Int
  offsetAt : Nat
  lastMsg : Nat
  offer : Option (Nat × Nat)
  grant : Nat
  used : Nat
  therm : Option Nat
  atFloor : Bool
  paced : Bool
deriving DecidableEq, Repr

/-- A die after reset. -/
def Die.init : Die :=
  { inReset := false, untrained := false, synced := false, offset := 0, offsetAt := 0, lastMsg := 0, offer := none, grant := 0, used := 0, therm := none, atFloor := false, paced := false }

/-- An on-package link (R21, R25): bundles in service with their role (0 COHERENT, 1 TILE, 2 CONTROL, 3 TRANSIT), failures in
a row of the word in hand on a bundle, the unacknowledged words of each replay buffer in order, by number, and how many words
have been numbered; carrying traffic. -/
structure Link where
  bundles : List (Nat × Nat)
  retries : List (Nat × Nat)
  words : List (Nat × List Nat)
  sent : Nat
  up : Bool
deriving DecidableEq, Repr

/-- A link that is down. -/
def Link.init : Link := { bundles := [], retries := [], words := [], sent := 0, up := false }

/-- A host queue's window state (R274, R276, R419): ingress writes not yet complete at their homes (address, bytes), held
doorbells (TAIL, BYTES, arrival), the tenant of its context at the commit. -/
structure HostQueue where
  ingress : List (Nat × List Byte)
  db : List (Nat × Nat × Nat)
  tenant : Nat
deriving DecidableEq, Repr

/-- A queue without traffic. -/
def HostQueue.init : HostQueue := { ingress := [], db := [], tenant := 0 }

/-- A PCIe function: vectors masked and pending, bus master enable (R280). -/
structure FnSt where
  unmasked : List Nat
  pending : List Nat
  busMaster : Bool
deriving DecidableEq, Repr

/-- A function after reset: every vector masked, nothing pending. -/
def FnSt.init : FnSt := { unmasked := [], pending := [], busMaster := false }

/-- The host link (R271, R283, R406): PERST_N, up, the bytes the last host read returned, Unsupported Requests answered. -/
structure HostLink where
  perst : Bool
  up : Bool
  reply : List Byte
  unsupported : Nat
deriving DecidableEq, Repr

/-- A fabric port (R290, R291, R382): next sequence number expected, refusals in a row, times of recent tag failures, since
when it trains or keys, flits under the present key, keying messages taken, key generation. -/
structure Port where
  rxSeq : Nat
  refusals : Nat
  tagFails : List Nat
  since : Nat
  flits : Nat
  keySteps : Nat
  keyGen : Nat
deriving DecidableEq, Repr

/-- A port that is down. -/
def Port.init : Port :=
  { rxSeq := 0, refusals := 0, tagFails := [], since := 0, flits := 0, keySteps := 0, keyGen := 0 }

/-- A request of this device to another one that is not answered (R297): its packet, the descriptor it serves, the
57-bit address it began at, when it was first sent, when a NAK lets it be resent, and the code of the last NAK. For a core,
pp is 31, the slot of ref its number and the index the kind of access (Machine/Fabric.lean). -/
structure Remote where
  tag : Nat
  dev : Nat
  pp : Nat
  ref : DRef
  pa : Nat
  hdr : List Word
  data : List Byte
  first : Nat
  limit : Nat
  resendAt : Option Nat
  code : Nat
deriving DecidableEq, Repr

/-- A request channel (R379, R381): 0 to 2 mailbox channels, 3 the Ethernet port. A request in hand with its REQ word; for
the Ethernet port also its argument words and bytes. -/
structure Chan where
  busy : Bool
  req : Word
  args : List Word
  data : List Byte
deriving DecidableEq, Repr

/-- A channel with no request. -/
def Chan.init : Chan := { busy := false, req := 0, args := [], data := [] }

/-- A crash dump slot (R350–R352). -/
structure Dump where
  id : Nat
  time : Nat
  cause : List Word
  level : Nat
  truncated : Bool
  writing : Bool
  len : Nat
deriving DecidableEq, Repr

/-- Management state (chapters 16 and 17). phase: 0 PWR_GOOD low or tripped, 1 boot ROM alone, 2 firmware runs. image and
overlayImage are the WRITEs of the base record and of the overlay held in Banjo's SRAM, overlay the number of the one last applied
plus 1; partSet and dumpKey are the items of the base record. broadcasts counts broadcasts since the reset, imaged has a bit
for each partition whose image was good. retrained: T2 has its final speed; retrainAt: when its retrain
began (R369). restart: when the management cores run again
(R374). imageCopy: the partition image stands in the last 4 MiB of dump slot 3 (R366). refLostAt: when REFCLK_MGMT was lost
last (R46). dumpFor: escalations that wait for a dump, by its number: 0 to 5 die reset of that Burl, 6 warm device reset, 7 and 8
reset of a Tailstock (R349, R350). cells: quad and tenant; sealed: CTXIDs with a SEALED key; keyNext: the next key identity. -/
structure Mgmt where
  phase : Nat
  strapMode : Nat
  strapBoard : Bool
  tripped : Bool
  warmHeld : Bool
  image : List (Nat × Word)
  overlayImage : List (Nat × Word)
  overlay : Nat
  partSet : Nat
  dumpKey : Bool
  broadcasts : Nat
  imaged : Nat
  retrained : Bool
  retrainAt : Option Nat
  restart : Nat
  imageCopy : Bool
  refLostAt : Nat
  updSession : Option Nat
  updStaged : Bool
  dumpNext : Nat
  dumpFor : List (Nat × Nat)
  cells : List (Nat × Nat)
  sealed : List Nat
  keyNext : Nat
  devRseq : Nat
deriving DecidableEq, Repr

/-- Management state before PWR_GOOD. -/
def Mgmt.init : Mgmt :=
  { phase := 0, strapMode := 0, strapBoard := false, tripped := false, warmHeld := false, image := [], overlayImage := [],
    overlay := 0, partSet := 0xFFFFFF, dumpKey := false, broadcasts := 0, imaged := 0, retrained := false, retrainAt := none, restart := 0,
    imageCopy := false, refLostAt := 0,
    updSession := none, updStaged := false, dumpNext := 1, dumpFor := [], cells := [], sealed := [], keyNext := 1,
    devRseq := 0 }

/-- The pins and clocks of chapter 18: control inputs, straps, and the references that are lost. -/
structure Pins where
  pwrGood : Bool
  warmRstN : Bool
  modeSel : Nat
  boardTest : Bool
  lostMem : List Nat
  lostFab : List Nat
  refPcie : Bool
  refMgmt : Bool
deriving DecidableEq, Repr

/-- SHA-384 digests before anything extends them. -/
def zeroDigest : List Byte := List.replicate 48 0

/-- A message that has left the device. -/
inductive Out where
  | msix (fn : HostFn) (vector : Nat)
  | packet (port : Nat) (hdr : List Word) (data : List Byte)
  | oob (status : Nat) (words : List Word) (data : List Byte)
  | doe (data : List Byte)
deriving DecidableEq, Repr

/-- The device. pending is the queue of commands; now counts nanoseconds of the Banjo time base (R16, R42); fresh
numbers the free values (log entry 2); t2Era counts the
warm device resets that left T2 undefined since its last scrub (R220). flips and tsFlips are the units of T1 and T2 (by
address) and the words of the tile stores (by key) whose stored bits have changed since they were written: 1 in a way their
code corrects, 2 in a way it does not (R61, R179; no command changes a stored bit, log entry 40). tsyncAt: when the last
synchronisation round ran, plus 1 (R42). -/
structure State where
  pending : List Instr
  now : Nat
  fresh : Nat
  lastRead : Word
  regs : Sparse Word
  staged : Sparse (Option Word)
  mem : List Host.Cell
  units : Sparse UnitMeta
  ts : List Host.Cell
  tsPoison : Sparse Bool
  tsDirty : Sparse Bool
  flips : Sparse Nat
  tsFlips : Sparse Nat
  t2Era : Nat
  sram : List Host.Cell
  flash : List Host.Cell
  flashFitted : Bool
  keys : Sparse Nat
  ctxs : Sparse Ctx
  parts : Sparse Part
  jobs : List Job
  epochs : List (Nat × EpochSrc)
  bead : List Bead
  semWaits : List SemWait
  barWaits : List (Nat × Nat × DRef)
  homes : Sparse Home
  agents : Sparse Agent
  slices : Sparse Slice
  cores : Sparse CoreSt
  net : List CMsg
  asks : List Ask
  naRead : List Byte × Bool
  doms : Sparse Dom
  dies : Sparse Die
  lowered : List Nat
  governedAt : Nat
  tsyncAt : Nat
  budgetAt : Nat
  sensedAt : Nat
  links : Sparse Link
  queues : Sparse HostQueue
  fns : Sparse FnSt
  hostLink : HostLink
  ports : Sparse Port
  remotes : List Remote
  nextTag : Nat
  linkFaultAt : Sparse Nat
  held : List (FaultQueue × FRec)
  devRing : Sparse (List Word)
  devFatal : Sparse (List Word)
  volLog : List (List Word)
  perLog : List (List Word)
  dumps : Sparse (Option Dump)
  chans : Sparse Chan
  sessions : List (Nat × Nat)
  measures : Sparse (List Byte)
  mg : Mgmt
  pins : Pins
  outbox : List Out
deriving DecidableEq, Repr

/-- The machine right after reset: Banjo's always-on domains are on, everything else is off, and the device stands at
L0 before PWR_GOOD rises (R28, R371; log entry 4 names the values the spec does not give). DESIGN CHOICE, unsafe. -/
def State.reset : State :=
  { pending := [], now := 0, fresh := 0, lastRead := 0, regs := [], staged := [], mem := [], units := [], ts := [],
    tsPoison := [], tsDirty := [], flips := [], tsFlips := [], t2Era := 0, sram := [], flash := [], flashFitted := true, keys := [], ctxs := [], parts := [],
    jobs := [], epochs := [], bead := [], semWaits := [], barWaits := [], homes := [], agents := [], slices := [],
    cores := [], net := [], asks := [], naRead := ([], false),
    doms := [(122, { Dom.init with on := true }), (123, { Dom.init with on := true })], dies := [], lowered := [], governedAt := 0, tsyncAt := 0, budgetAt := 0, sensedAt := 0, links := [],
    queues := [], fns := [],
    hostLink := { perst := true, up := false, reply := [], unsupported := 0 }, ports := [],
    remotes := [], nextTag := 0, linkFaultAt := [], held := [], devRing := [], devFatal := [], volLog := [], perLog := [], dumps := [],
    chans := [], sessions := [], measures := [],
    mg := Mgmt.init,
    pins := { pwrGood := false, warmRstN := true, modeSel := 0, boardTest := false, lostMem := [], lostFab := [],
              refPcie := true, refMgmt := true },
    outbox := [] }

end Sys2Proof.Machine
end

