-- ==== Sys2Proof/Machine/Ops.lean ====
section
/-! DEFINITION. The named operations over the state: registers, blocks by number, partitions and domains, fault records
and queues, memory under keys, the tile store, claims. Every meaning is written over these. -/

namespace Sys2Proof.Machine

/-! ### Registers (R12–R14, R418) -/

/-- Splits an offset into one index for each stride; none when an index is out of range or bytes are left over. -/
def splitDims : List (Nat × Nat) → Nat → Option (List Nat)
  | [], off => if off = 0 then some [] else none
  | (stride, n) :: ds, off =>
    if off / stride < n then (splitDims ds (off % stride)).map (fun ix => off / stride :: ix) else none

/-- The indices of an address in a register class, if the class occupies it. -/
def RegRow.locate (r : RegRow) (a : Nat) : Option (List Nat) :=
  if r.base ≤ a then splitDims r.dims (a - r.base) else none

/-- The register at a local address, with its indices (R418). -/
def regFind (a : Nat) : Option (RegRow × List Nat) :=
  regRows.findSome? (fun r => (r.locate a).map (fun ix => (r, ix)))

/-- Physical core of logical core c: 8 of the 104 physical cores are fused out, and the others count up (R223). coreGap i is
the number of enabled cores below the i-th core that is out. DESIGN CHOICE, safe (log entry 5): which are out is free. -/
def physCore (c : Nat) : Nat := c + ((List.range 8).filter (fun i => decide (Config.coreGap i % 97 ≤ c))).length

/-- Logical bundles of a link and its spares (R19, R27). -/
def linkLogical (l : Nat) : Nat := if l < 6 then 32 else if l < 10 then 16 else if l < 14 then 8 else 4
def linkSpares (l : Nat) : Nat := if l < 6 then 2 else 1

/-- A fused field's value at an address with its indices; fields with a stated range keep to it: a link's repair takes out
physical bundles it has, one for each spare in use (R27); a partition without a repaired engine has its spare at place 20
(R68); physical cores ascend (R223, R224).
DESIGN CHOICE, safe (log entry 5): nothing is known of a fused value but its range. -/
def fusedValue (cls : RegClass) (ix : List Nat) (f : Fld) (a : Nat) : Nat :=
  let v := f.get (Config.fuse a)
  match cls, f.lo with
  | .mgFloor, 38 => v % 17
  | .mgFloor, 43 => v % 17
  | .meMap, 0 => if ME_MAP_SPARE_USED.get (Config.fuse a) = 0 then 20 else v % 21
  | .lkRepair, lo =>
    let l := ix.headD 0
    let out := ((List.range (linkLogical l + linkSpares l)).filter (fun b =>
      natBit (LK_REPAIR_OUT_MAP.get (Config.fuse a)) b)).take (linkSpares l)
    if lo = LK_REPAIR_OUT_MAP.lo then out.foldl (fun n b => n + 2 ^ b) 0
    else if lo = LK_REPAIR_SPARE_USED.lo then out.length
    else v
  | .hsCoreCeil, 0 => 820 + v % 81
  | .hsCoreCeil, _ => physCore (ix.headD 0)
  | _, _ => v

/-- A register's reset word from its field table; SC_WAYMASK k for k above 25 resets to 0, and the two domains of the
security boundary reset to ON (R233, R328). -/
def resetWord (r : RegRow) (ix : List Nat) (a : Nat) : Word :=
  match r.cls, ix with
  | .scWaymask, [k] => if k < 26 then 0xFFFF else 0
  | .pwDomctl, [i] => PW_DOMCTL_ON.set (r.fields.foldl (fun w f => f.fld.set w f.reset) 0) (b2n (decide (122 ≤ i)))
  | .pwDomstat, [i] => PW_DOMSTAT_ON.set (r.fields.foldl (fun w f => f.fld.set w f.reset) 0) (b2n (decide (122 ≤ i)))
  | _, _ => r.fields.foldl (fun w f => f.fld.set w (if f.fused then fusedValue r.cls ix f.fld a else f.reset)) 0

/-- What an unlisted register address holds: its reset value, 0 where no register lies (R416). -/
def regReset (a : Nat) : Word :=
  match regFind a with
  | none => 0
  | some (r, ix) => resetWord r ix a

namespace State

/-- The live word of a register. -/
def rd (s : State) (a : Nat) : Word := Sparse.get regReset s.regs a

/-- A state with one register's live word replaced. -/
def wr (s : State) (a : Nat) (w : Word) : State := { s with regs := Sparse.put regReset s.regs a w }

/-- A register field's live value. -/
def fld (s : State) (a : Nat) (f : Fld) : Nat := f.get (s.rd a)

/-- A one-bit field's live value. -/
def flag (s : State) (a : Nat) (f : Fld) : Bool := f.get (s.rd a) == 1

/-- A state with one field replaced. -/
def setFld (s : State) (a : Nat) (f : Fld) (v : Nat) : State := s.wr a (f.set (s.rd a) v)

/-- A counting field that saturates at its width (the RC and RO counters of the manual). -/
def bump (s : State) (a : Nat) (f : Fld) (n : Nat) : State := s.setFld a f (satAdd (s.fld a f) n (2 ^ f.width - 1))

/-- The staged word of a register: what the next commit would apply (R14). -/
def stagedRd (s : State) (a : Nat) : Word := (Sparse.get (fun _ => none) s.staged a).getD (s.rd a)

/-- A field of the staged word. -/
def stagedFld (s : State) (a : Nat) (f : Fld) : Nat := f.get (s.stagedRd a)

/-- Stages a word (R14). -/
def stage (s : State) (a : Nat) (w : Word) : State := { s with staged := Sparse.put (fun _ => none) s.staged a (some w) }

/-- Discards the staged words of a group. -/
def discard (s : State) (as : List Nat) : State :=
  { s with staged := as.foldl (fun m a => Sparse.put (fun _ => none) m a none) s.staged }

/-- Applies every staged word of a group in one step (R14). -/
def commit (s : State) (as : List Nat) : State :=
  (as.foldl (fun t a => t.wr a (s.stagedRd a)) s).discard as

/-! ### Blocks by number -/

def part (s : State) (p : Nat) : Part := Sparse.get (fun _ => Part.init) s.parts p
def setPart (s : State) (p : Nat) (x : Part) : State := { s with parts := Sparse.put (fun _ => Part.init) s.parts p x }
def modPart (s : State) (p : Nat) (f : Part → Part) : State := s.setPart p (f (s.part p))
def ctx (s : State) (id : Nat) : Ctx := Sparse.get (fun _ => Ctx.init) s.ctxs id
def setCtx (s : State) (id : Nat) (x : Ctx) : State := { s with ctxs := Sparse.put (fun _ => Ctx.init) s.ctxs id x }
def modCtx (s : State) (id : Nat) (f : Ctx → Ctx) : State := s.setCtx id (f (s.ctx id))
def home (s : State) (h : Nat) : Home := Sparse.get (fun _ => Home.init) s.homes h
def setHome (s : State) (h : Nat) (x : Home) : State := { s with homes := Sparse.put (fun _ => Home.init) s.homes h x }
def agent (s : State) (a : Nat) : Agent := Sparse.get (fun _ => Agent.init) s.agents a
def setAgent (s : State) (a : Nat) (x : Agent) : State :=
  { s with agents := Sparse.put (fun _ => Agent.init) s.agents a x }
def slice (s : State) (k : Nat) : Slice := Sparse.get (fun _ => Slice.init) s.slices k
def setSlice (s : State) (k : Nat) (x : Slice) : State :=
  { s with slices := Sparse.put (fun _ => Slice.init) s.slices k x }
def core (s : State) (c : Nat) : CoreSt := Sparse.get (fun _ => CoreSt.init) s.cores c
def setCore (s : State) (c : Nat) (x : CoreSt) : State :=
  { s with cores := Sparse.put (fun _ => CoreSt.init) s.cores c x }
def dom (s : State) (i : Nat) : Dom := Sparse.get (fun _ => Dom.init) s.doms i
def setDom (s : State) (i : Nat) (x : Dom) : State := { s with doms := Sparse.put (fun _ => Dom.init) s.doms i x }
def die (s : State) (d : Nat) : Die := Sparse.get (fun _ => Die.init) s.dies d
def setDie (s : State) (d : Nat) (x : Die) : State := { s with dies := Sparse.put (fun _ => Die.init) s.dies d x }
def link (s : State) (l : Nat) : Link := Sparse.get (fun _ => Link.init) s.links l
def setLink (s : State) (l : Nat) (x : Link) : State := { s with links := Sparse.put (fun _ => Link.init) s.links l x }
def queue (s : State) (q : Nat) : HostQueue := Sparse.get (fun _ => HostQueue.init) s.queues q
def setQueue (s : State) (q : Nat) (x : HostQueue) : State :=
  { s with queues := Sparse.put (fun _ => HostQueue.init) s.queues q x }
def fn (s : State) (k : Nat) : FnSt := Sparse.get (fun _ => FnSt.init) s.fns k
def setFn (s : State) (k : Nat) (x : FnSt) : State := { s with fns := Sparse.put (fun _ => FnSt.init) s.fns k x }
def port (s : State) (p : Nat) : Port := Sparse.get (fun _ => Port.init) s.ports p
def setPort (s : State) (p : Nat) (x : Port) : State := { s with ports := Sparse.put (fun _ => Port.init) s.ports p x }
def chan (s : State) (k : Nat) : Chan := Sparse.get (fun _ => Chan.init) s.chans k
def setChan (s : State) (k : Nat) (x : Chan) : State := { s with chans := Sparse.put (fun _ => Chan.init) s.chans k x }
def dump (s : State) (k : Nat) : Option Dump := Sparse.get (fun _ => none) s.dumps k
def setDump (s : State) (k : Nat) (x : Option Dump) : State :=
  { s with dumps := Sparse.put (fun _ => none) s.dumps k x }

/-! ### Domains, partitions, contexts -/

/-- The Burl of a partition (R1). -/
def burlOf (p : Nat) : Nat := p / 4

/-- Domain numbers of R325. -/
def domEng (p : Nat) : Nat := 3 * p
def domTs (p : Nat) : Nat := 3 * p + 1
def domCtl (p : Nat) : Nat := 3 * p + 2
def domNet (b : Nat) : Nat := 72 + b
def domQuad (q : Nat) : Nat := 78 + q
def domSc (m : Nat) : Nat := 104 + m
def domHome : Nat := 110

def domOn (s : State) (i : Nat) : Bool := (s.dom i).on && !(s.dom i).inReset

/-- The partition is in the enabled set (R364). -/
def enabled (s : State) (p : Nat) : Bool := decide (p < 24) && natBit (s.fld a_MG_PARTEN MG_PARTEN_ENABLED) p

/-- PT_RECSTAT.STATE of a partition. -/
def recState (s : State) (p : Nat) : Nat := s.fld (a_PT_RECSTAT p) PT_RECSTAT_STATE

/-- The partition is in reset in the sense of R340. -/
def inReset (s : State) (p : Nat) : Bool := (s.part p).inReset || s.recState p == 3

/-- The stack home of a partition refuses requests: until the partition joins, and as R340 says (R340, R371). Addresses of T2
have no stack, and stackOf gives them a number above 23. -/
def stackOut (s : State) (p : Nat) : Bool :=
  decide (p < 24) && ((s.part p).stackOut || !(s.part p).joined || s.recState p == 3)

/-- Licensed slots of a partition (R5, R7). -/
def licSlots (s : State) : Nat := s.fld a_MG_LICENCE MG_LICENCE_CTX

/-- A slot that exists and is licensed (R7, R11). -/
def slotOk (s : State) (slot : Nat) : Bool := decide (slot < 192) && decide (slot < s.licSlots)

/-- A CTXID that names a context of an enabled partition. -/
def ctxidOk (s : State) (id : Nat) : Bool := s.enabled (id / 256) && s.slotOk (id % 256)

def cid (p slot : Nat) : Nat := p * 256 + slot
def cfgAddr (id : Nat) : Nat := a_PT_CTXCFG (id / 256) (id % 256)
def cfg (s : State) (id : Nat) (f : Fld) : Nat := s.fld (cfgAddr id) f
def tenantOf (s : State) (id : Nat) : Nat := s.cfg id PT_CTXCFG_TENANT
def asidOf (s : State) (id : Nat) : Nat := s.cfg id PT_CTXCFG_ASID

/-- The state of a context (R129): 0 FREE, 1 ACTIVE, 2 STOPPED, 3 DETACHED, 4 RECOVERING, 5 TERMINATED, 6 DRAINING. -/
def cstate (s : State) (id : Nat) : Nat := s.fld (a_PT_CTXSTAT (id / 256) (id % 256)) PT_CTXSTAT_STATE
def setCstate (s : State) (id st : Nat) : State := s.setFld (a_PT_CTXSTAT (id / 256) (id % 256)) PT_CTXSTAT_STATE st

/-- The key store holds a key at an index; 0 stands for none. -/
def keyAt (s : State) (k : Nat) : Nat := Sparse.get (fun _ => 0) s.keys k
def setKey (s : State) (k v : Nat) : State := { s with keys := Sparse.put (fun _ => 0) s.keys k v }

/-- The contexts of a partition in slot order that are not FREE. -/
def liveSlots (s : State) (p : Nat) : List Nat := (List.range 192).filter (fun sl => s.cstate (cid p sl) != 0)

/-! ### Power, paths and homes (R26, R31, R49, R51, R261, R340, R417) -/

/-- A domain whose clocked island only stops the accesses of its memory controllers when its supply leaves the window: the
control domains of partitions, and the two DDR islands (R51). -/
def holdsMemory (i : Nat) : Bool := (decide (i < 72) && i % 3 == 2) || i == 108 || i == 109

/-- A block in a domain acts: the domain is on, out of reset, not frozen, and its island is not held (R49, R51, R417). -/
def alive (s : State) (i : Nat) : Bool :=
  s.domOn i && (s.dom i).frozen.isNone && (holdsMemory i || (s.dom i).held.isNone)

/-- The partition's STEP of R339. -/
def recStep (s : State) (p : Nat) : Nat := s.fld (a_PT_RECSTAT p) PT_RECSTAT_STEP

end State

/-- The dies a link joins (R19): 0 to 5 BURL0 to BURL5, 6 the Headstock, 7 and 8 the Tailstocks. -/
def linkPairs : List (Nat × Nat) :=
  [(0, 6), (1, 6), (2, 6), (3, 6), (4, 6), (5, 6), (0, 1), (1, 2), (3, 4), (4, 5), (0, 7), (3, 7), (2, 8), (5, 8), (6, 7), (6, 8)]

/-- The link between two dies that one joins. -/
def linkBetween (a b : Nat) : Option Nat := linkPairs.findIdx? (fun e => e == (a, b) || e == (b, a))

/-- The die a packet between two dies passes when no link joins them: the route with the fewest links, and among those one
that avoids the Headstock. DESIGN CHOICE, unsafe (log entry 46): the spec gives no route. -/
def viaDie (a b : Nat) : Nat :=
  match min a b, max a b with
  | 0, 2 => 1
  | 3, 5 => 4
  | 0, 3 => 7
  | 2, 5 => 8
  | 1, 7 => 0
  | 4, 7 => 3
  | 1, 8 => 2
  | 4, 8 => 5
  | _, _ => 6

/-- The dies of a packet's path beside its ends, and the links it takes (R19, R31). -/
def pathDies (a b : Nat) : List Nat := if a = b || (linkBetween a b).isSome then [] else [viaDie a b]
def pathLinks (a b : Nat) : List Nat :=
  if a = b then []
  else match linkBetween a b with
    | some l => [l]
    | none => ((linkBetween a (viaDie a b)).toList ++ (linkBetween (viaDie a b) b).toList)

/-- Roles of the bundles of links 0 to 5 (R21). -/
def roleCOH : Nat := 0
def roleTILE : Nat := 1
def roleCTRL : Nat := 2

namespace State

/-- A link carries traffic of a role: it is up, and a link of the Headstock and a Burl has a working bundle of that role, which
no other role lends it (R21, R26). -/
def carries (s : State) (role l : Nat) : Bool :=
  (s.link l).up && (decide (6 ≤ l) || (s.link l).bundles.any (fun b => b.2 == role))

/-- Every link between two dies carries traffic of a role. -/
def linked (s : State) (role a b : Nat) : Bool := (pathLinks a b).all (s.carries role)

/-- No die that a path between two dies crosses is in reset; otherwise its neighbour answers PATH_IN_RESET (R31). -/
def pathClear (s : State) (a b : Nat) : Bool := (pathDies a b).all (fun d => !(s.die d).inReset)

/-- The die of a home (R242). -/
def homeDie (h : Nat) : Nat := if h < 24 then burlOf h else 6

/-- A home in reset refuses: its domain is off or in reset, or its stack refuses (R261, R340, R417). -/
def homeOut (s : State) (h : Nat) : Bool := if h < 24 then !s.domOn (domCtl h) || s.stackOut h else !s.domOn domHome

/-- A home holds requests without refusing them: its domain is frozen, its memory island is held, or its stack's key store is
being reloaded in step 6 (R49, R51, R340). Channels 0 to 5 belong to the first DDR island (R181). -/
def homeHeld (s : State) (h : Nat) : Bool :=
  if h < 24 then (s.dom (domCtl h)).frozen.isSome || (s.dom (domCtl h)).held.isSome
    || (s.recState h == 2 && s.recStep h == 6)
  else (s.dom domHome).frozen.isSome || (s.dom (108 + (h - 24) / 6)).frozen.isSome || (s.dom (108 + (h - 24) / 6)).held.isSome

/-- A home answers. -/
def homeUp (s : State) (h : Nat) : Bool := !s.homeOut h && !s.homeHeld h

/-! ### The time of a die (R42) -/

/-- What a die's replica shows: the time base and what is left of its last offset, slewed by 1 ns in every 10 µs. Banjo (9)
reads the time base itself. -/
def dieNow (s : State) (d : Nat) : Nat :=
  let x := s.die d
  let left : Int :=
    if d = 9 then 0
    else
      let k : Int := ((s.now - x.offsetAt) / 10000 : Nat)
      if x.offset < 0 then min 0 (x.offset + k) else max 0 (x.offset - k)
  (s.now + left).toNat

/-! ### Fault records and queues (R329–R336, R376, R377, R423, R424) -/

/-- A fault record with nothing in it but its class and the time. -/
def record (s : State) (cls : Nat) : FRec :=
  { kind := 0, cls := cls, fatal := false, sub := 0, die := 9, unit := 255, part := 31, time := s.now, tenant := 0,
    ctxValid := false, ctxid := 0, seqValid := false, seq := 0, addr := 0, length := 0, info0 := 0, info1 := 0,
    rseq := 0, count := 1 }

/-- A record raised for a partition. -/
def recordP (s : State) (cls p unit : Nat) : FRec := { s.record cls with die := burlOf p, unit := unit, part := p }

/-- A record raised for a descriptor of a context; seq is its ring index. -/
def recordD (s : State) (cls p unit id seq : Nat) : FRec :=
  { s.recordP cls p unit with tenant := s.tenantOf id, ctxValid := true, ctxid := id, seqValid := true, seq := seq }

end State

/-- The 64 bytes of a record as eight words (R330). -/
def FRec.words (r : FRec) (phase : Nat) : List Word :=
  [BitVec.ofNat 64 (r.kind * 2 ^ 60 + r.cls * 2 ^ 52 + b2n r.fatal * 2 ^ 51 + r.sub * 2 ^ 32 + r.die * 2 ^ 28
      + r.unit * 2 ^ 20 + r.part * 2 ^ 15 + phase),
    BitVec.ofNat 64 r.time,
    BitVec.ofNat 64 (r.tenant * 2 ^ 48 + b2n r.ctxValid * 2 ^ 47 + r.ctxid * 2 ^ 32 + r.seq * 2 ^ 16
      + b2n r.seqValid * 2 ^ 15),
    BitVec.ofNat 64 r.addr, BitVec.ofNat 64 r.length, BitVec.ofNat 64 r.info0, BitVec.ofNat 64 r.info1,
    BitVec.ofNat 64 (r.rseq * 2 ^ 48 + r.count)]

/-- Two events that R424 merges. -/
def FRec.agrees (a b : FRec) : Bool :=
  a.cls == b.cls && a.sub == b.sub && a.die == b.die && a.unit == b.unit && a.part == b.part
    && a.ctxValid == b.ctxValid && a.ctxid == b.ctxid && a.seqValid == b.seqValid && a.seq == b.seq
    && a.addr == b.addr && a.length == b.length && a.kind == 0 && b.kind == 0 && !a.fatal && !b.fatal

/-- Merges one event into the first record of a list that agrees with it. -/
def mergeInto (r : FRec) : List FRec → Option (List FRec × Nat)
  | [] => none
  | h :: t =>
    if h.agrees r then some ({ h with count := satAdd h.count r.count 0xFFFFFFFF } :: t, h.rseq)
    else (mergeInto r t).map (fun x => (h :: x.1, x.2))

/-- As mergeInto, over the records held for merging, each with its queue. -/
def mergeHeld (q : FaultQueue) (r : FRec) : List (FaultQueue × FRec) → Option (List (FaultQueue × FRec) × Nat)
  | [] => none
  | (k, h) :: t =>
    if k = q ∧ h.agrees r = true then some ((k, { h with count := satAdd h.count r.count 0xFFFFFFFF }) :: t, h.rseq)
    else (mergeHeld q r t).map (fun x => ((k, h) :: x.1, x.2))

namespace State

/-- Appends to the volatile log; when it is full, the oldest entry goes (R376). -/
def logVolatile (s : State) (ws : List Word) : State :=
  { s with volLog := (s.volLog ++ [ws]).drop ((s.volLog.length + 1) - 16384) }

/-- Appends to the persistent log of 64 blocks of 4,095 entries, and to the volatile log (R376, R377). -/
def logPersistent (s : State) (ws : List Word) : State :=
  { s with perLog :=
      if s.perLog.length < 64 * 4095 then s.perLog ++ [ws] else s.perLog.drop 4095 ++ [ws] }

/-- An event entry of the persistent log: kind 0xF, the event code in SUBCODE (R377). The codes are the model's. -/
def logEvent (s : State) (code : Nat) : State :=
  let ws := ({ s.record 0 with kind := 15, sub := code, unit := 224 }).words 0
  (s.logPersistent ws).logVolatile ws

/-- The fault ring of a partition is in use (R331). -/
def ringOn (s : State) (p : Nat) : Bool := s.flag (a_FQ_CFG p) FQ_CFG_ENABLE

/-- The base of a partition's fault ring. -/
def ringBase (s : State) (p : Nat) : Nat := s.fld (a_FQ_CFG p) FQ_CFG_BASE * 65536

/-- The partition whose stack holds an address of T1. -/
def stackOf (a : Nat) : Nat := a / 0x1800000000

/-- Takes the next record number of a queue's counter (R423). -/
def takeRseq (s : State) (q : FaultQueue) : State × Nat :=
  match q with
  | .part p => (s.modPart p (fun x => { x with rseq := (x.rseq + 1) % 65536 }), (s.part p).rseq)
  | .device => ({ s with mg := { s.mg with devRseq := (s.mg.devRseq + 1) % 65536 } }, s.mg.devRseq)

/-- A non-fatal FAULT event joins an agreeing held record or is held for 10 µs (R424). Answers its RSEQ. -/
def report (s : State) (q : FaultQueue) (r : FRec) : State × Nat :=
  let r := { r with time := s.dieNow r.die }
  match mergeHeld q r s.held with
  | some (h, n) => ({ s with held := h }, n)
  | none =>
    match q with
    | .part p =>
      match mergeInto r (s.part p).hold with
      | some (h, n) => (s.modPart p (fun x => { x with hold := h }), n)
      | none => let (t, n) := s.takeRseq q; ({ t with held := t.held ++ [(q, { r with rseq := n })] }, n)
    | .device => let (t, n) := s.takeRseq q; ({ t with held := t.held ++ [(q, { r with rseq := n })] }, n)

/-- The queue of partition p as a FaultQueue. -/
def pq (p : Nat) : FaultQueue := if h : p < 24 then .part ⟨p, h⟩ else .device

/-- The record of a home: a stack home's goes to its partition's queue. -/
def reportHome (s : State) (h : Nat) (r : FRec) : State × Nat :=
  if h < 24 then s.report (pq h) { r with die := burlOf h, unit := 30, part := h }
  else s.report .device { r with die := 6, unit := 160 + (h - 24) }

end State

/-- Fault classes (R329). -/
def cCATCH : Nat := 1
def cECC : Nat := 2
def cPOISON : Nat := 3
def cXLATE : Nat := 4
def cQUOTA : Nat := 5
def cPROTO : Nat := 6
def cLINK : Nat := 7
def cTHERMAL : Nat := 8
def cPOWER : Nat := 9
def cSEC : Nat := 10
def cCONFIG : Nat := 11
def cAHEAD : Nat := 12

/-- The grant code of data that serves the waiting accesses and leaves no line: another agent's write followed it. -/
def grOnce : Nat := 3

/-- A byte with the poison of the unit it came from. -/
abbrev PByte := Byte × Bool

/-! ### Memory under keys (R168, R179, R180, R414, R415, R421) -/

/-- Bounds of the local map (R414). -/
def t1Size : Nat := 0x24000000000
def t2Base : Nat := 0x40000000000
def tsWindow : Nat := 0x1E0000000000
def regBase : Nat := 0x1F0000000000
def sramBase : Nat := 0x1F1001000000
def stackSize : Nat := 0x1800000000
def tsSize : Nat := 0x4000000

namespace State

/-- The bytes of T2 that are populated (R181). -/
def t2Size (s : State) : Nat := 12 * s.fld a_DD_TIER DD_TIER_DIMM_GIB * 2 ^ 30

/-- An address of stacked memory that belongs to a block: its stack is in the enabled set (R415). -/
def inT1 (s : State) (a : Nat) : Bool := decide (a < t1Size) && s.enabled (stackOf a)

/-- An address of the populated part of T2. -/
def inT2 (s : State) (a : Nat) : Bool := decide (t2Base ≤ a) && decide (a < t2Base + s.t2Size)

/-- The crash dump reserve: the top 2 GiB of T2 (R181). -/
def inReserve (s : State) (a : Nat) : Bool := s.inT2 a && decide (t2Base + s.t2Size < a + 2 ^ 31 + 1)

/-- The range lies in T1 or in T2, in stacks of the enabled set (R415). -/
def memRange (s : State) (a n : Nat) : Bool :=
  (decide (a + n ≤ t1Size) && (List.range 24).all (fun p => !overlap a n (p * stackSize) stackSize || s.enabled p))
    || (decide (t2Base ≤ a) && decide (a + n ≤ t2Base + s.t2Size))

/-- The range avoids the crash dump reserve. -/
def clearOfReserve (s : State) (a n : Nat) : Bool :=
  !overlap a n (t2Base + s.t2Size - 2 ^ 31) (min (2 ^ 31) s.t2Size)

/-- The home of an address: 0–23 stack homes, 24–35 DDR homes by channel (R181, R242). -/
def homeOf (a : Nat) : Nat := if a < t2Base then stackOf a else 24 + (a - t2Base) / 4096 % 12

/-- The stored plaintext bytes of memory.
DESIGN CHOICE (log entry 3): under any key an unwritten unit reads as a free value, which is safe. -/
def memByte (s : State) (a : Nat) : Byte := Sparse.get (fun _ => 0) s.mem a

/-- A unit of T2 that can no longer be corrected and that the background scrub has not reached counts as never written (R370). -/
def unscrubbed (s : State) (u : Nat) : Bool :=
  decide (2 ≤ Sparse.get (fun _ => 0) s.flips u) && decide (t2Base ≤ u) && s.flag a_DD_TIER DD_TIER_ACTIVE
    && !s.flag a_MG_BOOTSTAT MG_BOOTSTAT_SCRUBBED && decide (Config.scrubPoint s.now ≤ u)

/-- Key and poison of the unit at a 64-byte-aligned address. -/
def unitMeta (s : State) (u : Nat) : UnitMeta :=
  if s.unscrubbed u then ⟨0, false⟩ else Sparse.get (fun _ => ⟨0, false⟩) s.units u

/-- The stored plaintext of a unit. -/
def unitPlain (s : State) (u : Nat) : List Byte :=
  if s.unscrubbed u then List.replicate 64 0 else (List.range 64).map (fun i => s.memByte (u + i))

/-- A unit as the controller returns it under a key: its plaintext under the key that wrote it, unintelligible data
under any other (R180, R421). A unit of T2 that nothing has written since a warm device reset is undefined, a free value
of its own for each such reset (R220). -/
def unitUnder (s : State) (key u : Nat) : List Byte :=
  let plain := s.unitPlain u
  let m := s.unitMeta u
  if m.key = key then plain
  else
    let v := if m.key = 0 && decide (t2Base ≤ u) && !s.inReserve u then u + 2 ^ 45 * s.t2Era else u
    (List.range 64).map (fun i => Config.crossKey m.key key v i plain)

/-- Writes consecutive bytes of memory. -/
def putBytes (m : List Host.Cell) (a : Nat) : List Byte → List Host.Cell
  | [] => m
  | b :: bs => putBytes (Sparse.put (fun _ => (0 : Byte)) m a b) (a + 1) bs

/-- Replaces a unit under a key; its stored bits are sound again (R179). -/
def putUnit (s : State) (key u : Nat) (bs : List Byte) (poison : Bool) : State :=
  { s with
    mem := putBytes s.mem u bs
    units := Sparse.put (fun _ => ⟨0, false⟩) s.units u ⟨key, poison⟩
    flips := Sparse.put (fun _ => 0) s.flips u 0 }

/-- Overlays bytes on a unit from offset i on. -/
def overlay (unit : List Byte) (i : Nat) (bs : List Byte) : List Byte := unit.take i ++ bs ++ unit.drop (i + bs.length)

/-- A home logs SEC for an access under a key index without a key, or to the crash dump reserve (R180, R181). -/
def reportSec (s : State) (a n : Nat) : State :=
  (s.reportHome (homeOf a) { s.record cSEC with addr := a, length := n }).1

/-- The caching agent that holds a dirty copy of a line (R244). -/
def dirtyHolder (s : State) (u : Nat) : Option Line :=
  s.agents.findSome? (fun e => e.2.lines.find? (fun l => l.addr == u && l.st == .m))

/-- Writes a line's data to memory under its own key (R249, R389); an erased key discards it (R180). -/
def flushLine (s : State) (l : Line) : State :=
  if s.keyAt l.key = 0 then s.reportSec l.addr 64 else s.putUnit (s.keyAt l.key) l.addr l.data l.poison

/-- A dirty copy goes to memory, as when a snoop returns data (R250, R389). -/
def pullBack (s : State) (u : Nat) : State :=
  match s.dirtyHolder u with
  | none => s
  | some l => s.flushLine l

/-- What an invalidating write leaves (R249): no cached copy, no way of a slice and no directory entry for the line, and a grant
on its way serves the accesses that wait for it and leaves no line.
DEDUCED, unsafe (log entry 25): the snoops and their answers are one step. -/
def dropCopies (s : State) (u : Nat) : State :=
  { s with
    agents := s.agents.filterMap (fun e =>
      let x := { e.2 with lines := e.2.lines.filter (fun l => l.addr != u) }
      if x = Agent.init then none else some (e.1, x))
    slices := s.slices.filterMap (fun e =>
      let x := { e.2 with lru := e.2.lru.filter (fun w => w.2 != u) }
      if x = Slice.init then none else some (e.1, x))
    homes := s.homes.filterMap (fun e =>
      let x := { e.2 with dir := e.2.dir.filter (fun d => d.1 != u) }
      if x = Home.init then none else some (e.1, x))
    net := s.net.map (fun m => match m with
      | .grant h a v _ d po => if v = u then .grant h a v grOnce d po else m
      | _ => m) }

/-- The stored bits of a unit can no longer be corrected (R179). -/
def broken (s : State) (u : Nat) : Bool := decide (2 ≤ Sparse.get (fun _ => 0) s.flips u) && !s.unscrubbed u

/-- A unit as a snooping non-allocating read under a key index returns it, with its poison (R179, R180, R207, R249, R389); the
crash dump reserve reads 0 (R181). -/
def readUnit (s : State) (k u : Nat) : List Byte × Bool :=
  if s.inReserve u then (List.replicate 64 0, false)
  else match s.dirtyHolder u with
  | none => (s.unitUnder (s.keyAt k) u, (s.unitMeta u).poison || s.broken u || s.keyAt k == 0)
  | some l =>
    if l.key = k then (l.data, l.poison)
    else ((s.pullBack u).unitUnder (s.keyAt k) u, l.poison || s.keyAt k == 0)

/-! ### What running jobs leave open (R59, R204, R205) -/

/-- Bytes in which an event sees one of some pieces wherever a free choice of its own says so, each piece as a whole: no unit
is torn (R59, R204, R205). base numbers the choices of one list apart from those of another. -/
def laid (s : State) (base : Nat) (ps : List Piece) (a : Nat) (bs : List PByte) : List PByte :=
  (ps.zipIdx).foldl (fun bs x =>
    if overlap x.1.addr x.1.bytes.length a bs.length && Config.sees s.fresh (base + x.2) then
      (bs.zipIdx).map (fun b =>
        if within (a + b.2) 1 x.1.addr x.1.bytes.length then (x.1.bytes.getD (a + b.2 - x.1.addr) 0, x.1.poison) else b.1)
    else bs) bs

/-- What a reader under a key index may see in place of memory while jobs run: under another key it is unintelligible (R180,
R204). -/
def alts (s : State) (k : Nat) : List Piece :=
  s.jobs.flatMap (fun j =>
    let own := s.keyAt (cid j.pp j.ref.slot)
    if own = s.keyAt k then j.alt
    else j.alt.map (fun p => { p with
      bytes := (List.range p.bytes.length).map (fun i => Config.crossKey own (s.keyAt k) (p.addr + i) i p.bytes) }))

/-- The 64-byte units of a range. -/
def unitsOf (a n : Nat) : List Nat := (List.range ((a % 64 + n + 63) / 64)).map (fun i => a / 64 * 64 + i * 64)

/-- n bytes of T1 or T2 from a as a non-caching agent reads them under a key index, each with the poison of its unit. -/
def readMemP (s : State) (k a n : Nat) : List PByte :=
  s.laid 0 (s.alts k) a ((((unitsOf a n).flatMap (fun u =>
    let x := s.readUnit k u
    x.1.map (fun b => (b, x.2)))).drop (a % 64)).take n)

/-- The same bytes, and whether any unit is poisoned. -/
def readMem (s : State) (k a n : Nat) : List Byte × Bool :=
  let bs := s.readMemP k a n
  (bs.map (fun b => b.1), bs.any (fun b => b.2))

/-- The register that counts a home's ECC errors (R179, R182). -/
def eccReg (h : Nat) : Nat := if h < 24 then a_PT_STKERR h else a_DD_ERRCNT (h - 24)

/-- A controller reads a unit whose stored bits have changed: it corrects and counts, or counts, stores the poison and logs
ECC_UNCORR, with that record's number (R179); a unit that the scrub has not reached is rewritten as a scrubbed one, and nothing is
logged (R370). -/
def foundUnit (s : State) (u v : Nat) : State × Option Nat :=
  let t := { s with flips := Sparse.put (fun _ => 0) s.flips u 0 }
  if v = 1 then (t.bump (eccReg (homeOf u)) DD_ERRCNT_CORRECTED 1, none)
  else if s.unscrubbed u then
    ({ t with
       mem := Sparse.drop (fun a => decide (u ≤ a) && decide (a < u + 64)) t.mem
       units := Sparse.put (fun _ => ⟨0, false⟩) t.units u ⟨0, false⟩ }, none)
  else
    let t := { t with units := Sparse.put (fun _ => ⟨0, false⟩) t.units u { t.unitMeta u with poison := true } }
    let x := (t.bump (eccReg (homeOf u)) DD_ERRCNT_UNCORR 1).reportHome (homeOf u)
      { s.record cECC with addr := u, length := 64 }
    (x.1, some x.2)

/-- What reading n bytes from a under a key index leaves: the errors its units show (R179), and SEC for an index without a key
or for the reserve (R180, R181). Answers the number of a new ECC_UNCORR record. -/
def touchMem (s : State) (k a n : Nat) : State × Option Nat :=
  let x := (s.flips.filter (fun e => overlap e.1 64 a n)).foldl (fun (x : State × Option Nat) e =>
    let y := x.1.foundUnit e.1 e.2
    (y.1, x.2.or y.2)) (s, none)
  if s.keyAt k = 0 || !s.clearOfReserve a n then (x.1.reportSec a n, x.2) else x

/-! ### Non-caching agents at a home (R249, R252–R254) -/

/-- The bucket of a line (R245). -/
def bucketOf (u : Nat) : Nat := natBits u 21 6

/-- The NAK counters of a home. -/
def nakReg (h : Nat) : Nat := if h < 24 then a_HO_NAKCNT h else a_HO_NAKCNT_DDR (h - 24)

/-- The numbers of the agents that cache nothing, beside the caching agents 0 to 127: the sequencer and the movers of a
partition, the host window, Banjo, the fabric ingress of a Tailstock, a core's uncached accesses, and the commands that name no
agent. -/
def naPart (p : Nat) : Nat := 128 + p
def naHost : Nat := 152
def naBanjo : Nat := 153
def naTail (t : Nat) : Nat := 154 + t
def naCore (c : Nat) : Nat := 160 + c
def naAny : Nat := 256

/-- A line is BUSY: a transaction is open for it (R245). -/
def busy (s : State) (h u : Nat) : Bool := (s.home h).txns.any (fun t => t.addr == u)

/-- T2 is being retrained at its final speed, for at most 40 ms: its homes refuse every request (R369). -/
def retraining (s : State) : Bool := !s.mg.retrained && s.mg.retrainAt.any (fun t => decide (s.now < t + 40000000))

/-- A home refuses every request for a line: a sweep covers its bucket, a dead agent is being reclaimed, or its memory is retrained
(R252, R259, R369). -/
def shut (s : State) (h u : Nat) : Bool :=
  (s.home h).sweep.any (fun w => w.1 == bucketOf u) || !(s.home h).reclaim.isEmpty || (decide (24 ≤ h) && s.retraining)

/-- Who holds the oldest urgent reservation of a line (R253). -/
def reserved (s : State) (h u : Nat) : Option Nat := ((s.home h).urgent.find? (fun e => e.1 == u)).map (fun e => e.2)

/-- A line that leaves BUSY admits its oldest reservation, and others when there is none (R253). -/
def admits (s : State) (who h u : Nat) : Bool :=
  !s.busy h u && !s.shut h u && (s.reserved h u == none || s.reserved h u == some who)

/-- A request is marked URGENT after 8 NAKs; it takes a reservation where the line's list and the home's table have room, and
is answered NAK otherwise (R252, R253). -/
def reserve (s : State) (who h u : Nat) : Option State :=
  let r := (s.home h).urgent
  if !s.shut h u && decide ((r.filter (fun e => e.1 == u)).length < 8) && decide (r.length < 64) then
    some (s.setHome h { s.home h with urgent := r ++ [(u, who)] })
  else none

/-- A non-caching agent asks the home for a line: it is admitted, or it counts a NAK, or holds a reservation (R254). Its
command repeats the request. DESIGN CHOICE, safe (log entry 47): the backoff is not timed. -/
def ask (s : State) (who u : Nat) : State × Bool :=
  let h := homeOf u
  let mine (x : Ask) : Bool := x.who == who && x.line == u
  let n := ((s.asks.find? mine).map (fun x => x.naks)).getD 0
  let t := { s with asks := s.asks.filter (fun x => !mine x) }
  if s.admits who h u then (t.setHome h { t.home h with urgent := (t.home h).urgent.erase (u, who) }, true)
  else if (s.home h).urgent.contains (u, who) then (s, false)
  else
    let v := if 8 ≤ n then s.bump (nakReg h) HO_NAKCNT_URGENT 1 else s
    match (if 8 ≤ n then v.reserve who h u else none) with
    | some w => (w, false)
    | none =>
      (({ v with asks := v.asks.filter (fun x => !mine x) ++ [{ who := who, line := u, naks := n + 1 }] } : State).bump (nakReg h) HO_NAKCNT_NAKS 1, false)

/-- The first line of some ranges that a home does not admit an agent to. -/
def shutLine (s : State) (who : Nat) (rs : List Range) : Option Nat :=
  let t2 := rs.filter (fun r => decide (0 < r.len) && decide (t2Base ≤ r.addr) && decide (r.addr < tsWindow))
  if s.retraining && !t2.isEmpty then (t2.head?).map (fun r => r.addr / 64 * 64)
  else s.homes.findSome? (fun e =>
    let swept (b : Nat) (r : Range) : List Nat :=
      (List.range 12).map (fun i => r.addr / 2 ^ 22 * 2 ^ 22 + b * 64 + i * 2 ^ 22)
    let some_ := rs.flatMap (fun r => (List.range 12).map (fun i => (r.addr + 4096 * i) / 64 * 64)) ++ [e.1 * stackSize]
    (e.2.txns.map (fun t => t.addr) ++ e.2.urgent.map (fun r => r.1)
      ++ (match e.2.sweep with | none => [] | some w => rs.flatMap (swept w.1))
      ++ (if e.2.reclaim.isEmpty then [] else some_)).find? (fun u =>
        homeOf u == e.1 && rs.any (fun r => overlap r.addr r.len u 64) && !s.admits who e.1 u))

/-- A non-caching agent asks for some ranges: the first line that is not admitted is refused. -/
def askAll (s : State) (who : Nat) (rs : List Range) : State × Bool :=
  match s.shutLine who rs with
  | none => (s, true)
  | some u => s.ask who u

/-- An access of a non-caching agent to some ranges, which waits where the homes do not admit it. -/
def asking (s : State) (who : Nat) (rs : List Range) (f : State → State) : State :=
  let x := s.askAll who rs
  if x.2 then f x.1 else x.1

/-! ### The tile store (R56–R62, R176) -/

/-- Bytes of a tile store, by partition and offset. -/
def tsKey (p off : Nat) : Nat := p * tsSize + off
def tsByte (s : State) (p off : Nat) : Byte := Sparse.get (fun _ => 0) s.ts (tsKey p off)

/-- A word of a range whose stored bits can no longer be corrected (R61). -/
def tsBroken (s : State) (key n : Nat) : Bool := s.tsFlips.any (fun e => decide (2 ≤ e.2) && overlap (e.1 * 8) 8 key n)

/-- The poison attribute of the 256-byte unit that holds an offset (R61). -/
def tsPoisonAt (s : State) (p off : Nat) : Bool :=
  Sparse.get (fun _ => false) s.tsPoison (tsKey p off / 256) || s.tsBroken (tsKey p off / 256 * 256) 256

/-- Poison of any unit of a range. -/
def tsPoisonIn (s : State) (p off n : Nat) : Bool :=
  (List.range ((off % 256 + n + 255) / 256)).any (fun i => s.tsPoisonAt p (off + i * 256 - off % 256))

/-- n bytes of a tile store as they stand. -/
def tsRead (s : State) (p off n : Nat) : List Byte := (List.range n).map (fun i => s.tsByte p (off + i))

/-- As seen by an agent that is none of the running jobs, each byte with the poison of its unit (R59, R204). -/
def readTsP (s : State) (p off n : Nat) : List PByte :=
  s.laid 0 (s.jobs.flatMap (fun j => j.alt)) (tsWindow + tsKey p off)
    ((List.range n).map (fun i => (s.tsByte p (off + i), s.tsPoisonAt p (off + i))))

/-- A bank reads words whose stored bits have changed (R61): it corrects and counts, or counts, poisons the unit and logs
ECC_UNCORR in the partition's ring. Answers the number of a new record. -/
def touchTs (s : State) (p off n : Nat) : State × Option Nat :=
  (s.tsFlips.filter (fun e => overlap (e.1 * 8) 8 (tsKey p off) n)).foldl (fun (x : State × Option Nat) e =>
    let t := { x.1 with tsFlips := Sparse.put (fun _ => 0) x.1.tsFlips e.1 0 }
    if e.2 = 1 then (t.bump (a_TS_ERRCNT p) TS_ERRCNT_CORRECTED 1, x.2)
    else
      let t := { t with tsPoison := Sparse.put (fun _ => false) t.tsPoison (e.1 / 32) true }
      let y := (t.bump (a_TS_ERRCNT p) TS_ERRCNT_UNCORR 1).report (pq p)
        { s.recordP cECC p 29 with addr := tsWindow + e.1 / 32 * 256, length := 256 }
      (y.1, x.2.or (some y.2))) (s, none)

/-! ### Writes -/

/-- The units of a range as a job reads them now: 64-byte units of memory under its key, 256-byte units of a tile store. -/
def unitPieces (s : State) (k a n : Nat) : List Piece :=
  if a < tsWindow then
    (unitsOf a n).map (fun u => let x := s.readUnit k u; { addr := u, bytes := x.1, poison := x.2 })
  else
    (List.range ((a % 256 + n + 255) / 256)).map (fun i =>
      let u := a / 256 * 256 + i * 256 - tsWindow
      { addr := tsWindow + u, bytes := s.tsRead (u / tsSize) (u % tsSize) 256, poison := s.tsPoisonAt (u / tsSize) (u % tsSize) })

/-- Another agent is about to write [a, a + n): what stands there may be what a running job has read, and what it writes may
stand after the job's own write (R204). -/
def strike (s : State) (a n : Nat) : State :=
  { s with jobs := s.jobs.map (fun j =>
      let k := if j.reads.any (fun r => overlap r.addr r.len a n) then
          { j with racy := j.racy ++ s.unitPieces (cid j.pp j.ref.slot) a n } else j
      if k.writes.any (fun r => overlap r.addr r.len a n) then { k with struck := ⟨a, n⟩ :: k.struck } else k) }

/-- One write of a piece of a unit by a non-caching agent: caches give up their copies, a dirty one is merged first
(R249); a whole write clears poison, a part keeps it (R179); without a key, or in the reserve, it is discarded with a SEC
record (R180, R181). -/
def writeUnit (s : State) (k a : Nat) (bs : List Byte) (poison : Bool) : State :=
  let u := a / 64 * 64
  if s.keyAt k = 0 || s.inReserve u then s.reportSec a bs.length
  else
    let t := ((s.strike a bs.length).pullBack u).dropCopies u
    if bs.length = 64 then t.putUnit (s.keyAt k) u bs poison
    else t.putUnit (s.keyAt k) u (overlay (t.unitUnder (s.keyAt k) u) (a % 64) bs)
      (poison || (t.unitMeta u).poison || t.broken u)

/-- Splits bytes at multiples of a unit length. -/
def splitAt_ (w a : Nat) (bs : List Byte) : List (Nat × List Byte) :=
  (List.range ((a % w + bs.length + (w - 1)) / w)).map (fun i =>
    let lo := a / w * w + i * w
    if i = 0 then (a, bs.take (w - a % w)) else (lo, (bs.drop (lo - a)).take w))

/-- Splits bytes at 64-byte boundaries. -/
def pieces (a : Nat) (bs : List Byte) : List (Nat × List Byte) := splitAt_ 64 a bs

/-- Bytes written by a non-caching agent with one poison attribute for each unit they touch. -/
def writeMemP (s : State) (k a : Nat) (bs : List Byte) (poisonAt : Nat → Bool) : State :=
  (pieces a bs).foldl (fun t p => t.writeUnit k p.1 p.2 (poisonAt (p.1 - a))) s

/-- A write of T1 or T2 by a non-caching agent under a key index. -/
def writeMem (s : State) (k a : Nat) (bs : List Byte) (poison : Bool) : State := s.writeMemP k a bs (fun _ => poison)

/-- Sets a flag on every key of a range of keys. -/
def setKeys (m : Sparse Bool) (lo n : Nat) (v : Bool) : Sparse Bool :=
  (List.range n).foldl (fun m i => Sparse.put (fun _ => false) m (lo + i) v) m

/-- A range of a tile store meets a bound range of the partition (R176). -/
def bound (s : State) (p off n : Nat) : Bool := (s.part p).binds.any (fun b => overlap off n b.off b.len)

/-- Marks the written units of bound ranges dirty (R176). -/
def markDirty (s : State) (p off n : Nat) : State :=
  { s with tsDirty := (List.range ((off % 64 + n + 63) / 64)).foldl (fun m i =>
      let u := off / 64 * 64 + i * 64
      let lo := max off u
      if s.bound p lo (min (off + n) (u + 64) - lo) then Sparse.put (fun _ => false) m (tsKey p u / 64) true else m) s.tsDirty }

/-- A write of the tile store. A write of a whole 256-byte unit sets its poison; a part only adds poison (R61, R179). Words
written whole are sound again. -/
def tsWrite (s : State) (p off : Nat) (bs : List Byte) (poison : Bool) : State :=
  let whole (u : Nat) : Bool := decide (off ≤ u) && decide (u + 256 ≤ off + bs.length)
  let s := s.strike (tsWindow + tsKey p off) bs.length
  let t := { s with
    ts := putBytes s.ts (tsKey p off) bs
    tsPoison := (List.range ((off % 256 + bs.length + 255) / 256)).foldl (fun m i =>
      let u := off / 256 * 256 + i * 256
      let old := Sparse.get (fun _ => false) m (tsKey p u / 256)
      Sparse.put (fun _ => false) m (tsKey p u / 256) (if whole u then poison else poison || old)) s.tsPoison
    tsFlips := Sparse.drop (fun k => within (k * 8) 8 (tsKey p off) bs.length) s.tsFlips }
  t.markDirty p off bs.length

/-- Zeros over a range of a tile store (R132, R159), with its dirty bits and poison. -/
def tsZero (s : State) (p off n : Nat) : State :=
  { s with
    ts := Sparse.drop (fun k => within k 1 (tsKey p off) n) s.ts
    tsPoison := Sparse.drop (fun k => within (k * 256) 256 (tsKey p off) n) s.tsPoison
    tsDirty := Sparse.drop (fun k => within (k * 64) 64 (tsKey p off) n) s.tsDirty
    tsFlips := Sparse.drop (fun k => within (k * 8) 8 (tsKey p off) n) s.tsFlips }

/-- The range lies wholly within one context's T0 claims; adjacent claims together count. -/
def inClaims (s : State) (id off n : Nat) : Bool :=
  (List.range ((off % 65536 + n + 65535) / 65536)).all (fun i =>
    (s.ctx id).claims.any (fun c => c.tier == 0 && within ((off / 65536 + i) * 65536) 65536 c.addr c.bytes))

/-! ### Claims and charges (R159, R175) -/

def claimed (s : State) (id tier : Nat) : Nat :=
  ((s.ctx id).claims.filter (fun c => c.tier == tier)).foldl (fun n c => n + c.bytes) 0

/-- The charge of a context in a tier, in units of 64 KiB (R175). -/
def charge (s : State) (id tier : Nat) : Nat :=
  match tier with
  | 0 => s.fld (a_PT_CTXSTAT (id / 256) (id % 256)) PT_CTXSTAT_T0_USED
  | 1 => s.fld (a_PT_CTXUSE (id / 256) (id % 256)) PT_CTXUSE_T1_USED
  | _ => s.fld (a_PT_CTXUSE (id / 256) (id % 256)) PT_CTXUSE_T2_USED

def setCharge (s : State) (id tier n : Nat) : State :=
  match tier with
  | 0 => s.setFld (a_PT_CTXSTAT (id / 256) (id % 256)) PT_CTXSTAT_T0_USED n
  | 1 => s.setFld (a_PT_CTXUSE (id / 256) (id % 256)) PT_CTXUSE_T1_USED n
  | _ => s.setFld (a_PT_CTXUSE (id / 256) (id % 256)) PT_CTXUSE_T2_USED n

/-- The quota of a context in a tier, in units of 64 KiB (R133, R175). -/
def quota (s : State) (id tier : Nat) : Nat :=
  let q := a_PT_CTXQUOTA (id / 256) (id % 256)
  match tier with
  | 0 => s.fld q PT_CTXQUOTA_T0_Q
  | 1 => s.fld q PT_CTXQUOTA_T1_Q * 1024
  | _ => s.fld q PT_CTXQUOTA_T2_Q * 1024

/-! ### Writing records -/

/-- The dump and ring key index (R386). -/
def keySYS : Nat := 6144
def keyBANJO : Nat := 6145
def keyOPERATOR : Nat := 6146
def keyDEBUG : Nat := 6147

/-- The bit of FQ_OVF.SUMMARY set and the count raised for a record that is lost (R334). -/
def loseRecord (s : State) (ovf : Nat) (r : FRec) : State :=
  let t := s.setFld ovf FQ_OVF_SUMMARY (natSetBit (s.fld ovf FQ_OVF_SUMMARY) r.cls true)
  (t.bump ovf FQ_OVF_COUNT 1).logVolatile (r.words 0)

/-- Writes a record at the tail of the device queue, or loses it when the queue is full (R334, R336). -/
def toDevice (s : State) (r : FRec) : State :=
  let tail := s.fld a_FQ_DEVTAIL FQ_DEVTAIL_TAIL
  let head := s.fld a_FQ_DEVHEAD FQ_DEVHEAD_HEAD
  if (tail + 65536 - head) % 65536 = 256 then s.loseRecord a_FQ_DEVOVF r
  else
    let ws := r.words (1 - natBits tail 8 8)
    ({ s with devRing := Sparse.put (fun _ => []) s.devRing (tail % 256) ws }.setFld a_FQ_DEVTAIL FQ_DEVTAIL_TAIL
      (tail + 1)).logVolatile ws

/-- The stack that holds a partition's ring refuses requests (R333, R340). -/
def ringAway (s : State) (p : Nat) : Bool := s.stackOut (stackOf (s.ringBase p))

/-- Writes a record at the tail of a partition's ring, or loses it when the ring is full (R331, R334). -/
def ringWrite (s : State) (p : Nat) (r : FRec) : State :=
  let tail := s.fld (a_FQ_TAIL p) FQ_TAIL_TAIL
  let head := s.fld (a_FQ_HEAD p) FQ_HEAD_HEAD
  if (tail + 65536 - head) % 65536 = 1024 then s.loseRecord (a_FQ_OVF p) r
  else
    let ws := r.words (1 - natBits tail 10 10)
    ((s.writeMem keySYS (s.ringBase p + tail % 1024 * 64) (bytesOfWords ws) false).setFld (a_FQ_TAIL p) FQ_TAIL_TAIL
      (tail + 1)).logVolatile ws

/-- A record that reaches a partition's queue: the device queue while the ring is disabled, the hold of 64 while the
ring's stack is away, else the ring (R331, R333). DESIGN CHOICE, unsafe (log entry 18). -/
def toPart (s : State) (p : Nat) (r : FRec) : State :=
  if !s.ringOn p then s.toDevice r
  else if s.ringAway p || !(s.part p).hold.isEmpty || !(s.part p).fatalHold.isEmpty then
    (if (s.part p).hold.length < 64 then s.modPart p (fun x => { x with hold := x.hold ++ [r] })
     else s.loseRecord (a_FQ_OVF p) r)
  else s.ringWrite p r

/-- Sends a record to its queue. -/
def toQueue (s : State) (q : FaultQueue) (r : FRec) : State :=
  match q with
  | .part p => s.toPart p r
  | .device => s.toDevice r

/-- The fatal slot a record takes: the lowest free of 0 to 14, else 15, which counts as replaced when it was valid
(R335). -/
def fatalSlot (valid : Nat) : Nat := ((List.range 15).find? (fun k => !natBit valid k)).getD 15

/-- Accounts for a fatal slot taken in FQ_FATAL or FQ_DEVFATAL. -/
def takeFatal (s : State) (reg : Nat) : State × Nat :=
  let v := s.fld reg FQ_FATAL_VALID
  let k := fatalSlot v
  let t := if natBit v k then s.bump reg FQ_FATAL_REPLACED 1 else s
  (t.setFld reg FQ_FATAL_VALID (natSetBit v k true), k)

/-- Writes a fatal record into a slot of a partition's ring region (R331, R335). -/
def fatalToRing (s : State) (p : Nat) (r : FRec) : State :=
  let (t, k) := s.takeFatal (a_FQ_FATAL p)
  t.writeMem keySYS (s.ringBase p + 65536 + k * 64) (bytesOfWords (r.words 1)) false

/-- A fatal record: its own fatal slot, a fatal slot of the device queue, and the persistent log (R335); held for the
partition's slot while the ring's stack is away (R333). -/
def raiseFatal (s : State) (q : FaultQueue) (r : FRec) : State :=
  let (t, k) := s.takeFatal a_FQ_DEVFATAL
  let ws := r.words 1
  let t := ({ t with devFatal := Sparse.put (fun _ => []) t.devFatal k ws }.logPersistent ws).logVolatile ws
  match q with
  | .device => t
  | .part p =>
    if !t.ringOn p then t
    else if t.ringAway p || !(t.part p).fatalHold.isEmpty then
      if (t.part p).fatalHold.length < 16 then t.modPart p (fun x => { x with fatalHold := x.fatalHold ++ [r] })
      else (t.modPart p (fun x => { x with fatalHold := x.fatalHold.take 15 ++ [r] })).bump (a_FQ_FATAL p)
        FQ_FATAL_REPLACED 1
    else t.fatalToRing p r

/-- Raises a record: a fatal record is written at once, a RECOVERY record goes to its queue at once, a non-fatal FAULT
event joins an agreeing held record or is held for 10 µs (R424). Answers its RSEQ. -/
def raise (s : State) (q : FaultQueue) (r : FRec) : State × Nat :=
  let r := { r with time := s.dieNow r.die }
  if r.fatal then
    let (t, n) := s.takeRseq q
    (t.raiseFatal q { r with rseq := n }, n)
  else if r.kind ≠ 0 then
    let (t, n) := s.takeRseq q
    (t.toQueue q { r with rseq := n }, n)
  else s.report q r

/-- Raises a record whose number nobody needs. -/
def fault (s : State) (q : FaultQueue) (r : FRec) : State := (s.raise q r).1

/-- A PROTO, SEC or CONFIG_MISMATCH record for an access to a partition's registers. -/
def faultPart (s : State) (p cls : Nat) : State := s.fault (pq p) (s.recordP cls p 27)

/-- As faultPart, for a register of no partition. -/
def faultDev (s : State) (cls die unit : Nat) : State := s.fault .device { s.record cls with die := die, unit := unit }

end State

/-- The outcome type of a meaning. -/
abbrev Out' := Host.Outcome State Fault Refusal

end Sys2Proof.Machine
end

