-- ==== Sys2Proof/Machine/Caches.lean ====
section
/-! DEFINITION. The caches of the Headstock and the directories of the homes as plain structures (R223, R225, R229–R235,
R243–R247): places, fills and replacement, and what a non-caching read does to the slice it passes. The messages between agents
and homes are in Machine/Coherence.lean. -/

namespace Sys2Proof.Machine

/-- Request codes of homes (R248); a recall is the home's own (R246). -/
def rqRdS : Nat := 0
def rqRdX : Nat := 1
def rqUpg : Nat := 2
def rqRdNa : Nat := 3
def rqWrInv : Nat := 4
def rqRecall : Nat := 5

/-- Snoop codes (R248): S, I, PEEK, broadcast of a line, sweep of a bucket. -/
def snS : Nat := 0
def snI : Nat := 1
def snPeek : Nat := 2
def snBi : Nat := 3
def snSweep : Nat := 4

/-- The slice of a line and its set there (R229); its sets in an L2 of 2,048 sets and an L1D of 128 (R225). -/
def sliceOf (u : Nat) : Nat := (List.range 11).foldl (fun x k => x ^^^ natBits u (5 * k + 10) (5 * k + 6)) 0
def sliceSet (u : Nat) : Nat := natBits u 23 11
def l2Set (u : Nat) : Nat := natBits u 16 6
def l1Set (u : Nat) : Nat := natBits u 12 6

/-- Requester classes beside the quads (R232). -/
def clsAccel : Nat := 26
def clsHost : Nat := 27
def clsBanjo : Nat := 28
def clsFabric : Nat := 29

/-- Addresses from here on name another device's memory: T3 (R200, R227). -/
def remoteBase : Nat := 2 ^ 45

namespace State

def modHome (s : State) (h : Nat) (f : Home → Home) : State := s.setHome h (f (s.home h))
def modAgent (s : State) (a : Nat) (f : Agent → Agent) : State := s.setAgent a (f (s.agent a))
def modCore (s : State) (c : Nat) (f : CoreSt → CoreSt) : State := s.setCore c (f (s.core c))

/-- The physical core and quad of a logical core (R223). -/
def physOf (s : State) (c : Nat) : Nat := s.fld (a_HS_CORE_CEIL c) HS_CORE_CEIL_PHYS
def quadOf (s : State) (c : Nat) : Nat := s.physOf c / 4
def coresOf (s : State) (q : Nat) : List Nat := (List.range 96).filter (fun c => s.quadOf c == q)

/-- The domain of a caching agent. -/
def agentDom (s : State) (a : Nat) : Nat := if a < 96 then domQuad (s.quadOf a) else domSc ((a - 96) / 8)

/-- HO_DEAD (R258, R269). -/
def isDead (s : State) (a : Nat) : Bool :=
  if a < 64 then natBit (s.rd a_HO_DEAD0).toNat a else natBit (s.rd a_HO_DEAD1).toNat (a - 64)

/-! ### Lines of agents -/

def lineOf (s : State) (a u : Nat) : Option Line := (s.agent a).lines.find? (fun l => l.addr == u)

/-- Drops an agent's copy of a line, in a slice with its way. -/
def dropLine (s : State) (a u : Nat) : State :=
  let t := s.modAgent a (fun x => { x with lines := x.lines.filter (fun l => l.addr != u) })
  if a < 96 then t
  else t.setSlice (a - 96) { t.slice (a - 96) with lru := (t.slice (a - 96)).lru.filter (fun e => e.2 != u) }

/-- Places a line in an agent, replacing its copy. -/
def putLine (s : State) (a : Nat) (l : Line) : State :=
  s.modAgent a (fun x => { x with lines := x.lines.filter (fun k => k.addr != l.addr) ++ [l] })

/-! ### Directory (R245, R246). It lists entries least recently used first. -/

def dirOf (s : State) (h u : Nat) : Option DirState := ((s.home h).dir.find? (fun e => e.1 == u)).map (fun e => e.2)
def bucketSet (s : State) (h u : Nat) : Bool := (s.home h).buckets.contains (bucketOf u)
def dirRemove (s : State) (h u : Nat) : State := s.modHome h (fun x => { x with dir := x.dir.filter (fun e => e.1 != u) })

/-- Sets a line's entry, as the most recently used one. -/
def dirPut (s : State) (h u : Nat) (d : DirState) : State :=
  s.modHome h (fun x => { x with dir := x.dir.filter (fun e => e.1 != u) ++ [(u, d)] })

/-- The agents without HO_DEAD that may hold lines. -/
def liveAgents (s : State) : List Nat := (List.range 128).filter (fun a => !s.isDead a && s.domOn (s.agentDom a))

/-- A sweep begins when more than 4,096 bucket bits are set (R247). -/
def startSweep (s : State) (h : Nat) : State :=
  let x := s.home h
  if x.sweep.isSome || x.buckets.length ≤ 4096 then s
  else match smallest x.buckets with
    | none => s
    | some b =>
      let as := s.liveAgents
      let t := (s.modHome h (fun x => { x with sweep := some (b, as), sweepAt := s.now })).bump (nakReg h) HO_NAKCNT_BROADCASTS 1
      { t with net := t.net ++ as.map (fun a => CMsg.snoop h a b snSweep) }

/-- Sets the bucket bit of a line (R246). -/
def setBucket (s : State) (h u : Nat) : State :=
  if s.bucketSet h u then s
  else (s.modHome h (fun x => { x with buckets := insertBy (fun b => b) (bucketOf u) x.buckets })).startSweep h

end State

/-- What a home does about a directory way for a line (R246): it has one, or its set has room; a SHARED entry goes and its
bucket bit is set; an OWNED entry is recalled first; every way is BUSY. -/
inductive DirWay where
  | free
  | evict (line : Nat)
  | recall (line owner : Nat)
  | wait
deriving DecidableEq, Repr

namespace State

/-- The way of a line's entry; the least recently used one that is not BUSY makes room (R246). -/
def wayFor (s : State) (h u : Nat) : DirWay :=
  let same := (s.home h).dir.filter (fun e => Config.dirSet (e.1 / 64) == Config.dirSet (u / 64))
  if (s.dirOf h u).isSome || decide (same.length < 16) then .free
  else if (s.home h).txns.any (fun t => t.req == rqRecall && same.any (fun e => e.1 == t.addr)) then .wait
  else match same.find? (fun e => !s.busy h e.1) with
    | none => .wait
    | some (v, .shared _) => .evict v
    | some (v, .owned a) => .recall v a

/-- Makes room for a line where that needs no snoop. -/
def takeWay (s : State) (h u : Nat) : Option State :=
  match s.wayFor h u with
  | .free => some s
  | .evict v => some ((s.dirRemove h v).setBucket h v)
  | .recall _ _ => none
  | .wait => none

/-- An agent gave up a line: it leaves the entry (R246), and what an open transaction leaves to it. -/
def dirLeave (s : State) (h a u : Nat) : State :=
  if s.busy h u then
    s.modHome h (fun x => { x with txns := x.txns.map (fun t =>
      if t.addr = u then { t with keep := t.keep.filter (fun k => k != a) } else t) })
  else match s.dirOf h u with
    | some (.owned o) => if o = a then s.dirRemove h u else s
    | some (.shared as) =>
      let rest := as.filter (fun x => x != a)
      if rest = [] && !s.bucketSet h u then s.dirRemove h u else s.dirPut h u (.shared rest)
    | none => s

/-- An agent gives up its copy of a line; no home tracks T3 lines (R242). -/
def forgetLine (s : State) (a u : Nat) : State :=
  let t := s.dropLine a u
  if remoteBase ≤ u then t else t.dirLeave (homeOf u) a u

/-! ### Slices (R231, R233–R235) -/

/-- Requests for a line look in its slice: the slice is on and not dead (R235, R260). -/
def sliceOn (s : State) (u : Nat) : Bool := s.alive (domSc (sliceOf u / 8)) && !s.isDead (96 + sliceOf u)

/-- A class may allocate in the slice of a line (R233, R235). -/
def mayAllocate (s : State) (cls u : Nat) : Bool := s.fld (a_SC_WAYMASK cls) SC_WAYMASK_MASK != 0 && s.sliceOn u

/-- A line's way is WRITING: it waits for the write-back (R231). -/
def writing (s : State) (u : Nat) : Bool := (s.slice (sliceOf u)).waits.any (fun w => w.addr == u)

/-- A slice's line becomes its most recently used one (R233). -/
def usedLine (s : State) (m u : Nat) : State :=
  let x := s.slice m
  s.setSlice m { x with lru := x.lru.filter (fun e => e.2 != u) ++ x.lru.filter (fun e => e.2 == u) }

/-- A slice fills a line in a permitted way of its set: the lowest-numbered invalid one, else the least recently used one, whose
line is dropped, or written back first when dirty (R231, R233). A class that has lost its ways meanwhile fills nothing; none
where every permitted way is WRITING. -/
def sliceFill (s : State) (m cls : Nat) (l : Line) : Option State :=
  let x := s.slice m
  let mask := s.fld (a_SC_WAYMASK cls) SC_WAYMASK_MASK
  let same := x.lru.filter (fun e => sliceSet e.2 == sliceSet l.addr)
  let place (t : State) (w : Nat) : State :=
    (t.setSlice m { t.slice m with lru := (t.slice m).lru ++ [(w, l.addr)] }).putLine (96 + m) l
  if mask = 0 then some (s.forgetLine (96 + m) l.addr)
  else match (List.range 16).find? (fun w => natBit mask w && !same.any (fun e => e.1 == w)) with
  | some w => some (place s w)
  | none =>
    match same.find? (fun e => natBit mask e.1 && !s.writing e.2) with
    | none => none
    | some (w, v) =>
      if (s.lineOf (96 + m) v).any (fun k => k.st == LineState.m) then
        some (s.setSlice m { x with waits := x.waits ++ [{ addr := v, way := w, fill := l }] })
      else some (place (s.forgetLine (96 + m) v) w)

/-- No message about a line is on its way. -/
def calm (s : State) (u : Nat) : Bool :=
  s.net.all (fun m => match m with
    | .req _ _ _ _ _ => true
    | .snoop _ _ b code => code == snSweep || b != u
    | .rsp _ _ b _ _ _ _ => b != u
    | .grant _ _ b _ _ _ => b != u
    | .nak _ _ _ => true)

/-- A slice reads a line on its own behalf, as caching agent 96 + m, in one step (R234, R249): a dirty copy goes to memory, its
holder keeps it in S. A copy that an agent holds under another key leaves (R389). It fills nothing where the line is not at rest
or no way is free. -/
def sliceRead (s : State) (cls k u : Nat) : State :=
  let h := homeOf u
  let m := sliceOf u
  let a := 96 + m
  if !s.calm u || s.busy h u || s.shut h u || s.keyAt k == 0 || s.inReserve u then s
  else
    let own : State := match s.lineOf a u with
      | some l => (if l.st = .m then s.flushLine l else s).forgetLine a u
      | none => s
    let t : State := match own.dirOf h u with
      | some (.owned o) =>
        match own.lineOf o u with
        | none => own.dirRemove h u
        | some l =>
          let v : State := if l.st = .m then own.flushLine l else own
          if l.key = k then (v.putLine o { l with st := .s }).dirPut h u (.shared [o])
          else (v.dropLine o u).dirRemove h u
      | some (.shared as) =>
        let gone := as.filter (fun b => (own.lineOf b u).any (fun l => l.key != k))
        (gone.foldl (fun v b => v.dropLine b u) own).dirPut h u (.shared (as.filter (fun b => !gone.contains b)))
      | none => own
    let as : List Nat := match t.dirOf h u with
      | some (.shared as) => as
      | _ => []
    let free := as.isEmpty && !t.bucketSet h u
    let way := if (t.dirOf h u).isNone && t.bucketSet h u then some t else t.takeWay h u
    match way with
    | none => s
    | some v =>
      let l : Line := { addr := u, key := k, st := if free then .e else .s, data := (t.readUnit k u).1,
                        poison := (t.readUnit k u).2, l1 := false }
      let v := if free then v.dirPut h u (.owned a)
        else if (v.dirOf h u).isSome then v.dirPut h u (.shared (as ++ [a])) else v
      (v.sliceFill m cls l).getD s

/-- What a non-caching read of a range by a class leaves in the slices it passes: a hit counts as a use; a line under another
key index goes; a miss of a class that may allocate fills (R233, R234, R389).
DEDUCED, unsafe (log entry 25): the slice's request and its snoops are one step. -/
def passSlices (s : State) (cls k a n : Nat) : State :=
  if s.fld (a_SC_WAYMASK cls) SC_WAYMASK_MASK = 0 then s
  else (unitsOf a n).foldl (fun t u =>
    let m := sliceOf u
    if !t.mayAllocate cls u then t
    else match t.lineOf (96 + m) u with
      | some l => if l.key = k then t.usedLine m u else t.sliceRead cls k u
      | none => t.sliceRead cls k u) s

/-- What a read of memory by a non-caching agent of a class leaves (R179–R181, R234). -/
def readAs (s : State) (cls k a n : Nat) : State × Option Nat :=
  let x := s.touchMem k a n
  (x.1.passSlices cls k a n, x.2)

end State
end Sys2Proof.Machine
end

