-- ==== Sys2Proof/Machine/Operands.lean ====
section
/-! DEFINITION. Descriptor fields (R147–R163), reserved runs and the choice of the reported field (R146), length sources
(R148, R125, R126), and the spans of translated operands (R193, R194). -/

namespace Sys2Proof.Machine

/-- Word q of a descriptor. -/
def Desc.qw (d : Desc) (q : Nat) : Nat := (d.words.getD q 0).toNat

/-- Bits hi:lo of word q. -/
def Desc.f (d : Desc) (q hi lo : Nat) : Nat := natBits (d.qw q) hi lo

/-- Bit b of word q. -/
def Desc.b (d : Desc) (q b : Nat) : Bool := natBit (d.qw q) b

def Desc.kind (d : Desc) : Nat := d.f 0 63 60
def Desc.predEn (d : Desc) : Bool := d.b 0 59
def Desc.predInv (d : Desc) : Bool := d.b 0 58
def Desc.predIdx (d : Desc) : Nat := d.f 0 57 50
def Desc.dep (d : Desc) : Bool := d.b 0 49
def Desc.irq (d : Desc) : Bool := d.b 0 48
def Desc.user (d : Desc) : Nat := d.f 0 47 32

def kMOVE : Nat := 0
def kMM : Nat := 1
def kVEC : Nat := 2
def kDISPATCH : Nat := 3
def kSIGNAL : Nat := 4
def kWAIT : Nat := 5
def kREFRESH : Nat := 6
def kFLUSH : Nat := 7
def kEVICT : Nat := 8
def kALLOC : Nat := 9
def kPHASE : Nat := 10
def kMARK : Nat := 11
def kFENCE : Nat := 12

/-! MOVE (R149). -/
def Desc.mvSrc (d : Desc) : Nat := d.qw 1
def Desc.mvDst (d : Desc) : Nat := d.qw 2
def Desc.mvCount (d : Desc) : Nat := d.f 3 63 32
def Desc.mvDyn (d : Desc) : Bool := d.b 3 31
def Desc.mvLsrc (d : Desc) : Nat := d.f 3 30 18
def Desc.mvMode (d : Desc) : Nat := d.f 3 17 15
def Desc.mvSrcTs (d : Desc) : Bool := d.b 3 14
def Desc.mvDstTs (d : Desc) : Bool := d.b 3 13
def Desc.mvBind (d : Desc) : Bool := d.b 3 12
def Desc.mvRow (d : Desc) : Nat := d.f 4 63 32
def Desc.mvList (d : Desc) : Nat := d.f 4 25 0
def Desc.mvSrcStride (d : Desc) : Nat := d.qw 5
def Desc.mvDstStride (d : Desc) : Nat := d.qw 6

/-! MM (R151). -/
def Desc.mmA (d : Desc) : Nat := d.f 1 25 0
def Desc.mmB (d : Desc) : Nat := d.f 1 57 32
def Desc.mmC (d : Desc) : Nat := d.f 2 25 0
def Desc.mmCEn (d : Desc) : Bool := d.b 2 26
def Desc.mmD (d : Desc) : Nat := d.f 2 57 32
def Desc.mmM (d : Desc) : Nat := d.f 3 63 48
def Desc.mmN (d : Desc) : Nat := d.f 3 47 32
def Desc.mmL (d : Desc) : Nat := d.f 3 31 0
def Desc.mmAFmt (d : Desc) : Nat := d.f 4 63 60
def Desc.mmBFmt (d : Desc) : Nat := d.f 4 59 56
def Desc.mmCFmt (d : Desc) : Nat := d.f 4 55 52
def Desc.mmDFmt (d : Desc) : Nat := d.f 4 51 48
def Desc.mmRound (d : Desc) : Nat := d.f 4 47 46
def Desc.mmSat (d : Desc) : Bool := d.b 4 45
def Desc.mmSparse (d : Desc) : Nat := d.f 4 44 43
def Desc.mmTbm (d : Desc) : Nat := d.f 4 42 39
def Desc.mmTbn (d : Desc) : Nat := d.f 4 38 35
def Desc.mmTbl (d : Desc) : Nat := d.f 4 34 31
def Desc.mmMDyn (d : Desc) : Bool := d.b 5 63
def Desc.mmMLsrc (d : Desc) : Nat := d.f 5 62 50
def Desc.mmNDyn (d : Desc) : Bool := d.b 5 49
def Desc.mmNLsrc (d : Desc) : Nat := d.f 5 48 36
def Desc.mmMask (d : Desc) : Nat := d.f 5 19 0
def Desc.mmStream (d : Desc) : Nat := d.f 6 31 0

/-! VEC (R152). -/
def Desc.vIn0 (d : Desc) : Nat := d.f 1 25 0
def Desc.vIn1 (d : Desc) : Nat := d.f 1 57 32
def Desc.vIn2 (d : Desc) : Nat := d.f 2 25 0
def Desc.vOut (d : Desc) : Nat := d.f 2 57 32
def Desc.vCount (d : Desc) : Nat := d.f 3 63 32
def Desc.vInner (d : Desc) : Nat := d.f 3 31 16
def Desc.vDyn (d : Desc) : Bool := d.b 3 15
def Desc.vLsrc (d : Desc) : Nat := d.f 3 14 2
def Desc.vOp (d : Desc) : Nat := d.f 4 63 56
def Desc.vF0 (d : Desc) : Nat := d.f 4 55 52
def Desc.vF1 (d : Desc) : Nat := d.f 4 51 48
def Desc.vF2 (d : Desc) : Nat := d.f 4 47 44
def Desc.vFo (d : Desc) : Nat := d.f 4 43 40
def Desc.vRound (d : Desc) : Nat := d.f 4 39 38
def Desc.vSat (d : Desc) : Bool := d.b 4 37
def Desc.vAxis (d : Desc) : Nat := d.f 4 36 36
def Desc.vSlot (d : Desc) : Nat := d.f 4 35 33
def Desc.vMask (d : Desc) : Nat := d.f 4 32 29
def Desc.vImm0 (d : Desc) : Nat := d.f 5 31 0
def Desc.vImm1 (d : Desc) : Nat := d.f 5 63 32
def Desc.vTable (d : Desc) : Nat := d.f 6 57 32
def Desc.vStream (d : Desc) : Nat := d.f 6 31 0

/-! DISPATCH (R153). -/
def Desc.dScore (d : Desc) : Nat := d.f 1 25 0
def Desc.dElist (d : Desc) : Nat := d.f 1 57 32
def Desc.dSpill (d : Desc) : Nat := d.f 2 25 0
def Desc.dClist (d : Desc) : Nat := d.f 2 57 32
def Desc.dCount (d : Desc) : Nat := d.f 3 57 32
def Desc.dE (d : Desc) : Nat := d.f 3 28 16
def Desc.dT (d : Desc) : Nat := d.f 3 15 0
def Desc.dFmt (d : Desc) : Nat := d.f 4 63 60
def Desc.dK (d : Desc) : Nat := d.f 4 59 56
def Desc.dGate (d : Desc) : Nat := d.f 4 55 54
def Desc.dOver (d : Desc) : Nat := d.f 4 53 52
def Desc.dCap (d : Desc) : Nat := d.f 4 51 36
def Desc.dSpillCap (d : Desc) : Nat := d.f 4 35 20
def Desc.dDyn (d : Desc) : Bool := d.b 4 19
def Desc.dLsrc (d : Desc) : Nat := d.f 4 18 6
def Desc.dExpFirst (d : Desc) : Nat := d.f 5 63 52
def Desc.dWin (d : Desc) : Nat := d.f 5 51 43
def Desc.dPred (d : Desc) : Nat := d.f 5 42 35
def Desc.dLenEn (d : Desc) : Bool := d.b 5 34
def Desc.dLen (d : Desc) : Nat := d.f 5 33 28
def Desc.dSemEn (d : Desc) : Bool := d.b 5 27
def Desc.dSemPart (d : Desc) : Nat := d.f 5 26 22
def Desc.dSem (d : Desc) : Nat := d.f 5 21 10

/-! SIGNAL (R154) and WAIT (R155). -/
def Desc.sgOp (d : Desc) : Nat := d.f 1 63 60
def Desc.sgScope (d : Desc) : Nat := d.f 1 59 58
def Desc.sgPart (d : Desc) : Nat := d.f 1 57 53
def Desc.sgSem (d : Desc) : Nat := d.f 1 52 41
def Desc.sgCmp (d : Desc) : Nat := d.f 2 63 32
def Desc.sgValue (d : Desc) : Nat := d.f 2 31 0
def Desc.wtSrc (d : Desc) : Nat := d.f 1 63 62
def Desc.wtScope (d : Desc) : Nat := d.f 1 61 60
def Desc.wtCond (d : Desc) : Nat := d.f 1 59 57
def Desc.wtTest (d : Desc) : Bool := d.b 1 56
def Desc.wtPredOut (d : Desc) : Nat := d.f 1 55 48
def Desc.wtPart (d : Desc) : Nat := d.f 1 47 43
def Desc.wtSem (d : Desc) : Nat := d.f 1 42 31
def Desc.wtTimeout (d : Desc) : Nat := d.f 2 63 32
def Desc.wtValue (d : Desc) : Nat := d.f 2 31 0
def Desc.flagVa (d : Desc) : Nat := d.qw 3

/-! REFRESH, FLUSH, EVICT (R158), ALLOC (R159), PHASE (R160), MARK (R161). -/
def Desc.rfOff (d : Desc) : Nat := d.f 1 25 0
def Desc.rfBytes (d : Desc) : Nat := d.f 2 31 0
def Desc.alRelease (d : Desc) : Bool := d.b 1 63
def Desc.alTier (d : Desc) : Nat := d.f 1 62 61
def Desc.alAddr (d : Desc) : Nat := d.qw 2
def Desc.alBytes (d : Desc) : Nat := d.f 3 47 0
def Desc.phTag (d : Desc) : Nat := d.f 1 63 58
def Desc.phClass (d : Desc) : Nat := d.f 1 57 56
def Desc.phExpect (d : Desc) : Nat := d.f 1 55 32
def Desc.mkId (d : Desc) : Nat := d.f 1 63 32
def Desc.mkReplay (d : Desc) : Bool := d.b 1 31
def Desc.mkCheckpoint (d : Desc) : Bool := d.b 1 30

/-! ### Reserved bits and the reported field (R146) -/

/-- The bit ranges each kind names, by word: (word, high, low). Every other bit is RSV. -/
def kindFields (kind : Nat) : List (Nat × Nat × Nat) :=
  [(0, 63, 60), (0, 59, 59), (0, 58, 58), (0, 57, 50), (0, 49, 49), (0, 48, 48), (0, 47, 32)] ++
  match kind with
  | 0 => [(1, 63, 0), (2, 63, 0), (3, 63, 12), (4, 63, 32), (4, 25, 0), (5, 63, 0), (6, 63, 0)]
  | 1 => [(1, 57, 32), (1, 25, 0), (2, 57, 32), (2, 26, 0), (3, 63, 0), (4, 63, 31), (5, 63, 36), (5, 19, 0),
      (6, 31, 0)]
  | 2 => [(1, 57, 32), (1, 25, 0), (2, 57, 32), (2, 25, 0), (3, 63, 2), (4, 63, 29), (5, 63, 0), (6, 57, 32),
      (6, 31, 0)]
  | 3 => [(1, 57, 32), (1, 25, 0), (2, 57, 32), (2, 25, 0), (3, 57, 32), (3, 28, 0), (4, 63, 6), (5, 63, 10)]
  | 4 => [(1, 63, 41), (2, 63, 0), (3, 63, 0)]
  | 5 => [(1, 63, 31), (2, 63, 0), (3, 63, 0)]
  | 6 => [(1, 25, 0), (2, 31, 0)]
  | 7 => [(1, 25, 0), (2, 31, 0)]
  | 8 => [(1, 25, 0), (2, 31, 0)]
  | 9 => [(1, 63, 61), (2, 63, 0), (3, 47, 0)]
  | 10 => [(1, 63, 32)]
  | 11 => [(1, 63, 30)]
  | _ => []

/-- Bit b of word q is reserved in a kind. -/
def isRsv (kind q b : Nat) : Bool := !(kindFields kind).any (fun r => r.1 == q && decide (b ≤ r.2.1) && decide (r.2.2 ≤ b))

/-- The lowest bit of the reserved run that holds bit b: it walks down while the bit below is reserved. -/
def rsvLow (kind q : Nat) : Nat → Nat
  | 0 => 0
  | b + 1 => if isRsv kind q b then rsvLow kind q b else b + 1

/-- The positions of the reserved runs of a descriptor that hold a nonzero bit. -/
def Desc.badRsv (d : Desc) : List Nat :=
  (List.range 8).flatMap (fun q => if d.qw q = 0 then [] else
    (List.range 64).filterMap (fun b =>
      if d.b q b && isRsv d.kind q b then some (64 * q + rsvLow d.kind q b) else none))

/-- The positions whose condition failed. -/
def failed (checks : List (Bool × Nat)) : List Nat := checks.filterMap (fun c => if c.1 then some c.2 else none)

/-- An illegal length source field (R148). -/
def badLsrc (l : Nat) : Bool := !natBit l 12 && natBits l 11 6 != 0

/-- A tile is at most this long (R170). -/
def maxTile : Nat := 262208

namespace State

/-- A scope covers a partition and a semaphore's partition (R165). -/
def scopeCovers (scope p part : Nat) : Bool :=
  match scope with
  | 0 => p == part
  | 1 => burlOf p == burlOf part
  | _ => true

/-- A context's tenant may name semaphore i of partition p (R166). -/
def semAllowed (s : State) (tenant p i : Nat) : Bool :=
  let g := a_BD_SEMGRP p (i / 64)
  s.flag g BD_SEMGRP_VALID && s.fld g BD_SEMGRP_TENANT == tenant

/-- A dynamic length's source names a semaphore the context may not use (R166). -/
def badLsem (s : State) (id l : Nat) : Bool := natBit l 12 && !s.semAllowed (s.tenantOf id) (id / 256) (natBits l 11 0)

/-- The owner of predicate bit i (R122, R124): 0xFF and every value that names no licensed slot is unowned. -/
def predOwner (s : State) (p i : Nat) : Nat := natBits (s.rd (a_PT_PREDOWN p (i / 8))).toNat (i % 8 * 8 + 7) (i % 8 * 8)
def ownsPred (s : State) (id i : Nat) : Bool := s.predOwner (id / 256) i == id % 256 && s.slotOk (id % 256)
def predBit (s : State) (p i : Nat) : Bool := natBit (s.rd (a_PT_PRED p (i / 64))).toNat (i % 64)
def setPred (s : State) (p i : Nat) (v : Bool) : State :=
  let a := a_PT_PRED p (i / 64)
  s.wr a (BitVec.ofNat 64 (natSetBit (s.rd a).toNat (i % 64) v))

/-- The value a length source gives (R125, R148). -/
def lengthOf (s : State) (id l : Nat) : Nat :=
  if natBit l 12 then s.fld (a_BD_SEM (id / 256) (natBits l 11 0)) BD_SEM_VALUE
  else s.fld (a_SQ_LEN (id / 256) (id % 256) (natBits l 5 0)) SQ_LEN_LEN

/-- The value of a shape field at dispatch and whether it was clamped (R126). -/
def dynValue (s : State) (id : Nat) (dyn : Bool) (l bound : Nat) : Nat × Bool :=
  if dyn then (min (s.lengthOf id l) bound, decide (bound < s.lengthOf id l)) else (bound, false)

/-- Submission checks of a MOVE (R149). -/
def moveChecks (d : Desc) : List (Bool × Nat) :=
  let m := d.mvMode
  let rows := m == 2 || m == 3 || m == 4
  [(d.mvSrcTs && (decide (2 ^ 26 ≤ d.mvSrc) || (m == 1 && d.mvSrc % 64 != 0)), 64),
   (d.mvDstTs && (decide (2 ^ 26 ≤ d.mvDst) || (m == 1 && d.mvDst % 64 != 0)), 128),
   (d.mvCount == 0 || (m != 0 && decide (m ≤ 4) && decide (65536 < d.mvCount)), 224),
   (d.mvDyn && badLsrc d.mvLsrc, 210),
   (decide (4 < m), 207),
   (d.mvBind && (decide (1 < m) || d.mvSrcTs || !d.mvDstTs), 204),
   (rows && (d.mvRow == 0 || decide (16777216 < d.mvRow)), 288),
   ((m == 3 || m == 4) && d.mvList % 8 != 0, 256),
   ((m == 2 || m == 3) && decide (2 ^ 40 ≤ d.mvSrcStride), 320),
   ((m == 2 || m == 4) && decide (2 ^ 40 ≤ d.mvDstStride), 384)]

/-- Submission checks of a SIGNAL (R154, R165). -/
def signalChecks (s : State) (p : Nat) (d : Desc) : List (Bool × Nat) :=
  let fab := d.sgScope == 3
  [(decide (3 < d.sgOp), 124),
   (fab && d.sgOp != 1, 122),
   (!fab && !s.enabled d.sgPart, 117),
   (!fab && !scopeCovers d.sgScope p d.sgPart, 122),
   (fab && d.flagVa % 4 != 0, 192)]

/-- Submission checks of a WAIT (R155, R156, R165); own is its ring index. -/
def waitChecks (s : State) (p : Nat) (d : Desc) (own : Nat) : List (Bool × Nat) :=
  let src := d.wtSrc
  [(src == 0 && (d.wtScope == 3 || !scopeCovers d.wtScope p d.wtPart), 124),
   (src == 1 && d.wtScope != 3, 124),
   ((src == 0 && decide (4 < d.wtCond)) || (src == 1 && decide (3 < d.wtCond)), 121),
   (src == 3 && d.wtTest, 120),
   (src == 0 && !s.enabled d.wtPart, 107),
   (src == 3 && decide (255 < d.wtSem), 95),
   (src == 2 && (decide (65535 < d.wtValue) || d.wtValue == own), 128),
   (src == 1 && d.flagVa % 4 != 0, 192)]

/-- Submission checks of REFRESH, FLUSH and EVICT (R158). -/
def flushChecks (d : Desc) : List (Bool × Nat) :=
  [(d.rfOff % 256 != 0, 64), (d.rfBytes == 0 || decide (67108864 < d.rfBytes), 128)]

/-- Submission checks of an ALLOC (R159). -/
def allocChecks (d : Desc) : List (Bool × Nat) :=
  [(d.alTier == 3, 125),
   (d.alAddr % 65536 != 0 || (d.alTier == 0 && (decide (2 ^ 26 ≤ d.alAddr)
      || (!d.alRelease && decide (2 ^ 26 < d.alAddr + d.alBytes)))), 128),
   (d.alBytes == 0 || d.alBytes % 65536 != 0, 192)]

/-- The format fields of a descriptor, with their positions (R151–R153). -/
def fmtsNamed (d : Desc) : List (Nat × Nat) :=
  match d.kind with
  | 1 => [(d.mmAFmt, 316), (d.mmBFmt, 312), (d.mmCFmt, 308), (d.mmDFmt, 304)]
  | 2 => [(d.vF0, 308), (d.vF1, 304), (d.vF2, 300), (d.vFo, 296)]
  | 3 => [(d.dFmt, 316)]
  | _ => []

/-- The positions of the format fields that name code 0x2 or 0x5 to 0x9, which roughing service does not run (R367, R368). -/
def roughBad (s : State) (d : Desc) : List Nat :=
  if s.fld a_MG_BOOTSTAT MG_BOOTSTAT_LEVEL = 1 then
    failed ((fmtsNamed d).map (fun x => (x.1 == 2 || (decide (5 ≤ x.1) && decide (x.1 ≤ 9)), x.2)))
  else []

/-- FP4 and FP6 formats need the licence of R5; codes above 9 are no format (R83, R6). -/
def badFmt (s : State) (f : Nat) : Bool :=
  decide (9 < f) || ((f == 5 || f == 6 || f == 7) && !s.flag a_MG_LICENCE MG_LICENCE_FP46)

/-- Bits of an element of a format (R83). -/
def fmtBits (f : Nat) : Nat :=
  match f with
  | 0 => 32
  | 1 => 16
  | 2 => 16
  | 3 => 8
  | 4 => 8
  | 5 => 6
  | 6 => 6
  | 7 => 4
  | 8 => 8
  | _ => 4

/-- The operand pairs of an MM (R90). -/
def legalPair (a b : Nat) : Bool :=
  let mx (f : Nat) : Bool := decide (3 ≤ f) && decide (f ≤ 7)
  (mx a && mx b) || ((a == 8 || a == 9) && (b == 8 || b == 9)) || (a == 1 && b == 1) || (a == 2 && b == 2)

/-- Submission checks of an MM (R83, R90, R96, R107, R151). -/
def mmChecks (s : State) (d : Desc) : List (Bool × Nat) :=
  let wide := max (fmtBits d.mmAFmt) (fmtBits d.mmBFmt)
  let pair := !legalPair d.mmAFmt d.mmBFmt
  [(d.mmA % 64 != 0, 64), (d.mmB % 64 != 0, 96), (d.mmCEn && d.mmC % 64 != 0, 128), (d.mmD % 64 != 0, 160),
   (d.mmM == 0, 240), (d.mmN == 0, 224),
   (decide (d.mmL < 32) || decide (1048576 < d.mmL) || d.mmL % 32 != 0
      || (decide (d.mmAFmt ≤ 9) && decide (d.mmBFmt ≤ 9) && decide (wide ≤ 6) && d.mmL % 64 != 0), 192),
   (pair || s.badFmt d.mmAFmt, 316), (pair || s.badFmt d.mmBFmt, 312),
   (d.mmCEn && s.badFmt d.mmCFmt, 308), (s.badFmt d.mmDFmt, 304), (d.mmRound == 3, 302),
   (d.mmSparse == 3, 299),
   (d.mmTbm == 0 || decide (8 < d.mmTbm), 295), (d.mmTbn == 0 || decide (8 < d.mmTbn), 291),
   (d.mmTbl == 0 || decide (8 < d.mmTbl), 287),
   (d.mmMDyn && badLsrc d.mmMLsrc, 370), (d.mmNDyn && badLsrc d.mmNLsrc, 356), (d.mmMask == 0, 320)]

/-- The operation codes of a vector engine (R72). -/
def vecOp (op : Nat) : Bool :=
  decide (op ≤ 0x13) || op == 0x18 || op == 0x19 || op == 0x1A || op == 0x20 || op == 0x28 || op == 0x29

/-- How many input operands an operation reads (R72, R102). -/
def vecIns (op : Nat) : Nat :=
  match op with
  | 0x00 => 2
  | 0x01 => 2
  | 0x02 => 2
  | 0x03 => 3
  | 0x04 => 2
  | 0x05 => 2
  | 0x0A => 3
  | 0x0B => 2
  | 0x0C => 2
  | 0x19 => 3
  | 0x1A => 2
  | _ => 1

/-- Slot k of vector engine v holds a verified firmware table (R76). -/
def tabValid (s : State) (p v k : Nat) : Bool := natBit (s.fld (a_VE_TABVALID p) VE_TABVALID_VALID) (8 * v + k)

/-- Submission checks of a VEC (R72, R76, R83, R152). -/
def vecChecks (s : State) (p : Nat) (d : Desc) : List (Bool × Nat) :=
  let n := vecIns d.vOp
  [(!vecOp d.vOp, 312),
   (s.badFmt d.vF0, 308), (decide (2 ≤ n) && s.badFmt d.vF1, 304), (decide (3 ≤ n) && s.badFmt d.vF2, 300),
   (s.badFmt d.vFo, 296), (d.vRound == 3, 294),
   (d.vCount == 0, 224), (d.vInner == 0 || d.vCount % d.vInner != 0, 208), (d.vDyn && badLsrc d.vLsrc, 194),
   (d.vMask == 0, 285),
   (d.vOp == 0x28 && !(List.range 4).any (fun v => natBit d.vMask v && s.tabValid p v d.vSlot), 289),
   (d.vOp == 0x29 && d.vTable % 64 != 0, 416)]

/-- Submission checks of a DISPATCH (R116); a failed cross-field condition reports its lowest field (R146). -/
def dispatchChecks (s : State) (d : Desc) : List (Bool × Nat) :=
  [(decide (2 < d.dFmt), 316), (d.dT == 0 || decide (16384 < d.dT), 192), (d.dE == 0 || decide (4096 < d.dE), 208),
   (d.dK == 0 || decide (8 < d.dK), 312), (decide (d.dE < d.dK), 208), (d.dGate == 3, 310), (d.dOver == 3, 308),
   (decide (d.dCap < 0x40) || decide (0x1000 < d.dCap), 292), (d.dOver == 2 && d.dSpillCap == 0, 276),
   (d.dDyn && badLsrc d.dLsrc, 262), (decide (256 < d.dWin), 363), (decide (d.dE < d.dExpFirst + d.dWin), 208),
   (decide (256 < d.dPred + d.dWin), 355), (d.dLenEn && decide (64 < d.dLen + d.dWin), 348),
   (d.dSemEn && !s.enabled d.dSemPart, 342), (d.dSemEn && decide (4096 < d.dSem + d.dWin), 330)]

/-- The semaphores a descriptor names, with the position of the naming field (R148, R166): partition, number, field. -/
def semsNamed (p : Nat) (d : Desc) : List (Nat × Nat × Nat) :=
  let l (dyn : Bool) (src pos : Nat) : List (Nat × Nat × Nat) :=
    if dyn && natBit src 12 then [(p, natBits src 11 0, pos)] else []
  match d.kind with
  | 0 => l d.mvDyn d.mvLsrc 210
  | 1 => l d.mmMDyn d.mmMLsrc 370 ++ l d.mmNDyn d.mmNLsrc 356
  | 2 => l d.vDyn d.vLsrc 194
  | 3 => l d.dDyn d.dLsrc 262 ++
      (if d.dSemEn then (List.range d.dWin).map (fun i => (d.dSemPart, (d.dSem + i) % 4096, 330)) else [])
  | 4 => if d.sgScope = 3 then [] else [(d.sgPart, d.sgSem, 105)]
  | 5 => if d.wtSrc = 0 then [(d.wtPart, d.wtSem, 95)] else []
  | _ => []

/-- The ring size of a context. -/
def ringSize (s : State) (id : Nat) : Nat := 2 ^ s.fld (a_SQ_RINGCFG (id / 256) (id % 256)) SQ_RINGCFG_LOG2SIZE

/-! ### Spans of translated operands (R193, R194) -/

/-- The positions of the illegal fields that submission finds (R146), and whether R166 names a SEC fault. -/
def submissionBad (s : State) (id : Nat) (d : Desc) : List Nat × Bool :=
  let p := id / 256
  let own := d.index % s.ringSize id
  if 12 < d.kind then ((if d.f 0 31 0 = 0 then [] else [0]) ++ [60], false)
  else
    let checks :=
      match d.kind with
      | 0 => moveChecks d
      | 1 => s.mmChecks d
      | 2 => s.vecChecks p d
      | 3 => s.dispatchChecks d
      | 4 => s.signalChecks p d
      | 5 => s.waitChecks p d own
      | 6 => flushChecks d
      | 7 => flushChecks d
      | 8 => flushChecks d
      | 9 => allocChecks d
      | _ => []
    let sems := (semsNamed p d).filter (fun x => !s.semAllowed (s.tenantOf id) x.1 x.2.1)
    (d.badRsv ++ failed checks ++ sems.map (fun x => x.2.2), !sems.isEmpty)

/-- The operands of a descriptor that are translated: 0 SRC, 1 DST, 2 FLAG_VA, 3 ALLOC ADDR. -/
def translated (d : Desc) : List Nat :=
  match d.kind with
  | 0 => (if d.mvSrcTs then [] else [0]) ++ (if d.mvDstTs then [] else [1])
  | 4 => if d.sgScope == 3 then [2] else []
  | 5 => if d.wtSrc == 1 then [2] else []
  | 9 => if d.alTier == 0 then [] else [3]
  | _ => []

/-- The operand is a write. -/
def opWrites (d : Desc) (w : Nat) : Bool := w == 1 || (w == 2 && d.kind == kSIGNAL)

/-- The operand's first byte. -/
def opStart (d : Desc) : Nat → Nat
  | 0 => d.mvSrc
  | 1 => d.mvDst
  | 2 => d.flagVa
  | _ => d.alAddr

/-- Row geometry of an operand of a MOVE: rows, bytes of each, stride between their starts. SCATTER reads packed rows and
writes by token; GATHER the reverse (R149). -/
def opRows (d : Desc) (w : Nat) : Nat × Nat × Nat :=
  match d.mvMode, w with
  | 0, _ => (1, d.mvCount, 0)
  | 1, _ => (1, d.mvCount * maxTile, 0)
  | 2, 0 => (d.mvCount, d.mvRow, d.mvSrcStride)
  | 2, _ => (d.mvCount, d.mvRow, d.mvDstStride)
  | 3, 0 => (65536, d.mvRow, d.mvSrcStride)
  | 3, _ => (1, d.mvCount * d.mvRow, 0)
  | _, 0 => (1, d.mvCount * d.mvRow, 0)
  | _, _ => (65536, d.mvRow, d.mvDstStride)

/-- Rows, bytes and stride of any translated operand. -/
def opGeom (d : Desc) (w : Nat) : Nat × Nat × Nat :=
  if d.kind = kMOVE then opRows d w
  else if w = 2 then (1, 4, 0)
  else (1, d.alBytes, 0)

/-- The span is not split but cut (R194): TILE, GATHER and SCATTER. -/
def opUnsplit (d : Desc) : Bool := d.kind == kMOVE && (d.mvMode == 1 || d.mvMode == 3 || d.mvMode == 4)

/-- The least byte at or above c that an operand of these rows covers. -/
def nextNeeded (start rows bytes stride c : Nat) : Option Nat :=
  if c < start then some start
  else
    let r := if stride = 0 then 0 else min ((c - start) / stride) (rows - 1)
    if c < start + r * stride + bytes then some c
    else if r + 1 < rows then (if stride = 0 then none else some (start + (r + 1) * stride))
    else none

/-- The physical address of a virtual one in a list of extents. -/
def physical (exts : List Extent) (va : Nat) : Option (Extent × Nat) :=
  (exts.find? (fun e => within va 1 e.va e.len)).map (fun e => (e, e.pa + (va - e.va)))

/-- The runs of physical bytes behind [va, va + n): each with its extent, physical start and length. -/
def runsOf : List Extent → Nat → Nat → List (Extent × Nat × Nat)
  | [], _, _ => []
  | e :: es, va, n =>
    let lo := max va e.va
    let hi := min (va + n) (e.va + e.len)
    if lo < hi then (e, e.pa + (lo - e.va), hi - lo) :: runsOf es va n else runsOf es va n

end State

/-- The translated operand w of a descriptor. -/
def Desc.operand (d : Desc) (w : Nat) : Operand := (d.opnds.find? (fun o => o.which == w)).getD ⟨w, [], 0⟩

/-- A part takes at most four extents of each operand (R144): the end of the part that begins at byte c. -/
def partLimit (exts : List Extent) (start c : Nat) : Nat :=
  match (exts.filter (fun e => decide (start + c < e.va + e.len)))[3]? with
  | none => exts.foldl (fun n e => max n (e.va + e.len - start)) 0
  | some e => e.va + e.len - start

/-- The rows of a STRIDED operand that one part can hold from row r on: those that end within four extents, at least one. The
row after them. -/
def rowLimit (exts : List Extent) (start rows bytes stride r : Nat) : Nat :=
  match (exts.filter (fun e => decide (start + r * stride < e.va + e.len)))[3]? with
  | none => rows
  | some e => if stride = 0 then rows else max (r + 1) (min rows ((e.va + e.len - start - bytes) / stride + 1))

/-- Where the part that begins at position c ends for operand w: a byte for LINEAR and ALLOC, a row for STRIDED. An operand
that is not translated limits nothing. -/
def opLimit (d : Desc) (w c : Nat) : Nat :=
  let es := (d.operand w).exts
  let (rows, bytes, stride) := State.opGeom d w
  let strided := d.kind == kMOVE && d.mvMode == 2
  if es = [] then (if strided then rows else bytes)
  else if strided then rowLimit es (State.opStart d w) rows bytes stride c
  else partLimit es (State.opStart d w) c

/-- The positions where the parts of a descriptor begin, by steps of at least one extent (R144, R194). -/
def partsFrom (d : Desc) (ws : List Nat) (size : Nat) : Nat → Nat → List Nat
  | 0, c => [c]
  | fuel + 1, c =>
    let e := ws.foldl (fun n w => min n (opLimit d w c)) size
    if c < e ∧ e < size then c :: partsFrom d ws size fuel e else [c]

/-- How many translated parts a descriptor needs (R144): splits at extent boundaries of either operand, between rows for
STRIDED; unsplit modes need one (R194). -/
def partCount (d : Desc) : Nat :=
  let ws := State.translated d
  let size := if d.kind = kMOVE then d.mvCount else (State.opGeom d 3).2.1
  if State.opUnsplit d || ws = [] || (d.kind != kMOVE && d.kind != kALLOC) then 1
  else (partsFrom d ws size (d.opnds.foldl (fun n o => n + o.exts.length) 0 + d.mvCount * b2n (d.kind == kMOVE && d.mvMode == 2)) 0).length

end Sys2Proof.Machine
end

