-- ==== Sys2Proof/Machine/Flags.lean ====
section
/-! DEFINITION. The status values and the words that report them: completion status and records (R139–R141), the status
an accelerator operation ends with. The block has no arithmetic flags. -/

namespace Sys2Proof.Machine

/-- Completion status (R141). -/
def stOK : Nat := 0
def stPRED_FALSE : Nat := 1
def stILLEGAL : Nat := 2
def stDATA_ERROR : Nat := 3
def stXLATE : Nat := 4
def stQUOTA : Nat := 5
def stNOT_COMPLETED : Nat := 6
def stTIMEOUT : Nat := 7
def stABORTED : Nat := 8
def stNO_BINDING : Nat := 9
def stPOISON : Nat := 10

/-- The PHASE bit of the record of the entry with a given index since the ring was enabled (R139). -/
def phaseBit (index size : Nat) : Nat := 1 - index / size % 2

/-- A completion record (R140). -/
def Desc.record (d : Desc) (size now : Nat) : List Word :=
  [BitVec.ofNat 64 (d.user * 2 ^ 48 + d.index % size * 2 ^ 32 + d.status * 2 ^ 24 + d.kind * 2 ^ 20
      + b2n d.condFalse * 2 ^ 19 + b2n d.retranslated * 2 ^ 18 + b2n d.poisoned * 2 ^ 17 + b2n d.lenClamped * 2 ^ 16
      + d.detail * 2 + phaseBit d.index size),
    BitVec.ofNat 64 now]

/-- The 15 bits of a record number that DETAIL holds (R141, R423). -/
def detailOf (rseq : Nat) : Nat := rseq % 32768

/-- Comparisons of a WAIT (R155): 0 GE, 1 EQ, 2 NE, 3 LT, 4 GE_CONSUME; unsigned. -/
def condHolds (cond v x : Nat) : Bool :=
  match cond with
  | 0 => decide (x ≤ v)
  | 1 => v == x
  | 2 => v != x
  | 3 => decide (v < x)
  | _ => decide (x ≤ v)

/-- What a semaphore holds after an update, and whether a CAS stored (R154, R164). -/
def SemOp.apply (op : SemOp) (old : Nat) : Nat × Bool :=
  match op with
  | .add v => ((old + v) % 2 ^ 32, true)
  | .set v => (v, true)
  | .max v => (Nat.max old v, true)
  | .cas c v => if old = c then (v, true) else (old, false)

end Sys2Proof.Machine
end

