-- ==== Sys2Proof/Machine/Sequencer.lean ====
section
/-! DEFINITION. What the sequencer's commands share: descriptors by index, interrupts, translation probe by probe
(R193–R196), epochs (R198, R199), the conditions and checks of dispatch (R123, R124, R143, R146), completion (R139). -/

namespace Sys2Proof.Machine

namespace State

/-- The sequencer fetches and dispatches for a context: ACTIVE in a partition in service, or the group under replay
(R129, R339, R343). -/
def mayRun (s : State) (id : Nat) : Bool :=
  let p := id / 256
  s.enabled p && (s.part p).joined && s.alive (domCtl p) && !s.inReset p &&
    ((s.cstate id == 1 && s.recStep p == 0)
      || (s.recStep p == 8 && s.fld (a_PT_RECSTAT p) PT_RECSTAT_REPLAY_CTX == id
          && ((s.part p).episode.any (fun e => e.replaying))))

def modDesc (s : State) (id index : Nat) (f : Desc → Desc) : State :=
  s.modCtx id (fun c => { c with descs := c.descs.map (fun d => if d.index = index then f d else d) })

def findDesc (s : State) (id index : Nat) : Option Desc := (s.ctx id).descs.find? (fun d => d.index == index)

/-! ### Epochs (R198, R199) -/

/-- The contexts whose address space is a. -/
def idsOf (s : State) (a : Nat) : List Nat :=
  (s.ctxs.map (fun e => e.1)).filter (fun id => s.asidOf id == a)

/-- The descriptor reaches another device's memory. -/
def usesRemote (d : Desc) : Bool := d.opnds.any (fun o => o.exts.any (fun e => e.tier == 2))

/-- A descriptor no longer counts for DONE_EPOCH: its record is written, or its remote access is acknowledged or timed out; a
FENCE never counts (R163, R199). -/
def settledDesc (d : Desc) : Bool :=
  d.stage == .recorded || d.kind == kFENCE || (d.stage == .complete && usesRemote d)

/-- The epochs still stamped on uncompleted descriptors of an address space (R199). -/
def openEpochs (s : State) (a : Nat) : List Nat :=
  (s.idsOf a).flatMap (fun id => ((s.ctx id).descs.filter (fun d => !settledDesc d)).map (fun d => d.epoch))

/-- How far an epoch lies behind another, modulo 2^16. An increment waits while its value is still in use (R198), so the
distance is unique. -/
def epochAge (cur e : Nat) : Nat := (cur + 65536 - e) % 65536

/-- A FENCE's increment has not been applied yet (R163, R198). -/
def fencePending (s : State) (id index : Nat) : Bool :=
  s.epochs.any (fun e => e.2 == .fence (id / 256) ⟨id % 256, index⟩)

/-- FENCE descriptors of an address space whose epoch DONE_EPOCH has reached complete (R163, R198). -/
def completeFences (s : State) (a : Nat) : State :=
  let cur := s.fld (a_XL_ASSTAT a) XL_ASSTAT_EPOCH
  let old := epochAge cur (s.fld (a_XL_ASSTAT a) XL_ASSTAT_DONE_EPOCH)
  (s.idsOf a).foldl (fun t id => t.modCtx id (fun c => { c with descs := c.descs.map (fun d =>
    if d.kind = kFENCE ∧ d.stage = .running ∧ s.fencePending id d.index = false ∧ old ≤ epochAge cur d.epoch then
      { d with stage := .complete, ended := s.dieNow (burlOf (id / 256)) } else d) })) s

/-- DONE_EPOCH advances to the oldest epoch still stamped, and the fences it reaches complete (R198). -/
def advanceDone (s : State) (a : Nat) : State :=
  let cur := s.fld (a_XL_ASSTAT a) XL_ASSTAT_EPOCH
  let oldest := (s.openEpochs a).foldl (fun m e => max m (epochAge cur e)) 0
  (s.setFld (a_XL_ASSTAT a) XL_ASSTAT_DONE_EPOCH ((cur + 65536 - oldest) % 65536)).completeFences a

/-- A request for an epoch increment joins its address space's queue (R198). -/
def requestIncrement (s : State) (a : Nat) (src : EpochSrc) : State := { s with epochs := s.epochs ++ [(a, src)] }

/-- Increments of an address space not yet applied. -/
def pendingIncrements (s : State) (a : Nat) : Nat := (s.epochs.filter (fun e => e.1 == a)).length

/-! ### Ends of descriptors (R139, R140, R199) -/

/-- The status and detail of an ending: an uncorrectable error that the descriptor's own reads found makes an OK a POISON whose
DETAIL names the record (R61, R141). -/
def endOf (d : Desc) (status detail : Nat) : Nat × Nat :=
  match d.eccSeq with
  | some n => if status = stOK then (stPOISON, detailOf n) else (status, detail)
  | none => (status, detail)

/-- A descriptor completes: its record is due, with the time of its die (R42, R139, R140). One that reached another device no
longer holds its epoch (R199). -/
def finish (s : State) (id index status detail : Nat) : State :=
  let t := s.modDesc id index (fun d => { d with
    stage := .complete, status := (endOf d status detail).1, detail := (endOf d status detail).2,
    poisoned := d.poisoned || d.eccSeq.isSome, ended := s.dieNow (burlOf (id / 256)) })
  if (s.findDesc id index).any usesRemote then t.advanceDone (s.asidOf id) else t

/-- The descriptor's own reads found an uncorrectable error, with the number of its record (R61). -/
def noteEcc (s : State) (id index : Nat) (e : Option Nat) : State :=
  match e with
  | none => s
  | some n => s.modDesc id index (fun d => { d with eccSeq := some (d.eccSeq.getD n) })

/-- A descriptor completes with OK. -/
def finishOk (s : State) (id index : Nat) : State := s.finish id index stOK 0

/-! ### Requests to homes (R21, R31, R261, R340) -/

/-- How a request from a die fares at the home of an address: served, held without an answer, or refused: TARGET_IN_RESET,
or PATH_IN_RESET from the neighbour of a die on its path. A link without a bundle for it holds it. -/
inductive Fare where
  | served | held | refused
deriving DecidableEq, Repr

end State

namespace State

def fare (s : State) (role die a : Nat) : Fare :=
  let h := homeOf a
  if s.homeOut h || !s.pathClear die (homeDie h) then .refused
  else if s.homeHeld h || !s.linked role die (homeDie h) then .held
  else .served

/-- FB_TIMEOUT.TIMEOUT_US in nanoseconds. -/
def fbTimeout (s : State) : Nat := s.fld a_FB_TIMEOUT FB_TIMEOUT_TIMEOUT_US * 1000

/-! ### Interrupts (R142, R241, R280) -/

/-- Signals the target core of a pending interrupt while its route is enabled and its quad is on (R241). -/
def signalIrq (s : State) (n : Nat) : State :=
  let r := a_HS_IRQROUTE n
  let c := s.fld r HS_IRQROUTE_CORE
  if s.flag r HS_IRQROUTE_ENABLE && natBit (s.rd (a_HS_IRQPEND (n / 64))).toNat (n % 64)
      && decide (c < 96) && s.domOn (domQuad (s.fld (a_HS_CORE_CEIL c) HS_CORE_CEIL_PHYS / 4)) then
    let x := s.core c
    if x.irqs.contains n then s else s.setCore c { x with irqs := x.irqs ++ [n] }
  else s

/-- Raises Headstock interrupt n (R241).
DESIGN CHOICE, safe (log entry 41): taking an interrupt is outside the commands. -/
def raiseIrq (s : State) (n : Nat) : State :=
  let a := a_HS_IRQPEND (n / 64)
  (s.wr a (BitVec.ofNat 64 (natSetBit (s.rd a).toNat (n % 64) true))).signalIrq n

/-- Entries of a function's MSI-X table (R280): function 0 is PF0. -/
def msixEntries (k : Nat) : Nat := if k = 0 then 1024 else 64

/-- Raises entry n of a function's table: its pending bit is set until MSIX_SEND (R280). -/
def raiseMsix (s : State) (k n : Nat) : State :=
  if n < msixEntries k then
    let f := s.fn k
    if f.pending.contains n then s else s.setFn k { f with pending := f.pending ++ [n] }
  else s.faultDev cPROTO 7 208

/-- The host queue whose live configuration names a context (R284). -/
def queueOf (s : State) (id : Nat) : Option Nat :=
  (List.range 256).find? (fun q => s.flag (a_HI_QCFG q) HI_QCFG_ENABLE && s.fld (a_HI_QCFG q) HI_QCFG_CTXID == id)

/-- The interrupt of a completion (R142). -/
def completionIrq (s : State) (id n : Nat) : State :=
  if s.cfg id PT_CTXCFG_HOST_OWNED = 1 then
    match s.queueOf id with
    | some q => s.raiseMsix (s.fld (a_HI_QCFG q) HI_QCFG_FUNC) n
    | none => s
  else s.raiseIrq n

/-! ### Translation (R193–R196) -/

/-- A descriptor's translation fails: the XLATE fault, or for subcode 8 the CONFIG_MISMATCH of R419, and its status
(R195). -/
def xlateFail (s : State) (id : Nat) (d : Desc) (sub : Nat) : State :=
  let r := s.recordD (if sub = 8 then cCONFIG else cXLATE) (id / 256) 28 id (d.index % s.ringSize id)
  let (t, n) := s.raise (pq (id / 256)) { r with sub := sub }
  (t.modDesc id d.index (fun x => { x with xlate := none })).finish id d.index stXLATE (detailOf n)

/-- The search for an operand's first byte begins (R193). -/
def beginOperand (x : Xlate) (d : Desc) (w : Nat) (rest : List Nat) : Xlate :=
  { x with which := w, todo := rest, cur := opStart d w, pos := 0, left := clog2 (x.count + 1), best := [],
           inSeq := false, exts := [] }

/-- Translation of a descriptor begins at submission or at dispatch; no operand: it is ready at once (R193, R419). The table
is taken at the first probe (R196). -/
def startXlate (s : State) (id : Nat) (d : Desc) : State :=
  match translated d with
  | [] => s.modDesc id d.index (fun x => { x with stage := .ready, opnds := [], marked := false })
  | w :: rest =>
    if s.fld (a_XL_ASCFG (s.asidOf id)) XL_ASCFG_VALID = 0 then s.xlateFail id d 8
    else
      let x : Xlate := { which := w, todo := rest, cur := 0, pos := 0, left := 0, best := [], inSeq := false, exts := [],
                         cands := [], tbase := 0, count := 0, rmode := 0, begun := false, since := 0 }
      s.modDesc id d.index (fun y => { y with
        stage := .translating, opnds := [], cands := [], marked := false, xlate := some x })

/-- The first probe takes the table, the mode and the epoch of the address space (R196). -/
def latchTable (s : State) (id : Nat) (d : Desc) (x : Xlate) : Xlate :=
  let a := s.asidOf id
  if x.begun then x
  else beginOperand { x with
    begun := true, tbase := s.fld (a_XL_ASCFG a) XL_ASCFG_TBASE * 4096, count := s.fld (a_XL_ASCOUNT a) XL_ASCOUNT_COUNT,
    rmode := s.fld (a_XL_ASCFG a) XL_ASCFG_RMODE } d x.which x.todo

/-- The virtual start, end, and validity of a range entry (R192). -/
def entryStart (e : List Word) : Nat := (e.getD 0 0).toNat / 65536 * 65536
def entryEnd (e : List Word) : Nat := entryStart e + natBits (e.getD 1 0).toNat 63 32 * 65536
def entryValid (e : List Word) : Bool := natBit (e.getD 1 0).toNat 0
def entryTier (e : List Word) : Nat := natBits (e.getD 2 0).toNat 63 62
def entryPhys (e : List Word) : Nat := natBits (e.getD 2 0).toNat 56 16 * 65536
def entryRctx (e : List Word) : Nat := natBits (e.getD 1 0).toNat 31 19

/-- Why a piece [va, va + n) of a valid entry fails whatever the access: 4 for an illegal field, an RCTX where none belongs or
of an absent slot, a device number that breaks R190, an extent outside its tier's memory or in the reserve; 5 for T3 in a local
address space (R11, R181, R190, R192, R195, R200). No byte may lie beyond the 57 bits of a device address. -/
def entryFault (s : State) (rmode : Nat) (e : List Word) (va n : Nat) : Nat :=
  let q1 := (e.getD 1 0).toNat
  let q2 := (e.getD 2 0).toNat
  let pa := entryPhys e + (va - entryStart e)
  let own := s.fld a_FB_DEVID FB_DEVID_DEV
  let rsv := (e.getD 0 0).toNat % 65536 != 0 || natBits q1 18 5 != 0 || natBit q1 3 || natBits q2 61 57 != 0
    || q2 % 65536 != 0 || (e.getD 3 0) != 0
  let rctxBad := if entryTier e = 2 ∧ rmode = 1 then decide (192 ≤ entryRctx e % 256) else entryRctx e != 0
  let place :=
    if entryTier e = 2 then
      [entryPhys e / 2 ^ 45, pa / 2 ^ 45, (pa + n - 1) / 2 ^ 45].contains own || decide (2 ^ 57 < pa + n)
    else entryPhys e / 2 ^ 45 != 0 || !s.memRange pa n || !s.clearOfReserve pa n
      || (if entryTier e = 0 then decide (t2Base ≤ pa) else decide (pa < t2Base))
  if entryTier e = 3 || rsv || natBits q1 63 32 == 0 || rctxBad || place then 4
  else if entryTier e = 2 ∧ rmode = 0 then 5
  else 0

/-- Why a piece fails for an operand: 0 when it does not (R190, R192, R195). A bad entry is found before its permissions
count. DEDUCED, unsafe (log entry 15): the faults of one entry in this order. -/
def pieceFault (s : State) (d : Desc) (w rmode : Nat) (e : List Word) (va n : Nat) : Nat :=
  let q1 := (e.getD 1 0).toNat
  let f := s.entryFault rmode e va n
  if f = 4 then 4
  else if w ≠ 3 ∧ ((opWrites d w && !natBit q1 2) || (!opWrites d w && !natBit q1 1)) then 2
  else if w = 3 ∧ entryTier e + 1 ≠ d.alTier then 3
  else f

/-- Appends a piece to the extents, merging what adjoins (R193). -/
def addPiece (es : List Extent) (p : Extent) : List Extent :=
  match es.getLast? with
  | some l =>
    if l.va + l.len = p.va && l.pa + l.len = p.pa && l.tier == p.tier && l.perm == p.perm && l.rctx == p.rctx then
      es.dropLast ++ [{ l with len := l.len + p.len }]
    else es ++ [p]
  | none => [p]

/-- An operand is translated as far as it goes; the next one begins, or the descriptor is ready. -/
def operandDone (s : State) (id : Nat) (d : Desc) (x : Xlate) (es : List Extent) (stop : Nat) : State :=
  let o : Operand := ⟨x.which, es, stop⟩
  match x.todo with
  | [] => s.modDesc id d.index (fun y => { y with
      opnds := y.opnds ++ [o], cands := x.cands, xlate := none, stage := .ready, rmode := x.rmode })
  | w :: rest => s.modDesc id d.index (fun y => { y with
      opnds := y.opnds ++ [o], xlate := some (beginOperand x d w rest) })

/-- The translation meets a byte it cannot cover: a failure, or for an unsplit span after its first byte the place
where translation stops without fault (R194, R195). -/
def xlateStop (s : State) (id : Nat) (d : Desc) (x : Xlate) (sub : Nat) : State :=
  if opUnsplit d && !x.exts.isEmpty then s.operandDone id d x x.exts sub else s.xlateFail id d sub

/-- A probe found the entry that covers the cursor (R193, R194); idx is its index. -/
def takeEntry (s : State) (id : Nat) (d : Desc) (x : Xlate) (e : List Word) (idx : Nat) : State :=
  let (rows, bytes, stride) := opGeom d x.which
  let hull := opStart d x.which + (rows - 1) * stride + bytes
  let n := min (entryEnd e) hull - x.cur
  let sub := s.pieceFault d x.which x.rmode e x.cur n
  if sub ≠ 0 then s.xlateStop id d x sub
  else
    let q1 := (e.getD 1 0).toNat
    let es := addPiece x.exts ⟨x.cur, entryPhys e + (x.cur - entryStart e), n, entryTier e, q1 / 2 % 4, entryRctx e⟩
    let whole := natBit q1 4 && natBits q1 63 32 == 32 && entryStart e % 2097152 == 0 && entryPhys e % 2097152 == 0
      && x.cur == entryStart e && n == 2097152
    let cs := if x.which = 3 && whole then x.cands ++ [(entryStart e, entryPhys e, entryTier e)] else x.cands
    if opUnsplit d && decide (4 < es.length) then s.operandDone id d x x.exts 9
    else match nextNeeded (opStart d x.which) rows bytes stride (x.cur + n) with
      | none => s.operandDone id d { x with cands := cs } es 0
      | some c =>
        let y := { x with cur := c, exts := es, cands := cs, inSeq := true, pos := idx + 1 }
        if idx + 1 < x.count then s.modDesc id d.index (fun z => { z with xlate := some y }) else s.xlateStop id d y 1

/-- What a probe learns from the entry it read (R193, R194). -/
def probed (s : State) (id : Nat) (d : Desc) (x : Xlate) (idx : Nat) (e : List Word) : State :=
  let cand := x.pos + 2 ^ (x.left - 1)
  if x.inSeq then
    if entryValid e && decide (entryStart e ≤ x.cur) && decide (x.cur < entryEnd e) then s.takeEntry id d x e idx
    else if x.cur < entryStart e || x.count ≤ idx + 1 then s.xlateStop id d x 1
    else s.modDesc id d.index (fun z => { z with xlate := some { x with pos := idx + 1 } })
  else
    let below := decide (cand ≤ x.count) && decide (entryStart e ≤ x.cur)
    let y := { x with pos := if below then cand else x.pos, best := if below then e else x.best, left := x.left - 1 }
    if y.left ≠ 0 then s.modDesc id d.index (fun z => { z with xlate := some y })
    else if y.pos = 0 || !entryValid y.best || decide (entryEnd y.best ≤ y.cur) then s.xlateStop id d y 1
    else s.takeEntry id d y y.best (y.pos - 1)

/-- One probe (R191, R193). A table without entries covers nothing. A home that refuses is asked again until
FB_TIMEOUT.TIMEOUT_US, and then the probe counts as poison, like a poisoned entry or one under an index without a key (R195,
R340); a home that is busy answers NAK (R254). -/
def probe (s : State) (id : Nat) (d : Desc) (x : Xlate) : State :=
  let p := id / 256
  let y := s.latchTable id d x
  let t := if x.begun then s else s.modDesc id d.index (fun z => { z with
    epoch := s.fld (a_XL_ASSTAT (s.asidOf id)) XL_ASSTAT_EPOCH, xlate := some y })
  if y.count = 0 then t.xlateStop id d y 1
  else
    let idx := if y.inSeq then y.pos else min (y.pos + 2 ^ (y.left - 1)) y.count - 1
    let at_ := y.tbase + idx * 32
    match s.fare roleCOH (burlOf p) at_ with
    | .held => t
    | .refused =>
      if y.since = 0 then t.modDesc id d.index (fun z => { z with xlate := some { y with since := s.now + 1 } })
      else if s.now < y.since - 1 + s.fbTimeout then t
      else t.xlateStop id d y 6
    | .served =>
      { t with fresh := t.fresh + 1 }.asking (naPart p) [⟨at_, 32⟩] (fun t =>
        let (bs, poison) := t.readMem keySYS at_ 32
        let (v, _) := t.readAs clsAccel keySYS at_ 32
        let z := { y with since := 0 }
        if poison then v.xlateStop id d z 6 else v.probed id d z idx (wordsOf bs 4))

/-! ### Dispatch (R123, R124, R143, R146) -/

/-- Not yet dispatched. -/
def undispatched (d : Desc) : Bool := d.stage == .fetching || d.stage == .translating || d.stage == .ready

/-- Its work is over: its record is due or written. -/
def isDone (d : Desc) : Bool := d.stage == .complete || d.stage == .recorded

def nextUndispatched (c : Ctx) : Option Desc := c.descs.find? undispatched

/-- The descriptor writes predicate bit i (R121, R155). -/
def writesPred (d : Desc) (i : Nat) : Bool :=
  (d.kind == kDISPATCH && decide (d.dPred ≤ i) && decide (i < d.dPred + d.dWin))
    || (d.kind == kWAIT && d.wtTest && d.wtPredOut == i)

/-- The descriptor writes length register i (R121). -/
def writesLen (d : Desc) (i : Nat) : Bool :=
  d.kind == kDISPATCH && d.dLenEn && decide (d.dLen ≤ i) && decide (i < d.dLen + d.dWin)

/-- The length registers a descriptor reads (R125, R148). -/
def lensRead (d : Desc) : List Nat :=
  let l (dyn : Bool) (src : Nat) : List Nat := if dyn && !natBit src 12 then [natBits src 5 0] else []
  match d.kind with
  | 0 => l d.mvDyn d.mvLsrc
  | 1 => l d.mmMDyn d.mmMLsrc ++ l d.mmNDyn d.mmNLsrc
  | 2 => l d.vDyn d.vLsrc
  | 3 => l d.dDyn d.dLsrc
  | _ => []

/-- The descriptor waits for every earlier one of its context (R143). -/
def waitsAll (d : Desc) : Bool :=
  d.dep || d.kind == kSIGNAL || d.kind == kMARK || (d.kind == kWAIT && d.wtSrc == 3)

/-- The bindings of a context that a REFRESH, FLUSH or EVICT meets, whole (R150, R158). -/
def overlapping (s : State) (p slot off n : Nat) : List Binding :=
  let hit := ((s.part p).binds.filter (fun b => b.slot == slot && overlap b.off b.len off n)).map (fun b => b.group)
  (s.part p).binds.filter (fun b => b.slot == slot && hit.contains b.group)

/-- The extents through which a descriptor reaches memory: those of its operands and of the bindings it works on (R177,
R186). -/
def extentsUsed (s : State) (p slot : Nat) (d : Desc) : List Extent :=
  d.opnds.flatMap (fun o => o.exts) ++
    (if d.kind = kREFRESH ∨ d.kind = kFLUSH ∨ d.kind = kEVICT then
       (s.overlapping p slot d.rfOff d.rfBytes).flatMap (fun b => b.exts) else [])

/-- The extents of a descriptor touch a region that is MOVING (R186). A claim touches no data; a RELEASE strikes the migration
of its region before the commit point and waits for it after. -/
def touchesMoving (s : State) (p slot : Nat) (d : Desc) : Bool :=
  let x := s.part p
  if d.kind = kALLOC then
    d.alRelease && x.migration.any (fun m => decide (5 < m.step) && m.slot == slot
      && overlap m.va 2097152 d.alAddr d.alBytes)
  else
    let es := s.extentsUsed p slot d
    x.regions.any (fun r => r.moving && r.slot == slot && es.any (fun e => overlap e.pa e.len r.pa 2097152))

/-- Nothing earlier in the context holds the descriptor back: blocked WAITs, a FENCE whose epoch is not in force, order, and a
migration (R123, R126, R143, R163, R186). -/
def orderOk (s : State) (id : Nat) (d : Desc) : Bool :=
  let es := (s.ctx id).descs.filter (fun e => decide (e.index < d.index))
  es.all (fun e => !(e.kind == kWAIT && e.stage == .running))
    && es.all (fun e => !(e.kind == kFENCE && e.stage == .running && s.fencePending id e.index))
    && (!waitsAll d || es.all isDone)
    && (!d.predEn || es.all (fun e => !writesPred e d.predIdx || isDone e))
    && (lensRead d).all (fun i => es.all (fun e => !writesLen e i || isDone e))
    && !s.touchesMoving (id / 256) (id % 256) d

/-- The predicate bits whose ownership dispatch checks, with the field that names them (R116, R123, R155). -/
def predsNamed (d : Desc) : List (Nat × Nat) :=
  (if d.predEn then [(d.predIdx, 50)] else []) ++
  (if d.kind = kWAIT ∧ d.wtTest = true then [(d.wtPredOut, 112)] else []) ++
  (if d.kind = kDISPATCH then (List.range d.dWin).map (fun i => (d.dPred + i, 355)) else [])

/-- What a dispatch check finds (R146). -/
inductive DispatchFail where
  | illegal (pos : Nat)
  | claim
  | quota (tier : Nat)
  | noBinding
  | sec (pos : Nat)
deriving DecidableEq, Repr

/-- The first failing tile store operand of a list, in the order given: outside the claims of the context (R146). -/
def tsOutside (s : State) (id : Nat) (ops : List (Nat × Nat)) : Option DispatchFail :=
  if ops.all (fun o => s.inClaims id o.1 o.2) then none else some .claim

/-- Completes a descriptor that a dispatch check stops. -/
def failDispatch (s : State) (id : Nat) (d : Desc) (f : DispatchFail) : State :=
  let p := id / 256
  let seq := d.index % s.ringSize id
  match f with
  | .illegal pos => s.finish id d.index stILLEGAL pos
  | .sec pos => (s.fault (pq p) (s.recordD cSEC p 27 id seq)).finish id d.index stILLEGAL pos
  | .claim =>
    let (t, n) := s.raise (pq p) (s.recordD cXLATE p 27 id seq)
    t.finish id d.index stXLATE (detailOf n)
  | .quota tier => (s.fault (pq p) (s.recordD cQUOTA p 27 id seq)).finish id d.index stQUOTA tier
  | .noBinding => s.finish id d.index stNO_BINDING 0

/-- The shape fields a dispatch resolves: first and second length, and whether one was clamped (R125, R126). -/
def shape (s : State) (id : Nat) (d : Desc) : Nat × Nat × Bool :=
  let one (v : Nat × Bool) : Nat × Nat × Bool := (v.1, 1, v.2)
  match d.kind with
  | 0 => one (s.dynValue id d.mvDyn d.mvLsrc d.mvCount)
  | 1 =>
    let m := s.dynValue id d.mmMDyn d.mmMLsrc d.mmM
    let n := s.dynValue id d.mmNDyn d.mmNLsrc d.mmN
    (m.1, n.1, m.2 || n.2)
  | 2 => one (s.dynValue id d.vDyn d.vLsrc d.vCount)
  | 3 => one (s.dynValue id d.dDyn d.dLsrc d.dT)
  | _ => (1, 1, false)

/-- The block that runs a descriptor can take it now (R64, R77, R81). -/
def engineFree (s : State) (p : Nat) (d : Desc) : Bool :=
  let x := s.part p
  match d.kind with
  | 1 => (x.engines.zipIdx).any (fun e => natBit d.mmMask e.2 && e.1.slots.any (fun y => y.isNone))
  | 2 => (x.ves.zipIdx).any (fun v => natBit d.vMask v.2 && v.1.1.isNone
      && (d.vOp != 0x28 || s.tabValid p v.2 d.vSlot))
  | 3 => x.du.isNone
  | _ => true

/-- The next descriptor of a context may dispatch now (R81). -/
def dispatchable (s : State) (id : Nat) : Bool :=
  s.mayRun id && (nextUndispatched (s.ctx id)).any (fun d => d.stage == .ready && s.orderOk id d && s.engineFree (id / 256) d)

/-- How far a slot lies behind another in round-robin order: the slot after the one served last comes first. -/
def turnOf (last slot : Nat) : Nat := if last < slot then slot - last - 1 else slot + 192 - last - 1

/-- It is the slot's turn: no slot between the one served last and it has work (R80, R81). -/
def turn (s : State) (p last slot : Nat) (work : Nat → Bool) : Bool :=
  (s.ctxs.map (fun e => e.1)).all (fun id =>
    !(id / 256 == p && decide (turnOf last (id % 256) < turnOf last slot) && work id))

/-- Dispatch of a context's next descriptor, if it is of the kind the command names, may dispatch, and it is the context's turn
(R81). The predicate is read here (R123, R124); a marked descriptor is translated again first (R196); a length of 0 completes
without work (R126); then the checks of R146, the format check of roughing service (R368), the wait for a free engine (R81), and
the body. PT_CTXCFG and PT_CTXSEED are taken as they stand (R131). -/
def dispatchNext (p slot : Nat) (is : Desc → Bool) (check : State → Nat → Desc → Option DispatchFail)
    (free : State → Nat → Desc → Bool) (body : State → Nat → Desc → State) (s : State) : State :=
  let id := cid p slot
  match nextUndispatched (s.ctx id) with
  | none => s
  | some d =>
    if !s.mayRun id || d.stage != .ready || !is d || !s.orderOk id d
        || !s.turn p (s.part p).lastDisp slot s.dispatchable then s
    else
      let d := { d with cfgw := s.rd (cfgAddr id), seed := s.rd (a_PT_CTXSEED p slot) }
      let s' := (s.modDesc id d.index (fun _ => d)).modPart p (fun x => { x with lastDisp := slot })
      match smallest (((predsNamed d).filter (fun x => !s.ownsPred id x.1)).map (fun x => x.2) ++ s.roughBad d) with
      | some pos => s'.failDispatch id d (.illegal pos)
      | none =>
        if d.predEn && s.predBit p d.predIdx == d.predInv then s'.finish id d.index stPRED_FALSE 0
        else if d.marked then s'.startXlate id { d with marked := false } |>.modDesc id d.index
          (fun x => { x with retranslated := true })
        else
          let (m, n, cl) := s.shape id d
          let d := { d with len := m, len2 := n, lenClamped := cl }
          let t := s'.modDesc id d.index (fun _ => d)
          if m = 0 || n = 0 then t.finishOk id d.index
          else match check t id d with
            | some f => t.failDispatch id d f
            | none =>
              if !free t id d then s
              else
                let k := (t.part p).dispatchSeq
                let d := { d with stage := .running, started := t.now, order := k }
                body ((t.modDesc id d.index (fun _ => d)).modPart p (fun x => { x with dispatchSeq := k + 1 })) id d

/-- No dispatch check beyond the common ones. -/
def noCheck (_ : State) (_ : Nat) (_ : Desc) : Option DispatchFail := none

/-- No engine to wait for. -/
def always (_ : State) (_ : Nat) (_ : Desc) : Bool := true

/-! ### Completion (R138, R139) -/

/-- A MARK that opens and closes groups: an illegal one does not act (R146, R161). -/
def actsAsMark (d : Desc) : Bool := d.kind == kMARK && d.status == stOK

/-- Moves HEAD over descriptors whose records are written; a replayable group is passed only as a whole, with its
closing MARK (R138, R162). -/
def advanceHead : Nat → Ctx → Ctx
  | 0, c => c
  | fuel + 1, c =>
    match c.descs with
    | [] => c
    | d :: ds =>
      if c.replayable then
        let upTo := ds.length + 1 - ((d :: ds).dropWhile (fun e => !actsAsMark e)).length
        match (d :: ds)[upTo]? with
        | none => c
        | some closing =>
          if ((d :: ds).take (upTo + 1)).all (fun e => e.stage == .recorded) then
            advanceHead fuel { c with descs := (d :: ds).drop (upTo + 1), head := closing.index + 1, replayable := closing.mkReplay }
          else c
      else if d.stage = .recorded then
        advanceHead fuel { c with descs := ds, head := d.index + 1,
                                  replayable := if actsAsMark d then d.mkReplay else c.replayable }
      else c

/-- Blocked WAITs on the sequence number of a descriptor are satisfied as its record is issued (R156). -/
def releaseSeq (s : State) (id index : Nat) : State :=
  let size := s.ringSize id
  s.modCtx id (fun c => { c with descs := c.descs.map (fun d =>
    if d.kind = kWAIT ∧ d.wtSrc = 2 ∧ d.stage = .running ∧ d.wtValue = index % size then
      { d with stage := .complete, ended := s.dieNow (burlOf (id / 256)) } else d) })

/-- A status that stops a context under HALT_ON_ERR (R129). -/
def stops (st : Nat) : Bool := st != stOK && st != stPRED_FALSE

/-- What follows a descriptor's record: SEQ waits, HEAD, LAST_MARK, the interrupt of a record that was written, HALT_ON_ERR,
DONE_EPOCH (R129, R138, R142, R156, R161, R198, R241). -/
def recorded (s : State) (id : Nat) (d : Desc) (written : Bool) : State :=
  let p := id / 256
  let t := (s.modDesc id d.index (fun x => { x with stage := .recorded })).releaseSeq id d.index
  let t := if actsAsMark d && d.mkCheckpoint then t.setFld (a_PT_CTXSTAT p (id % 256)) PT_CTXSTAT_LAST_MARK d.mkId else t
  let t := if s.recStep p = 8 then t else t.modCtx id (fun c => advanceHead 65537 c)
  let t := if d.irq && written then t.completionIrq id (PT_CTXCFG_IRQ_VEC.get d.cfgw) else t
  let t := if PT_CTXCFG_HALT_ON_ERR.get d.cfgw = 1 && stops d.status && t.cstate id == 1 then t.setCstate id 2 else t
  t.advanceDone (s.asidOf id)

/-- A descriptor's record is written (R139). A home that refuses it is asked again until FB_TIMEOUT.TIMEOUT_US after the
descriptor ended; then the record is lost (R340). A busy home answers NAK (R254). -/
def writeRecord (s : State) (id : Nat) (d : Desc) : State :=
  let p := id / 256
  let size := s.ringSize id
  let at_ := s.fld (a_SQ_CPLBASE p (id % 256)) SQ_CPLBASE_BASE * 16 + d.index % size * 16
  match s.fare roleCOH (burlOf p) at_ with
  | .held => s
  | .refused => if s.now < d.ended + s.fbTimeout then s else s.recorded id d false
  | .served => s.asking (naPart p) [⟨at_, 16⟩] (fun s =>
      (s.writeMem id at_ (bytesOfWords (d.record size d.ended)) false).recorded id d true)

end State
end Sys2Proof.Machine
end

