-- ==== Sys2Proof/Machine/Access.lean ====
section
/-! DEFINITION. Who may reach a register and when: power domains (R417), partitions in reset (R340), unlicensed slots
(R7), the host's BAR0 (R272), and the values that a read computes. -/

namespace Sys2Proof.Machine

/-- Registers that act normally while their partition is in reset (R340). -/
def keptInReset : RegClass → Bool
  | .ptCtxcfg | .ptCtxquota | .ptCtxseed | .ptCtxstat | .ptCtxuse | .ptPredown => true
  | .sqRingbase | .sqCplbase | .sqRingcfg | .sqDb | .sqHead => true
  | .fqCfg | .fqCommit | .fqHead | .fqTail | .fqOvf | .fqFatal => true
  | .ptWatchdog | .ptRecctl | .ptRecstat | .ptReload | .ptCommit | .sqCommit => true
  | _ => false

/-- Registers of one context slot (R7). -/
def slotted : RegClass → Bool
  | .ptCtxcfg | .ptCtxquota | .ptCtxseed | .ptCtxstat | .ptCtxuse | .ptReload => true
  | .sqRingbase | .sqCplbase | .sqRingcfg | .sqDb | .sqHead | .sqLen => true
  | _ => false

/-- Registers the host reaches through BAR0 (R272). -/
def hostReaches : RegClass → Bool
  | .hiQcfg | .hiQdata | .hiQegr | .hiQdb | .hiQstat | .hiQacc | .hiQegprod | .hiQegcons | .hiLink => true
  | _ => false

/-- The die a fixed domain lies on (R28, R325). -/
def dieOfDom (i : Nat) : Nat :=
  if i < 72 then i / 12
  else if i < 78 then i - 72
  else if i ≤ 110 then 6
  else if i < 119 then 7 + (i - 111) / 4
  else if i = 119 then 7
  else if i = 120 then 8
  else if i = 121 then 7
  else 9

namespace State

/-- The domain of a register (R418). -/
def regDom (r : RegRow) (ix : List Nat) : Nat :=
  match r.domain with
  | .partCtl => domCtl (ix.headD 0)
  | .portSw => 119 + ix.headD 0 / 8
  | .fixed n => n

/-- The power domain of the register at an address. -/
def domOfAddr (a : Nat) : Option Nat := (regFind a).map (fun x => regDom x.1 x.2)

/-- The registers of some domains, live and staged, return to their reset values (R14, R30). -/
def resetDoms (s : State) (p : Nat → Bool) : State :=
  { s with
    regs := Sparse.drop (fun a => (domOfAddr a).any p) s.regs
    staged := Sparse.drop (fun a => (domOfAddr a).any p) s.staged }

/-- A requester of the ACB is there (R255): a core whose quad acts, the host while the link is up and, where IDE is required,
its stream carries traffic (R282), the debug port unless the part is locked and not re-opened (R394). -/
def present (s : State) : Requester → Bool
  | .core c => s.alive (domQuad (s.quadOf c))
  | .host => s.hostLink.up && s.alive 121
      && (s.fld a_HI_LINK HI_LINK_IDE_REQUIRED == 0 || s.fld a_HI_LINK HI_LINK_IDE_ACTIVE == 1)
  | .banjo => s.mg.phase != 0
  | .security => s.mg.phase != 0
  | .debug => s.mg.phase != 0 && (!s.flag a_MG_CFG MG_CFG_PROD_LOCKED || s.flag a_MG_CFG MG_CFG_DEBUG_OPEN)

/-- An access that is not acknowledged yet: the register's domain is frozen (R49), the link to its die has no CONTROL bundle
(R21; Banjo and the security engine use the management sideband), or the core that sends it has a barrier before it that has
not completed (R208, R263, R422). Its command repeats it. -/
def accessHeld (s : State) (who : Requester) (d : Nat) : Bool :=
  (s.dom d).frozen.isSome ||
    (match who with
     | .core c =>
       let x := s.core c
       x.waitLd || x.waitSt || x.waitDev || !s.linked roleCTRL 6 (dieOfDom d)
     | .host => !s.linked roleCTRL 6 (dieOfDom d)
     | .debug => !s.linked roleCTRL 6 (dieOfDom d)
     | _ => false)

/-- Whether an access to the register at an address acts normally (none), or what it leaves when it does not: a requester
that is not there sends nothing, a host access outside BAR0 reaches nothing (R272), one that is held leaves nothing yet, a register of a domain that is off or in
reset (R417), of a slot that is absent (R7), or of a partition in reset (R340) reads 0, ignores writes and logs a PROTO
fault. -/
def gate (s : State) (who : Requester) (a : Nat) (write : Bool) : Option State :=
  match regFind a with
  | none => if who = .host || !s.present who then some s else none
  | some (r, ix) =>
    let p := ix.headD 0
    if !s.present who || (who = .host && !hostReaches r.cls) || s.accessHeld who (regDom r ix) then some s
    else if !s.domOn (regDom r ix) then
      (if r.cls = .ptRecstat && !write then some s else some (s.faultDev cPROTO (dieOfDom (regDom r ix)) 255))
    else if r.domain = .partCtl && slotted r.cls && !s.slotOk (ix.getD 1 0) then some (s.faultPart p cPROTO)
    else if r.domain = .partCtl && s.inReset p && !keptInReset r.cls then
      (if r.cls = .bdSem && !write then some s else some (s.faultPart p cPROTO))
    else none

/-- Runs the effect of a register access that the gate admits. -/
def gated (s : State) (who : Requester) (a : Nat) (f : State → State) : State :=
  match s.gate who a true with
  | some t => t
  | none => f s

/-- One bit for each engine that satisfies p. -/
def engineBits (es : List Engine) (p : Engine → Bool) : Nat :=
  (es.zipIdx).foldl (fun n e => n + b2n (p e.1) * 2 ^ e.2) 0

/-- PACE of a partition as it stands now: it moves toward its goal by at most 4 per microsecond (R310), and stands at half
while chatter has halved it (R321). -/
def livePace (s : State) (p : Nat) : Nat :=
  let x := s.part p
  let step := 4 * ((s.now - x.paceAt) / 1000)
  let k := if x.pace ≤ x.paceGoal then min x.paceGoal (x.pace + step) else max x.paceGoal (x.pace - step)
  if (s.dom (domEng p)).halved then min k 128 else k

/-- The set point the phase controller chooses for a partition: the highest among the phases of contexts that hold
dispatched or dispatchable descriptors, a started raise included; IDLE_MV without such a context (R315, R317). -/
def phaseMv (s : State) (p : Nat) : Nat :=
  let c := a_PW_PHASECFG p
  let mvs := (List.range 192).filterMap (fun sl =>
    let x := s.ctx (cid p sl)
    if x.descs.any (fun d => d.stage == .ready || d.stage == .running) then
      let own := if x.phaseTag < 64 then s.fld (a_PW_PHTAG p x.phaseTag) PW_PHTAG_SET_MV else s.fld c PW_PHASECFG_HEAVY_MV
      some (max own ((((s.part p).raises.find? (fun r => r.1 == sl)).map (fun r => r.2)).getD 0))
    else none)
  match mvs with
  | [] => s.fld c PW_PHASECFG_IDLE_MV
  | m :: ms => ms.foldl max m

/-- The set point a domain is regulated to: the phase controller's for ENG and TS with AUTO = 1, else SET_MV (R314); at
most 650 mV for a Burl domain before L2 (R368); what the Headstock governor has taken off, and 600 mV for every quad while
the Headstock is at its floor (R307, R319). -/
def targetMv (s : State) (i : Nat) : Nat :=
  let set := s.fld (a_PW_DOMCTL i) PW_DOMCTL_SET_MV
  if i < 78 then
    let mv := if i < 72 && i % 3 != 2 && s.flag (a_PW_PHASECFG (i / 3)) PW_PHASECFG_AUTO then s.phaseMv (i / 3) else set
    if s.fld a_MG_BOOTSTAT MG_BOOTSTAT_LEVEL < 2 then min mv 650 else mv
  else if i < 104 then (if (s.die 6).atFloor then min set 600 else max 600 (set - (s.dom i).lowered))
  else set

/-- What a read of a register returns when the access is admitted. The time base, ring indices, engine states, tier
manager status, live set points, PACE and KEY_VALID are computed from the state they report; owners of predicate bits that name no licensed
slot read as unowned (R7); write-only fields read 0 (R13). -/
def readReg (s : State) (a : Nat) : Word :=
  match regFind a with
  | none => 0
  | some (r, ix) =>
    let p := ix.headD 0
    let w := r.fields.foldl (fun w f => if f.acc = .wo then f.fld.set w 0 else w) (s.rd a)
    match r.cls with
    | .mgTime => BitVec.ofNat 64 s.now
    | .sqHead =>
      let c := s.ctx (cid p (ix.getD 1 0))
      let n := s.ringSize (cid p (ix.getD 1 0))
      SQ_HEAD_TAIL.set (SQ_HEAD_FETCH.set (SQ_HEAD_HEAD.set 0 (c.head % n)) (c.fetch % n)) (c.tail % n)
    | .meBusy =>
      let es := (s.part p).engines
      if !s.domOn (domEng p) then 0
      else ME_BUSY_COLD.set (ME_BUSY_BUSY.set 0 (engineBits es (fun e => e.slots.any (fun x => x.isSome))))
        (engineBits es (fun e => e.cold))
    | .ptTmstat =>
      let x := s.part p
      PT_TMSTAT_BUSY.set (PT_TMSTAT_HELD.set (PT_TMSTAT_REGIONS.set 0 x.regions.length)
        (b2n (s.flag (a_PT_TMCTL p) PT_TMCTL_HOLD && x.migration.isNone))) (b2n x.migration.isSome)
    | .hoDirstat =>
      HO_DIRSTAT_IMPRECISE.set (HO_DIRSTAT_ENTRIES.set 0 (Sparse.get (fun _ => Home.init) s.homes p).dir.length)
        (Sparse.get (fun _ => Home.init) s.homes p).buckets.length
    | .hoDirstatDdr =>
      HO_DIRSTAT_IMPRECISE.set (HO_DIRSTAT_ENTRIES.set 0 (Sparse.get (fun _ => Home.init) s.homes (24 + p)).dir.length)
        (Sparse.get (fun _ => Home.init) s.homes (24 + p)).buckets.length
    | .hiQstat =>
      let id := s.fld (a_HI_QCFG p) HI_QCFG_CTXID
      if s.flag (a_HI_QCFG p) HI_QCFG_ENABLE || s.cstate id == 3 then
        let c := s.ctx id
        let n := s.ringSize id
        HI_QSTAT_DETACHED.set (HI_QSTAT_HELD.set (HI_QSTAT_RING_HEAD.set (HI_QSTAT_RING_TAIL.set w (c.tail % n)) (c.head % n))
          (b2n (!(s.queue p).db.isEmpty))) (b2n (s.cstate id == 3))
      else w
    | .pwDomstat => if p < 122 then PW_DOMSTAT_LIVE_MV.set w (if s.domOn p then s.targetMv p else 0) else w
    | .pwPkgstat => PW_PKGSTAT_LIMITED.set w (b2n ((List.range 24).any (fun q => s.enabled q && decide (s.livePace q < 256))))
    | .pwDie =>
      if p < 6 then
        PW_DIE_PACE_MIN.set w (((((List.range 4).map (fun k => 4 * p + k)).filter (fun q => s.enabled q)).map
          (fun q => s.livePace q)).foldl (fun m k => if m = 0 then k else min m k) 0)
      else w
    | .ptCtxstat => PT_CTXSTAT_KEY_VALID.set w (b2n (s.keyAt (cid p (ix.getD 1 0)) != 0))
    | .ptPredown =>
      (List.range 8).foldl (fun w i =>
        let f : Fld := ⟨8 * i + 7, 8 * i⟩
        if s.slotOk (f.get w) then w else f.set w 0xFF) w
    | _ => w

end State
end Sys2Proof.Machine
end

