-- ==== Sys2Proof/Machine/Contexts.lean ====
section
/-! DEFINITION. Contexts, rings, semaphores and barriers: the register commands of chapter 6 (R129–R138, R164–R167),
draining (R132), fetch and completion records (R134, R139, R143), Bead messages (R39). -/

namespace Sys2Proof.Machine

namespace State

/-! ### Contexts -/

/-- The registers one PT_COMMIT applies (R130). -/
def ctxGroup (id : Nat) : List Nat :=
  [a_PT_CTXCFG (id / 256) (id % 256), a_PT_CTXQUOTA (id / 256) (id % 256), a_PT_CTXSEED (id / 256) (id % 256)]

/-- The staged configuration of a slot passes the checks of R131. -/
def commitOk (s : State) (id : Nat) : Bool :=
  let c := a_PT_CTXCFG (id / 256) (id % 256)
  let new (f : Fld) : Nat := s.stagedFld c f
  let old (f : Fld) : Nat := s.fld c f
  let st := s.cstate id
  let same (f : Fld) : Bool := new f == old f
  (old PT_CTXCFG_ENABLE == 1 || new PT_CTXCFG_ENABLE == 0 ||
      (st == 0 && s.flag (a_SQ_RINGCFG (id / 256) (id % 256)) SQ_RINGCFG_ENABLE && s.keyAt id != 0
        && new PT_CTXCFG_WAIT_TO != 0 && new PT_CTXCFG_RECOVERY != 3 && !s.inReset (id / 256)))
    && (st == 0 || (same PT_CTXCFG_TENANT && same PT_CTXCFG_ASID && same PT_CTXCFG_HOST_OWNED))
    && new PT_CTXCFG_RECOVERY != 3 && (st != 4 || same PT_CTXCFG_RECOVERY)
    && decide (s.stagedFld (a_PT_CTXQUOTA (id / 256) (id % 256)) PT_CTXQUOTA_T0_Q ≤ 1024)

/-- Erases a context's key and its seal (R132 step 8, R387). -/
def eraseKey (s : State) (id : Nat) : State :=
  { s.setKey id 0 with mg := { s.mg with sealed := s.mg.sealed.filter (fun k => k != id) } }

/-- DRAINING begins: no more fetches; every fetched descriptor that has not dispatched completes ABORTED (R132 steps 1
and 2). -/
def beginDrain (s : State) (id : Nat) : State :=
  (s.setCstate id 6).modCtx id (fun c => { c with
    drainAfter := false
    descs := c.descs.map (fun d =>
      if undispatched d then { d with
        stage := .complete, status := stABORTED, detail := 0, xlate := none, ended := s.dieNow (burlOf (id / 256)) } else d) })

/-- Creation: the 64 length registers and the translated descriptors of the slot are cleared (R131). -/
def createCtx (s : State) (id : Nat) : State :=
  let t := (List.range 64).foldl (fun t i => t.wr (a_SQ_LEN (id / 256) (id % 256) i) 0) s
  (t.setCstate id 1).modCtx id (fun c => { c with
    descs := [], claims := [], replayable := false, phaseTag := 64, before := 0, drainAfter := false, replayed := 0 })

/-- The effect of an accepted commit on the context's state (R129, R131, R348). -/
def commitState (s : State) (id wasEnabled : Nat) : State :=
  if s.cfg id PT_CTXCFG_ENABLE = 1 then (if wasEnabled = 0 then s.createCtx id else s)
  else match s.cstate id with
    | 0 => s
    | 6 => s
    | 4 => s.modCtx id (fun c => { c with drainAfter := true })
    | _ =>
      if s.recState (id / 256) = 3 then ((s.eraseKey id).setCstate id 0).modCtx id (fun c =>
        { Ctx.init with head := c.head, fetch := c.fetch, tail := c.tail })
      else s.beginDrain id

/-- PT_COMMIT.GO for a slot (R130, R131). -/
def ptCommit (s : State) (id : Nat) : State :=
  if s.commitOk id then (s.commit (ctxGroup id)).commitState id (s.cfg id PT_CTXCFG_ENABLE)
  else (s.discard (ctxGroup id)).faultPart (id / 256) cCONFIG

/-- PT_COMMIT.RESUME (R129, R130). -/
def ptResume (s : State) (id : Nat) : State := if s.cstate id = 2 then s.setCstate id 1 else s

/-- The staged ring registers of a slot pass the checks of R137. -/
def ringOk (s : State) (id : Nat) : Bool :=
  let p := id / 256
  let sl := id % 256
  let n := s.stagedFld (a_SQ_RINGCFG p sl) SQ_RINGCFG_LOG2SIZE
  let rb := s.stagedFld (a_SQ_RINGBASE p sl) SQ_RINGBASE_BASE * 64
  let cb := s.stagedFld (a_SQ_CPLBASE p sl) SQ_CPLBASE_BASE * 16
  s.cstate id == 0 && decide (6 ≤ n) && decide (n ≤ 16) && rb % (64 * 2 ^ n) == 0 && cb % (16 * 2 ^ n) == 0
    && s.memRange rb (64 * 2 ^ n) && s.memRange cb (16 * 2 ^ n)

/-- SQ_COMMIT.GO for a slot (R137). -/
def sqCommitGo (s : State) (id : Nat) : State :=
  let p := id / 256
  let sl := id % 256
  if s.ringOk id then
    let t := s.commit [a_SQ_RINGBASE p sl, a_SQ_CPLBASE p sl, a_SQ_RINGCFG p sl]
    if t.flag (a_SQ_RINGCFG p sl) SQ_RINGCFG_ENABLE then
      t.modCtx id (fun c => { c with head := 0, fetch := 0, tail := 0, descs := [] })
    else t
  else s.faultPart p cCONFIG

/-- A doorbell's fate (R135): accepted, refused in silence, refused as a backward tail, or without effect. -/
inductive DoorbellFate where
  | accepted | ignored | silent | backward
deriving DecidableEq, Repr

def doorbellFate (s : State) (id n : Nat) : DoorbellFate :=
  let c := s.ctx id
  let size := s.ringSize id
  let p := id / 256
  if !s.flag (a_SQ_RINGCFG p (id % 256)) SQ_RINGCFG_ENABLE || s.cstate id != 1 || s.inReset p then .silent
  else if n % size = c.tail % size then .ignored
  else if (c.tail + size - c.head % size) % size ≤ (n + size - c.head % size) % size then .accepted
  else .backward

/-- A doorbell reaches the sequencer (R135). -/
def doorbell (s : State) (id n : Nat) : State :=
  match s.doorbellFate id n with
  | .accepted =>
    let size := s.ringSize id
    s.modCtx id (fun c => { c with tail := c.tail + (n % size + size - c.tail % size) % size })
  | .backward => s.faultPart (id / 256) cPROTO
  | _ => s

/-- Everything dispatched has finished and every record is written. -/
def drained (s : State) (id : Nat) : Bool := (s.ctx id).descs.all (fun d => d.stage == .recorded)

/-- Removes tier manager regions of a slot in a virtual range, with a migration of them that has not committed; their
pool slots stay used by nobody (R183, R186). -/
def dropRegions (s : State) (p slot va n : Nat) : State :=
  s.modPart p (fun x =>
    let gone (r : Region) : Bool := r.slot == slot && within r.va 2097152 va n
    let dead := x.regions.filter gone
    { x with
      regions := x.regions.filter (fun r => !gone r)
      migration := x.migration.filter (fun m => !(dead.any (fun r => r.va == m.va && m.slot == slot)))
      choices := x.choices.filter (fun c => !(c.1 == slot && dead.any (fun r => r.va == c.2.1)))
      used1 := x.used1.filter (fun a => !dead.any (fun r => r.tier == 0 && r.pa == a))
      used2 := x.used2.filter (fun a => !dead.any (fun r => r.tier == 1 && r.pa == a)) })

/-- The end of DRAINING: bindings and dirty data go, T0 claims are zeroed and freed, T1 and T2 claims return to quota,
owned predicate bits become 0 and unowned, the key is erased, the context is FREE (R132 steps 4 to 8). -/
def freeCtx (s : State) (id : Nat) : State :=
  let p := id / 256
  let sl := id % 256
  let cs := (s.ctx id).claims
  let t := s.modPart p (fun x => { x with binds := x.binds.filter (fun b => b.slot != sl) })
  let t := (cs.filter (fun c => c.tier == 0)).foldl (fun t c => t.tsZero p c.addr c.bytes) t
  let t := (cs.filter (fun c => c.tier != 0)).foldl (fun t c => t.dropRegions p sl c.addr c.bytes) t
  let t := [0, 1, 2].foldl (fun t k => t.setCharge id k 0) t
  let t := (List.range 256).foldl (fun t i =>
    if s.predOwner p i = sl then
      let a := a_PT_PREDOWN p (i / 8)
      (t.setPred p i false).setFld a ⟨i % 8 * 8 + 7, i % 8 * 8⟩ 0xFF
    else t) t
  let t := (t.eraseKey id).setCstate id 0
  let c := t.ctx id
  t.setCtx id { Ctx.init with head := c.head, fetch := c.fetch, tail := c.tail }

/-! ### Semaphores and barriers -/

/-- A semaphore's value. -/
def sem (s : State) (p i : Nat) : Nat := s.fld (a_BD_SEM p i) BD_SEM_VALUE
def setSem (s : State) (p i v : Nat) : State := s.setFld (a_BD_SEM p i) BD_SEM_VALUE v

/-- The first of the WAITs held at a semaphore, in the order they arrived, that its value satisfies. -/
def satisfied (s : State) (p i : Nat) : Option SemWait :=
  s.semWaits.find? (fun w => w.part == p && w.sem == i && condHolds w.cond (s.sem p i) w.value)

/-- The endpoint tests its held WAITs after an update; a satisfied one is released, and GE_CONSUME subtracts, which is an
update again (R39, R156). The count bounds the releases. -/
def retest (s : State) (p i : Nat) : Nat → State
  | 0 => s
  | n + 1 =>
    match s.satisfied p i with
    | none => s
    | some w =>
      let t := if w.cond = 4 then s.setSem p i (s.sem p i - w.value) else s
      retest { t with semWaits := t.semWaits.erase w, bead := t.bead ++ [.waitRelease w.pp w.ref true] } p i n

/-- A new value at the endpoint of a semaphore, with the tests it causes. -/
def updateSem (s : State) (p i v : Nat) : State := (s.setSem p i v).retest p i s.semWaits.length

/-- An update is applied at the endpoint of its semaphore (R164, R222): in a partition in reset a SIGNAL changes nothing
and completes NOT_COMPLETED, a core's update is ignored and logs PROTO. -/
def applySem (s : State) (p i : Nat) (op : SemOp) (src : SemSource) : State :=
  if s.inReset p then
    match src with
    | .desc q r => s.finish (cid q r.slot) r.index stNOT_COMPLETED 0
    | .duAdd _ => s
    | .core => s.faultPart p cPROTO
  else
    let (v, stored) := op.apply (s.sem p i)
    let t := s.updateSem p i v
    match src with
    | .desc q r => (t.finishOk (cid q r.slot) r.index).modDesc (cid q r.slot) r.index
        (fun d => { d with condFalse := d.condFalse || !stored })
    | _ => t

/-- The endpoint of a partition's semaphores takes nothing while its domain is frozen (R49). -/
def endpointHeld (s : State) (p : Nat) : Bool := (s.dom (domCtl p)).frozen.isSome

/-- Removes the k-th message of the Bead network. -/
def dropBead (s : State) (k : Nat) : State := { s with bead := s.bead.eraseIdx k }

/-- A WAIT descriptor still blocks its context. -/
def blocked (s : State) (p : Nat) (r : DRef) : Bool :=
  (s.findDesc (cid p r.slot) r.index).any (fun d => d.kind == kWAIT && d.stage == .running)

/-- A satisfied or evaluated WAIT completes; with TEST = 1 it writes PRED_OUT (R156). -/
def endWait (s : State) (p : Nat) (r : DRef) (ok : Bool) : State :=
  match s.findDesc (cid p r.slot) r.index with
  | none => s
  | some d =>
    if d.stage ≠ .running then s
    else
      let t := if d.wtTest then s.setPred p d.wtPredOut ok else s
      (t.finishOk (cid p r.slot) r.index).modDesc (cid p r.slot) r.index
        (fun x => { x with condFalse := d.wtTest && !ok })

/-- An arrival is counted; the COUNT-th closes the generation and sends the release to its waiting participants
(R167). -/
def countArrival (s : State) (b : Nat) (src : Option (Nat × DRef)) : State :=
  let g := a_BD_BARGEN b
  let n := s.fld g BD_BARGEN_ARRIVED + 1
  let s := match src with
    | some (p, r) => if s.blocked p r then { s with barWaits := s.barWaits ++ [(b, p, r)] } else s
    | none => s
  if n < s.fld (a_BD_BARCFG b) BD_BARCFG_COUNT then s.setFld g BD_BARGEN_ARRIVED n
  else
    let t := (s.setFld g BD_BARGEN_ARRIVED 0).setFld g BD_BARGEN_GEN (s.fld g BD_BARGEN_GEN + 1)
    { t with barWaits := t.barWaits.filter (fun w => w.1 != b)
             bead := t.bead ++ [.barRelease b ((t.barWaits.filter (fun w => w.1 == b)).map (fun w => w.2))] }

/-- A barrier's configuration admits a partition's WAIT (R167): valid, the tenant's, within its scope and home. -/
def barrierAdmits (s : State) (id b : Nat) : Bool :=
  let c := a_BD_BARCFG b
  let home := s.fld c BD_BARCFG_HOME
  s.flag c BD_BARCFG_VALID && s.fld c BD_BARCFG_TENANT == s.tenantOf id &&
    (match s.fld c BD_BARCFG_SCOPE with
     | 0 => home == id / 256
     | 1 => home == burlOf (id / 256)
     | _ => true)

/-- A write of BD_BARCFG (R167, R419): refused while arrivals are counted, ignored for an illegal SCOPE or COUNT. -/
def barcfgWrite (s : State) (b : Nat) (v : Word) : State :=
  let c := BD_BARCFG_COUNT.get v
  if s.fld (a_BD_BARGEN b) BD_BARGEN_ARRIVED ≠ 0 then s.faultDev cCONFIG 6 255
  else if BD_BARCFG_SCOPE.get v = 3 || c = 0 || 4704 < c then s.faultDev cPROTO 6 255
  else s.wr (a_BD_BARCFG b) (BD_BARCFG_TENANT.set (BD_BARCFG_VALID.set (BD_BARCFG_SCOPE.set (BD_BARCFG_HOME.set
    (BD_BARCFG_COUNT.set 0 c) (BD_BARCFG_HOME.get v)) (BD_BARCFG_SCOPE.get v)) (BD_BARCFG_VALID.get v))
    (BD_BARCFG_TENANT.get v))

/-! ### Address spaces (R197, R198) -/

/-- The contexts of the device that are not FREE: those whose PT_CTXSTAT.STATE is not its reset value. -/
def usedIds (s : State) : List Nat :=
  (s.regs.filterMap (fun e => match regFind e.1 with
    | some (r, [p, sl]) => if r.cls = .ptCtxstat then some (cid p sl) else none
    | _ => none)).filter (fun id => s.cstate id != 0)

/-- The staged settings of an address space may be applied (R197). -/
def ascfgOk (s : State) (a : Nat) : Bool :=
  let c := a_XL_ASCFG a
  let n := s.stagedFld (a_XL_ASCOUNT a) XL_ASCOUNT_COUNT
  let tb := s.stagedFld c XL_ASCFG_TBASE * 4096
  decide (n ≤ 16384) && decide (tb + n * 32 ≤ t1Size) && s.memRange tb (n * 32)
    && s.stagedFld c XL_ASCFG_RMODE != 3
    && (s.stagedFld c XL_ASCFG_VALID == 1 || s.fld c XL_ASCFG_VALID == 0
        || s.usedIds.all (fun id => s.asidOf id != a))

/-- XL_COMMIT.GO (R197). DEDUCED, unsafe (log entry 11): a refused commit keeps what is staged. -/
def xlCommitGo (s : State) (a : Nat) : State :=
  if s.ascfgOk a then s.commit [a_XL_ASCFG a, a_XL_ASCOUNT a] else s.faultDev cCONFIG 6 255

/-- Applies the oldest increment of an address space, unless its value is still stamped on an uncompleted descriptor
(R196, R198): undispatched descriptors take the new epoch and are marked. -/
def applyIncrement (s : State) (a : Nat) : State :=
  match s.epochs.find? (fun e => e.1 == a) with
  | none => s
  | some e =>
    let cur := s.fld (a_XL_ASSTAT a) XL_ASSTAT_EPOCH
    let new := (cur + 1) % 65536
    let stamped := (s.idsOf a).any (fun id => (s.ctx id).descs.any (fun d =>
      d.stage != .recorded && d.epoch == new && !s.fencePending id d.index))
    if stamped then s
    else
      let t := { s with epochs := s.epochs.erase e }.setFld (a_XL_ASSTAT a) XL_ASSTAT_EPOCH new
      let t := (t.idsOf a).foldl (fun t id => t.modCtx id (fun c => { c with descs := c.descs.map (fun d =>
        if undispatched d then { d with epoch := new, marked := d.marked || d.stage == .ready && !(translated d).isEmpty || d.xlate.any (fun x => x.begun) }
        else d) })) t
      let t := match e.2 with
        | .migration p => t.modPart p (fun x => { x with migration := x.migration.map (fun (m : Migration) =>
            { m with step := 3, epoch := new, waitFrom := t.now }) })
        | _ => t
      t.advanceDone a

/-! ### Fetch and submission (R80, R134, R143, R146) -/

/-- Descriptors that occupy the sequencer's store of 2,048 places (R80, R144). -/
def storeUsed (s : State) (p : Nat) : Nat :=
  (List.range 192).foldl (fun n sl => n + ((s.ctx (cid p sl)).descs.filter undispatched).foldl
    (fun m d => m + partCount d) 0) 0

/-- A context has an accepted entry that the fetch port may read; a replay fetches no further than the closing MARK of its group
(R80, R343). -/
def fetchable (s : State) (id : Nat) : Bool :=
  let c := s.ctx id
  s.mayRun id && decide (c.fetch < c.tail) && !(s.recStep (id / 256) == 8 && c.descs.any (fun d => d.kind == kMARK))

/-- The fetch port reads the next accepted entry of a context under the context's key (R134, R208), in the turn of its slot and
while the store has room (R80). A home that does not serve the read holds the port. -/
def fetchNext (s : State) (id : Nat) : State :=
  let c := s.ctx id
  let p := id / 256
  let at_ := s.fld (a_SQ_RINGBASE p (id % 256)) SQ_RINGBASE_BASE * 64 + c.fetch % s.ringSize id * 64
  if s.fetchable id && decide (s.storeUsed p < 2048) && s.turn p (s.part p).lastFetch (id % 256) s.fetchable
      && s.fare roleCOH (burlOf p) at_ == .served then
    { s with fresh := s.fresh + 1 }.asking (naPart p) [⟨at_, 64⟩] (fun s =>
      let (bs, poison) := s.readMem id at_ 64
      let (t, e) := s.readAs clsAccel id at_ 64
      let d : Desc :=
        { index := c.fetch, words := wordsOf bs 8, stage := .fetching,
          epoch := s.fld (a_XL_ASSTAT (s.asidOf id)) XL_ASSTAT_EPOCH, marked := false, retranslated := false, opnds := [],
          cands := [], xlate := none, status := 0, detail := 0, condFalse := false, poisoned := poison, lenClamped := false,
          len := 0, len2 := 0, started := 0, until_ := 0, order := 0, cfgw := s.rd (cfgAddr id),
          seed := s.rd (a_PT_CTXSEED p (id % 256)), ended := 0, rmode := 0, eccSeq := e }
      (t.setCtx id { c with fetch := c.fetch + 1, descs := c.descs ++ [d] }).modPart p
        (fun x => { x with lastFetch := id % 256 }))
  else s

/-- The oldest returned entry of a context is decoded, checked and its translation begun (R143, R146, R193). -/
def submitNext (s : State) (id : Nat) : State :=
  match (s.ctx id).descs.find? (fun d => d.stage == .fetching) with
  | none => s
  | some d =>
    if !s.mayRun id then s
    else match s.submissionBad id d with
      | (bad, sec) =>
        match smallest bad with
        | none => s.startXlate id d
        | some pos =>
          let t := if sec then s.fault (pq (id / 256)) (s.recordD cSEC (id / 256) 27 id (d.index % s.ringSize id)) else s
          t.finish id d.index stILLEGAL pos

end State

open State

/-! ### The commands -/

/-- PT_COMMIT_GO: a slot of 192 to 255 or an absent one is refused with PROTO; GO acts before RESUME (R7, R130). -/
def execPtCommitGo (who : Requester) (pp : Fin 24) (slot : BitVec 8) (resume : Bool) (s : State) : Out' :=
  .next (s.gated who (a_PT_COMMIT pp) (fun s =>
    if !s.slotOk slot.toNat then s.faultPart pp cPROTO
    else
      let t := s.ptCommit (cid pp slot.toNat)
      if resume then t.ptResume (cid pp slot.toNat) else t))

/-- PT_COMMIT_RESUME (R129, R130). -/
def execPtCommitResume (who : Requester) (pp : Fin 24) (slot : BitVec 8) (s : State) : Out' :=
  .next (s.gated who (a_PT_COMMIT pp) (fun s =>
    if !s.slotOk slot.toNat then s.faultPart pp cPROTO else s.ptResume (cid pp slot.toNat)))

/-- SQ_COMMIT (R7, R137). -/
def execSqCommit (who : Requester) (pp : Fin 24) (slot : BitVec 8) (s : State) : Out' :=
  .next (s.gated who (a_SQ_COMMIT pp) (fun s =>
    if !s.slotOk slot.toNat then s.faultPart pp cPROTO else s.sqCommitGo (cid pp slot.toNat)))

/-- SQ_DB written by an agent other than the host window: a host-owned context refuses it with SEC (R135, R136). -/
def execSqDb (who : Requester) (pp : Fin 24) (slot : BitVec 8) (tail : BitVec 16) (s : State) : Out' :=
  .next (
    if 192 ≤ slot.toNat then (if s.present who && !s.accessHeld who (domCtl pp) then s.faultPart pp cPROTO else s)
    else s.gated who (a_SQ_DB pp slot.toNat) (fun s =>
      if s.cfg (cid pp slot.toNat) PT_CTXCFG_HOST_OWNED = 1 then s.faultPart pp cSEC
      else s.doorbell (cid pp slot.toNat) tail.toNat))

/-- PT_PRED is written between two dispatches (R122). -/
def execPtPredWrite (who : Requester) (pp : Fin 24) (n : Fin 4) (value : Word) (s : State) : Out' :=
  .next (s.gated who (a_PT_PRED pp n) (fun s => s.wr (a_PT_PRED pp n) value))

/-- A core write of BD_SEM is a SET at PKG scope that travels to the endpoint (R164, R165, R222). -/
def execBdSemWrite (who : Requester) (pp : Fin 24) (i : Fin 4096) (value : BitVec 32) (s : State) : Out' :=
  .next (s.gated who (a_BD_SEM pp i) (fun s =>
    { s with bead := s.bead ++ [.update pp i (.set value.toNat) .core] }))

/-- A core write of BD_SEMADD adds modulo 2^32 (R164). -/
def execBdSemaddWrite (who : Requester) (pp : Fin 24) (i : Fin 4096) (value : BitVec 32) (s : State) : Out' :=
  .next (s.gated who (a_BD_SEMADD pp i) (fun s =>
    { s with bead := s.bead ++ [.update pp i (.add value.toNat) .core] }))

/-- BD_BARCFG (R167). -/
def execBdBarcfgWrite (who : Requester) (b : Fin 256) (value : Word) (s : State) : Out' :=
  .next (s.gated who (a_BD_BARCFG b) (fun s => s.barcfgWrite b value))

/-- BD_BARGEN.ARRIVE: one core arrival sets out for the combining point (R167). -/
def execBdBargenArrive (who : Requester) (b : Fin 256) (s : State) : Out' :=
  .next (s.gated who (a_BD_BARGEN b) (fun s => { s with bead := s.bead ++ [.barArrive b none] }))

/-- XL_COMMIT (R197). -/
def execXlCommit (who : Requester) (asid : Fin 4096) (s : State) : Out' :=
  .next (s.gated who a_XL_COMMIT (fun s => s.xlCommitGo asid))

/-- XL_FENCE.GO (R198). -/
def execXlFenceGo (who : Requester) (asid : Fin 4096) (s : State) : Out' :=
  .next (s.gated who (a_XL_FENCE asid) (fun s => s.requestIncrement asid .write))

/-- DESCRIPTOR_FETCH (R80).
DESIGN CHOICE, safe (log entry 10): the ring is read as the fetch is issued. -/
def execDescriptorFetch (pp : Fin 24) (slot : Fin 192) (s : State) : Out' := .next (s.fetchNext (cid pp slot))

/-- DESCRIPTOR_SUBMIT (R143, R146). -/
def execDescriptorSubmit (pp : Fin 24) (slot : Fin 192) (s : State) : Out' := .next (s.submitNext (cid pp slot))

/-- RANGE_TABLE_PROBE: the next probe of the oldest descriptor being translated (R193). -/
def execRangeTableProbe (pp : Fin 24) (slot : Fin 192) (s : State) : Out' :=
  let id := cid pp slot
  .next (match (s.ctx id).descs.find? (fun d => d.stage == .translating) with
    | none => s
    | some d =>
      match d.xlate with
      | none => s
      | some x => if s.mayRun id then s.probe id d x else s)

/-- EPOCH_INCREMENT_APPLY (R198). -/
def execEpochIncrementApply (asid : Fin 4096) (s : State) : Out' := .next (s.applyIncrement asid)

/-- SEMAPHORE_UPDATE: the k-th message of the Bead network, an update, arrives at its endpoint (R164). -/
def execSemaphoreUpdate (k : Nat) (s : State) : Out' :=
  .next (match s.bead[k]? with
    | some (.update p i op src) => if s.endpointHeld p then s else (s.dropBead k).applySem p i op src
    | _ => s)

/-- SEM_WAIT_ARRIVE: a WAIT reaches its endpoint and is tested against the current value (R39, R156). A WAIT that has
timed out on the way subtracts nothing (R157). -/
def execSemWaitArrive (k : Nat) (s : State) : Out' :=
  .next (match s.bead[k]? with
    | some (.waitArrive p r part i cond v test) =>
      let t := s.dropBead k
      if s.endpointHeld part then s
      else if !t.blocked p r then t
      else if t.inReset part then
        (if test then { t with bead := t.bead ++ [.waitRelease p r (condHolds cond 0 v)] }
         else { t with semWaits := t.semWaits ++ [⟨p, r, part, i, cond, v⟩] })
      else if condHolds cond (t.sem part i) v then
        let u := if cond = 4 then t.updateSem part i (t.sem part i - v) else t
        { u with bead := u.bead ++ [.waitRelease p r true] }
      else if test then { t with bead := t.bead ++ [.waitRelease p r false] }
      else { t with semWaits := t.semWaits ++ [⟨p, r, part, i, cond, v⟩] }
    | _ => s)

/-- SEM_WAIT_RELEASE: a release reaches the waiting context (R39). -/
def execSemWaitRelease (k : Nat) (s : State) : Out' :=
  .next (match s.bead[k]? with
    | some (.waitRelease p r ok) => (s.dropBead k).endWait p r ok
    | _ => s)

/-- BARRIER_ARRIVAL: an arrival reaches the combining point (R167). -/
def execBarrierArrival (k : Nat) (s : State) : Out' :=
  .next (match s.bead[k]? with
    | some (.barArrive b src) => (s.dropBead k).countArrival b src
    | _ => s)

/-- BARRIER_RELEASE: the release reaches every waiting participant of the closed generation (R167). -/
def execBarrierRelease (k : Nat) (s : State) : Out' :=
  .next (match s.bead[k]? with
    | some (.barRelease _ ws) => ws.foldl (fun t w => t.endWait w.1 w.2 true) (s.dropBead k)
    | _ => s)

/-- WAIT_TIMEOUT: a blocking WAIT not satisfied within its timeout completes with TIMEOUT (R44, R157). A release on its
way has satisfied it. DEDUCED, safe (log entry 8): at its time or later, never earlier. -/
def execWaitTimeout (pp : Fin 24) (slot : Fin 192) (s : State) : Out' :=
  let id := cid pp slot
  .next (match (s.ctx id).descs.find? (fun d => d.kind == kWAIT && d.stage == .running) with
    | none => s
    | some d =>
      let r : DRef := ⟨slot, d.index⟩
      let coming := s.bead.any (fun m => match m with
        | .waitRelease p q _ => p == pp.val && q == r
        | .barRelease _ ws => ws.contains (pp.val, r)
        | _ => false)
      if s.now < d.until_ || coming || d.wtTest then s
      else { s with semWaits := s.semWaits.filter (fun w => !(w.pp == pp.val && w.ref == r))
                    barWaits := s.barWaits.filter (fun w => !(w.2 == (pp.val, r))) }.finish id d.index stTIMEOUT 0)

/-- CONTEXT_DRAINED: the last steps of R132, once every descriptor of the context has completed. -/
def execContextDrained (pp : Fin 24) (slot : Fin 192) (s : State) : Out' :=
  let id := cid pp slot
  .next (if s.cstate id = 6 && s.drained id then s.freeCtx id else s)

end Sys2Proof.Machine
end

