-- ==== Sys2Proof/Machine/Movers.lean ====
section
/-! DEFINITION. Movers: MOVE, REFRESH, FLUSH and EVICT (R78, R79, R149, R150, R158, R173, R176, R177), and the requests
that leave the device over the fabric (R288, R293, R294, R297, R299, R301). The data of a descriptor is written when its
last write is acknowledged; until then every other reader of its targets sees old or new data, unit by unit (R204, R205). -/

namespace Sys2Proof.Machine

/-- A copy of n bytes: source address and destination address (virtual, or tile store offset). -/
structure Segment where
  src : Nat
  dst : Nat
  len : Nat
deriving DecidableEq, Repr

namespace State

/-! ### Watchdogs (R337) -/

/-- The deadline of a unit's watchdog, one more than the time it expires; 0 while disarmed. -/
def wdArm (s : State) (p unit : Nat) : State :=
  let ms := s.fld (a_PT_WATCHDOG p) PT_WATCHDOG_WD_ENGINE
  s.modPart p (fun x => { x with wd := Sparse.put (fun _ => 0) x.wd unit (s.now + ms * 1000000 + 1) })

/-- A completion rearms the watchdog while work is held and disarms it otherwise. -/
def wdDone (s : State) (p unit : Nat) (holds : Bool) : State :=
  let t := s.modPart p (fun x => { x with wd := Sparse.put (fun _ => 0) x.wd unit 0
                                          wdLast := Sparse.put (fun _ => 0) x.wdLast unit s.now })
  if holds then t.wdArm p unit else t

/-! ### Jobs -/

def findJob (s : State) (p : Nat) (r : DRef) : Option Job := s.jobs.find? (fun j => j.pp == p && j.ref == r)
def dropJob (s : State) (p : Nat) (r : DRef) : State :=
  { s with jobs := s.jobs.filter (fun j => !(j.pp == p && j.ref == r)) }
def modJob (s : State) (p : Nat) (r : DRef) (f : Job → Job) : State :=
  { s with jobs := s.jobs.map (fun j => if j.pp = p ∧ j.ref = r then f j else j) }

/-- Starts a job over the given ranges (R204). -/
def addJob (s : State) (p : Nat) (r : DRef) (reads writes : List Range) (dirty : List Nat) : State :=
  { s with jobs := s.jobs ++ [{ pp := p, ref := r, reads := reads, writes := writes, racy := [], struck := [], alt := [],
                                dirty := dirty, got := [], sent := [] }] }

/-- The local ranges behind the extents of an operand. -/
def extRanges (o : Operand) : List Range := (o.exts.filter (fun e => e.tier != 2)).map (fun e => ⟨e.pa, e.len⟩)

/-- Access counts of the tier manager: one for each region that the extents touch (R184). -/
def countRegions (s : State) (p : Nat) (es : List Extent) : State :=
  s.modPart p (fun x => { x with regions := x.regions.map (fun r =>
    if es.any (fun e => e.tier != 2 && overlap e.pa e.len r.pa 2097152) then { r with count := satAdd r.count 1 65535 }
    else r) })

/-! ### Reading and writing operands -/

/-- The number at which the choices about struck reads begin. -/
def racyBase : Nat := 2 ^ 40

/-- Bytes of memory as a job reads them: as they stand for it, or as they stood before others wrote them (R204). -/
def jobMem (s : State) (k : Nat) (j : Job) (a n : Nat) : List PByte := s.laid racyBase j.racy a (s.readMemP k a n)

/-- The same for a tile store. -/
def jobTs (s : State) (p : Nat) (j : Job) (off n : Nat) : List PByte :=
  s.laid racyBase j.racy (tsWindow + tsKey p off) (s.readTsP p off n)

/-- Bytes of remote memory that RD_RSP packets have brought. -/
def readGot (j : Job) (a n : Nat) : Option (List PByte) :=
  ((List.range n).mapM (fun i =>
    (j.got.find? (fun g => g.1 == (a + i) / 64 * 64)).bind (fun g =>
      (g.2.1[(a + i) % 64]?).map (fun b => (b, g.2.2)))))

/-- n bytes of an operand from a virtual address through its extents; none where they do not reach, or where remote data
has not come. -/
def readVirt (s : State) (id : Nat) (j : Job) (es : List Extent) (va n : Nat) : Option (List PByte) :=
  let rs := runsOf es va n
  if rs.foldl (fun m r => m + r.2.2) 0 ≠ n then none
  else (rs.mapM (fun r =>
      if r.1.tier = 2 then readGot j r.2.1 r.2.2 else some (s.jobMem id j r.2.1 r.2.2))).map
    List.flatten

/-- The source of a MOVE: the tile store or its extents. -/
def readSrc (s : State) (p id : Nat) (d : Desc) (j : Job) (a n : Nat) : Option (List PByte) :=
  if d.mvSrcTs then
    (if s.inClaims id a n then some (s.jobTs p j a n) else none)
  else s.readVirt id j (d.operand 0).exts a n

/-- Writes bytes of local memory unit by unit; a unit is poisoned when a byte copied into it was. -/
def writeMemB (s : State) (k a : Nat) (bs : List PByte) : State :=
  s.writeMemP k a (bs.map (fun b => b.1)) (fun o =>
    ((bs.drop o).take (64 - (a + o) % 64)).any (fun b => b.2))

/-- Writes bytes of a tile store, 256-byte unit by unit (R61). -/
def writeTsB (s : State) (p off : Nat) (bs : List PByte) : State :=
  (List.range ((off % 256 + bs.length + 255) / 256)).foldl (fun t i =>
    let lo := if i = 0 then off else off / 256 * 256 + i * 256
    let part := (bs.drop (lo - off)).take (256 - lo % 256)
    t.tsWrite p lo (part.map (fun b => b.1)) (part.any (fun b => b.2))) s

/-- Writes bytes at a physical or window address. -/
def putBytesAt (s : State) (p id a : Nat) (bs : List PByte) : State :=
  if tsWindow ≤ a then s.writeTsB p (a - tsWindow - p * tsSize) bs else s.writeMemB id a bs

/-- The parts of a range that lie in one unit each: start, offset from the range's start, length. Units are of 64 bytes in
memory, of 256 in a tile store (R205). -/
def unitParts (a n : Nat) : List (Nat × Nat × Nat) :=
  let w := if tsWindow ≤ a then 256 else 64
  (List.range ((a % w + n + (w - 1)) / w)).map (fun i =>
    let lo := if i = 0 then a else a / w * w + i * w
    (lo, lo - a, min (w - lo % w) (a + n - lo)))

/-- Bytes of one unit as a piece; poisoned when one of them is. -/
def pieceOf (x : Nat × List PByte) : Piece :=
  { addr := x.1, bytes := x.2.map (fun b => b.1), poison := x.2.any (fun b => b.2) }

/-- The number at which the choices about struck writes begin. -/
def struckBase : Nat := 2 ^ 41

/-- A job's data reaches its homes, unit by unit; where another agent wrote a unit meanwhile, either of the two writes may stand
(R204). -/
def landPieces (s : State) (p id : Nat) (j : Job) (ps : List (Nat × List PByte)) : State :=
  (ps.zipIdx).foldl (fun t x =>
    if j.struck.any (fun r => overlap r.addr r.len x.1.1 x.1.2.length) && Config.sees s.fresh (struckBase + x.2) then t
    else t.putBytesAt p id x.1.1 x.1.2) s

/-! ### Tiles (R169, R170, R172) -/

/-- Bytes of scale and payload of a block in a format, for S24 = 0 and 1 (R170). -/
def blockScale (f : Nat) : Nat := if f ≤ 2 then 0 else if f ≤ 7 then 32 else 64
def blockBytes (f : Nat) (s24 : Bool) : Nat :=
  match f, s24 with
  | 0, _ => 4096
  | 1, false => 2048
  | 2, false => 2048
  | 1, true => 1152
  | 2, true => 1152
  | 5, false => 768
  | 6, false => 768
  | 5, true => 512
  | 6, true => 512
  | 7, false => 512
  | 9, false => 512
  | 7, true => 384
  | 9, true => 384
  | _, false => 1024
  | _, true => 640

/-- A tile header's fields (R169). -/
structure TileHdr where
  nocc : Nat
  s24 : Bool
  axis : Nat
  bc : Nat
  br : Nat
  fmt : Nat
  bitmap : Nat
  bytes : Nat
deriving DecidableEq, Repr

/-- The length of the scale region and of a tile (R170). -/
def scaleBytes (h : TileHdr) : Nat := ceilDiv (h.nocc * blockScale h.fmt) 64 * 64
def tileBytes (h : TileHdr) : Nat := 64 + scaleBytes h + h.nocc * blockBytes h.fmt h.s24

/-- Decodes and checks a 64-byte header (R169, R170, R172); none when it is bad. -/
def tileHeader (bs : List Byte) : Option TileHdr :=
  let ws := wordsOf bs 8
  let q0 := (ws.getD 0 0).toNat
  let bm := (ws.getD 1 0).toNat
  let h : TileHdr := { nocc := natBits q0 38 32, s24 := natBit q0 25, axis := natBits q0 24 24, bc := natBits q0 23 20,
                       br := natBits q0 19 16, fmt := natBits q0 11 8, bitmap := bm,
                       bytes := natBits (ws.getD 2 0).toNat 31 0 }
  let zero := natBits q0 63 39 == 0 && natBits q0 31 26 == 0 && natBits q0 15 12 == 0
    && natBits (ws.getD 2 0).toNat 63 32 == 0 && (ws.getD 3 0) == 0 && (ws.getD 4 0) == 0 && (ws.getD 5 0) == 0
    && (ws.getD 6 0) == 0
  let placed := (List.range 64).all (fun b => !natBit bm b || (decide (b / 8 < h.br) && decide (b % 8 < h.bc)))
  if zero && natBits q0 7 0 == 1 && decide (h.fmt ≤ 9) && decide (1 ≤ h.br) && decide (h.br ≤ 8) && decide (1 ≤ h.bc)
      && decide (h.bc ≤ 8) && !(h.s24 && h.fmt == 0) && placed && h.nocc == popcount bm 64 && h.bytes == tileBytes h then
    some h
  else none

/-! ### The copies a MOVE makes -/

/-- Why a MOVE stopped before its end: nothing, an access beyond the translated part with its subcode, a bad tile, or
remote data still missing at an address. -/
inductive MoveStop where
  | done
  | xlate (sub : Nat)
  | badTile
  | need (va : Nat) (n : Nat)
deriving DecidableEq, Repr

/-- The next tile start: the first 64-byte boundary at or after an end (R173). -/
def up64 (a : Nat) : Nat := (a + 63) / 64 * 64

/-- An operand reaches n bytes at an address: within the claims of the context, or within the extents. -/
def reaches (s : State) (id : Nat) (d : Desc) (w a n : Nat) : Bool :=
  if (w = 0 && d.mvSrcTs) || (w = 1 && d.mvDstTs) then s.inClaims id a n
  else (runsOf (d.operand w).exts a n).foldl (fun m r => m + r.2.2) 0 == n

/-- The subcode an access of operand w beyond its translated part carries (R194). -/
def stopCode (d : Desc) (w : Nat) : Nat := (d.operand w).stop

/-- Adds segments while both sides are reachable; stops at the first that is not. -/
def reachAll (s : State) (id : Nat) (d : Desc) : List Segment → List Segment × MoveStop
  | [] => ([], .done)
  | g :: gs =>
    if !s.reaches id d 0 g.src g.len then ([], .xlate (stopCode d 0))
    else if !s.reaches id d 1 g.dst g.len then ([], .xlate (stopCode d 1))
    else
      let (r, st) := reachAll s id d gs
      (g :: r, st)

/-- The segments of the tiles of a TILE MOVE, header by header (R173). -/
def tileSegs (s : State) (p id : Nat) (d : Desc) (j : Job) : Nat → Nat → Nat → List Segment × MoveStop
  | 0, _, _ => ([], .done)
  | n + 1, a, b =>
    if !s.reaches id d 0 a 64 then ([], .xlate (stopCode d 0))
    else match s.readSrc p id d j a 64 with
      | none => ([], .need a 64)
      | some hb =>
        match tileHeader (hb.map (fun x => x.1)) with
        | none => ([], .badTile)
        | some h =>
          if !s.reaches id d 0 a h.bytes then ([], .xlate (stopCode d 0))
          else if !s.reaches id d 1 b h.bytes then ([], .xlate (stopCode d 1))
          else
            let (r, st) := tileSegs s p id d j n (up64 (a + h.bytes)) (up64 (b + h.bytes))
            (⟨a, b, h.bytes⟩ :: r, st)

/-- The TOKEN of entry i of the list of a GATHER or SCATTER (R149). -/
def listToken (s : State) (p : Nat) (d : Desc) (j : Job) (i : Nat) : Nat :=
  ofLeBytes ((s.jobTs p j (d.mvList + 8 * i) 2).map (fun x => x.1))

/-- All segments of a MOVE with its dispatched COUNT (R149). -/
def segments (s : State) (p id : Nat) (d : Desc) (j : Job) : List Segment × MoveStop :=
  let rows := List.range d.len
  match d.mvMode with
  | 0 => s.reachAll id d [⟨d.mvSrc, d.mvDst, d.len⟩]
  | 1 => s.tileSegs p id d j d.len d.mvSrc d.mvDst
  | 2 => s.reachAll id d (rows.map (fun i =>
      ⟨d.mvSrc + i * d.mvSrcStride, d.mvDst + i * d.mvDstStride, d.mvRow⟩))
  | 3 => s.reachAll id d (rows.map (fun i =>
      ⟨d.mvSrc + s.listToken p d j i * d.mvSrcStride, d.mvDst + i * d.mvRow, d.mvRow⟩))
  | _ => s.reachAll id d (rows.map (fun i =>
      ⟨d.mvSrc + i * d.mvRow, d.mvDst + s.listToken p d j i * d.mvDstStride, d.mvRow⟩))

/-- The remote runs of one side of some segments. -/
def remoteRuns (d : Desc) (w : Nat) (gs : List Segment) : List (Extent × Nat × Nat) :=
  gs.flatMap (fun g => (runsOf (d.operand w).exts (if w = 0 then g.src else g.dst) g.len).filter (fun r => r.1.tier == 2))

/-- The remote units a MOVE must still read. -/
def unitsToRead (s : State) (p id : Nat) (d : Desc) (j : Job) : List Nat :=
  let (gs, st) := (s.dropJob p j.ref).segments p id d j
  let src := if d.mvSrcTs then [] else (remoteRuns d 0 gs).flatMap (fun r => unitsOf r.2.1 r.2.2)
  let more := match st with
    | .need a n => (runsOf (d.operand 0).exts a n).flatMap (fun r => if r.1.tier = 2 then unitsOf r.2.1 r.2.2 else [])
    | _ => []
  ((src ++ more).filter (fun u => !j.got.any (fun g => g.1 == u))).dedup

/-! ### Packets (R293, R294, R297, R299) -/

/-- The header of a request. kind: 0 WR, 1 RD, 5 WR4. -/
def reqHeader (s : State) (kind pa len poison rmode tenant rctx flag tag : Nat) : List Word :=
  [BitVec.ofNat 64 (kind * 2 ^ 60 + pa / 2 ^ 45 * 2 ^ 48 + s.fld a_FB_DEVID FB_DEVID_DEV * 2 ^ 36 + tag * 2 ^ 20
      + len * 2 ^ 16 + poison * 2 ^ 8 + rmode * 2 ^ 6),
    BitVec.ofNat 64 (tenant * 2 ^ 48 + pa % 2 ^ 45),
    BitVec.ofNat 64 (rctx * 2 ^ 16), BitVec.ofNat 64 flag]

/-- The fabric carries traffic: finishing service, and the Tailstocks out of reset (R288). -/
def fabricUp (s : State) : Bool := s.fld a_MG_BOOTSTAT MG_BOOTSTAT_LEVEL == 2

/-- The ports a device number's table entry lists, in order. -/
def listed (s : State) (dev : Nat) : List Nat :=
  let a := a_FB_ROUTE dev
  ([s.fld a FB_ROUTE_PORT0, s.fld a FB_ROUTE_PORT1, s.fld a FB_ROUTE_PORT2, s.fld a FB_ROUTE_PORT3]).take
    (s.fld a FB_ROUTE_NPORTS)

/-- A port that carries traffic. -/
def portUp (s : State) (p : Nat) : Bool := s.domOn (119 + p / 8) && s.fld (a_FB_PORTSTAT p) FB_PORTSTAT_STATE == 3

/-- The channel of a packet type: 0 REQ for WR, RD and WR4, 1 RSP for answers (R289). -/
def channelOf (type : Nat) : Nat := if 2 ≤ type ∧ type ≤ 4 then 1 else 0

/-- The port a packet of a channel leaves by: of the listed ones that are UP, the one with the most free credits of the channel, and
the first listed among equals (R294). The peer returns credits as its buffers drain, so the number free at an event is a free
value; the wait for a first credit is time.
DESIGN CHOICE, safe (log entry 17). -/
def routeTo (s : State) (dev type : Nat) : Option Nat :=
  if s.fabricUp then
    let ps := (s.listed dev).filter s.portUp
    let free (p : Nat) : Nat := Config.credits s.fresh p (channelOf type)
    ps.find? (fun p => free p == ps.foldl (fun n p => max n (free p)) 0)
  else none

/-- The LINK fault of a requesting partition, at most one for a destination in a millisecond; its SUBCODE is the code of the
last NAK (R297, R299, R330). Partition 31 stands for the cores, whose record goes to the device queue. -/
def linkFault (s : State) (p dev code : Nat) : State :=
  let last := Sparse.get (fun _ => 0) s.linkFaultAt dev
  if last ≠ 0 ∧ s.now < last - 1 + 1000000 then s
  else
    { s with linkFaultAt := Sparse.put (fun _ => 0) s.linkFaultAt dev (s.now + 1) }.fault (pq p)
      { (if p < 24 then s.recordP cLINK p 27 else { s.record cLINK with die := 6 }) with addr := dev * 2 ^ 45, sub := code }

/-- The mover that holds a descriptor lets it go. -/
def leaveMover (s : State) (p : Nat) (r : DRef) : State :=
  match (s.part p).dms.findIdx? (fun x => x == some r) with
  | none => s
  | some i => (s.modPart p (fun x => { x with dms := x.dms.set i none })).wdDone p (25 + i) false

/-- The binding of a MOVE that did not write: it goes (R150). -/
def dropBinding (s : State) (p : Nat) (r : DRef) : State :=
  match s.findDesc (cid p r.slot) r.index with
  | some d =>
    if d.kind = kMOVE ∧ d.mvBind = true then
      s.modPart p (fun x => { x with binds := x.binds.filter (fun b => !(b.slot == r.slot && b.group == d.len2)) })
    else s
  | none => s

/-- A mover descriptor ends; one that times out has bound nothing (R150). -/
def endMove (s : State) (p : Nat) (r : DRef) (status detail : Nat) (poisoned : Bool) : State :=
  let t := if status = stTIMEOUT then s.dropBinding p r else s
  (((t.leaveMover p r).dropJob p r).finish (cid p r.slot) r.index status detail).modDesc (cid p r.slot) r.index
    (fun d => { d with poisoned := d.poisoned || poisoned })

/-- Sends a request of a descriptor, or ends the descriptor with TIMEOUT where no port is UP (R299). -/
def sendRemote (s : State) (p : Nat) (r : DRef) (kind pa len poison rctx rmode flag : Nat) (data : List Byte) : State :=
  let id := cid p r.slot
  let dev := pa / 2 ^ 45
  match s.routeTo dev kind with
  | none => (s.linkFault p dev 0).endMove p r stTIMEOUT 0 false
  | some port =>
    let hdr := s.reqHeader kind pa len poison rmode (s.tenantOf id) (if rmode = 1 then rctx else 0) flag s.nextTag
    { s with
      fresh := s.fresh + 1
      nextTag := (s.nextTag + 1) % 65536
      outbox := s.outbox ++ [.packet port hdr data]
      remotes := s.remotes ++ [{ tag := s.nextTag, dev := dev, pp := p, ref := r, pa := pa, hdr := hdr, data := data,
                                 first := s.now, limit := s.fbTimeout,
                                 resendAt := none, code := 0 }] }

/-- Outstanding remote requests of a partition and of one of its descriptors. -/
def outstanding (s : State) (p : Nat) : Nat := (s.remotes.filter (fun x => x.pp == p)).length
def waiting (s : State) (p : Nat) (r : DRef) : Bool := s.remotes.any (fun x => x.pp == p && x.ref == r)

/-- Splits units into packets: consecutive units within one 512-byte block (R293). -/
def packetsOf : List Nat → List (List Nat)
  | [] => []
  | u :: us =>
    match packetsOf us with
    | (v :: vs) :: rest =>
      if v = u + 64 ∧ v / 512 = u / 512 then (u :: v :: vs) :: rest else [u] :: (v :: vs) :: rest
    | other => [u] :: other

/-- The bytes of a remote unit that a descriptor does not write, in a packet of whole units: the spec gives no byte mask and
denies a read of the unit, so they are free (R215, R293, R301). DESIGN CHOICE, safe (log entry 16). -/
def unsaid (s : State) (u : Nat) : List PByte :=
  (List.range 64).map (fun i => (Config.freeByte (s.fresh * 2 ^ 57 + u + i), false))

/-- The bytes of a remote unit that a MOVE sends. -/
def remoteUnit (s : State) (p id : Nat) (d : Desc) (j : Job) (gs : List Segment) (u : Nat) : List PByte :=
  gs.foldl (fun acc g =>
    (runsOf (d.operand 1).exts g.dst g.len).foldl (fun acc r =>
      if r.1.tier = 2 && overlap r.2.1 r.2.2 u 64 then
        let off := r.1.va + (r.2.1 - r.1.pa) - g.dst
        match s.readSrc p id d j (g.src + off) r.2.2 with
        | none => acc
        | some bs => (acc.zipIdx).map (fun x =>
            if within (u + x.2) 1 r.2.1 r.2.2 then bs.getD (u + x.2 - r.2.1) x.1 else x.1)
      else acc) acc) (s.unsaid u)

/-- Where the bytes of a segment go on this device: start and offset in the segment, one unit each. -/
def destParts (p : Nat) (d : Desc) (g : Segment) : List (Nat × Nat × Nat) :=
  if d.mvDstTs then unitParts (tsWindow + tsKey p g.dst) g.len
  else ((runsOf (d.operand 1).exts g.dst g.len).filter (fun r => r.1.tier != 2)).flatMap (fun r =>
    (unitParts r.2.1 r.2.2).map (fun x => (x.1, r.1.va + (r.2.1 - r.1.pa) - g.dst + x.2.1, x.2.2)))

/-- A running MOVE's writes may be under way as soon as the data of a unit is read: from then on another reader may see it
(R204). -/
def launch (s : State) (p : Nat) (r : DRef) (d : Desc) (j : Job) : State :=
  let id := cid p r.slot
  let own := s.dropJob p r
  let gs := (own.segments p id d j).1
  let new := gs.flatMap (fun g => ((destParts p d g).filter (fun x => !j.alt.any (fun y => y.addr == x.1))).filterMap (fun x =>
    (own.readSrc p id d j (g.src + x.2.1) x.2.2).map (fun bs => pieceOf (x.1, bs))))
  { s with fresh := s.fresh + 1 }.modJob p r (fun k => { k with alt := k.alt ++ new })

/-- Sends what a running MOVE can send next: reads first, then the writes to remote units (R297, R301). -/
def pump (s : State) (p : Nat) (r : DRef) : State :=
  let id := cid p r.slot
  match s.findJob p r, s.findDesc id r.index with
  | some j, some d =>
    if d.kind ≠ kMOVE || d.stage ≠ .running then s
    else
      let s := s.launch p r d j
      let rctx (w u : Nat) : Nat :=
        (((d.operand w).exts.find? (fun e => e.tier == 2 && overlap e.pa e.len u 64)).map (fun e => e.rctx)).getD 0
      let asked := (s.remotes.filter (fun x => x.pp == p && x.ref == r)).flatMap (fun x =>
        (List.range (natBits (x.hdr.getD 0 0).toNat 19 16)).map (fun i => x.pa + 64 * i))
      let toRead := (s.unitsToRead p id d j).filter (fun u => !asked.contains u)
      let room := 512 - s.outstanding p
      if !(s.unitsToRead p id d j).isEmpty then
        ((packetsOf (sortBy (fun u => u) toRead)).take room).foldl (fun t us =>
          if (t.findJob p r).isNone then t
          else t.sendRemote p r 1 (us.headD 0) us.length 0 (max (rctx 0 (us.headD 0)) (rctx 1 (us.headD 0))) d.rmode
            0 []) s
      else
        let own := s.dropJob p r
        let (gs, _) := own.segments p id d j
        let units := ((if d.mvDstTs then [] else (remoteRuns d 1 gs).flatMap (fun x => unitsOf x.2.1 x.2.2)).dedup).filter
          (fun u => !j.sent.contains u)
        ((packetsOf (sortBy (fun u => u) units)).take room).foldl (fun t us =>
          if (t.findJob p r).isNone then t
          else
            let bs := us.map (fun u => own.remoteUnit p id d j gs u)
            let po := (bs.zipIdx).foldl (fun n x => n + b2n (x.1.any (fun b => b.2)) * 2 ^ x.2) 0
            (t.modJob p r (fun k => { k with sent := k.sent ++ us })).sendRemote p r 0 (us.headD 0) us.length po
              (rctx 1 (us.headD 0)) d.rmode 0 ((bs.flatten).map (fun b => b.1))) s
  | _, _ => s

/-! ### Ends -/

/-- An address of each home that a range meets. -/
def homesMet (r : Range) : List Nat :=
  if tsWindow ≤ r.addr then []
  else if r.addr < t2Base then ((List.range 24).filter (fun q => overlap r.addr r.len (q * stackSize) stackSize)).map
    (fun q => q * stackSize)
  else [t2Base, t2Base + 6 * 4096]

/-- How a job's local accesses fare: refused by any home, held by any, or served (R49, R51, R340). -/
def jobFare (s : State) (j : Job) : Fare :=
  let fs := ((j.reads ++ j.writes).flatMap homesMet).map (s.fare roleTILE (burlOf j.pp))
  if fs.contains .refused then .refused
  else if fs.contains .held || (s.dom (domTs j.pp)).frozen.isSome || (s.dom (domCtl j.pp)).frozen.isSome then .held
  else .served

/-- Reading the source of a segment shows the errors of its words and units (R61, R179). -/
def touchSrc (s : State) (p id : Nat) (d : Desc) (g : Segment) : State × Option Nat :=
  if d.mvSrcTs then s.touchTs p g.src g.len
  else ((runsOf (d.operand 0).exts g.src g.len).filter (fun r => r.1.tier != 2)).foldl (fun (x : State × Option Nat) r =>
    let y := x.1.readAs clsAccel id r.2.1 r.2.2
    (y.1, x.2.or y.2)) (s, none)

/-- The bytes a MOVE has written, for its binding. -/
def segEnd (d : Desc) (gs : List Segment) : Nat := gs.foldl (fun n g => max n (g.dst + g.len - d.mvDst)) 0

/-- A MOVE's data reaches its homes: every segment read first, then written (R149, R205); a stop before the end completes
with its status, the segments before it stay moved (R172, R194). -/
def finishMove (s : State) (p : Nat) (r : DRef) (d : Desc) (j : Job) : State :=
  let id := cid p r.slot
  let t := { s with fresh := s.fresh + 1 }.dropJob p r
  let (gs, st) := t.segments p id d j
  let data := gs.map (fun g => (g, (t.readSrc p id d j g.src g.len).getD []))
  let poisoned := data.any (fun x => x.2.any (fun b => b.2))
  let (u, e) := gs.foldl (fun (x : State × Option Nat) g =>
    let y := x.1.touchSrc p id d g
    (y.1, x.2.or y.2)) (t, none)
  let u := (u.landPieces p id j (data.flatMap (fun x =>
    (destParts p d x.1).map (fun q => (q.1, (x.2.drop q.2.1).take q.2.2))))).noteEcc id r.index e
  let u := if d.mvBind then
      let cut (b : Binding) : Binding :=
        if b.slot = r.slot ∧ b.group = d.len2 then { b with len := min b.len (segEnd d gs - (b.off - d.mvDst)) } else b
      { u with tsDirty := t.tsDirty }.modPart p (fun x => { x with binds := (x.binds.map cut).filter (fun b => b.len != 0) })
    else u
  match st with
  | .done => u.endMove p r stOK 0 poisoned
  | .need _ _ => s
  | .badTile =>
    let (v, n) := u.raise (pq p) (s.recordD cPROTO p 25 id (d.index % s.ringSize id))
    v.endMove p r stDATA_ERROR (detailOf n) poisoned
  | .xlate sub =>
    let (v, n) := u.raise (pq p) { s.recordD cXLATE p 25 id (d.index % s.ringSize id) with sub := sub }
    v.endMove p r stXLATE (detailOf n) poisoned

/-! ### REFRESH, FLUSH, EVICT (R158, R176, R177) -/

/-- Walks the range table once for a source range: the extents behind it, or the subcode of R195 that its entries give (R177,
R190, R192). -/
def walkTable (s : State) (asid va : Nat) : Nat → Nat → Nat → List Extent → Except Nat (List Extent)
  | 0, _, n, es => if n = 0 then .ok es else .error 1
  | fuel + 1, i, n, es =>
    if n = 0 then .ok es
    else
      let at_ := s.fld (a_XL_ASCFG asid) XL_ASCFG_TBASE * 4096 + i * 32
      let (bs, po) := s.readMem keySYS at_ 32
      let e := wordsOf bs 4
      if po || s.homeOut (homeOf at_) then .error 6
      else if entryValid e && decide (entryStart e ≤ va) && decide (va < entryEnd e) then
        let m := min n (entryEnd e - va)
        let f := s.entryFault (s.fld (a_XL_ASCFG asid) XL_ASCFG_RMODE) e va m
        if f ≠ 0 then .error f
        else walkTable s asid (va + m) fuel (i + 1) (n - m)
          (addPiece es ⟨va, entryPhys e + (va - entryStart e), m, entryTier e, natBits (e.getD 1 0).toNat 2 1, entryRctx e⟩)
      else walkTable s asid va fuel (i + 1) n es

/-- A binding over new extents: one entry for every four of them (R144, R177). -/
def splitBinding (b : Binding) (es : List Extent) (epoch : Nat) : List Binding :=
  (List.range ((es.length + 3) / 4)).map (fun i =>
    let part := (es.drop (4 * i)).take 4
    let lo := (part.headD ⟨b.va, 0, 0, 0, 0, 0⟩).va
    { b with off := b.off + (lo - b.va), len := part.foldl (fun n e => n + e.len) 0, va := lo, exts := part, epoch := epoch })

/-- Brings the stale bindings among some entries to the current epoch (R177): the bindings, or the failing subcode. -/
def renewBindings (s : State) (id : Nat) (bs : List Binding) : Except Nat (List Binding) :=
  let a := s.asidOf id
  let cur := s.fld (a_XL_ASSTAT a) XL_ASSTAT_EPOCH
  (bs.mapM (fun b =>
    if b.epoch = cur then .ok [b]
    else if s.fld (a_XL_ASCFG a) XL_ASCFG_VALID = 0 then .error 8
    else (s.walkTable a b.va (s.fld (a_XL_ASCOUNT a) XL_ASCOUNT_COUNT) 0 b.len []).map (fun es => splitBinding b es cur))).map
      List.flatten

/-- The dirty units of some bindings, as tile store keys divided by 64. -/
def dirtyUnits (s : State) (p : Nat) (bs : List Binding) : List Nat :=
  (bs.flatMap (fun b => (List.range ((b.off % 64 + b.len + 63) / 64)).map (fun i => (tsKey p b.off) / 64 + i))).dedup.filter
    (fun k => Sparse.get (fun _ => false) s.tsDirty k)

/-- The bindings a REFRESH, FLUSH or EVICT works on: those its range meets, and those that share a dirty unit with them
(R150, R176). -/
def worksOn (s : State) (p slot : Nat) (d : Desc) : List Binding :=
  let bs := s.overlapping p slot d.rfOff d.rfBytes
  let ks := s.dirtyUnits p bs
  (s.part p).binds.filter (fun b => bs.contains b ||
    (b.slot == slot && ks.any (fun k => overlap (k * 64) 64 (tsKey p b.off) b.len)))

/-- The bound bytes of a dirty unit with their places in the sources: binding, offset, virtual address, length (R176). -/
def unitPlaces (p : Nat) (bs : List Binding) (k : Nat) : List (Binding × Nat × Nat × Nat) :=
  let off := k * 64 - p * tsSize
  (bs.filter (fun b => overlap b.off b.len off 64)).map (fun b =>
    let lo := max off b.off
    (b, lo, b.va + (lo - b.off), min (off + 64) (b.off + b.len) - lo))

/-- The local pieces that the write-back of some dirty units writes (R176). -/
def backPieces (s : State) (p : Nat) (bs : List Binding) (j : Job) (ks : List Nat) : List (Nat × List PByte) :=
  ks.flatMap (fun k => (unitPlaces p bs k).flatMap (fun x =>
    ((runsOf x.1.exts x.2.2.1 x.2.2.2).filter (fun r => r.1.tier != 2)).flatMap (fun r =>
      let from_ := x.2.1 + (r.1.va + (r.2.1 - r.1.pa) - x.2.2.1)
      (unitParts r.2.1 r.2.2).map (fun q => (q.1, s.jobTs p j (from_ + q.2.1) q.2.2)))))

/-- The tile store pieces that a REFRESH reads again (R158). -/
def againPieces (s : State) (p id : Nat) (bs : List Binding) (j : Job) : List (Nat × List PByte) :=
  bs.flatMap (fun b => match s.readVirt id j b.exts b.va b.len with
    | none => []
    | some data => (unitParts (tsWindow + tsKey p b.off) b.len).map (fun q => (q.1, (data.drop q.2.1).take q.2.2)))

/-- The bindings of a running job: those it works on, by the dirty units it took. -/
def jobBinds (s : State) (p slot : Nat) (d : Desc) (j : Job) : List Binding :=
  let bs := s.overlapping p slot d.rfOff d.rfBytes
  (s.part p).binds.filter (fun b => bs.contains b ||
    (b.slot == slot && j.dirty.any (fun k => overlap (k * 64) 64 (tsKey p b.off) b.len)))

/-- A FLUSH, REFRESH or EVICT does its work: dirty units go back, then a REFRESH reads its range again (R158). -/
def finishFlush (s : State) (p : Nat) (r : DRef) (d : Desc) (j : Job) : State :=
  let id := cid p r.slot
  let t := { s with fresh := s.fresh + 1 }.dropJob p r
  let bs := t.jobBinds p r.slot d j
  let hit := t.overlapping p r.slot d.rfOff d.rfBytes
  let (t, e) := j.dirty.foldl (fun (x : State × Option Nat) k =>
    let y := x.1.touchTs p (k * 64 - p * tsSize) 64
    (y.1, x.2.or y.2)) (t, none)
  let back := t.backPieces p bs j j.dirty
  let t := t.landPieces p id j back
  let again := if d.kind = kREFRESH then t.againPieces p id hit j else []
  let (t, e) := if d.kind = kREFRESH then
      hit.foldl (fun (x : State × Option Nat) b => (b.exts.filter (fun e => e.tier != 2)).foldl (fun x e =>
        let y := x.1.readAs clsAccel id e.pa e.len
        (y.1, x.2.or y.2)) x) (t, e)
    else (t, e)
  let t := t.landPieces p id j again
  let t := if d.kind = kREFRESH then
      hit.foldl (fun u b =>
        { u with tsDirty := setKeys u.tsDirty (tsKey p b.off / 64) ((b.off % 64 + b.len + 63) / 64) false }) t
    else if d.kind = kEVICT then
      t.modPart p (fun x => { x with binds := x.binds.filter (fun b => !hit.contains b) })
    else t
  (t.noteEcc id r.index e).endMove p r stOK 0 ((back ++ again).any (fun x => x.2.any (fun b => b.2)))

/-- The remote pieces of the dirty units of a FLUSH, REFRESH or EVICT: physical address, tile store offset, bytes, remote
context (R176, R177). -/
def dirtyRemote (s : State) (p : Nat) (r : DRef) (d : Desc) (j : Job) : List (Nat × Nat × Nat × Nat) :=
  let bs := s.jobBinds p r.slot d j
  j.dirty.flatMap (fun k => (unitPlaces p bs k).flatMap (fun x =>
    ((runsOf x.1.exts x.2.2.1 x.2.2.2).filter (fun r => r.1.tier == 2)).map (fun r =>
      (r.2.1, x.2.1 + (r.1.va + (r.2.1 - r.1.pa) - x.2.2.1), r.2.2, r.1.rctx))))

/-- The dirty remote units not yet sent, each with its context. -/
def flushUnits (s : State) (p : Nat) (r : DRef) (d : Desc) (j : Job) : List (Nat × Nat) :=
  let ps := s.dirtyRemote p r d j
  ((ps.flatMap (fun x => unitsOf x.1 x.2.2.1)).dedup.filter (fun u => !j.sent.contains u)).map (fun u =>
    (u, ((ps.find? (fun x => overlap x.1 x.2.2.1 u 64)).map (fun x => x.2.2.2)).getD 0))

/-- The bytes of a remote unit that a write-back sends. -/
def flushData (s : State) (p : Nat) (r : DRef) (d : Desc) (j : Job) (u : Nat) : List PByte :=
  (s.dirtyRemote p r d j).foldl (fun acc x =>
    (acc.zipIdx).map (fun b => if within (u + b.2) 1 x.1 x.2.2.1 then
      ((s.jobTs p j (x.2.1 + (u + b.2 - x.1)) 1).headD b.1) else b.1)) (s.unsaid u)

/-- The remote units a REFRESH reads again, once every dirty one is written (R158). -/
def refreshUnits (s : State) (p : Nat) (r : DRef) (d : Desc) (j : Job) : List (Nat × Nat) :=
  if d.kind = kREFRESH then
    (((s.overlapping p r.slot d.rfOff d.rfBytes).flatMap (fun b => b.exts.filter (fun e => e.tier == 2))).flatMap
      (fun e => (unitsOf e.pa e.len).map (fun u => (u, e.rctx)))).dedup.filter (fun x => !j.got.any (fun g => g.1 == x.1))
  else []

/-- A REFRESH takes the units of its range that became dirty since it was dispatched, before it reads the range again
(R158, R177). -/
def gatherDirty (s : State) (p : Nat) (r : DRef) (d : Desc) : State :=
  if d.kind = kREFRESH then
    let ks := s.dirtyUnits p (s.overlapping p r.slot d.rfOff d.rfBytes)
    { s with tsDirty := ks.foldl (fun m k => Sparse.put (fun _ => false) m k false) s.tsDirty }.modJob p r (fun j =>
      { j with dirty := j.dirty ++ ks })
  else s

/-- From the start of a FLUSH, REFRESH or EVICT on, another reader may see what it writes (R204). -/
def launchFlush (s : State) (p : Nat) (r : DRef) (d : Desc) (j : Job) : State :=
  let id := cid p r.slot
  let own := s.dropJob p r
  let ps : List (Nat × List PByte) := own.backPieces p (own.jobBinds p r.slot d j) j j.dirty ++
    (if d.kind = kREFRESH then own.againPieces p id (own.overlapping p r.slot d.rfOff d.rfBytes) j else [])
  { s with fresh := s.fresh + 1 }.modJob p r (fun k => { k with alt := ps.map pieceOf })

/-- Sends what a FLUSH, REFRESH or EVICT can send next: write-backs of remote units, and at last the reads of a REFRESH (R158,
R297, R301). -/
def pumpFlush (s : State) (p : Nat) (r : DRef) : State :=
  let id := cid p r.slot
  match s.findJob p r, s.findDesc id r.index with
  | some j, some d =>
    let s := s.launchFlush p r d j
    let open_ := s.remotes.filter (fun x => x.pp == p && x.ref == r)
    let us := s.flushUnits p r d j
    let send (t : State) (f : State → State) : State := if (t.findJob p r).isNone then t else f t
    let own := s.dropJob p r
    if us ≠ [] then
      (us.take (512 - s.outstanding p)).foldl (fun t x =>
        let bs := own.flushData p r d j x.1
        send t (fun t => (t.modJob p r (fun k => { k with sent := k.sent ++ [x.1] })).sendRemote p r 0 x.1 1
          (b2n (bs.any (fun b => b.2))) x.2 d.rmode 0 (bs.map (fun b => b.1)))) s
    else if open_.any (fun x => natBits (x.hdr.getD 0 0).toNat 63 60 == 0) then s
    else ((s.refreshUnits p r d j).filter (fun x => !open_.any (fun y => y.pa == x.1))).take (512 - s.outstanding p)
      |>.foldl (fun t x => send t (fun t => t.sendRemote p r 1 x.1 1 0 x.2 d.rmode 0 [])) s
  | _, _ => s

/-- A mover descriptor's last write is acknowledged (R79, R205). A home that holds it back holds the descriptor; one that
refuses until the timeout ends it with TIMEOUT (R340); a busy home answers NAK (R254). -/
def moverAck (s : State) (p : Nat) (r : DRef) (d : Desc) : State :=
  let id := cid p r.slot
  if !(s.part p).dms.contains (some r) || s.waiting p r then s
  else
    let s := s.gatherDirty p r d
    match s.findJob p r with
    | none => s
    | some j =>
      match s.jobFare j with
      | .held => s
      | .refused => if s.now < d.started + s.fbTimeout then s else s.endMove p r stTIMEOUT 0 false
      | .served =>
        s.asking (naPart p) ((j.reads ++ j.writes).filter (fun r => decide (r.addr < tsWindow))) (fun s =>
          if d.kind = kMOVE then
            let (gs, _) := (s.dropJob p r).segments p id d j
            let units := if d.mvDstTs then [] else (remoteRuns d 1 gs).flatMap (fun x => unitsOf x.2.1 x.2.2)
            if !(s.unitsToRead p id d j).isEmpty || units.any (fun u => !j.sent.contains u) then s
            else s.finishMove p r d j
          else if !(s.flushUnits p r d j).isEmpty || !(s.refreshUnits p r d j).isEmpty then s
          else s.finishFlush p r d j)

/-- Sends what a mover descriptor can send next. -/
def moverStart (s : State) (p : Nat) (r : DRef) : State :=
  match s.findDesc (cid p r.slot) r.index with
  | some d => if d.kind = kMOVE then s.pump p r else s.pumpFlush p r
  | none => s

/-! ### Dispatch of mover descriptors -/

/-- The rows of a STRIDED tile store operand that dispatch checks. -/
def stridedRows (d : Desc) (start stride : Nat) : List (Nat × Nat) :=
  (List.range d.len).map (fun i => (start + i * stride, d.mvRow))

/-- The tile store ranges of a MOVE's operands in the order of their fields (R146): offset and length; a STRIDED operand has
one for each row. -/
def moveTs (d : Desc) : List (Nat × Nat) :=
  let spans (w start stride : Nat) : List (Nat × Nat) :=
    if d.mvMode = 1 then [(start, 64)]
    else if (d.mvMode = 3 ∧ w = 0) ∨ (d.mvMode = 4 ∧ w = 1) then [(start, d.mvRow)]
    else if d.mvMode = 0 then [(start, d.len)]
    else if d.mvMode = 2 then stridedRows d start stride
    else [(start, d.len * d.mvRow)]
  (if d.mvSrcTs then spans 0 d.mvSrc d.mvSrcStride else []) ++ (if d.mvDstTs then spans 1 d.mvDst d.mvDstStride else []) ++
  (if d.mvMode = 3 ∨ d.mvMode = 4 then [(d.mvList, 8 * d.len)] else [])

/-- The tile store range that one operand of a MOVE may reach, as a whole. -/
def tsReach (d : Desc) (w : Nat) : Nat :=
  if d.mvMode = 0 then d.len
  else if d.mvMode = 1 then min (d.len * maxTile) (tsSize - (if w = 0 then d.mvSrc else d.mvDst))
  else if d.mvMode = 2 then (d.len - 1) * (if w = 0 then d.mvSrcStride else d.mvDstStride) + d.mvRow
  else if (d.mvMode = 3 ∧ w = 0) ∨ (d.mvMode = 4 ∧ w = 1) then tsSize - (if w = 0 then d.mvSrc else d.mvDst)
  else d.len * d.mvRow

/-- The destination range a BIND is checked against (R150). -/
def bindSpan (d : Desc) : Nat :=
  if d.mvMode = 1 then min (d.len * maxTile) (tsSize - d.mvDst) else d.len

/-- The binding entries of a MOVE: one for each translated part (R150, R177). -/
def newBindings (d : Desc) (slot group : Nat) : List Binding :=
  let starts := if d.mvMode = 0 then partsFrom d [0] d.len (d.operand 0).exts.length 0 else [0]
  (starts.zipIdx).map (fun x =>
    let stop := starts.getD (x.2 + 1) (bindSpan d)
    { slot := slot, off := d.mvDst + x.1, len := stop - x.1, va := d.mvSrc + x.1,
      exts := (d.operand 0).exts.filter (fun e => overlap e.va e.len (d.mvSrc + x.1) (stop - x.1)),
      epoch := d.epoch, group := group })

/-- The dispatch checks of a MOVE: tile store operands, BIND overlap, binding space (R146, R150). -/
def moveCheck (s : State) (id : Nat) (d : Desc) : Option DispatchFail :=
  let p := id / 256
  match s.tsOutside id (moveTs d) with
  | some f => some f
  | none =>
    if d.mvBind && (s.part p).binds.any (fun b => b.slot == id % 256 && overlap b.off b.len d.mvDst (bindSpan d)) then
      some (.illegal 204)
    else if d.mvBind && decide (1024 < (s.part p).binds.length + (newBindings d 0 0).length) then some .noBinding
    else none

/-- A MOVE is handed to the mover queue (R78, R145). -/
def moveBody (s : State) (id : Nat) (d : Desc) : State :=
  let p := id / 256
  let r : DRef := ⟨id % 256, d.index⟩
  let ts (on : Bool) (a n : Nat) : List Range := if on then [⟨tsWindow + tsKey p a, n⟩] else []
  let reads := extRanges (d.operand 0) ++ ts d.mvSrcTs d.mvSrc (tsReach d 0)
  let writes := extRanges (d.operand 1) ++ ts d.mvDstTs d.mvDst (tsReach d 1)
  let g := (s.part p).bindSeq
  let t := if d.mvBind then
      let bs := newBindings d (id % 256) g
      let u := (s.modPart p (fun x => { x with binds := x.binds ++ bs, bindSeq := g + 1 })).modDesc id d.index
        (fun x => { x with len2 := g })
      { u with tsDirty := setKeys u.tsDirty (tsKey p d.mvDst / 64) ((d.mvDst % 64 + bindSpan d + 63) / 64) false }
    else s
  ((t.addJob p r reads writes []).countRegions p ((d.operand 0).exts ++ (d.operand 1).exts)).modPart p
    (fun x => { x with moverQ := x.moverQ ++ [r] })

/-- A REFRESH, FLUSH or EVICT takes the dirty set and goes to the mover queue; stale bindings are translated again first, and
need a place for each entry (R150, R158, R177). -/
def flushBody (s : State) (id : Nat) (d : Desc) : State :=
  let p := id / 256
  let r : DRef := ⟨id % 256, d.index⟩
  let bs := s.worksOn p (id % 256) d
  match s.renewBindings id bs with
  | .error c => s.xlateFail id d c
  | .ok new =>
    let rest := (s.part p).binds.filter (fun b => !bs.contains b)
    if 1024 < rest.length + new.length then s.failDispatch id d .noBinding
    else
      let stale := decide (new ≠ bs)
      let dirty := s.dirtyUnits p (s.overlapping p (id % 256) d.rfOff d.rfBytes)
      let t := s.modPart p (fun x => { x with binds := rest ++ new })
      let t := (t.modDesc id d.index (fun x => { x with
        retranslated := x.retranslated || stale, rmode := s.fld (a_XL_ASCFG (s.asidOf id)) XL_ASCFG_RMODE }))
      let t := { t with tsDirty := dirty.foldl (fun m k => Sparse.put (fun _ => false) m k false) t.tsDirty }
      let src := new.flatMap (fun b => (b.exts.filter (fun e => e.tier != 2)).map (fun e => ({ addr := e.pa, len := e.len } : Range)))
      let own := new.map (fun b => ({ addr := tsWindow + tsKey p b.off, len := b.len } : Range))
      ((t.addJob p r (own ++ src) (if d.kind = kREFRESH then own ++ src else src) dirty).countRegions p
        (new.flatMap (fun b => b.exts))).modPart p (fun x => { x with moverQ := x.moverQ ++ [r] })

/-- The home of the address space's range table does not hold the walk of stale bindings back (R51, R340). -/
def flushFree (s : State) (id : Nat) (_ : Desc) : Bool :=
  s.fare roleCOH (burlOf (id / 256)) (s.fld (a_XL_ASCFG (s.asidOf id)) XL_ASCFG_TBASE * 4096) != .held

/-- The dispatch check of REFRESH, FLUSH and EVICT (R158). -/
def flushCheck (s : State) (id : Nat) (d : Desc) : Option DispatchFail := s.tsOutside id [(d.rfOff, d.rfBytes)]

end State

open State

/-- Dispatch of a MOVE of one mode. -/
def dispatchMove (pp slot mode : Nat) (s : State) : State :=
  dispatchNext pp slot (fun d => d.kind == kMOVE && d.mvMode == mode) moveCheck always moveBody s

/-- MOVE LINEAR (R149). -/
def execMoveLinear (pp : Fin 24) (slot : Fin 192) (s : State) : Out' := .next (dispatchMove pp slot 0 s)

/-- MOVE TILE (R173). -/
def execMoveTile (pp : Fin 24) (slot : Fin 192) (s : State) : Out' := .next (dispatchMove pp slot 1 s)

/-- MOVE STRIDED (R149). -/
def execMoveStrided (pp : Fin 24) (slot : Fin 192) (s : State) : Out' := .next (dispatchMove pp slot 2 s)

/-- MOVE GATHER (R149). -/
def execMoveGather (pp : Fin 24) (slot : Fin 192) (s : State) : Out' := .next (dispatchMove pp slot 3 s)

/-- MOVE SCATTER (R149). -/
def execMoveScatter (pp : Fin 24) (slot : Fin 192) (s : State) : Out' := .next (dispatchMove pp slot 4 s)

/-- Dispatch of REFRESH, FLUSH or EVICT. -/
def dispatchFlush (pp slot kind : Nat) (s : State) : State :=
  dispatchNext pp slot (fun d => d.kind == kind) flushCheck flushFree flushBody s

/-- REFRESH (R158). -/
def execRefresh (pp : Fin 24) (slot : Fin 192) (s : State) : Out' := .next (dispatchFlush pp slot kREFRESH s)

/-- FLUSH (R158). -/
def execFlush (pp : Fin 24) (slot : Fin 192) (s : State) : Out' := .next (dispatchFlush pp slot kFLUSH s)

/-- EVICT (R158). -/
def execEvict (pp : Fin 24) (slot : Fin 192) (s : State) : Out' := .next (dispatchFlush pp slot kEVICT s)

/-- MOVER_TAKE: an idle mover takes the oldest descriptor of the mover queue (R78); its watchdog is armed (R337). -/
def execMoverTake (pp : Fin 24) (dm : Fin 2) (s : State) : Out' :=
  .next (
    let x := s.part pp
    match x.moverQ, x.dms.getD dm none with
    | r :: rest, none =>
      if s.alive (domCtl pp) && !s.inReset pp then
        ((s.modPart pp (fun y => { y with moverQ := rest, dms := y.dms.set dm (some r) })).wdArm pp (25 + dm)).moverStart pp r
      else s
    | _, _ => s)

end Sys2Proof.Machine
end

