-- ==== Sys2Proof/Machine/Sync.lean ====
section
/-! DEFINITION. SIGNAL, WAIT, ALLOC, MARK and FENCE descriptors and FLAG_POLL (R154–R163). PHASE stands with the phase
controller (Machine/Power.lean). -/

namespace Sys2Proof.Machine

namespace State

/-! ### SIGNAL (R154) -/

/-- A SIGNAL sends its update to the endpoint. -/
def signalBody (op : Desc → SemOp) (s : State) (id : Nat) (d : Desc) : State :=
  { s with bead := s.bead ++ [.update d.sgPart d.sgSem (op d) (.desc (id / 256) ⟨id % 256, d.index⟩)] }

/-- A SIGNAL at FAB scope writes its flag: a WR4 to a remote device, a 4-byte write otherwise, complete when it is
acknowledged (R154, R217). -/
def fabFlagBody (s : State) (id : Nat) (d : Desc) : State :=
  let p := id / 256
  let r : DRef := ⟨id % 256, d.index⟩
  match physical (d.operand 2).exts d.flagVa with
  | none => s
  | some (e, pa) =>
    if e.tier = 2 then s.sendRemote p r 5 pa 0 0 e.rctx d.rmode d.sgValue []
    else (s.addJob p r [] [⟨pa, 4⟩] []).modJob p r (fun j =>
      { j with alt := [{ addr := pa, bytes := leBytes d.sgValue 4, poison := false }] })

/-- The flag word is written at its home and the SIGNAL completes (R154, R205). -/
def fabFlagAck (s : State) (p : Nat) (r : DRef) (d : Desc) : State :=
  let id := cid p r.slot
  match s.findJob p r, physical (d.operand 2).exts d.flagVa with
  | some _, some (_, pa) =>
    match s.fare roleCOH (burlOf p) pa with
    | .held => s
    | .refused => if s.now < d.started + s.fbTimeout then s else (s.dropJob p r).finish id d.index stTIMEOUT 0
    | .served => s.asking (naPart p) [⟨pa, 4⟩] (fun s =>
        ((s.dropJob p r).writeMem id pa (leBytes d.sgValue 4) false).finishOk id d.index)
  | _, _ => s

/-! ### WAIT (R155–R157) -/

/-- When a WAIT's timeout expires (R155): TIMEOUT_US, or WAIT_TO of the context. -/
def waitUntil (s : State) (id : Nat) (d : Desc) : Nat :=
  if d.wtTimeout = 0 then s.now + s.cfg id PT_CTXCFG_WAIT_TO * 1000000 else s.now + d.wtTimeout * 1000

/-- A WAIT on a semaphore is carried to its endpoint (R39). -/
def waitSemBody (s : State) (id : Nat) (d : Desc) : State :=
  let t := s.modDesc id d.index (fun x => { x with until_ := s.waitUntil id d })
  { t with bead := t.bead ++ [.waitArrive (id / 256) ⟨id % 256, d.index⟩ d.wtPart d.wtSem d.wtCond d.wtValue d.wtTest] }

/-- A WAIT on a flag polls from now on; len2 of the descriptor holds the time of its next poll (R156). -/
def waitFlagBody (s : State) (id : Nat) (d : Desc) : State :=
  s.modDesc id d.index (fun x => { x with until_ := s.waitUntil id d })

/-- The descriptor at a ring index lies between HEAD and the WAIT and has not completed; no index lies at or above the ring's
size (R156). -/
def seqPending (s : State) (id : Nat) (d : Desc) : Bool :=
  (s.ctx id).descs.any (fun e => decide (e.index < d.index) && e.index % s.ringSize id == d.wtValue && e.stage != .recorded)

/-- A WAIT on a sequence number (R156). -/
def waitSeqBody (s : State) (id : Nat) (d : Desc) : State :=
  let r : DRef := ⟨id % 256, d.index⟩
  if d.wtTest then s.endWait (id / 256) r (!s.seqPending id d)
  else if s.seqPending id d then s.modDesc id d.index (fun x => { x with until_ := s.waitUntil id d })
  else s.finishOk id d.index

/-- The barrier configuration checks made at dispatch: a barrier of another tenant, or whose scope and home leave the partition
out, is reported at SEM, its number (R167); a SCOPE that is not the barrier's at SCOPE (R155). DESIGN CHOICE, unsafe (log entry
48): R167 says an illegal field and names none. -/
def waitBarrierCheck (s : State) (id : Nat) (d : Desc) : Option DispatchFail :=
  let b := d.wtSem % 256
  if !s.barrierAdmits id b then some (.illegal 95)
  else if d.wtScope ≠ s.fld (a_BD_BARCFG b) BD_BARCFG_SCOPE then some (.illegal 124)
  else none

/-- A WAIT on a barrier sends one arrival (R156, R167). -/
def waitBarrierBody (s : State) (id : Nat) (d : Desc) : State :=
  let t := s.modDesc id d.index (fun x => { x with until_ := s.waitUntil id d })
  { t with bead := t.bead ++ [.barArrive (d.wtSem % 256) (some (id / 256, ⟨id % 256, d.index⟩))] }

/-- A flag word has been read: the WAIT is satisfied, or TEST records the outcome, or the next poll is due in 2 µs
(R156). -/
def flagSeen (s : State) (p : Nat) (r : DRef) (d : Desc) (v : Nat) : State :=
  let ok := condHolds d.wtCond v d.wtValue
  if ok || d.wtTest then s.endWait p r ok
  else s.modDesc (cid p r.slot) r.index (fun x => { x with len2 := s.now + 2000 })

/-- One poll of the oldest blocked flag WAIT of a context (R156). -/
def pollFlag (s : State) (p slot : Nat) : State :=
  let id := cid p slot
  match (s.ctx id).descs.find? (fun d => d.kind == kWAIT && d.wtSrc == 1 && d.stage == .running) with
  | none => s
  | some d =>
    let r : DRef := ⟨slot, d.index⟩
    if s.now < d.len2 || s.waiting p r || s.inReset p then s
    else match physical (d.operand 2).exts d.flagVa with
      | none => s
      | some (e, pa) =>
        if e.tier = 2 then s.sendRemote p r 1 (pa / 64 * 64) 1 0 e.rctx d.rmode 0 []
        else match s.fare roleCOH (burlOf p) pa with
        | .held => s
        | .refused => s.modDesc id d.index (fun x => { x with len2 := s.now + 10000 })
        | .served => { s with fresh := s.fresh + 1 }.asking (naPart p) [⟨pa, 4⟩] (fun s =>
            let (t, e) := s.readAs clsAccel id pa 4
            (t.noteEcc id d.index e).flagSeen p r d (ofLeBytes (s.readMem id pa 4).1))

/-! ### ALLOC (R159, R175, R183) -/

/-- Every 64 KiB of a range lies in the context's claims of a tier. -/
def claimCovers (s : State) (id tier a n : Nat) : Bool :=
  (List.range (n / 65536)).all (fun i =>
    (s.ctx id).claims.any (fun c => c.tier == tier && within (a + i * 65536) 65536 c.addr c.bytes))

/-- Removes a range from claims, splitting those it cuts. -/
def subtract (cs : List Claim) (tier a n : Nat) : List Claim :=
  cs.flatMap (fun c =>
    if c.tier = tier ∧ overlap c.addr c.bytes a n = true then
      (if c.addr < a then [{ c with bytes := a - c.addr }] else []) ++
      (if a + n < c.addr + c.bytes then [{ c with addr := a + n, bytes := c.addr + c.bytes - (a + n) }] else [])
    else [c])

/-- The dispatch checks of an ALLOC: overlap and quota of a claim, the claims a release must lie in (R159, R175). -/
def allocCheck (s : State) (id : Nat) (d : Desc) : Option DispatchFail :=
  let p := id / 256
  if d.alRelease then (if s.claimCovers id d.alTier d.alAddr d.alBytes then none else some (.illegal 128))
  else if d.alTier = 0 && (List.range 192).any (fun sl => (s.ctx (cid p sl)).claims.any (fun c =>
      c.tier == 0 && overlap c.addr c.bytes d.alAddr d.alBytes)) then some (.illegal 128)
  else if s.quota id d.alTier < s.charge id d.alTier + d.alBytes / 65536 then some (.quota d.alTier)
  else none

/-- The pool (0: T1, 1: T2) of a partition's tier manager: base and slots (R189). -/
def pool (s : State) (p tier : Nat) : Nat × Nat :=
  let a := if tier = 0 then a_PT_TMPOOL1 p else a_PT_TMPOOL2 p
  (s.fld a PT_TMPOOL1_BASE * 2097152, s.fld a PT_TMPOOL1_COUNT)

/-- A 2 MiB physical start is a slot of a pool. -/
def inPool (s : State) (p tier pa : Nat) : Bool :=
  let (b, n) := s.pool p tier
  decide (b ≤ pa) && decide (pa < b + n * 2097152)

def tmOn (s : State) (p : Nat) : Bool := s.flag (a_PT_TMCFG p) PT_TMCFG_ENABLE

/-- A claim registers the migratable regions of its range (R183). -/
def registerRegions (s : State) (p slot : Nat) (cs : List (Nat × Nat × Nat)) : State :=
  if !s.tmOn p then s
  else cs.foldl (fun t c =>
    let x := t.part p
    if t.inPool p c.2.2 c.2.1 && decide (x.regions.length < 16384) then
      t.setPart p { x with
        regions := x.regions ++ [⟨slot, c.1, c.2.1, c.2.2, 0, false⟩]
        used1 := if c.2.2 = 0 then c.2.1 :: x.used1 else x.used1
        used2 := if c.2.2 = 1 then c.2.1 :: x.used2 else x.used2 }
    else t) s

/-- A claim takes effect. -/
def claimBody (s : State) (id : Nat) (d : Desc) : State :=
  let t := (s.setCharge id d.alTier (s.charge id d.alTier + d.alBytes / 65536)).modCtx id (fun c =>
    { c with claims := c.claims ++ [⟨d.alTier, d.alAddr, d.alBytes⟩] })
  (t.registerRegions (id / 256) (id % 256) d.cands).finishOk id d.index

/-- How many 2 MiB regions of a released range have migrated out of the tier of their claim (R183, R186). -/
def movedAway (s : State) (p slot tier a n : Nat) : Nat :=
  ((s.part p).regions.filter (fun r => r.slot == slot && r.tier + 1 != tier && within r.va 2097152 a n)).length

/-- The units of a released T1 or T2 range that are charged to the other tier now. -/
def movedUnits (s : State) (id : Nat) (d : Desc) : Nat :=
  if d.alTier = 0 then 0 else s.movedAway (id / 256) (id % 256) d.alTier d.alAddr d.alBytes * 32

/-- What a release returns to quota: the claim's units, less those of regions that migrated, which go back where they are
charged now (R159, R175, R186). DESIGN CHOICE, unsafe (log entry 49): a range that was claimed twice leaves both claims, and
its units return once. -/
def releaseCharge (s : State) (id : Nat) (d : Desc) : State :=
  let k := s.movedUnits id d
  let t := s.setCharge id d.alTier (s.charge id d.alTier - (d.alBytes / 65536 - k))
  if k = 0 then t else t.setCharge id (3 - d.alTier) (t.charge id (3 - d.alTier) - k)

/-- A release takes effect: T0 loses its bindings and data in the range and is zeroed, T1 and T2 lose their regions, a
running migration of them before its commit point is discarded (R159, R178, R183, R186). -/
def releaseBody (s : State) (id : Nat) (d : Desc) : State :=
  let p := id / 256
  let t := (s.releaseCharge id d).modCtx id (fun c =>
    { c with claims := subtract c.claims d.alTier d.alAddr d.alBytes })
  let t := if d.alTier = 0 then
      (t.modPart p (fun x => { x with binds := x.binds.filter (fun b => !overlap b.off b.len d.alAddr d.alBytes) })).tsZero p
        d.alAddr d.alBytes
    else t.dropRegions p (id % 256) d.alAddr d.alBytes
  t.finishOk id d.index

/-! ### FENCE (R163, R198) -/

/-- A FENCE stamps itself with the epoch it creates and asks for the increment. -/
def fenceBody (s : State) (id : Nat) (d : Desc) : State :=
  let a := s.asidOf id
  let e := (s.fld (a_XL_ASSTAT a) XL_ASSTAT_EPOCH + s.pendingIncrements a + 1) % 65536
  (s.modDesc id d.index (fun x => { x with epoch := e })).requestIncrement a (.fence (id / 256) ⟨id % 256, d.index⟩)

end State

open State

/-- Dispatch of a SIGNAL below FAB scope. -/
def dispatchSignal (pp slot opcode : Nat) (op : Desc → SemOp) (s : State) : State :=
  dispatchNext pp slot (fun d => d.kind == kSIGNAL && d.sgScope != 3 && d.sgOp == opcode) noCheck always (signalBody op) s

/-- SIGNAL ADD (R154). -/
def execSignalAdd (pp : Fin 24) (slot : Fin 192) (s : State) : Out' :=
  .next (dispatchSignal pp slot 0 (fun d => .add d.sgValue) s)

/-- SIGNAL SET (R154). -/
def execSignalSet (pp : Fin 24) (slot : Fin 192) (s : State) : Out' :=
  .next (dispatchSignal pp slot 1 (fun d => .set d.sgValue) s)

/-- SIGNAL MAX (R154). -/
def execSignalMax (pp : Fin 24) (slot : Fin 192) (s : State) : Out' :=
  .next (dispatchSignal pp slot 2 (fun d => .max d.sgValue) s)

/-- SIGNAL CAS (R154). -/
def execSignalCas (pp : Fin 24) (slot : Fin 192) (s : State) : Out' :=
  .next (dispatchSignal pp slot 3 (fun d => .cas d.sgCmp d.sgValue) s)

/-- SIGNAL at FAB scope (R154). -/
def execSignalFabFlag (pp : Fin 24) (slot : Fin 192) (s : State) : Out' :=
  .next (dispatchNext pp slot (fun d => d.kind == kSIGNAL && d.sgScope == 3) noCheck always fabFlagBody s)

/-- Dispatch of a WAIT of one source. -/
def dispatchWait (pp slot src : Nat) (check : State → Nat → Desc → Option DispatchFail)
    (body : State → Nat → Desc → State) (s : State) : State :=
  dispatchNext pp slot (fun d => d.kind == kWAIT && d.wtSrc == src) check always body s

/-- WAIT on a semaphore (R156). -/
def execWaitSem (pp : Fin 24) (slot : Fin 192) (s : State) : Out' := .next (dispatchWait pp slot 0 noCheck waitSemBody s)

/-- WAIT on a flag (R156). -/
def execWaitFlag (pp : Fin 24) (slot : Fin 192) (s : State) : Out' := .next (dispatchWait pp slot 1 noCheck waitFlagBody s)

/-- WAIT on a sequence number (R156). -/
def execWaitSeq (pp : Fin 24) (slot : Fin 192) (s : State) : Out' := .next (dispatchWait pp slot 2 noCheck waitSeqBody s)

/-- WAIT on a barrier (R156, R167). -/
def execWaitBarrier (pp : Fin 24) (slot : Fin 192) (s : State) : Out' :=
  .next (dispatchWait pp slot 3 waitBarrierCheck waitBarrierBody s)

/-- FLAG_POLL (R156). -/
def execFlagPoll (pp : Fin 24) (slot : Fin 192) (s : State) : Out' := .next (s.pollFlag pp slot)

/-- ALLOC CLAIM (R159). -/
def execAllocClaim (pp : Fin 24) (slot : Fin 192) (s : State) : Out' :=
  .next (dispatchNext pp slot (fun d => d.kind == kALLOC && !d.alRelease) allocCheck always claimBody s)

/-- ALLOC RELEASE (R159). -/
def execAllocRelease (pp : Fin 24) (slot : Fin 192) (s : State) : Out' :=
  .next (dispatchNext pp slot (fun d => d.kind == kALLOC && d.alRelease) allocCheck always releaseBody s)

/-- MARK completes once every earlier descriptor has (R143, R161). -/
def execMark (pp : Fin 24) (slot : Fin 192) (s : State) : Out' :=
  .next (dispatchNext pp slot (fun d => d.kind == kMARK) noCheck always (fun s id d => s.finishOk id d.index) s)

/-- FENCE (R163). -/
def execFence (pp : Fin 24) (slot : Fin 192) (s : State) : Out' :=
  .next (dispatchNext pp slot (fun d => d.kind == kFENCE) noCheck always fenceBody s)

end Sys2Proof.Machine
end

