-- ==== Sys2Proof/Machine/TierManager.lean ====
section
/-! DEFINITION. The tier manager: its registers, the halving of access counts with its choices, migrations
(R183–R189). -/

namespace Sys2Proof.Machine

namespace State

def tmGroup (p : Nat) : List Nat := [a_PT_TMCFG p, a_PT_TMPOOL1 p, a_PT_TMPOOL2 p, a_PT_TMTAB p]

/-- The staged tier manager settings pass R189. DESIGN CHOICE, unsafe (log entry 50): a COUNT above 8,192 is refused, and a pool
of COUNT 0 has no range to check. -/
def tmOk (s : State) (p : Nat) : Bool :=
  let c (f : Fld) : Nat := s.stagedFld (a_PT_TMCFG p) f
  let b1 := s.stagedFld (a_PT_TMPOOL1 p) PT_TMPOOL1_BASE * 2097152
  let n1 := s.stagedFld (a_PT_TMPOOL1 p) PT_TMPOOL1_COUNT
  let b2 := s.stagedFld (a_PT_TMPOOL2 p) PT_TMPOOL1_BASE * 2097152
  let n2 := s.stagedFld (a_PT_TMPOOL2 p) PT_TMPOOL1_COUNT
  let tb := s.stagedFld (a_PT_TMTAB p) PT_TMTAB_BASE * 524288
  decide (c PT_TMCFG_LO_PCT < c PT_TMCFG_HI_PCT) && decide (c PT_TMCFG_HI_PCT ≤ 100) && c PT_TMCFG_AGE_MS != 0
    && decide (c PT_TMCFG_COLD_MAX < c PT_TMCFG_HOT_MIN)
    && (!s.tmOn p || [a_PT_TMPOOL1 p, a_PT_TMPOOL2 p, a_PT_TMTAB p].all (fun a => s.stagedRd a == s.rd a))
    && (n1 == 0 || within b1 (n1 * 2097152) (p * stackSize) stackSize) && within tb 524288 (p * stackSize) stackSize
    && !overlap b1 (n1 * 2097152) tb 524288 && decide (n1 ≤ 8192) && decide (n2 ≤ 8192)
    && (n2 == 0 || (within b2 (n2 * 2097152) t2Base s.t2Size && s.clearOfReserve b2 (n2 * 2097152)))

/-- PT_TMCOMMIT.GO (R189): enabling clears the region table and frees every pool slot. -/
def tmCommit (s : State) (p : Nat) : State :=
  if s.tmOk p then
    let t := s.commit (tmGroup p)
    if !s.tmOn p && t.tmOn p then
      t.modPart p (fun x => { x with regions := [], choices := [], used1 := [], used2 := []
                                     nextHalving := t.now + t.fld (a_PT_TMCFG p) PT_TMCFG_AGE_MS * 1000000 })
    else if !t.tmOn p then t.modPart p (fun x => { x with choices := [] })
    else t
  else (s.discard (tmGroup p)).faultPart p cCONFIG

/-- Discards a migration before its commit point: the region stays at its source (R186). -/
def discardMigration (s : State) (p : Nat) : State :=
  s.modPart p (fun x => { x with
    migration := none
    regions := x.regions.map (fun r => { r with moving := false }) })

/-- The lowest free slot of a pool. -/
def freeSlot (s : State) (p tier : Nat) (used : List Nat) : Option Nat :=
  let (b, n) := s.pool p tier
  ((List.range n).map (fun i => b + i * 2097152)).find? (fun a => !used.contains a)

/-- The region to demote: lowest count, then lowest virtual address, among T1 regions with count at most COLD_MAX. -/
def coldest (rs : List Region) (slot coldMax : Nat) : Option Region :=
  ((sortBy (fun r => r.count * 2 ^ 64 + r.va) (rs.filter (fun r =>
    r.slot == slot && r.tier == 0 && decide (r.count ≤ coldMax) && !r.moving)))).head?

/-- The region to promote: highest count, then lowest virtual address, among T2 regions with count at least HOT_MIN. -/
def hottest (rs : List Region) (slot hotMin : Nat) : Option Region :=
  ((sortBy (fun r => (65535 - r.count) * 2 ^ 64 + r.va) (rs.filter (fun r =>
    r.slot == slot && r.tier == 1 && decide (hotMin ≤ r.count) && !r.moving)))).head?

/-- What the choices of one halving gather: choices, regions left, charges of the context, slots counted as used, how
many choices lacked room. -/
structure Choosing where
  choices : List (Nat × Nat × Nat)
  regions : List Region
  used1 : List Nat
  used2 : List Nat
  noRoom : Nat
deriving DecidableEq, Repr

/-- Demotions of one context, repeated while its T1 charge stays above LO_PCT (R185); charges in units of 64 KiB. DESIGN CHOICE,
unsafe (log entry 51): after a choice that lacks quota or a slot the halving makes no further choice for the context. -/
def demote (s : State) (p slot : Nat) : Nat → Nat → Nat → Choosing → Choosing
  | 0, _, _, ch => ch
  | fuel + 1, u1, u2, ch =>
    let id := cid p slot
    if u1 * 100 ≤ s.fld (a_PT_TMCFG p) PT_TMCFG_LO_PCT * s.quota id 1 then ch
    else match coldest ch.regions slot (s.fld (a_PT_TMCFG p) PT_TMCFG_COLD_MAX) with
      | none => ch
      | some r =>
        match s.freeSlot p 1 ch.used2 with
        | some a =>
          if u2 + 32 ≤ s.quota id 2 then
            demote s p slot fuel (u1 - 32) (u2 + 32)
              { ch with choices := ch.choices ++ [(slot, r.va, 1)], used2 := a :: ch.used2
                        regions := ch.regions.filter (fun x => x != r) }
          else { ch with noRoom := ch.noRoom + 1 }
        | none => { ch with noRoom := ch.noRoom + 1 }

/-- The decision for one context (R185). -/
def decideCtx (s : State) (p slot : Nat) (ch : Choosing) : Choosing :=
  let id := cid p slot
  let c := a_PT_TMCFG p
  let u1 := s.charge id 1
  let u2 := s.charge id 2
  let q1 := s.quota id 1
  if s.fld c PT_TMCFG_HI_PCT * q1 < u1 * 100 then s.demote p slot 16385 u1 u2 ch
  else if (u1 + 32) * 100 ≤ s.fld c PT_TMCFG_LO_PCT * q1 then
    match hottest ch.regions slot (s.fld c PT_TMCFG_HOT_MIN) with
    | none => ch
    | some r =>
      match s.freeSlot p 0 ch.used1 with
      | none => { ch with noRoom := ch.noRoom + 1 }
      | some a => { ch with choices := ch.choices ++ [(slot, r.va, 0)], used1 := a :: ch.used1
                            regions := ch.regions.filter (fun x => x != r) }
  else ch

/-- The halving and the choices that follow it (R184, R185). -/
def halve (s : State) (p : Nat) : State :=
  let x := s.part p
  let rs := x.regions.map (fun r => { r with count := r.count / 2 })
  let ch := (s.liveSlots p).foldl (fun ch sl => s.decideCtx p sl ch)
    { choices := [], regions := rs, used1 := x.used1, used2 := x.used2, noRoom := 0 }
  (s.setPart p { x with regions := rs, choices := ch.choices
                        nextHalving := s.now + s.fld (a_PT_TMCFG p) PT_TMCFG_AGE_MS * 1000000 }).bump (a_PT_TMCNT p)
    PT_TMCNT_NO_ROOM ch.noRoom

/-- A chosen migration begins: its region is MOVING and the epoch of its address space is to be incremented (R186). -/
def startMigration (s : State) (p : Nat) : State :=
  let x := s.part p
  match x.choices with
  | [] => s
  | (slot, va, dest) :: rest =>
    match x.regions.find? (fun r => r.slot == slot && r.va == va), s.freeSlot p dest (if dest = 0 then x.used1 else x.used2) with
    | some _, some dst =>
      (s.setPart p { x with
        choices := rest
        regions := x.regions.map (fun r => if r.slot = slot ∧ r.va = va then { r with moving := true } else r)
        migration := some { slot := slot, va := va, dst := dst, toTier := dest, step := 2, epoch := 0, waitFrom := s.now }
      }).requestIncrement (s.asidOf (cid p slot)) (.migration p)
    | some _, none => (s.setPart p { x with choices := rest }).bump (a_PT_TMCNT p) PT_TMCNT_NO_ROOM 1
    | none, _ => s.setPart p { x with choices := rest }

/-- Every descriptor stamped older than the migration's epoch has completed. -/
def olderDone (s : State) (p : Nat) (m : Migration) : Bool :=
  let a := s.asidOf (cid p m.slot)
  (s.openEpochs a).all (fun e => decide (32768 ≤ epochAge m.epoch e) || e == m.epoch)

/-- The index of a region's entry in its range table. -/
def entryOf (s : State) (a va : Nat) : Option Nat :=
  (List.range (s.fld (a_XL_ASCOUNT a) XL_ASCOUNT_COUNT)).find? (fun i =>
    let e := wordsOf (s.readMem keySYS (s.fld (a_XL_ASCFG a) XL_ASCFG_TBASE * 4096 + i * 32) 32).1 4
    entryValid e && entryStart e == va)

/-- The copy, the one 8-byte write of the entry, the charges and slots; held descriptors are marked (R186 steps 4–7).
DEDUCED, unsafe (log entry 39): the copy is one step. -/
def commitMigration (s : State) (p : Nat) (m : Migration) : State :=
  let id := cid p m.slot
  let a := s.asidOf id
  match (s.part p).regions.find? (fun r => r.slot == m.slot && r.va == m.va), s.entryOf a m.va with
  | some r, some i =>
    let t := ({ s with fresh := s.fresh + 1 }.readAs clsAccel id r.pa 2097152).1
    let t := t.writeMemB id m.dst (t.readMemP id r.pa 2097152)
    let q2 := m.toTier * 2 ^ 62 + m.dst
    let t := t.writeMem keySYS (s.fld (a_XL_ASCFG a) XL_ASCFG_TBASE * 4096 + i * 32 + 16) (leBytes q2 8) false
    let t := (t.setCharge id (m.toTier + 1) (t.charge id (m.toTier + 1) + 32)).setCharge id (2 - m.toTier)
      (t.charge id (2 - m.toTier) - 32)
    let t := t.bump (a_PT_TMCNT p) (if m.toTier = 1 then PT_TMCNT_DEMOTED else PT_TMCNT_PROMOTED) 1
    let t := (t.liveSlots p).foldl (fun t sl => t.modCtx (cid p sl) (fun c => { c with descs := c.descs.map (fun d =>
      if undispatched d && d.opnds.any (fun o => o.exts.any (fun e => overlap e.pa e.len r.pa 2097152)) then
        { d with marked := true } else d) })) t
    let u1 := (t.part p).used1
    let u2 := (t.part p).used2
    t.modPart p (fun x => { x with
      migration := none
      regions := x.regions.map (fun y => if y = r then { y with pa := m.dst, tier := m.toTier, moving := false } else y)
      used1 := if m.toTier = 0 then m.dst :: u1 else u1.filter (fun b => b != r.pa)
      used2 := if m.toTier = 1 then m.dst :: u2 else u2.filter (fun b => b != r.pa) })
  | _, _ => s.discardMigration p

end State

open State

/-- PT_TMCOMMIT (R189). -/
def execPtTmcommit (who : Requester) (pp : Fin 24) (s : State) : Out' :=
  .next (s.gated who (a_PT_TMCOMMIT pp) (fun s => s.tmCommit pp))

/-- PT_TMCTL.HOLD: no migration starts; one that has not reached its commit point is discarded (R186, R187). -/
def execPtTmctlHold (who : Requester) (pp : Fin 24) (hold : Bool) (s : State) : Out' :=
  .next (s.gated who (a_PT_TMCTL pp) (fun s =>
    let t := s.setFld (a_PT_TMCTL pp) PT_TMCTL_HOLD (b2n hold)
    if hold && (t.part pp).migration.isSome then t.discardMigration pp else t))

/-- AGE_HALVING: every AGE_MS while the tier manager is enabled (R184, R185). -/
def execAgeHalving (pp : Fin 24) (s : State) : Out' :=
  .next (if s.tmOn pp && !s.inReset pp && decide ((s.part pp).nextHalving ≤ s.now) then s.halve pp else s)

/-- MIGRATION_START (R186 steps 1 and 2): one at a time, none under HOLD. -/
def execMigrationStart (pp : Fin 24) (s : State) : Out' :=
  .next (if s.tmOn pp && !s.inReset pp && (s.part pp).migration.isNone && !s.flag (a_PT_TMCTL pp) PT_TMCTL_HOLD then
      s.startMigration pp else s)

/-- MIGRATION_DRAINED (R186 steps 3 and 4). -/
def execMigrationDrained (pp : Fin 24) (s : State) : Out' :=
  .next (match (s.part pp).migration with
    | some m =>
      if m.step = 3 && s.olderDone pp m then s.modPart pp (fun x => { x with migration := some { m with step := 4 } }) else s
    | none => s)

/-- MIGRATION_ABANDON: the drain has taken longer than 1 ms (R44, R186 step 3). -/
def execMigrationAbandon (pp : Fin 24) (s : State) : Out' :=
  .next (match (s.part pp).migration with
    | some m =>
      if m.step = 3 && decide (m.waitFrom + 1000000 ≤ s.now) then
        (s.discardMigration pp).bump (a_PT_TMCNT pp) PT_TMCNT_ABANDONED 1 else s
    | none => s)

/-- MIGRATION_COMMIT (R186 steps 4 to 7). -/
def execMigrationCommit (pp : Fin 24) (s : State) : Out' :=
  .next (match (s.part pp).migration with
    | some m =>
      if m.step ≠ 4 then s
      else
        let src := ((s.part pp).regions.find? (fun r => r.slot == m.slot && r.va == m.va)).map (fun r => r.pa)
        let at_ := s.fld (a_XL_ASCFG (s.asidOf (cid pp m.slot))) XL_ASCFG_TBASE * 4096
        if [src.getD m.dst, m.dst, at_].all (fun a => s.fare roleTILE (burlOf pp) a == .served) then
          s.asking (naPart pp) [⟨src.getD m.dst, 2097152⟩, ⟨m.dst, 2097152⟩, ⟨at_, 524288⟩] (fun s => s.commitMigration pp m)
        else s
    | none => s)

end Sys2Proof.Machine
end

