-- ==== Sys2Proof/Machine/Recovery.lean ====
section
/-! DEFINITION. Fault queues, catches, partition recovery and crash dumps (chapter 15: R329–R353, R423, R424), and the
completion record command, which ends a replay. -/

namespace Sys2Proof.Machine

/-! RECOVERY events (R345). -/
def evSTARTED : Nat := 1
def evWAITING : Nat := 2
def evRESTARTED : Nat := 3
def evQUARANTINED : Nat := 4
def evGUILTY : Nat := 5
def evTERMINATED : Nat := 6
def evRELOAD_FAILED : Nat := 7
def evCLEARED : Nat := 8
def evCOMPLETED : Nat := 9
def evESCALATED : Nat := 10
def evRELEASED : Nat := 11

namespace State

/-! ### Queues (R331–R336) -/

/-- Registers of a fault queue: head, tail, overflow, fatal. -/
def fqHeadOf : FaultQueue → Nat
  | .part p => a_FQ_HEAD p
  | .device => a_FQ_DEVHEAD
def fqTailOf : FaultQueue → Nat
  | .part p => a_FQ_TAIL p
  | .device => a_FQ_DEVTAIL
def fqOvfOf : FaultQueue → Nat
  | .part p => a_FQ_OVF p
  | .device => a_FQ_DEVOVF
def fqFatalOf : FaultQueue → Nat
  | .part p => a_FQ_FATAL p
  | .device => a_FQ_DEVFATAL

/-- Writes the LOST record of a queue and clears its overflow fields (R334). -/
def writeLost (s : State) (q : FaultQueue) : State :=
  let o := fqOvfOf q
  let (t, n) := s.takeRseq q
  let base : FRec := match q with
    | .part p => { s.recordP 0 p 255 with kind := 1 }
    | .device => { s.record 0 with kind := 1 }
  let r := { base with count := s.fld o FQ_OVF_COUNT, info0 := s.fld o FQ_OVF_SUMMARY, rseq := n }
  let t := t.wr o 0
  match q with
  | .part p => t.ringWrite p r
  | .device => t.toDevice r

/-- A write of HEAD (R331, R334): backwards or beyond TAIL it is ignored; the first advance with COUNT ≠ 0 writes LOST,
which waits while the ring's stack is away (R333). -/
def fqAdvance (s : State) (q : FaultQueue) (h : Nat) : State :=
  let head := s.fld (fqHeadOf q) FQ_HEAD_HEAD
  let tail := s.fld (fqTailOf q) FQ_TAIL_TAIL
  if (tail + 65536 - head) % 65536 < (h + 65536 - head) % 65536 then s
  else
    let t := s.setFld (fqHeadOf q) FQ_HEAD_HEAD h
    if h = head ∨ s.fld (fqOvfOf q) FQ_OVF_COUNT = 0 then t
    else match q with
      | .device => t.writeLost q
      | .part p => if s.ringAway p then t.modPart p (fun x => { x with lostDue := true }) else t.writeLost q

/-- The staged fault ring of a partition passes R332. -/
def fqOk (s : State) (p : Nat) : Bool :=
  let b := s.stagedFld (a_FQ_CFG p) FQ_CFG_BASE * 65536
  decide (b + 66560 ≤ t1Size) && stackOf b == stackOf (b + 66559) && stackOf b != p
    && (!s.ringOn p || b == s.ringBase p)

/-- Writes every held record in order once the stack has returned, LOST first (R333). -/
def ringReturn (s : State) (p : Nat) : State :=
  let t := if (s.part p).lostDue then (s.modPart p (fun x => { x with lostDue := false })).writeLost (pq p) else s
  let h := (t.part p).hold
  let f := (t.part p).fatalHold
  let t := t.modPart p (fun x => { x with hold := [], fatalHold := [] })
  let t := h.foldl (fun t r => t.ringWrite p r) t
  f.foldl (fun t r => t.fatalToRing p r) t

/-- The stack that holds partition q's ring is re-initialised: the unread records and the fatal slots are lost (R333). -/
def ringStackLost (s : State) (q : Nat) : State :=
  let n := (s.fld (a_FQ_TAIL q) FQ_TAIL_TAIL + 65536 - s.fld (a_FQ_HEAD q) FQ_HEAD_HEAD) % 65536
  let t := s.bump (a_FQ_OVF q) FQ_OVF_COUNT n
  let t := t.setFld (a_FQ_OVF q) FQ_OVF_SUMMARY (natSetBit (t.fld (a_FQ_OVF q) FQ_OVF_SUMMARY) 15 true)
  let t := t.setFld (a_FQ_HEAD q) FQ_HEAD_HEAD (t.fld (a_FQ_TAIL q) FQ_TAIL_TAIL)
  (t.setFld (a_FQ_FATAL q) FQ_FATAL_VALID 0).modPart q (fun x => { x with lostDue := true })

/-- Every ring that stack p holds is lost. -/
def ringsLost (s : State) (p : Nat) : State :=
  (List.range 24).foldl (fun t q => if t.ringOn q && stackOf (t.ringBase q) == p then t.ringStackLost q else t) s

/-! ### Crash dumps (R350–R352) -/

/-- T2 is in service. -/
def t2Up (s : State) : Bool := s.flag a_DD_TIER DD_TIER_ACTIVE

/-- The slot a dump takes: the lowest free one, else the one that holds the oldest dump (R350). -/
def dumpSlot (s : State) : Nat :=
  match (List.range 4).find? (fun k => (s.dump k).isNone) with
  | some k => k
  | none =>
    let id (k : Nat) : Nat := ((s.dump k).map (fun d => d.id)).getD 0
    [1, 2, 3].foldl (fun b k => if id k < id b then k else b) 0

/-- A dump begins; the escalation that waits for it is noted. With T2 out of service, or without the operator's dump key,
nothing is written and the escalation is due at once: the event goes to the persistent log (R350, R358). -/
def startDump (s : State) (cause : List Word) (after : Option Nat) : State × Bool :=
  if !s.t2Up || !s.mg.dumpKey then (s.logEvent 350, false)
  else
    let k := s.dumpSlot
    let t := if (s.dump k).isSome then s.bump a_MG_DUMPCNT MG_DUMPCNT_OVERWRITTEN 1 else s
    let n := s.mg.dumpNext
    let t := t.setDump k (some { id := n, time := s.now, cause := cause,
                                 level := s.fld a_MG_LICENCE MG_LICENCE_DUMP, truncated := false, writing := true, len := 0 })
    let t := t.wr (a_MG_DUMPSTAT k) 0
    let due := match after with | some c => [(n, c)] | none => []
    ({ t with mg := { t.mg with dumpNext := n + 1, dumpFor := t.mg.dumpFor ++ due } }, true)

/-- MG_DUMPCTL.RELEASE frees slots that hold a complete dump (R352). -/
def releaseDumps (s : State) (mask : Nat) : State :=
  (List.range 4).foldl (fun t k =>
    if natBit mask k && (t.dump k).any (fun d => !d.writing) then (t.setDump k none).wr (a_MG_DUMPSTAT k) 0 else t) s

/-- The oldest dump being written. -/
def writingDump (s : State) : Option (Nat × Dump) :=
  ((sortBy (fun (x : Nat × Dump) => x.2.id) ((List.range 4).filterMap (fun k => (s.dump k).map (fun d => (k, d))))).filter
    (fun x => x.2.writing)).head?

/-- The bytes of a dump slot that a dump may fill: slot 3 keeps its last 4 MiB for the copy of the partition image (R366). -/
def dumpRoom (k : Nat) : Nat := if k = 3 then 508 * 2 ^ 20 else 2 ^ 29

/-- A dump ends: its header's fields appear in MG_DUMPSTAT. The length of the ciphertext is free; what does not fit the slot is cut
off, and the dump is marked TRUNCATED (R366). -/
def endDump (s : State) (k : Nat) (d : Dump) (truncated : Bool) : State :=
  let full := Config.freeNat s.fresh % (2 ^ 29 - 511)
  let len := min full (dumpRoom k - 512)
  let cut := truncated || decide (len < full)
  let t := { s with fresh := s.fresh + 1 }.setDump k (some { d with writing := false, truncated := cut, len := len })
  let a := a_MG_DUMPSTAT k
  let w := MG_DUMPSTAT_DUMP_ID.set (MG_DUMPSTAT_LENGTH_KIB.set (MG_DUMPSTAT_LEVEL.set (MG_DUMPSTAT_TRUNCATED.set
    (MG_DUMPSTAT_VALID.set 0 1) (b2n cut)) d.level) (ceilDiv (512 + len) 1024)) d.id
  t.wr a w

/-! ### Recovery records and fates -/

/-- A RECOVERY record (R345). -/
def recoveryRec (s : State) (p event : Nat) : FRec :=
  let e := (s.part p).episode
  { s.recordP ((e.map (fun x => x.cls)).getD 0) p 224 with
    kind := 2, sub := event, fatal := event == evRESTARTED || event == evQUARANTINED || event == evESCALATED,
    info0 := (e.map (fun x => x.start)).getD s.now }

/-- Writes a RECOVERY record, of a context where one is concerned. -/
def recovery (s : State) (p event : Nat) (ctx : Option Nat) : State :=
  let r := s.recoveryRec p event
  s.fault (pq p) (match ctx with
    | none => r
    | some id => { r with ctxValid := true, ctxid := id, tenant := s.tenantOf id })

def setRec (s : State) (p state step : Nat) : State :=
  (s.setFld (a_PT_RECSTAT p) PT_RECSTAT_STATE state).setFld (a_PT_RECSTAT p) PT_RECSTAT_STEP step

def modEpisode (s : State) (p : Nat) (f : Episode → Episode) : State :=
  s.modPart p (fun x => { x with episode := x.episode.map f })

/-- Suspects not yet judged, in the register. -/
def showSuspects (s : State) (p : Nat) : State :=
  s.setFld (a_PT_RECSTAT p) PT_RECSTAT_SUSPECTS (((s.part p).episode.map (fun e => e.suspects.length)).getD 0)

/-- Adds suspects, kept in ascending order without repeats. -/
def joinSuspects (e : Episode) (ids : List Nat) : Episode :=
  { e with suspects := sortBy (fun i => i) (e.suspects ++ ids).dedup }

/-- A context is TERMINATED; a commit of ENABLE = 0 that waited drains it at once (R129, R131). -/
def terminate (s : State) (id event : Nat) : State :=
  let p := id / 256
  let t := ((s.setCstate id 5).modEpisode p (fun e => { e with suspects := e.suspects.filter (fun i => i != id) })).recovery
    p event (some id)
  (if (t.ctx id).drainAfter && s.recState p != 3 then t.beginDrain id else t).showSuspects p

/-- A ring of a context lies in a stack. -/
def ringIn (s : State) (id p : Nat) : Bool :=
  stackOf (s.fld (a_SQ_RINGBASE (id / 256) (id % 256)) SQ_RINGBASE_BASE * 64) == p
    || stackOf (s.fld (a_SQ_CPLBASE (id / 256) (id % 256)) SQ_CPLBASE_BASE * 16) == p

/-- The fate of one context at step 1 (R341).
DEDUCED, unsafe (log entry 14): contexts that drain drain after the episode. -/
def stepOne (s : State) (id : Nat) : State :=
  let p := id / 256
  let c := s.ctx id
  match s.cstate id with
  | 0 => s
  | 5 => s
  | 4 => s
  | st =>
    if s.ringIn id p || (decide (c.head < c.tail) && !c.replayable) then
      (s.modCtx id (fun c => { c with drainAfter := c.drainAfter || st == 6 })).terminate id evTERMINATED
    else (s.setCstate id 4).modCtx id (fun c => { c with before := st, drainAfter := c.drainAfter || st == 6 })

/-- Every context of a partition meets its fate (R341). -/
def sortContexts (s : State) (p : Nat) : State := (s.liveSlots p).foldl (fun t sl => t.stepOne (cid p sl)) s

/-! ### Steps 2 and 3 (R221, R339) -/

/-- What the writes in flight of one job leave in T1 and T2 at a partition reset: each unit is written in whole or not at all
(R204, R205, R221). DEDUCED, safe (log entry 44): outputs in the tile store vanish. -/
def abandonJob (s : State) (j : Job) : State :=
  (j.alt.filter (fun x => decide (x.addr < tsWindow))).foldl (fun t x =>
    let u := { t with fresh := t.fresh + 1 }
    if Config.freeBool t.fresh then u.writeMem (cid j.pp j.ref.slot) x.addr x.bytes x.poison else u) (s.dropJob j.pp j.ref)

/-- Records of the descriptors that a partition reset ends: NOT_COMPLETED for what was running, the record already due
for what had completed; none where the completion ring lies in the reset stack (R221). -/
def endDescs (s : State) (id : Nat) : State :=
  let p := id / 256
  if stackOf (s.fld (a_SQ_CPLBASE p (id % 256)) SQ_CPLBASE_BASE * 16) = p then s
  else ((s.ctx id).descs.filter (fun d => d.stage == .running || d.stage == .complete)).foldl (fun t d =>
    t.writeRecord id (if d.stage = .running then
      { d with status := stNOT_COMPLETED, detail := 0, ended := s.dieNow (burlOf p) } else d)) s

/-- A register of a partition's domains that its reset clears. -/
def clearedBy (p a : Nat) : Bool :=
  match regFind a with
  | some (r, ix) => r.domain == .partCtl && ix.headD 0 == p && !r.kept
  | none => false

/-- A register of a partition. -/
def belongsTo (p a : Nat) : Bool :=
  match regFind a with
  | some (r, ix) => r.domain == .partCtl && ix.headD 0 == p
  | none => false

/-- A fabric of messages loses what a home in reset held: every request still unanswered is sent again (R261). -/
def homeReset (s : State) (h : Nat) : State :=
  let homeOfMsg (m : CMsg) : Nat :=
    match m with
    | .req h _ _ _ _ => h
    | .snoop h _ _ _ => h
    | .rsp h _ _ _ _ _ _ => h
    | .grant h _ _ _ _ _ => h
    | .nak h _ _ => h
  let again := s.agents.flatMap (fun e => (e.2.misses.filter (fun m => stackOf m.addr == h && !m.waiting && !m.held)).map
    (fun m => CMsg.req h e.1 m.addr m.req m.urgent))
  { s.setHome h Home.init with net := s.net.filter (fun m => homeOfMsg m != h) ++ again }

/-- Every caching agent drops its lines of a reset stack without write-back (R261). -/
def dropStackLines (s : State) (p : Nat) : State :=
  { s with
    agents := s.agents.filterMap (fun e =>
      let x := { e.2 with lines := e.2.lines.filter (fun l => stackOf l.addr != p) }
      if x = Agent.init then none else some (e.1, x))
    slices := s.slices.filterMap (fun e =>
      let x : Slice := { lru := e.2.lru.filter (fun l => stackOf l.2 != p), waits := e.2.waits.filter (fun w => stackOf w.fill.addr != p) }
      if x = Slice.init then none else some (e.1, x)) }

/-- The pacing that chatter brought ends with a reset of the partition's domains; what their supply does goes on (R30, R321). -/
def resetPartDoms (s : State) (p : Nat) : State :=
  [domEng p, domTs p, domCtl p].foldl (fun t i => t.setDom i { t.dom i with halved := false }) s

/-- A partition reset, steps 2 and 3 of R339: its units' writes end, its descriptors end, its domains reset. -/
def resetPartition (s : State) (p : Nat) : State :=
  let t := (s.modPart p (fun x => { x with stackOut := true })).resetPartDoms p
  let t := (t.jobs.filter (fun j => j.pp == p)).foldl (fun t j => t.abandonJob j) t
  let t := (t.liveSlots p).foldl (fun t sl => t.endDescs (cid p sl)) t
  let t := (t.liveSlots p).foldl (fun t sl => (t.modCtx (cid p sl) (fun c => { c with
      descs := [], fetch := if t.cstate (cid p sl) = 5 then c.fetch else c.head, replayed := 0, claims := c.claims.filter (fun k => k.tier != 0), phaseTag := 64 })).setCharge
    (cid p sl) 0 0) t
  let t := { t with
    remotes := t.remotes.filter (fun r => r.pp != p)
    asks := t.asks.filter (fun a => a.who != naPart p)
    semWaits := t.semWaits.filter (fun w => w.pp != p)
    barWaits := t.barWaits.filter (fun w => w.2.1 != p)
    regs := Sparse.drop (clearedBy p) t.regs
    staged := Sparse.drop (belongsTo p) t.staged
    ts := Sparse.drop (fun k => k / tsSize == p) t.ts
    tsPoison := Sparse.drop (fun k => k * 256 / tsSize == p) t.tsPoison
    tsDirty := Sparse.drop (fun k => k * 64 / tsSize == p) t.tsDirty
    tsFlips := Sparse.drop (fun k => k * 8 / tsSize == p) t.tsFlips }
  let t := (List.range 256).foldl (fun t b =>
    let c := a_BD_BARCFG b
    if t.fld c BD_BARCFG_SCOPE = 0 ∧ t.fld c BD_BARCFG_HOME = p then t.setFld (a_BD_BARGEN b) BD_BARGEN_ARRIVED 0 else t) t
  let t := t.modPart p (fun x => { Part.init with
    hold := x.hold, fatalHold := x.fatalHold, lostDue := x.lostDue, rseq := x.rseq, episode := x.episode
    inReset := true, stackOut := true, joined := x.joined, hbAt := t.now })
  let t := (t.homeReset p).dropStackLines p
  ((List.range 192).map (fun sl => t.asidOf (cid p sl))).dedup.foldl (fun t a => t.advanceDone a) t

/-- Another partition of the Burl runs step 4 or a later one (R346). -/
def slotTaken (s : State) (p : Nat) : Bool :=
  (List.range 24).any (fun q => q != p && burlOf q == burlOf p && s.recState q == 2 && decide (4 ≤ s.recStep q))

/-- The partition that takes a Burl's slot next: the lowest number among those whose starting records lie within 200 ns
of the earliest (R346). -/
def nextForSlot (s : State) (b : Nat) : Option Nat :=
  let ws := (List.range 24).filter (fun q => burlOf q == b && s.recState q == 1)
  let start (q : Nat) : Nat := ((s.part q).episode.map (fun e => e.start)).getD 0
  match smallest (ws.map start) with
  | none => none
  | some m => ws.find? (fun q => decide (start q ≤ m + 200))

/-- Steps 2 and 3 end; the partition waits for its Burl's slot (R339, R346). -/
def quiesced (s : State) (p : Nat) : State :=
  let t := (s.resetPartition p).setRec p 1 3
  if t.slotTaken p || t.nextForSlot (burlOf p) != some p then t.recovery p evWAITING none else t

/-- A partition of a Burl still waits for its bring-up: recoveries wait behind it (R371). -/
def bringUpsDue (s : State) (b : Nat) : Bool :=
  decide (s.fld a_MG_BOOTSTAT MG_BOOTSTAT_LEVEL < 2) && (List.range 24).any (fun q =>
    burlOf q == b && s.enabled q && !(s.part q).joined && s.recState q != 3 && s.recState q != 1)

/-- A partition is quarantined (R348, R350). -/
def quarantine (s : State) (p : Nat) : State :=
  let t := (s.liveSlots p).foldl (fun t sl => (t.setCstate (cid p sl) 5).modCtx (cid p sl)
    (fun c => { c with drainAfter := false })) s
  let t := (t.resetPartition p).setFld (a_PT_RECSTAT p) PT_RECSTAT_STATE 3
  let r := { t.recoveryRec p evQUARANTINED with time := t.dieNow (burlOf p), rseq := (t.part p).rseq }
  let t := t.recovery p evQUARANTINED none
  let t := (t.setFld (a_PT_RECSTAT p) PT_RECSTAT_SUSPECTS 0).setFld (a_PT_RECSTAT p) PT_RECSTAT_REPLAY_CTX 0
  ((t.startDump (r.words 1) none).1).modPart p (fun x => { x with episode := none })

/-- A fatal fault strikes a partition that is WAITING or RECOVERING (R347): the second fault restarts the episode from
step 2, the third quarantines the partition. DEDUCED, unsafe (log entry 13). -/
def furtherFault (s : State) (p : Nat) (ids : List Nat) : State :=
  let n := s.fld (a_PT_RECSTAT p) PT_RECSTAT_FAULTS + 1
  let t := (s.setFld (a_PT_RECSTAT p) PT_RECSTAT_FAULTS n).modEpisode p (fun e => joinSuspects { e with replaying := false } ids)
  if n = 1 then
    ((t.recovery p evRESTARTED none).setRec p 2 2).setFld (a_PT_RECSTAT p) PT_RECSTAT_REPLAY_CTX 0 |>.showSuspects p
  else t.quarantine p

/-- A fatal fault of a partition: it begins an episode, joins one that has not reached step 3, or counts under R347
(R338). -/
def strikePartition (s : State) (p cls : Nat) (ids : List Nat) : State :=
  match (s.part p).episode with
  | none =>
    if s.recState p = 0 then
      s.modPart p (fun x => { x with episode := some (joinSuspects
        { start := s.now, cls := cls, suspects := [], slot := 0, entry := 0, since := 0, replaying := false, release := false } ids) })
    else s
  | some _ =>
    if s.recState p = 0 || (s.recState p == 2 && decide (s.recStep p ≤ 2)) then
      (s.modEpisode p (fun e => joinSuspects e ids)).showSuspects p
    else if s.recState p = 3 then s
    else s.furtherFault p ids

/-! ### Steps 7 to 9 (R342–R344) -/

/-- Step 9: kept contexts resume, the episode ends (R129, R343, R344, R347). A group whose replay was made after the last
reset counts as complete, or continues at its blocked WAIT. -/
def finishEpisode (s : State) (p : Nat) : State :=
  let t := (s.liveSlots p).foldl (fun t sl =>
    let id := cid p sl
    if t.cstate id ≠ 4 then t
    else
      let t := if (t.ctx id).replayed = 1 then t.modCtx id (fun c => advanceHead 65537 c) else t
      let t := t.modCtx id (fun c => { c with replayed := 0 })
      if (t.ctx id).drainAfter then t.beginDrain id else t.setCstate id (t.ctx id).before) s
  let t := t.recovery p evCOMPLETED none
  let a := a_PT_RECSTAT p
  let t := ((t.setRec p 0 0).setFld a PT_RECSTAT_FAULTS 0).setFld a PT_RECSTAT_REPLAY_CTX 0
  (t.setFld a PT_RECSTAT_SUSPECTS 0).modPart p (fun x => { x with episode := none })

/-- Step 8 takes the next suspect that is kept and holds an uncompleted group, or the episode ends (R343). -/
def nextSuspect (s : State) (p : Nat) : State :=
  let due (id : Nat) : Bool := s.cstate id == 4 && decide ((s.ctx id).head < (s.ctx id).tail)
  match (s.part p).episode with
  | none => s
  | some e =>
    match e.suspects.dropWhile (fun id => !due id) with
    | [] => (s.modEpisode p (fun x => { x with suspects := [], replaying := false })).finishEpisode p
    | id :: rest =>
      ((s.modEpisode p (fun x => { x with suspects := id :: rest, replaying := true })).setRec p 2 8).setFld (a_PT_RECSTAT p)
        PT_RECSTAT_REPLAY_CTX id |>.showSuspects p

/-- The context under replay is judged. -/
def judged (s : State) (p : Nat) : State :=
  s.modEpisode p (fun e => { e with suspects := e.suspects.tail, replaying := false })

/-- The suspect under replay is CLEARED (R343): how far its replay reached is recorded. -/
def cleared (s : State) (p reached : Nat) : State :=
  let id := s.fld (a_PT_RECSTAT p) PT_RECSTAT_REPLAY_CTX
  ((s.modCtx id (fun c => { c with replayed := reached })).recovery p evCLEARED (some id)).judged p |>.nextSuspect p

/-- The suspect under replay catches: GUILTY; steps 2 to 7 run again (R343, R344). -/
def guilty (s : State) (p : Nat) : State :=
  let id := s.fld (a_PT_RECSTAT p) PT_RECSTAT_REPLAY_CTX
  let t := s.judged p
  let t := t.terminate id evGUILTY
  ((t.setRec p 2 2).setFld (a_PT_RECSTAT p) PT_RECSTAT_REPLAY_CTX 0).showSuspects p

/-- The group under replay has its closing MARK recorded. -/
def replayEnded (s : State) (p id : Nat) (d : Desc) : State :=
  if s.recStep p = 8 ∧ d.kind = kMARK ∧ s.fld (a_PT_RECSTAT p) PT_RECSTAT_REPLAY_CTX = id then s.cleared p 1 else s

/-- The context whose reload list is next, and the entry (R342). -/
def reloadNext (s : State) (p : Nat) (e : Episode) : Option (Nat × Nat) :=
  ((List.range 192).find? (fun sl => decide (e.slot ≤ sl) && s.cstate (cid p sl) == 4 &&
      decide ((if sl = e.slot then e.entry else 0) < s.fld (a_PT_RELOAD p sl) PT_RELOAD_COUNT))).map (fun sl =>
    (sl, if sl = e.slot then e.entry else 0))

/-- The entry is done; the next one follows. -/
def reloadStep (s : State) (p sl i : Nat) : State :=
  s.modEpisode p (fun e => { e with slot := sl, entry := i + 1, since := 0 })

/-- A reload list fails: its context is TERMINATED and the next context follows (R342). -/
def reloadFail (s : State) (p sl : Nat) : State :=
  let t := (s.modEpisode p (fun e => { e with slot := sl + 1, entry := 0, since := 0 })).terminate (cid p sl) evRELOAD_FAILED
  { t with jobs := t.jobs.filter (fun j => !(j.pp == p && j.ref.slot == sl))
           remotes := t.remotes.filter (fun r => !(r.pp == p && r.ref.slot == sl)) }

/-- The ranges a COPY may name (R342). -/
def copyOk (s : State) (p id dst src n : Nat) : Bool :=
  decide (0 < n) && n % 64 == 0 && dst % 64 == 0 && src % 64 == 0 && within dst n (p * stackSize) stackSize &&
    (match s.cfg id PT_CTXCFG_RECOVERY with
     | 0 => decide (t2Base ≤ src) && s.memRange src n && s.clearOfReserve src n
     | 1 => decide (src + n ≤ t1Size) && stackOf src == stackOf (src + n - 1) && stackOf src != p
     | _ => src / 2 ^ 45 != 0 && src / 2 ^ 45 != s.fld a_FB_DEVID FB_DEVID_DEV && src / 2 ^ 45 == (src + n - 1) / 2 ^ 45)

/-- One remote COPY: it asks for the units it lacks, and writes once it has them all. Its requests carry the slot and an
index no ring has. -/
def reloadRemote (s : State) (p sl i dst src n rctx : Nat) : State :=
  let id := cid p sl
  let r : DRef := ⟨sl, 2 ^ 20 + i⟩
  let t := if (s.findJob p r).isSome then s else s.addJob p r [] [⟨dst, n⟩] []
  match t.findJob p r with
  | none => s
  | some j =>
    let asked := (t.remotes.filter (fun x => x.pp == p && x.ref == r)).flatMap (fun x =>
      (List.range (natBits (x.hdr.getD 0 0).toNat 19 16)).map (fun i => x.pa + 64 * i))
    let lack := (unitsOf src n).filter (fun u => !j.got.any (fun g => g.1 == u))
    if lack.isEmpty then
      (match readGot j src n with
       | none => t
       | some bs =>
         if bs.any (fun b => b.2) then (t.dropJob p r).reloadFail p sl
         else ((t.dropJob p r).writeMemB id dst bs).reloadStep p sl i)
    else
      let u := ((packetsOf (lack.filter (fun u => !asked.contains u))).take (512 - t.outstanding p)).foldl (fun t us =>
        if (t.findJob p r).isNone then t else t.sendRemote p r 1 (us.headD 0) us.length 0 rctx 1 0 []) t
      if (u.findJob p r).isNone then u.reloadFail p sl else u

/-- The home of a reload refuses it: it is asked again until FB_TIMEOUT.TIMEOUT_US, and then the list fails (R340, R342). -/
def reloadWait (s : State) (p sl : Nat) : State :=
  match (s.part p).episode with
  | some e =>
    if e.since = 0 then s.modEpisode p (fun e => { e with since := s.now + 1 })
    else if s.now < e.since - 1 + s.fbTimeout then s
    else s.reloadFail p sl
  | none => s

/-- An entry of a reload list acts (R342): it sets a semaphore, or copies bytes from another device or another tier. An RCTX of an
absent slot breaks its rules (R7, R11). DEDUCED, unsafe (log entry 14): bits the entry's map does not name are ignored. -/
def reloadAct (s : State) (p sl i : Nat) (ws : List Word) : State :=
  let id := cid p sl
  let q0 := (ws.getD 0 0).toNat
  let q1 := (ws.getD 1 0).toNat
  let n := (ws.getD 2 0).toNat
  let rctx := natBits (ws.getD 3 0).toNat 12 0
  if natBit q0 63 then
    let sem := natBits q0 11 0
    if n ≠ 0 || rctx ≠ 0 || !s.semAllowed (s.tenantOf id) p sem then s.reloadFail p sl
    else (s.updateSem p sem (natBits q1 31 0)).reloadStep p sl i
  else
    let dst := natBits q0 44 0
    let src := natBits q1 56 0
    if !s.copyOk p id dst src n || (decide (2 ^ 45 ≤ src) && !s.slotOk (rctx % 256)) then s.reloadFail p sl
    else if 2 ^ 45 ≤ src then s.reloadRemote p sl i dst src n rctx
    else match s.fare roleTILE (burlOf p) src with
      | .refused => s.reloadWait p sl
      | .held => s
      | .served => s.asking (naPart p) [⟨src, n⟩, ⟨dst, n⟩] (fun s =>
          let data := s.readMemP id src n
          let t := (({ s with fresh := s.fresh + 1 } : State).readAs clsAccel id src n).1
          if data.any (fun b => b.2) then t.reloadFail p sl else (t.writeMemB id dst data).reloadStep p sl i)

/-- One entry of a reload list is read, under KEY_SYS (R342). -/
def reloadEntry (s : State) (p sl i : Nat) : State :=
  let at_ := s.fld (a_PT_RELOAD p sl) PT_RELOAD_BASE * 32 + 32 * i
  if !s.memRange at_ 32 || !s.clearOfReserve at_ 32 || (decide (at_ < t1Size) && stackOf at_ == p) then s.reloadFail p sl
  else match s.fare roleCOH (burlOf p) at_ with
    | .refused => s.reloadWait p sl
    | .held => s
    | .served => s.asking (naPart p) [⟨at_, 32⟩] (fun s =>
        let x := s.readMem keySYS at_ 32
        let t := (({ s with fresh := s.fresh + 1 } : State).readAs clsAccel keySYS at_ 32).1
        if x.2 then t.reloadFail p sl else t.reloadAct p sl i (wordsOf x.1 4))

/-! ### Catches (R337, R338) -/

/-- The contexts whose work a unit holds (R338). -/
def heldBy (s : State) (p unit : Nat) : List Nat :=
  let x := s.part p
  let refs : List DRef :=
    if unit < 20 then ((x.engines.getD unit Engine.init).slots.filterMap id).map (fun w => w.ref)
    else if unit < 24 then ((x.ves.getD (unit - 20) (none, 0)).1).toList
    else if unit = 24 then x.du.toList
    else (x.dms.getD (unit - 25) none).toList
  (refs.map (fun r => cid p r.slot)).dedup

/-- A unit raises CATCH: the fatal record, and what it means for the partition (R337, R338, R343, R347). -/
def catchUnit (s : State) (p unit : Nat) (ids : List Nat) (last : Nat) : State :=
  let r := { s.recordP cCATCH p unit with
    fatal := true, info1 := last, info0 := ids.getD 0 0xFFFF * 65536 + ids.getD 1 0xFFFF }
  let t := s.fault (pq p) r
  if t.recStep p = 8 ∧ ids ≠ [] then t.guilty p else t.strikePartition p cCATCH ids

/-! ### Die reset of a Burl (R349) -/

/-- A partition enters its recovery by a die reset: an open episode is absorbed, its suspects and FAULTS kept; steps 4 to
9 follow. One that has not joined, or is quarantined, only loses the contents of its domains (R30, R349). -/
def enterByDie (s : State) (p : Nat) : State :=
  if !s.enabled p then s
  else if s.recState p == 3 || !(s.part p).joined then
    { s.resetPartDoms p with
      regs := Sparse.drop (clearedBy p) s.regs
      staged := Sparse.drop (belongsTo p) s.staged }
  else
    let t := if (s.part p).episode.isSome then s.recovery p evESCALATED none else s
    let t := if (t.part p).episode.isSome then t.modEpisode p (fun e => { e with start := s.now, slot := 0, entry := 0, since := 0, replaying := false })
      else (t.strikePartition p cLINK [])
    let t := if s.recState p = 0 then t.bump (a_PT_RECSTAT p) PT_RECSTAT_EPISODES 1 else t
    let t := (t.sortContexts p).resetPartition p
    ((t.setRec p 1 3).setFld (a_PT_RECSTAT p) PT_RECSTAT_REPLAY_CTX 0).showSuspects p

end State

open State

/-! ### The commands -/

/-- FQ_COMMIT (R332). A refused one changes nothing, so what is staged stays (log entry 11). -/
def execFqCommit (who : Requester) (pp : Fin 24) (s : State) : Out' :=
  .next (s.gated who (a_FQ_COMMIT pp) (fun s =>
    if s.fqOk pp then s.commit [a_FQ_CFG pp]
    else s.fault .device (s.recordP cCONFIG pp 255)))

/-- FQ_HEAD and FQ_DEVHEAD (R331, R334, R336). -/
def execFqHeadWrite (who : Requester) (queue : FaultQueue) (head : BitVec 16) (s : State) : Out' :=
  .next (s.gated who (fqHeadOf queue) (fun s => s.fqAdvance queue head.toNat))

/-- FQ_FATAL and FQ_DEVFATAL: a written 1 frees its slot (R335). -/
def execFqFatalClear (who : Requester) (queue : FaultQueue) (mask : BitVec 16) (s : State) : Out' :=
  .next (s.gated who (fqFatalOf queue) (fun s =>
    let a := fqFatalOf queue
    s.setFld a FQ_FATAL_VALID (BitVec.ofNat 16 (s.fld a FQ_FATAL_VALID) &&& ~~~mask).toNat))

/-- PT_WATCHDOG (R353). -/
def execPtWatchdogWrite (who : Requester) (pp : Fin 24) (value : BitVec 14) (s : State) : Out' :=
  .next (s.gated who (a_PT_WATCHDOG pp) (fun s =>
    if 1 ≤ value.toNat ∧ value.toNat ≤ 10000 then s.setFld (a_PT_WATCHDOG pp) PT_WATCHDOG_WD_ENGINE value.toNat
    else s.faultPart pp cPROTO))

/-- PT_RECCTL.RESET: an episode with no suspects (R353). -/
def execPtRecctlReset (who : Requester) (pp : Fin 24) (s : State) : Out' :=
  .next (s.gated who (a_PT_RECCTL pp) (fun s =>
    if s.recState pp = 0 then s.strikePartition pp 0 [] else s.faultPart pp cPROTO))

/-- PT_RECCTL.RELEASE (R348, R353). -/
def execPtRecctlRelease (who : Requester) (pp : Fin 24) (s : State) : Out' :=
  .next (s.gated who (a_PT_RECCTL pp) (fun s =>
    if s.recState pp ≠ 3 || !(s.liveSlots pp).isEmpty then s.faultPart pp cPROTO
    else
      let t := (List.range 32).foldl (fun t i => t.wr (a_PT_PREDOWN pp i) (BitVec.allOnes 64)) s
      let t := t.modPart pp (fun x => { x with
        inReset := true
        stackOut := true
        episode := some { start := s.now, cls := 0, suspects := [], slot := 0, entry := 0, since := 0, replaying := false,
                          release := true } })
      (t.recovery pp evRELEASED none).setRec pp 1 3))

/-- MG_DUMPCTL.TRIGGER (R350). -/
def execMgDumpctlTrigger (who : Requester) (s : State) : Out' :=
  .next (s.gated who a_MG_DUMPCTL (fun s => (s.startDump (List.replicate 8 0) none).1))

/-- MG_DUMPCTL.RELEASE frees slots that hold a dump (R352). -/
def execMgDumpctlRelease (who : Requester) (mask : BitVec 4) (s : State) : Out' :=
  .next (s.gated who a_MG_DUMPCTL (fun s => s.releaseDumps mask.toNat))

/-- FAULT_RECORD_SEND: the oldest record of a queue held for merging leaves 10 µs after its first event (R424). -/
def execFaultRecordSend (queue : FaultQueue) (s : State) : Out' :=
  .next (match s.held.find? (fun h => h.1 == queue) with
    | none => s
    | some h =>
      if h.2.time + 10000 ≤ s.dieNow h.2.die then { s with held := s.held.erase h }.toQueue queue h.2 else s)

/-- FAULT_RING_RETRY: the oldest held record is written if the ring's stack answers again (R333). -/
def execFaultRingRetry (pp : Fin 24) (s : State) : Out' :=
  .next (match (s.part pp).hold with
    | [] => s
    | r :: rest =>
      if s.ringAway pp || (s.part pp).lostDue then s
      else (s.modPart pp (fun x => { x with hold := rest })).ringWrite pp r)

/-- HOLDING_STACK_RETURN (R333). -/
def execHoldingStackReturn (pp : Fin 24) (s : State) : Out' := .next (if s.ringAway pp then s else s.ringReturn pp)

/-- WATCHDOG_CATCH (R337); the watchdogs pause while T2 is retrained (R369). -/
def execWatchdogCatch (pp : Fin 24) (unit : Fin 27) (s : State) : Out' :=
  .next (
    let w := Sparse.get (fun _ => 0) (s.part pp).wd unit
    if w = 0 || s.now < w - 1 || s.inReset pp || s.retraining then s
    else
      let t := s.modPart pp (fun x => { x with wd := Sparse.put (fun _ => 0) x.wd unit 0 })
      t.catchUnit pp unit (s.heldBy pp unit) (Sparse.get (fun _ => 0) (s.part pp).wdLast unit))

/-- HEARTBEAT_CHECK: a sequencer whose heartbeat has not advanced for WD_ENGINE is caught with UNIT 27 (R337). -/
def execHeartbeatCheck (pp : Fin 24) (advanced : Bool) (s : State) : Out' :=
  .next (
    if !s.enabled pp || s.inReset pp || !s.domOn (domCtl pp) then s
    else if advanced then s.modPart pp (fun x => { x with hbAt := s.now })
    else if s.now < (s.part pp).hbAt + s.fld (a_PT_WATCHDOG pp) PT_WATCHDOG_WD_ENGINE * 1000000 then s
    else (s.modPart pp (fun x => { x with hbAt := s.now })).catchUnit pp 27 [] 0)

/-- RECOVERY_START: step 1 (R339, R341). -/
def execRecoveryStart (pp : Fin 24) (s : State) : Out' :=
  .next (
    if (s.part pp).episode.isNone || s.recState pp ≠ 0 then s
    else
      let t := (s.setRec pp 2 1).bump (a_PT_RECSTAT pp) PT_RECSTAT_EPISODES 1
      ((t.recovery pp evSTARTED none).sortContexts pp).showSuspects pp)

/-- QUIESCE_DONE: steps 2 and 3 (R339). -/
def execQuiesceDone (pp : Fin 24) (s : State) : Out' :=
  .next (if s.recState pp == 2 && decide (s.recStep pp ≤ 2) then s.quiesced pp else s)

/-- RECOVERY_SLOT_GRANT: step 4 begins (R346). -/
def execRecoverySlotGrant (pp : Fin 24) (s : State) : Out' :=
  .next (if s.recState pp == 1 && !s.slotTaken pp && !s.bringUpsDue (burlOf pp) && s.nextForSlot (burlOf pp) == some pp.val && !(s.die (burlOf pp)).inReset then
      s.setRec pp 2 4 else s)

/-- STACK_REINIT_DONE: the stack is trained, the tile store zeroed; rings that lay in the stack are lost (R333, R339). -/
def execStackReinitDone (pp : Fin 24) (s : State) : Out' :=
  .next (if s.recState pp == 2 && s.recStep pp == 4 then ((s.tsZero pp 0 tsSize).ringsLost pp).setRec pp 2 5 else s)

/-- STACK_SCRUB_DONE: every unit holds zero ciphertext; the stack serves requests again (R339, R340, R421). -/
def execStackScrubDone (pp : Fin 24) (s : State) : Out' :=
  .next (if s.recState pp == 2 && s.recStep pp == 5 then
      ({ s with mem := Sparse.drop (fun a => stackOf a == pp.val) s.mem,
                units := Sparse.drop (fun a => stackOf a == pp.val) s.units
                flips := Sparse.drop (fun a => stackOf a == pp.val) s.flips }.modPart pp (fun x => { x with stackOut := false })).setRec
        pp 2 6
    else s)

/-- FIRMWARE_RELOAD_DONE: step 6 ends, reloaded from the copy in the crash dump reserve (R366), with the firmware function tables
valid (R76, R339); a release goes on with step 9 (R348). -/
def execFirmwareReloadDone (pp : Fin 24) (s : State) : Out' :=
  .next (if s.recState pp == 2 && s.recStep pp == 6 && s.mg.imageCopy then
      let t := ((s.modPart pp (fun x => { x with inReset := false, hbAt := s.now })).wr (a_VE_TABVALID pp) 0xFFFFFFFF).setRec pp 2 7
      if (s.part pp).episode.any (fun e => e.release) then
        ((t.modPart pp (fun x => { x with joined := true })).setFld a_MG_BOOTSTAT MG_BOOTSTAT_JOINED
          (natSetBit (t.fld a_MG_BOOTSTAT MG_BOOTSTAT_JOINED) pp true)).finishEpisode pp
      else t.modEpisode pp (fun e => { e with slot := 0, entry := 0, since := 0 })
    else s)

/-- RELOAD_ENTRY: the next entry of the reload lists; after the last, step 8 begins (R342, R343). -/
def execReloadEntry (pp : Fin 24) (s : State) : Out' :=
  .next (match (s.part pp).episode with
    | none => s
    | some e =>
      if s.recStep pp ≠ 7 then s
      else match s.reloadNext pp e with
        | some (sl, i) => s.reloadEntry pp sl i
        | none => s.nextSuspect pp)

/-- REPLAY_WAIT_TIMEOUT: a WAIT of the replayed group has stayed blocked for 1 ms (R343). -/
def execReplayWaitTimeout (pp : Fin 24) (s : State) : Out' :=
  let id := s.fld (a_PT_RECSTAT pp) PT_RECSTAT_REPLAY_CTX
  .next (
    if s.recStep pp ≠ 8 then s
    else match (s.ctx id).descs.find? (fun d => d.kind == kWAIT && d.stage == .running) with
      | none => s
      | some d => if s.now < d.started + 1000000 then s else s.cleared pp (d.index + 2))

/-- DUMP_DONE: a dump is written, or cut short after 200 ms (R350). The escalation that waited follows it. -/
def dumpDone (truncated : Bool) (s : State) : State × Option Nat :=
  match s.writingDump with
  | none => (s, none)
  | some (k, d) =>
    if truncated && decide (s.now < d.time + 200000000) then (s, none)
    else
      let t := s.endDump k d truncated
      ({ t with mg := { t.mg with dumpFor := t.mg.dumpFor.filter (fun x => x.1 != d.id) } },
        (s.mg.dumpFor.find? (fun x => x.1 == d.id)).map (fun x => x.2))

/-- COMPLETION_RECORD: the record of a completed descriptor is written (R139). -/
def execCompletionRecord (pp : Fin 24) (slot : Fin 192) (index : BitVec 16) (s : State) : Out' :=
  let id := cid pp slot
  .next (match (s.ctx id).descs.find? (fun d => d.stage == .complete && d.index % s.ringSize id == index.toNat) with
    | none => s
    | some d =>
      if s.alive (domCtl pp) && !s.inReset pp then (s.writeRecord id d).replayEnded pp id d else s)

end Sys2Proof.Machine
end

