-- ==== Sys2Proof/Machine/Matrix.lean ====
section
/-! DEFINITION. Matrix engines: MM (R63–R71, R90–R96, R105–R112, R151, R170–R174), the start ramp and its registers. -/

namespace Sys2Proof.Machine

/-- A block of an operand as an engine meets it: empty or outside its grid, behind a bad header, or its 32 vectors of 32
elements along the reduction (or, for C, along the row), without scale, and the 32 scales. vecPoison: the poison with which each
vector is delivered; other: that of the scales; head: that of the directory entry and the header, which a block is read through
even when it is empty. -/
inductive Blk where
  | empty (head : Bool)
  | bad
  | data (vecs : List (List Num)) (scales : List Num) (vecPoison : List Bool) (other head nibble : Bool)
deriving DecidableEq, Repr

/-- The operands of an MM in the order of R146: 0 A, 1 B, 2 C, 3 D. -/
def mmOps (d : Desc) : List Nat := if d.mmCEn then [0, 1, 2, 3] else [0, 1, 3]

/-- The directory field of an operand and the position of its lowest bit. -/
def mmDir (d : Desc) : Nat → Nat × Nat
  | 0 => (d.mmA, 64)
  | 1 => (d.mmB, 96)
  | 2 => (d.mmC, 128)
  | _ => (d.mmD, 160)

def mmFmt (d : Desc) : Nat → Nat
  | 0 => d.mmAFmt
  | 1 => d.mmBFmt
  | 2 => d.mmCFmt
  | _ => d.mmDFmt

/-- GR, GC, TBR, TBC of an operand's directory (R174). -/
def mmGrid (d : Desc) (op : Nat) : Nat × Nat × Nat × Nat :=
  let gm := ceilDiv d.mmM (32 * d.mmTbm)
  let gn := ceilDiv d.mmN (32 * d.mmTbn)
  let gl := ceilDiv d.mmL (32 * d.mmTbl)
  match op with
  | 0 => (gm, gl, d.mmTbm, d.mmTbl)
  | 1 => (gl, gn, d.mmTbl, d.mmTbn)
  | _ => (gm, gn, d.mmTbm, d.mmTbn)

/-- The length of an operand's directory. -/
def mmDirBytes (d : Desc) (op : Nat) : Nat := 64 + 8 * ((mmGrid d op).1 * (mmGrid d op).2.1)

/-- SPARSE24 names the operand (R107). -/
def mmSparseOp (d : Desc) (op : Nat) : Bool := d.mmSparse == op + 1

/-- Blocks in one reduction step: two for operands of at most 6 bits (R63, R105). -/
def mmPer (d : Desc) : Nat := if max (State.fmtBits d.mmAFmt) (State.fmtBits d.mmBFmt) ≤ 6 then 2 else 1

/-- Bytes of an output tile: every block occupied, S24 = 0 (R170, R171). -/
def outHdr (f br bc : Nat) : State.TileHdr :=
  let bm := (List.range 64).foldl (fun n b => if b / 8 < br ∧ b % 8 < bc then n + 2 ^ b else n) 0
  let h : State.TileHdr := { nocc := br * bc, s24 := false, axis := 0, bc := bc, br := br, fmt := f, bitmap := bm, bytes := 0 }
  { h with bytes := State.tileBytes h }

/-- The first three words of a header. -/
def hdrWords (h : State.TileHdr) : List Word :=
  [BitVec.ofNat 64 (h.nocc * 2 ^ 32 + b2n h.s24 * 2 ^ 25 + h.axis * 2 ^ 24 + h.bc * 2 ^ 20 + h.br * 2 ^ 16 + h.fmt * 2 ^ 8 + 1),
    BitVec.ofNat 64 h.bitmap, BitVec.ofNat 64 h.bytes, 0, 0, 0, 0]

/-- 32 lists of n consecutive elements. -/
def chunks {α : Type} (n : Nat) (xs : List α) : List (List α) := (List.range 32).map (fun i => (xs.drop (n * i)).take n)

/-- A vector of 16 stored values and 8 nibbles as its 32 dense elements; whether a nibble is illegal (R107, R108). -/
def dense24 (vals nibs : List Nat) : List Nat × Bool :=
  ((List.range 8).flatMap (fun g =>
      let n := nibs.getD g 0
      (List.range 4).map (fun i =>
        if i = n % 4 then vals.getD (2 * g) 0 else if i = n / 4 then vals.getD (2 * g + 1) 0 else 0)),
    (List.range 8).any (fun g => decide (nibs.getD g 0 / 4 ≤ nibs.getD g 0 % 4)))

namespace State

/-- The physical engine of a logical engine: the spare is passed over (R68). -/
def physEngine (s : State) (p k : Nat) : Nat := if k < s.fld (a_ME_MAP p) ME_MAP_SPARE_POS then k else k + 1

/-- What an engine reads of the tile store: its own descriptor's writes as they stand (R204). -/
def engRead (s : State) (p : Nat) (j : Job) (off n : Nat) : List PByte := (s.dropJob p j.ref).jobTs p j off n

/-- Entry i of an operand's directory, with its poison. -/
def dirEntry (s : State) (p : Nat) (j : Job) (d : Desc) (op i : Nat) : Nat × Bool :=
  let bs := s.engRead p j ((mmDir d op).1 + 64 + 8 * i) 8
  (ofLeBytes (bs.map (fun b => b.1)), bs.any (fun b => b.2))

/-- A header agrees with the descriptor and its directory (R172). -/
def hdrFits (d : Desc) (op : Nat) (h : TileHdr) : Bool :=
  let g := mmGrid d op
  h.fmt == mmFmt d op && h.axis == b2n (op == 1) && h.s24 == mmSparseOp d op && h.br == g.2.2.1 && h.bc == g.2.2.2

/-- Where an occupied block of a tile lies: its scales, its payload, and the lengths of both (R170). -/
def blockPlace (off : Nat) (h : TileHdr) (bit : Nat) : (Nat × Nat) × (Nat × Nat) :=
  let k := popcount h.bitmap bit
  let pb := blockBytes h.fmt h.s24
  ((off + 64 + k * blockScale h.fmt, blockScale h.fmt), (off + 64 + scaleBytes h + k * pb, pb))

/-- The poison of n delivered bytes from the i-th on. -/
def poisonOf (bs : List PByte) (i n : Nat) : Bool := ((bs.drop i).take n).any (fun b => b.2)

/-- Decodes an occupied block of a tile (R84, R107, R170). -/
def readBlock (s : State) (p : Nat) (j : Job) (off : Nat) (h : TileHdr) (bit : Nat) (head : Bool) : Blk :=
  let (sp, pp) := blockPlace off h bit
  let w := fmtBits h.fmt
  let sc := s.engRead p j sp.1 sp.2
  let pay := s.engRead p j pp.1 pp.2
  let bytes := pay.map (fun b => b.1)
  let vecs := if h.s24 then
      (List.range 32).map (fun v =>
        dense24 (((unpack w bytes 512).drop (16 * v)).take 16) (((unpack 4 (bytes.drop (64 * w)) 256).drop (8 * v)).take 8))
    else (chunks 32 (unpack w bytes 1024)).map (fun v => (v, false))
  let vp := (List.range 32).map (fun v =>
    if h.s24 then poisonOf pay (2 * w * v) (2 * w) || poisonOf pay (64 * w + 4 * v) 4 else poisonOf pay (4 * w * v) (4 * w))
  let scales := if sp.2 = 0 then List.replicate 32 (Num.fin false 1 0)
    else (unpack (sp.2 / 4) (sc.map (fun b => b.1)) 32).map (scaleOf h.fmt)
  .data (vecs.map (fun v => v.1.map (elem h.fmt))) scales vp (sc.any (fun b => b.2)) head (vecs.any (fun v => v.2))

/-- The tile that holds block (r, c) of an operand: its offset, its header if good, the block's bit, and the poison on the
way to it; none outside the grid and at an empty entry (R105, R172, R174). -/
def tileAt (s : State) (p : Nat) (j : Job) (d : Desc) (op r c : Nat) : Option (Nat × Option TileHdr × Nat × Bool) × Bool :=
  let (gr, gc, tbr, tbc) := mmGrid d op
  if gr ≤ r / tbr ∨ gc ≤ c / tbc then (none, false)
  else
    let (e, po) := s.dirEntry p j d op (r / tbr * gc + c / tbc)
    if natBit e 63 then (none, po)
    else
      let off := natBits e 25 0
      let hb := s.engRead p j off 64
      let h := (tileHeader (hb.map (fun b => b.1))).filter (hdrFits d op)
      (some (off, h, 8 * (r % tbr) + c % tbc, po || hb.any (fun b => b.2)), po)

/-- Block (r, c) of an operand (R105, R172, R174). -/
def blockAt (s : State) (p : Nat) (j : Job) (d : Desc) (op r c : Nat) : Blk :=
  match s.tileAt p j d op r c with
  | (none, po) => .empty po
  | (some (_, none, _, _), _) => .bad
  | (some (off, some h, bit, po), _) => if natBit h.bitmap bit then s.readBlock p j off h bit po else .empty po

/-- The bytes an engine reads for block (r, c): header, scales, payload. -/
def blockSpans (s : State) (p : Nat) (j : Job) (d : Desc) (op r c : Nat) : List (Nat × Nat) :=
  match (s.tileAt p j d op r c).1 with
  | none => []
  | some (off, none, _, _) => [(off, 64)]
  | some (off, some h, bit, _) =>
    if natBit h.bitmap bit then [(off, 64), (blockPlace off h bit).1, (blockPlace off h bit).2] else [(off, 64)]

end State

/-! ### A work unit (R105–R112) -/

def Blk.present : Blk → Bool
  | .empty _ => false
  | _ => true

def Blk.isBad : Blk → Bool
  | .bad => true
  | _ => false

/-- The directory entry or header it is read through is poisoned. -/
def Blk.headPoison : Blk → Bool
  | .empty h => h
  | .bad => false
  | .data _ _ _ _ h _ => h

/-- Its scales are poisoned. -/
def Blk.scalePoison : Blk → Bool
  | .data _ _ _ o _ _ => o
  | _ => false

/-- Vectors lo to lo + n − 1 are delivered with poison (R111). -/
def Blk.rowPoison (b : Blk) (lo n : Nat) : Bool :=
  match b with
  | .data _ _ vp _ _ _ => ((vp.drop lo).take n).any id
  | _ => false

/-- Any part of it is poisoned. -/
def Blk.poisoned (b : Blk) : Bool := b.headPoison || b.scalePoison || b.rowPoison 0 32

def Blk.nibble : Blk → Bool
  | .data _ _ _ _ _ n => n
  | _ => false

/-- Vectors lo to lo + n − 1 hold only zeros; scales are not consulted (R110). -/
def Blk.zeroRows (b : Blk) (lo n : Nat) : Bool :=
  match b with
  | .empty _ => true
  | .bad => false
  | .data v _ _ _ _ _ => ((v.drop lo).take n).all (fun x => x.all Num.isZero)

/-- The operand blocks of a work unit: A by reduction block, B by reduction block for its two columns. -/
structure UnitBlocks where
  a : List Blk
  b0 : List Blk
  b1 : List Blk
deriving DecidableEq, Repr

/-- The blocks of step k. -/
def UnitBlocks.step (u : UnitBlocks) (per k : Nat) : List Blk × List Blk :=
  ((u.a.drop (per * k)).take per, (u.b0.drop (per * k)).take per ++ (u.b1.drop (per * k)).take per)

/-- A step that the bitmaps do not skip (R106). -/
def UnitBlocks.live (u : UnitBlocks) (per k : Nat) : Bool :=
  (u.step per k).1.any Blk.present && (u.step per k).2.any Blk.present

/-- Position (jj, k) fires: the bitmaps do not skip its step, and neither the A slice nor the B pair is all zero, or one of the two
is poisoned, which no test skips (R106, R110, R111). -/
def UnitBlocks.firesAt (u : UnitBlocks) (per jj k : Nat) : Bool :=
  let (a, b) := u.step per k
  u.live per k && (a.any (fun x => x.rowPoison (4 * jj) 4) || b.any (fun x => x.rowPoison 0 32)
    || (!a.all (fun x => x.zeroRows (4 * jj) 4) && !b.all (fun x => x.zeroRows 0 32)))

/-- The positions that fire: how many of each row slice (R106, R110). -/
def UnitBlocks.fires (u : UnitBlocks) (per steps : Nat) : List Nat :=
  (List.range 8).map (fun jj => ((List.range steps).filter (u.firesAt per jj)).length)

/-- Wavefronts of the work unit; under 2:4 the positions of each slice are paired (R109). -/
def UnitBlocks.wavefronts (u : UnitBlocks) (d : Desc) : Nat :=
  let f := u.fires (mmPer d) (d.mmL / 32 / mmPer d)
  if d.mmSparse = 0 then f.foldl (fun n x => n + x) 0 else f.foldl (fun n x => n + (x + 1) / 2) 0

/-- The block result of row i and column jj (0 to 63) at reduction block k (R91–R93). -/
def UnitBlocks.dot (u : UnitBlocks) (i jj k : Nat) : Num :=
  match u.a.getD k (.empty false), (if jj < 32 then u.b0 else u.b1).getD k (.empty false) with
  | .data va sa _ _ _ _, .data vb sb _ _ _ _ =>
    blockDot (va.getD i []) (vb.getD (jj % 32) []) (sa.getD i Num.zero) (sb.getD (jj % 32) Num.zero)
  | _, _ => Num.zero

/-- The 32 × 64 roots, row by row, as FP32 patterns (R66, R94). -/
def UnitBlocks.roots (u : UnitBlocks) (n : Nat) : List Nat :=
  (List.range 2048).map (fun x => toF32 (sumTree ((List.range n).map (fun k => u.dot (x / 64) (x % 64) k))))

/-- What the work unit consumed with poison (R61, R111): an entry or a header on the way to a block, and the slice, the block
pair and the scales of a position that fires. -/
def UnitBlocks.poison (u : UnitBlocks) (per steps : Nat) : Bool :=
  (u.a ++ u.b0 ++ u.b1).any Blk.headPoison
    || (List.range steps).any (fun k => (List.range 8).any (fun jj =>
        let (a, b) := u.step per k
        u.firesAt per jj k && (a.any (fun x => x.rowPoison (4 * jj) 4 || x.scalePoison)
          || b.any (fun x => x.rowPoison 0 32 || x.scalePoison))))

/-- A bad header, or an illegal nibble in a step that is read (R108, R172). -/
def UnitBlocks.faulty (u : UnitBlocks) (per steps : Nat) : Bool :=
  (u.a ++ u.b0 ++ u.b1).any Blk.isBad
    || (List.range steps).any (fun k => u.live per k && ((u.step per k).1 ++ (u.step per k).2).any Blk.nibble)

namespace State

/-- The blocks of a work unit. -/
def unitBlocks (s : State) (p : Nat) (j : Job) (d : Desc) (row col : Nat) : UnitBlocks :=
  let n := List.range (d.mmL / 32)
  { a := n.map (fun k => s.blockAt p j d 0 row k), b0 := n.map (fun k => s.blockAt p j d 1 k (2 * col)),
    b1 := n.map (fun k => s.blockAt p j d 1 k (2 * col + 1)) }

/-! ### Dispatch -/

/-- The directory and tile checks of one operand (R146, R174). -/
def mmOperandCheck (s : State) (id : Nat) (d : Desc) (op : Nat) : Option DispatchFail :=
  let p := id / 256
  let (gr, gc, tbr, tbc) := mmGrid d op
  let (off, pos) := mmDir d op
  let word (a : Nat) : Nat := ofLeBytes ((s.readTsP p a 8).map (fun b => b.1))
  if !s.inClaims id off (mmDirBytes d op) then some .claim
  else if word off != tbc * 2 ^ 36 + tbr * 2 ^ 32 + gc * 2 ^ 16 + gr
      || (List.range 7).any (fun i => word (off + 8 + 8 * i) != 0) then some (.illegal pos)
  else
    let es := (List.range (gr * gc)).map (fun i => word (off + 64 + 8 * i))
    if es.any (fun e => natBits e 62 26 != 0 || e % 64 != 0 || (natBit e 63 && op == 3)) then some (.illegal pos)
    else
      let len (a : Nat) : Nat :=
        if op = 3 then (outHdr d.mmDFmt tbr tbc).bytes
        else match tileHeader ((s.readTsP p a 64).map (fun b => b.1)) with
          | some h => h.bytes
          | none => 64
      if (es.filter (fun e => !natBit e 63)).all (fun e =>
          s.inClaims id (natBits e 25 0) 64 && s.inClaims id (natBits e 25 0) (len (natBits e 25 0))) then none
      else some .claim

/-- The tile store checks of an MM at dispatch. -/
def mmCheck (s : State) (id : Nat) (d : Desc) : Option DispatchFail := (mmOps d).findSome? (fun op => s.mmOperandCheck id d op)

/-- An engine of the mask has a free accumulator slot (R64, R81). -/
def mmFree (s : State) (id : Nat) (d : Desc) : Bool := s.engineFree (id / 256) d

/-- The tile store ranges behind an operand's tiles. -/
def tileRanges (s : State) (p : Nat) (d : Desc) (op : Nat) : List Range :=
  let (gr, gc, tbr, tbc) := mmGrid d op
  let off := (mmDir d op).1
  (List.range (gr * gc)).filterMap (fun i =>
    let e := ofLeBytes ((s.tsRead p (off + 64 + 8 * i) 8))
    if natBit e 63 then none
    else some ⟨tsWindow + tsKey p (natBits e 25 0), (outHdr (mmFmt d op) tbr tbc).bytes⟩)

/-- An MM's work-unit list goes to the engines (R64, R145). -/
def mmBody (s : State) (id : Nat) (d : Desc) : State :=
  let p := id / 256
  let r : DRef := ⟨id % 256, d.index⟩
  let dirs := (mmOps d).map (fun op => (⟨tsWindow + tsKey p (mmDir d op).1, mmDirBytes d op⟩ : Range))
  let reads := dirs ++ ((mmOps d).filter (fun op => op != 3)).flatMap (fun op => s.tileRanges p d op)
  (s.addJob p r reads (s.tileRanges p d 3) []).modPart p (fun x => { x with mms := x.mms ++ [
    { ref := r, rows := ceilDiv d.len 32, cols := ceilDiv d.len2 64, next := 0, done := 0, engMask := d.mmMask }] })

/-! ### Engines -/

def engine (s : State) (p k : Nat) : Engine := (s.part p).engines.getD k Engine.init
def modEngine (s : State) (p k : Nat) (f : Engine → Engine) : State :=
  s.modPart p (fun x => { x with engines := x.engines.set k (f (x.engines.getD k Engine.init)) })

/-- The engine holds a work unit. -/
def holdsWork (e : Engine) : Bool := e.slots.any (fun x => x.isSome)

/-- The units of a partition in service work: its domains act and it is not in reset. -/
def unitsRun (s : State) (p : Nat) : Bool := s.alive (domEng p) && s.alive (domTs p) && !s.inReset p

/-- An engine takes the next work unit of the earliest dispatched MM whose mask includes it (R64). A cold one asks for a
start token (R69). -/
def takeUnit (s : State) (p k : Nat) : State :=
  let e := s.engine p k
  match (s.part p).mms.find? (fun m => natBit m.engMask k && decide (m.next < m.rows * m.cols)), e.slots.findIdx? (fun x => x.isNone) with
  | some m, some i =>
    let w : WorkUnit := { ref := m.ref, row := m.next / m.cols, col := m.next % m.cols, pos := 0, acc := [], poison := false,
                          bad := false }
    let t := s.modPart p (fun x => { x with mms := x.mms.map (fun y => if y.ref = m.ref then { y with next := y.next + 1 } else y) })
    let t := t.modEngine p k (fun y => { y with
      slots := y.slots.set i (some w)
      waitFrom := if y.cold && y.waitFrom.isNone then some s.now else y.waitFrom })
    if holdsWork e then t else t.wdArm p k
  | _, _ => s

/-- The tile store offsets and lengths a work unit reads. -/
def unitSpans (s : State) (p : Nat) (j : Job) (d : Desc) (row col : Nat) : List (Nat × Nat) :=
  (List.range (d.mmL / 32)).flatMap (fun k =>
    s.blockSpans p j d 0 row k ++ s.blockSpans p j d 1 k (2 * col) ++ s.blockSpans p j d 1 k (2 * col + 1))
  ++ (if d.mmCEn then s.blockSpans p j d 2 row (2 * col) ++ s.blockSpans p j d 2 row (2 * col + 1) else [])

/-- The unit's blocks have all fired: the engine adds the block results into the accumulator (R66). -/
def accumulate (d : Desc) (u : UnitBlocks) (w : WorkUnit) : WorkUnit :=
  let n := d.mmL / 32
  { w with acc := u.roots n, poison := u.poison (mmPer d) (n / mmPer d), bad := u.faulty (mmPer d) (n / mmPer d) }

/-- One wavefront fires (R65). -/
def fireWave (s : State) (p k i : Nat) : State :=
  let e := s.engine p k
  match (e.slots.getD i none) with
  | none => s
  | some w =>
    match s.findDesc (cid p w.ref.slot) w.ref.index, s.findJob p w.ref with
    | some d, some j =>
      let u := s.unitBlocks p j d w.row w.col
      let f := u.wavefronts d
      if e.cold || !w.acc.isEmpty || f ≤ w.pos then s
      else
        let w := { w with pos := w.pos + 1 }
        let w := if w.pos = f then accumulate d u w else w
        { s with fresh := s.fresh + 1 }.modEngine p k
          (fun y => { y with slots := y.slots.set i (some w), lastWave := s.now, lastWork := s.now })
    | _, _ => s

/-- A value of the accumulate operand at row i, column c of a block (R89, R95). -/
def accValue (b : Blk) (i c : Nat) : Num :=
  match b with
  | .data v sc _ _ _ _ => round32 (((v.getD i []).getD c Num.zero).mul (sc.getD i (Num.fin false 1 0)))
  | _ => Num.zero

/-- A write of a running descriptor whose writes land as it goes: until it completes, a reader may still see the unit as it
stood before (R204). -/
def tsWriteJob (s : State) (p : Nat) (r : DRef) (off : Nat) (bs : List Byte) (poison : Bool) : State :=
  match s.findJob p r with
  | none => s.tsWrite p off bs poison
  | some j =>
    let old := (s.unitPieces (cid p r.slot) (tsWindow + tsKey p off) bs.length).filter (fun x => !j.alt.any (fun y => y.addr == x.addr))
    let t := (s.dropJob p r).tsWrite p off bs poison
    { t with jobs := t.jobs ++ [{ j with alt := j.alt ++ old }] }

/-- Writes one output block (R98, R126, R171): header, scales and payload of the rows and columns that are written, and no byte of
the others. -/
def writeOutBlock (s : State) (p : Nat) (j : Job) (d : Desc) (brow cb : Nat) (poison : Bool) (out : Nat → Nat → Num) : State :=
  let (gr, gc, tbr, tbc) := mmGrid d 3
  let nw := if d.mmNDyn then min 32 (d.len2 - 32 * cb) else 32
  if gr ≤ brow / tbr ∨ gc ≤ cb / tbc ∨ nw = 0 then s
  else
    let base := natBits (s.dirEntry p j d 3 (brow / tbr * gc + cb / tbc)).1 25 0
    let f := d.mmDFmt
    let h := outHdr f tbr tbc
    let k := brow % tbr * tbc + cb % tbc
    let w := fmtBits f
    let sb := blockScale f
    let rows := (List.range 32).filter (fun i => !d.mmMDyn || decide (32 * brow + i < d.len))
    let one (i : Nat) : List Nat × Nat :=
      convertVec f d.mmSat ((List.range nw).map (fun c =>
        let row := 32 * brow + i
        let col := 32 * cb + c
        (if d.mmM ≤ row ∨ d.mmN ≤ col then Num.zero else out i c, modeOf d.mmRound d.seed.toNat d.mmStream row col)))
    let codes := rows.map one
    let pay := base + 64 + scaleBytes h + k * blockBytes f false
    let put (t : State) (off : Nat) (bs : List Byte) (po : Bool) : State := if bs = [] then t else t.tsWriteJob p j.ref off bs po
    let t := put s base (bytesOfWords (hdrWords h)) false
    let t := put t (base + 64 + h.nocc * sb) (List.replicate (scaleBytes h - h.nocc * sb) 0) false
    let t := put t (base + 64 + k * sb) (codes.flatMap (fun c => leBytes c.2 (sb / 32))) poison
    let packed (off n : Nat) (cs : List Nat) : List Byte := packInto w (t.tsRead p off n) ((cs.zipIdx).map (fun x => (x.2, x.1)))
    if nw = 32 then put t pay (packed pay (4 * w * codes.length) (codes.flatMap (fun c => c.1))) poison
    else (codes.zipIdx).foldl (fun t c =>
      let off := pay + 4 * w * c.2
      put t off (packed off (ceilDiv (nw * w) 8) c.1.1) poison) t

/-- Notes an error of a running descriptor; the first one stays. -/
def noteError (s : State) (id index : Nat) (cls unit status : Nat) : State :=
  match s.findDesc id index with
  | none => s
  | some d =>
    let (t, n) := s.raise (pq (id / 256)) (s.recordD cls (id / 256) unit id (index % s.ringSize id))
    if d.status = 0 then t.modDesc id index (fun x => { x with status := status, detail := detailOf n }) else t

/-- The result of a work unit is converted and written, its slot is free (R66, R95, R108, R172). -/
def unitResult (s : State) (p k i : Nat) : State :=
  let e := s.engine p k
  match (e.slots.getD i none) with
  | none => s
  | some w0 =>
    let id := cid p w0.ref.slot
    match s.findDesc id w0.ref.index, s.findJob p w0.ref with
    | some d, some j =>
      let u := s.unitBlocks p j d w0.row w0.col
      if e.cold || (w0.acc.isEmpty && u.wavefronts d != 0) then s
      else
        let w := if w0.acc.isEmpty then accumulate d u w0 else w0
        let c (h : Nat) : Blk := if d.mmCEn then s.blockAt p j d 2 w.row (2 * w.col + h) else .empty false
        let c0 := c 0
        let c1 := c 1
        let faulty := w.bad || c0.isBad || c1.isBad
        let poison := w.poison || faulty || c0.poisoned || c1.poisoned
        let out (h i cc : Nat) : Num :=
          let v := ofF32 (w.acc.getD (64 * i + 32 * h + cc) 0)
          if d.mmCEn then add32 v (accValue (if h = 0 then c0 else c1) i cc) else v
        let (t, e2) := (s.unitSpans p j d w.row w.col).foldl (fun (x : State × Option Nat) g =>
          let y := x.1.touchTs p g.1 g.2
          (y.1, x.2.or y.2)) ({ s with fresh := s.fresh + 1 }, none)
        let t := t.noteEcc id d.index e2
        let t := (t.writeOutBlock p j d w.row (2 * w.col) poison (out 0)).writeOutBlock p j d w.row (2 * w.col + 1) poison (out 1)
        let t := if faulty then t.noteError id d.index cPROTO k stDATA_ERROR else t
        let t := if poison then t.modDesc id d.index (fun x => { x with poisoned := true }) else t
        let t := t.modPart p (fun x => { x with mms := x.mms.map (fun y => if y.ref = w.ref then { y with done := y.done + 1 } else y) })
        let t := t.modEngine p k (fun y => { y with slots := y.slots.set i none, lastWork := s.now })
        t.wdDone p k (holdsWork (t.engine p k))
    | _, _ => s

/-- The output blocks that no work unit covers lie wholly beyond M and N: +0, but for what a dynamic length keeps (R126,
R171). DEDUCED, unsafe (log entry 21): padding holds +0. -/
def padOutput (s : State) (p : Nat) (j : Job) (d : Desc) : State :=
  let (gr, gc, tbr, tbc) := mmGrid d 3
  let rows := ceilDiv d.len 32
  let cols := 2 * ceilDiv d.len2 64
  let last := if d.mmMDyn then rows else gr * tbr
  let right := if d.mmNDyn then cols else gc * tbc
  (List.range last).foldl (fun t r => (List.range right).foldl (fun t c =>
    if r < rows ∧ c < cols then t else t.writeOutBlock p j d r c false (fun _ _ => Num.zero)) t) s

/-- The last write of an MM is acknowledged (R66, R139). -/
def mmAck (s : State) (p : Nat) (r : DRef) (d : Desc) : State :=
  match (s.part p).mms.find? (fun m => m.ref == r), s.findJob p r with
  | some m, some j =>
    if m.done < m.rows * m.cols then s
    else (((s.padOutput p j d).dropJob p r).modPart p (fun x => { x with mms := x.mms.filter (fun y => y.ref != r) })).finish
      (cid p r.slot) r.index d.status d.detail
  | _, _ => s

/-! ### The start ramp (R69–R71) -/

/-- The engine that takes a token: the one that has waited longest, the lowest number among equals. -/
def longestWaiting (es : List Engine) : Option Nat :=
  let ws := (es.zipIdx).filterMap (fun e => if e.1.cold then e.1.waitFrom.map (fun t => (t, e.2)) else none)
  (ws.foldl (fun (b : Option (Nat × Nat)) w => match b with
    | none => some w
    | some x => if w.1 < x.1 then some w else some x) none).map (fun w => w.2)

def takeToken (s : State) (p : Nat) : State :=
  match longestWaiting (s.part p).engines with
  | none => s
  | some k =>
    if !(s.part p).token || !s.unitsRun p then s
    else (s.modPart p (fun x => { x with token := false, lastTake := s.now })).modEngine p k
      (fun e => { e with cold := false, waitFrom := none, lastWork := s.now, lastWave := s.now })

/-- The last time up to which pacing is known to have held engines back: now below PACE 256, else the end of the last ramp back
to it (R309). -/
def pacedUntil (s : State) (p : Nat) : Nat :=
  let x := s.part p
  if s.livePace p < 256 then s.now
  else max x.pacedAt (if x.pace < 256 then x.paceAt + (256 - x.pace + 3) / 4 * 1000 else 0)

/-- An engine that has been idle for longer than IDLE is cold (R69). The time that pacing holds back an engine with work does not
count. DEDUCED, unsafe (log entry 52): the count starts anew when pacing ends. -/
def coolEngine (s : State) (p k : Nat) : State :=
  let e := s.engine p k
  let idle := (s.part p).rampIdle
  let paced := s.pacedUntil p
  let due := if holdsWork e then decide (max e.lastWave paced + idle < s.now)
    else decide (e.lastWork + idle < s.now) || decide (max e.lastWave (min paced e.lastWork) + idle < s.now)
  if e.cold || !due then s
  else s.modEngine p k (fun e => { e with cold := true, waitFrom := if holdsWork e then some s.now else none })

end State

open State

/-- ME_COMMIT.GO (R71). -/
def execMeCommitGo (who : Requester) (pp : Fin 24) (s : State) : Out' :=
  .next (s.gated who (a_ME_COMMIT pp) (fun s =>
    let a := a_ME_RAMP pp
    let i := s.stagedFld a ME_RAMP_INTERVAL
    if 160 ≤ i ∧ i ≤ 10000 ∧ 100 ≤ s.stagedFld a ME_RAMP_IDLE then s.commit [a]
    else (s.discard [a]).faultPart pp cCONFIG))

/-- MM (R151). -/
def execMm (pp : Fin 24) (slot : Fin 192) (s : State) : Out' :=
  .next (dispatchNext pp slot (fun d => d.kind == kMM) mmCheck mmFree mmBody s)

/-- WORK_UNIT_TAKE (R64). -/
def execWorkUnitTake (pp : Fin 24) (me : Fin 20) (s : State) : Out' := .next (if s.unitsRun pp then s.takeUnit pp me else s)

/-- WAVEFRONT_FIRE (R65, R106, R110). -/
def execWavefrontFire (pp : Fin 24) (me : Fin 20) (acc : Fin 2) (s : State) : Out' :=
  .next (if s.unitsRun pp then s.fireWave pp me acc else s)

/-- WORK_UNIT_RESULT (R66). -/
def execWorkUnitResult (pp : Fin 24) (me : Fin 20) (acc : Fin 2) (s : State) : Out' :=
  .next (if s.unitsRun pp then s.unitResult pp me acc else s)

/-- START_TOKEN_ISSUE: INTERVAL after the later of the previous issue and its take, while no token is held (R70). IDLE as
committed is in force from then on (R71). -/
def execStartTokenIssue (pp : Fin 24) (s : State) : Out' :=
  .next (
    let x := s.part pp
    let from_ := max x.lastIssue x.lastTake
    if x.token || s.now < from_ + s.fld (a_ME_RAMP pp) ME_RAMP_INTERVAL || !s.alive (domEng pp) then s
    else s.modPart pp (fun x => { x with token := true, lastIssue := s.now, rampIdle := s.fld (a_ME_RAMP pp) ME_RAMP_IDLE }))

/-- START_TOKEN_TAKE (R69, R70). -/
def execStartTokenTake (pp : Fin 24) (s : State) : Out' := .next (s.takeToken pp)

/-- ENGINE_COLD (R69). -/
def execEngineCold (pp : Fin 24) (me : Fin 20) (s : State) : Out' := .next (s.coolEngine pp me)

end Sys2Proof.Machine
end

