-- ==== Sys2Proof/Machine/Vector.lean ====
section
/-! DEFINITION. Vector engines (R72–R76, R102, R152), the dispatch unit (R77, R116–R121) and the last acknowledgement of
a descriptor's writes (R79, R139, R205). -/

namespace Sys2Proof.Machine

/-! ### The shape of a VEC -/

/-- The scale vector that holds element i: 32 elements along the inner dimension (axis 0) or the outer one (R84, R152).
DEDUCED, unsafe (log entry 53): vectors begin anew in each row or column, and the last of a dimension may be shorter. -/
def vecIndex (axis inner i : Nat) : Nat :=
  if axis = 0 then i / inner * ceilDiv inner 32 + i % inner / 32 else i / inner / 32 * inner + i % inner

/-- A VEC operand in the tile store: its offset, format, and the shape its layout follows. -/
structure VecOpnd where
  off : Nat
  fmt : Nat
  count : Nat
  inner : Nat
  axis : Nat
deriving DecidableEq, Repr

/-- Where its elements begin; formats without scales hold nothing else. -/
def VecOpnd.base (o : VecOpnd) : Nat :=
  if o.fmt ≤ 2 then o.off else o.off + Config.vecDataAt o.fmt o.count o.inner o.axis % 2 ^ 26

/-- Where the scale of vector v lies, and its bytes. -/
def VecOpnd.scaleAddr (o : VecOpnd) (v : Nat) : Nat := o.off + Config.vecScaleAt o.fmt o.count o.inner o.axis v % 2 ^ 26
def VecOpnd.scaleLen (o : VecOpnd) : Nat := if o.fmt ≤ 2 then 0 else if o.fmt ≤ 7 then 1 else 2

/-- The bytes of its first n elements. -/
def VecOpnd.dataLen (o : VecOpnd) (n : Nat) : Nat := ceilDiv (n * State.fmtBits o.fmt) 8

/-- The ranges its first n elements take: offset and length. -/
def VecOpnd.spans (o : VecOpnd) (n : Nat) : List (Nat × Nat) :=
  (o.base, o.dataLen n) :: (if o.fmt ≤ 2 then []
    else (((List.range n).map (vecIndex o.axis o.inner)).dedup).map (fun v => (o.scaleAddr v, o.scaleLen)))

/-- The vectors that an operation along a dimension works on: lists of element indices (R152). -/
def vecLines (axis inner n : Nat) : List (List Nat) :=
  if axis = 0 then (List.range (ceilDiv n inner)).map (fun o => ((List.range inner).map (fun i => o * inner + i)).filter (fun i => decide (i < n)))
  else (List.range (min inner n)).map (fun i => ((List.range (ceilDiv n inner)).map (fun o => o * inner + i)).filter (fun i => decide (i < n)))

/-- A reduction: one result for each vector. -/
def isReduction (op : Nat) : Bool := decide (0x10 ≤ op) && decide (op ≤ 0x13)

/-- A normalisation, whose other operands run along the dimension. -/
def isNorm (op : Nat) : Bool := op == 0x19 || op == 0x1A

/-- The length of the dimension an operation runs along. -/
def dimLen (d : Desc) : Nat := if d.vAxis = 0 then d.vInner else d.vCount / d.vInner

/-- Input k of a VEC. -/
def vecIn (d : Desc) (k : Nat) : VecOpnd :=
  let off := match k with | 0 => d.vIn0 | 1 => d.vIn1 | _ => d.vIn2
  let fmt := match k with | 0 => d.vF0 | 1 => d.vF1 | _ => d.vF2
  if isNorm d.vOp ∧ k ≠ 0 then ⟨off, fmt, dimLen d, dimLen d, 0⟩ else ⟨off, fmt, d.vCount, d.vInner, d.vAxis⟩

/-- The output of a VEC. DESIGN CHOICE, unsafe (log entry 53): a reduction's is one-dimensional, with scale vectors along its only
dimension. -/
def vecOut (d : Desc) : VecOpnd :=
  if isReduction d.vOp then
    let n := d.vCount / dimLen d
    ⟨d.vOut, d.vFo, n, n, 0⟩
  else ⟨d.vOut, d.vFo, d.vCount, d.vInner, d.vAxis⟩

/-- How many elements of input k and of the output a VEC of the dispatched COUNT touches. -/
def vecInLen (d : Desc) (k : Nat) : Nat := if isNorm d.vOp ∧ k ≠ 0 then dimLen d else d.len
def vecOutLen (d : Desc) : Nat := if isReduction d.vOp then (vecLines d.vAxis d.vInner d.len).length else d.len

/-- How many inputs it reads. -/
def vecArity (d : Desc) : Nat := State.vecIns d.vOp

/-! ### Operations (R72, R102) -/

/-- A comparison's result. -/
def cmpNum (b : Bool) : Num := ofF32 (Config.cmpResult b).toNat

/-- An elementwise operation on one position.
DESIGN CHOICE (log entry 20): what R72 does not state is free, which is safe; RELU and CLAMP are DEDUCED, unsafe. -/
def elementwise (op : Nat) (imm0 imm1 x y z : Num) : Num :=
  match op with
  | 0x0 => add32 x y
  | 0x1 => sub32 x y
  | 0x2 => mul32 x y
  | 0x3 => fma32 x y z
  | 0x4 => min32 x y
  | 0x5 => max32 x y
  | 0x6 => x.abs
  | 0x7 => x.negate
  | 0x8 => mul32 x imm0
  | 0x9 => min32 (max32 x imm0) imm1
  | 0xA => if Config.selects (BitVec.ofNat 32 (toF32 x)) then y else z
  | 0xB => cmpNum (x.lt y)
  | 0xC => cmpNum (x.eq y)
  | 0xD => x
  | 0xE => max32 x Num.zero
  | _ => mul32 x x

/-- The lowest index of a greatest element. -/
def argmax (xs : List Num) : Nat :=
  if xs.any Num.isNan then Config.argmaxNan (xs.map (fun x => BitVec.ofNat 32 (toF32 x)))
  else ((xs.zipIdx).foldl (fun (b : Num × Nat) x => if b.1.below x.1 then x else b) (xs.headD Num.zero, 0)).2

/-- A reduction of one vector. -/
def reduce (op : Nat) (xs : List Num) : Num :=
  match op with
  | 0x10 => sumTree xs
  | 0x11 => xs.tail.foldl max32 (xs.headD Num.zero)
  | 0x12 => xs.tail.foldl min32 (xs.headD Num.zero)
  | _ => round32 (.fin false (argmax xs) 0)

/-- A value over another: a division, or a product with the reciprocal (R102).
DESIGN CHOICE, unsafe (log entry 20): of the orders of steps that R72 leaves open, one of these. -/
def divBy (k : Nat) (x y : Num) : Num := if Config.normStep k then mul32 x (recip32 y) else div32 x y

/-- SOFTMAX of one vector: maximum, exponentials through slot 1 and their sum, the scaling. -/
def softmax (xs : List Num) : List Num :=
  let m := xs.tail.foldl max32 (xs.headD Num.zero)
  let es := xs.map (fun x => (fwTable 1).eval (sub32 x m))
  es.map (fun e => divBy 0 e (sumTree es))

/-- The mean of some elements: their sum in the tree of R94 over their number. -/
def meanOf (xs : List Num) : Num := divBy 1 (sumTree xs) (round32 (.fin false xs.length 0))

/-- The mean square, and the variance about a mean. -/
def meanSquare (xs : List Num) : Num := meanOf (xs.map (fun x => mul32 x x))
def varianceOf (xs : List Num) (m : Num) : Num :=
  if Config.normStep 2 then sub32 (meanSquare xs) (mul32 m m) else meanSquare (xs.map (fun x => sub32 x m))

/-- A value over the root of a second moment plus epsilon. -/
def overRoot (x v eps : Num) : Num :=
  if Config.normStep 3 then mul32 x (rsqrt32 (add32 v eps)) else div32 x (sqrt32 (add32 v eps))

/-- LAYERNORM and RMSNORM of one vector with scale, bias and epsilon. -/
def normalise (op : Nat) (xs scale bias : List Num) (eps : Num) : List Num :=
  let m := meanOf xs
  (xs.zipIdx).map (fun x =>
    let g := scale.getD x.2 Num.zero
    let b := bias.getD x.2 Num.zero
    if op = 0x19 then
      let y := overRoot (sub32 x.1 m) (varianceOf xs m) eps
      if Config.normStep 4 then fma32 y g b else add32 (mul32 y g) b
    else mul32 (overRoot x.1 (meanSquare xs) eps) g)

/-- The results of a VEC by output index, from its decoded inputs. -/
def vecResult (d : Desc) (t : Option Table) (x y z : List Num) : List (Nat × Num) :=
  let pick (ix : List Nat) : List Num := ix.map (fun i => x.getD i Num.zero)
  let lines := vecLines d.vAxis d.vInner d.len
  if d.vOp < 0x10 then
    (List.range d.len).map (fun i => (i, elementwise d.vOp (ofF32 d.vImm0) (ofF32 d.vImm1) (x.getD i Num.zero)
      (y.getD i Num.zero) (z.getD i Num.zero)))
  else if isReduction d.vOp then (lines.zipIdx).map (fun l => (l.2, reduce d.vOp (pick l.1)))
  else if d.vOp = 0x18 then lines.flatMap (fun l => l.zip (softmax (pick l)))
  else if isNorm d.vOp then lines.flatMap (fun l => l.zip (normalise d.vOp (pick l) y z (ofF32 d.vImm0)))
  else if d.vOp = 0x20 then (List.range d.len).map (fun i => (i, x.getD i Num.zero))
  else (List.range d.len).map (fun i => (i, match t with | some t => t.eval (x.getD i Num.zero) | none => Num.zero))

namespace State

/-- The first n elements of an operand in FP32, and whether poison came with them (R89). -/
def readVec (s : State) (p : Nat) (j : Job) (o : VecOpnd) (n : Nat) : List Num × Bool :=
  let data := s.engRead p j o.base (o.dataLen n)
  let codes := unpack (fmtBits o.fmt) (data.map (fun b => b.1)) n
  let sc (v : Nat) : List PByte := if o.fmt ≤ 2 then [] else s.engRead p j (o.scaleAddr v) o.scaleLen
  let vs := ((List.range n).map (vecIndex o.axis o.inner)).dedup
  ((codes.zipIdx).map (fun c => decodeElem o.fmt c.1 (ofLeBytes ((sc (vecIndex o.axis o.inner c.2)).map (fun b => b.1)))),
    data.any (fun b => b.2) || vs.any (fun v => (sc v).any (fun b => b.2)))

/-- What results by index write: offset and bytes of the scales over the values written, and of the elements (R98, R126).
DEDUCED, unsafe (log entry 53): an output counts as one-dimensional where INNER is its COUNT (R101). -/
def writeVec (s : State) (p : Nat) (d : Desc) (o : VecOpnd) (rs : List (Nat × Num)) : List (Nat × List Byte) :=
  let vs := (rs.map (fun r => vecIndex o.axis o.inner r.1)).dedup
  let flat := o.inner == o.count
  let conv (v : Nat) : List Nat × (List Nat × Nat) :=
    let g := rs.filter (fun r => vecIndex o.axis o.inner r.1 == v)
    (g.map (fun r => r.1), convertVec o.fmt d.vSat (g.map (fun r => (r.2, modeOf d.vRound d.seed.toNat d.vStream
      (if flat then 0 else r.1 / o.inner) (if flat then r.1 else r.1 % o.inner)))))
  let done := vs.map (fun v => (v, conv v))
  let n := rs.foldl (fun m r => max m (r.1 + 1)) 0
  (if o.fmt ≤ 2 then [] else done.map (fun x => (o.scaleAddr x.1, leBytes x.2.2.2 o.scaleLen))) ++
    [(o.base, packInto (fmtBits o.fmt) (s.tsRead p o.base (o.dataLen n)) (done.flatMap (fun x => x.2.1.zip x.2.2.1)))]

/-- Writes of a tile store with one poison, unit by unit at window addresses (R59, R61). -/
def tsParts (p : Nat) (ws : List (Nat × List Byte)) (poison : Bool) : List (Nat × List PByte) :=
  ws.flatMap (fun w => (unitParts (tsWindow + tsKey p w.1) w.2.length).map (fun q =>
    (q.1, ((w.2.drop q.2.1).take q.2.2).map (fun b => (b, poison)))))

/-- Reading a job's operands in the tile store shows the errors of their words (R61). -/
def touchReads (s : State) (p : Nat) (j : Job) : State × Option Nat :=
  j.reads.foldl (fun (x : State × Option Nat) r =>
    let y := x.1.touchTs p (r.addr - tsWindow - p * tsSize) r.len
    (y.1, x.2.or y.2)) (s, none)

/-- From here on another reader may see a job's results, unit by unit (R59, R204). -/
def showParts (s : State) (p : Nat) (r : DRef) (ps : List (Nat × List PByte)) : State :=
  { s with fresh := s.fresh + 1 }.modJob p r (fun j => { j with alt := ps.map pieceOf })

/-! ### VEC: dispatch and end -/

/-- The tile store spans of a VEC's inputs, output and table, in the order of their fields (R146). -/
def vecSpans (d : Desc) : List (Nat × Nat) :=
  ((List.range (vecArity d)).flatMap (fun k => (vecIn d k).spans (vecInLen d k))) ++ (vecOut d).spans (vecOutLen d) ++
    (if d.vOp = 0x29 then [(d.vTable, 832)] else [])

/-- The dispatch check of a VEC. -/
def vecCheck (s : State) (id : Nat) (d : Desc) : Option DispatchFail := s.tsOutside id (vecSpans d)

/-- The permitted engine that has been idle longest, the lowest number among equals (R152). -/
def vecEngine (s : State) (p : Nat) (d : Desc) : Option Nat :=
  (((((s.part p).ves).zipIdx).filter (fun v => v.1.1.isNone && natBit d.vMask v.2 &&
      (d.vOp != 0x28 || s.tabValid p v.2 d.vSlot))).foldl (fun (b : Option (Nat × Nat)) v => match b with
    | none => some (v.1.2, v.2)
    | some x => if v.1.2 < x.1 then some (v.1.2, v.2) else some x) none).map (fun x => x.2)

def vecFree (s : State) (id : Nat) (d : Desc) : Bool := s.engineFree (id / 256) d

/-- The results of a VEC, unit by unit, and whether poison came with its operands; none for a table image with an illegal header
(R72–R75, R61). -/
def vecParts (s : State) (p : Nat) (d : Desc) (j : Job) : Option (List (Nat × List PByte) × Bool) :=
  let ins := (List.range 3).map (fun k => if k < vecArity d then s.readVec p j (vecIn d k) (vecInLen d k) else ([], false))
  let image := if d.vOp = 0x29 then s.engRead p j d.vTable 832 else []
  let table := if d.vOp = 0x28 then some (fwTable d.vSlot) else if d.vOp = 0x29 then tableOfImage (image.map (fun b => b.1)) else none
  let poison := ins.any (fun x => x.2) || image.any (fun b => b.2)
  let x (k : Nat) : List Num := (ins.getD k ([], false)).1
  if d.vOp = 0x29 ∧ table = none then none
  else some (tsParts p (s.writeVec p d (vecOut d) (vecResult d table (x 0) (x 1) (x 2))) poison, poison)

/-- A vector engine receives the descriptor; its watchdog is armed (R337). -/
def vecBody (s : State) (id : Nat) (d : Desc) : State :=
  let p := id / 256
  let r : DRef := ⟨id % 256, d.index⟩
  let range (x : Nat × Nat) : Range := ⟨tsWindow + tsKey p x.1, x.2⟩
  match s.vecEngine p d with
  | none => s
  | some v =>
    let ins := (List.range (vecArity d)).flatMap (fun k => (vecIn d k).spans (vecInLen d k))
    let tab := if d.vOp = 0x29 then [(d.vTable, 832)] else []
    let t := ((s.addJob p r ((ins ++ tab).map range) (((vecOut d).spans (vecOutLen d)).map range) []).modPart p
      (fun x => { x with ves := x.ves.set v (some r, 0) })).wdArm p (20 + v)
    match t.findJob p r with
    | some j => t.showParts p r (((t.vecParts p d j).map (fun x => x.1)).getD [])
    | none => t

/-- The engine that holds a VEC lets it go. -/
def leaveVec (s : State) (p : Nat) (r : DRef) : State :=
  match (s.part p).ves.findIdx? (fun v => v.1 == some r) with
  | none => s
  | some i => (s.modPart p (fun x => { x with ves := x.ves.set i (none, s.now) })).wdDone p (20 + i) false

/-- The last write of a VEC is acknowledged: its results stand in the tile store (R72–R75, R61). -/
def vecAck (s : State) (p : Nat) (r : DRef) (d : Desc) : State :=
  let id := cid p r.slot
  match s.findJob p r with
  | none => s
  | some j =>
    if !s.unitsRun p then s
    else
      let (u, e) := ({ s with fresh := s.fresh + 1 }.leaveVec p r).touchReads p j
      let t := (u.dropJob p r).noteEcc id r.index e
      match s.vecParts p d j with
      | none => t.finish id r.index stILLEGAL 416
      | some (ps, poison) =>
        ((t.landPieces p id j ps).modDesc id r.index (fun y => { y with poisoned := y.poisoned || poison })).finishOk id r.index

end State

/-! ### DISPATCH (R116–R121) -/

/-- C of R119. -/
def dispatchCap (d : Desc) : Nat := min 65535 (ceilDiv (d.dCap * d.len * d.dK) (256 * d.dE))

/-- x ranks before y (R117): NaN below every number; equals by index, which insertion in index order keeps. -/
def ranksBefore (x y : Num) : Bool := if x.isNan then false else if y.isNan then true else y.lt x

/-- Inserts an expert after all that rank at least as high. -/
def rankInsert (x : Num × Nat) : List (Num × Nat) → List (Num × Nat)
  | [] => [x]
  | y :: ys => if ranksBefore x.1 y.1 then x :: y :: ys else y :: rankInsert x ys

/-- The experts of a token in rank order. -/
def rankAll (scores : List Num) : List (Num × Nat) := (scores.zipIdx).foldl (fun l x => rankInsert x l) []

/-- The gate weights of the K selected scores (R118). -/
def gateWeights (gate : Nat) (ss : List Num) : List Num :=
  match gate with
  | 0 => ss
  | 1 =>
    let es := ss.map (fun x => (fwTable 1).eval (sub32 x (ss.headD Num.zero)))
    es.map (fun e => div32 e (sumTree es))
  | _ => ss.map (fun x => div32 x (sumTree ss))

/-- What a choice became: token, rank − 1, weight, status (0 ACCEPTED, 1 REROUTED, 2 SPILLED, 3 DROPPED), expert, position. -/
structure Choice where
  token : Nat
  rank : Nat
  weight : Nat
  status : Nat
  expert : Nat
  pos : Nat
deriving DecidableEq, Repr

/-- Accepted and spilled choices of an expert so far. -/
def acceptedOf (cs : List Choice) (e : Nat) : Nat := (cs.filter (fun c => decide (c.status ≤ 1) && c.expert == e)).length
def spilledOf (cs : List Choice) (e : Nat) : Nat := (cs.filter (fun c => c.status == 2 && c.expert == e)).length
def droppedOf (cs : List Choice) (e : Nat) : Nat := (cs.filter (fun c => c.status == 3 && c.expert == e)).length

/-- One choice under the capacity and the overflow policy (R119). more: ranks K + 1 to 16 of the token. -/
def choose (d : Desc) (cs : List Choice) (token rank expert : Nat) (weight : Num) (more : List Nat) : List Choice :=
  let cap := dispatchCap d
  let mk (status e pos : Nat) : List Choice := cs ++ [⟨token, rank, toF32 weight, status, e, pos⟩]
  if acceptedOf cs expert < cap then mk 0 expert (acceptedOf cs expert)
  else match d.dOver with
    | 1 =>
      let taken := (cs.filter (fun c => c.token == token && c.status == 1)).map (fun c => c.expert)
      match more.find? (fun e => !taken.contains e && decide (acceptedOf cs e < cap)) with
      | some e => mk 1 e (acceptedOf cs e)
      | none => mk 3 expert 0xFFFF
    | 2 => if spilledOf cs expert < d.dSpillCap then mk 2 expert (spilledOf cs expert) else mk 3 expert 0xFFFF
    | _ => mk 3 expert 0xFFFF

/-- The choices of one token. -/
def chooseToken (d : Desc) (cs : List Choice) (token : Nat) (scores : List Num) : List Choice :=
  let ranked := rankAll scores
  let sel := ranked.take d.dK
  let more := ((ranked.take 16).drop d.dK).map (fun x => x.2)
  let ws := gateWeights d.dGate (sel.map (fun x => x.1))
  (sel.zipIdx).foldl (fun cs x => choose d cs token x.2 x.1.2 (ws.getD x.2 Num.zero) more) cs

/-- An expert or spill list entry (R120). -/
def listEntry (c : Choice) : Nat := c.weight * 2 ^ 32 + c.rank * 2 ^ 29 + b2n (c.status == 1) * 2 ^ 28 + c.token

/-- A combine list entry (R120). -/
def combineEntry (c : Choice) : Nat := c.weight * 2 ^ 32 + c.status * 2 ^ 28 + c.expert * 2 ^ 16 + c.pos

/-- What a DISPATCH writes: tile store offset and 8-byte entry (R120). -/
def dispatchWrites (d : Desc) (cs : List Choice) : List (Nat × Nat) :=
  (cs.filter (fun c => decide (c.status ≤ 1))).map (fun c => (d.dElist + 8 * (c.expert * dispatchCap d + c.pos), listEntry c)) ++
  (cs.filter (fun c => c.status == 2)).map (fun c => (d.dSpill + 8 * (c.expert * d.dSpillCap + c.pos), listEntry c)) ++
  cs.map (fun c => (d.dClist + 8 * (c.token * d.dK + c.rank), combineEntry c)) ++
  (List.range d.dE).map (fun e => (d.dCount + 8 * e, droppedOf cs e * 2 ^ 32 + spilledOf cs e * 2 ^ 16 + acceptedOf cs e))

namespace State

/-- The tile store spans of a DISPATCH in the order of their fields: scores, then what it writes.
DESIGN CHOICE, unsafe (log entry 56): with a dynamic length they cover the length after clamping, not its static bound. -/
def dispatchSpans (d : Desc) : List (Nat × Nat) :=
  [(d.dScore, d.len * d.dE * fmtBits d.dFmt / 8), (d.dElist, d.dE * dispatchCap d * 8)] ++
  (if d.dOver = 2 then [(d.dSpill, d.dE * d.dSpillCap * 8)] else []) ++
  [(d.dClist, d.len * d.dK * 8), (d.dCount, d.dE * 8)]

/-- The dispatch check of a DISPATCH. -/
def dispatchCheck (s : State) (id : Nat) (d : Desc) : Option DispatchFail := s.tsOutside id (dispatchSpans d)

def duFree (s : State) (id : Nat) (d : Desc) : Bool := s.engineFree (id / 256) d

/-- The choices a DISPATCH makes from the scores as they stand, and whether poison came with them (R117–R119). -/
def dispatchChoices (s : State) (p : Nat) (d : Desc) (j : Job) : List Choice × Bool :=
  let w := fmtBits d.dFmt
  let data := s.engRead p j d.dScore (d.len * d.dE * w / 8)
  let codes := unpack w (data.map (fun b => b.1)) (d.len * d.dE)
  ((List.range d.len).foldl (fun cs t =>
    chooseToken d cs t (((codes.drop (t * d.dE)).take d.dE).map (elem d.dFmt))) [], data.any (fun b => b.2))

/-- Its lists and counts, unit by unit. -/
def dispatchParts (p : Nat) (d : Desc) (cs : List Choice × Bool) : List (Nat × List PByte) :=
  tsParts p ((dispatchWrites d cs.1).map (fun x => (x.1, leBytes x.2 8))) cs.2

/-- The dispatch unit receives the descriptor (R77). -/
def duBody (s : State) (id : Nat) (d : Desc) : State :=
  let p := id / 256
  let r : DRef := ⟨id % 256, d.index⟩
  let range (x : Nat × Nat) : Range := ⟨tsWindow + tsKey p x.1, x.2⟩
  let t := ((s.addJob p r (((dispatchSpans d).take 1).map range) (((dispatchSpans d).drop 1).map range) []).modPart p
    (fun x => { x with du := some r })).wdArm p 24
  match t.findJob p r with
  | some j => t.showParts p r (dispatchParts p d (t.dispatchChoices p d j))
  | none => t

/-- A DISPATCH completes: lists and counts, then predicates, length registers and semaphore adds (R117–R121). -/
def duComplete (s : State) (p : Nat) (r : DRef) (d : Desc) (j : Job) : State :=
  let id := cid p r.slot
  let (cs, poison) := s.dispatchChoices p d j
  let (u, e) := { s with fresh := s.fresh + 1 }.touchReads p j
  let t := ((u.dropJob p r).noteEcc id r.index e).landPieces p id j (dispatchParts p d (cs, poison))
  let win := (List.range d.dWin).map (fun i => (i, acceptedOf cs (d.dExpFirst + i)))
  let t := win.foldl (fun t x => t.setPred p (d.dPred + x.1) (decide (0 < x.2))) t
  let t := if d.dLenEn then win.foldl (fun t x => t.setFld (a_SQ_LEN p r.slot (d.dLen + x.1)) SQ_LEN_LEN x.2) t else t
  let t := if d.dSemEn then { t with bead := t.bead ++ win.map (fun x => .update d.dSemPart (d.dSem + x.1) (.add x.2) (.duAdd p)) } else t
  let t := (t.modPart p (fun x => { x with du := none })).wdDone p 24 false
  (t.modDesc id r.index (fun x => { x with poisoned := x.poisoned || poison })).finishOk id r.index

/-- The last write of a running descriptor is acknowledged at its home (R79, R139, R154, R205). -/
def lastAck (s : State) (p slot index : Nat) : State :=
  let id := cid p slot
  match (s.ctx id).descs.find? (fun d => d.stage == .running && d.index % s.ringSize id == index) with
  | none => s
  | some d =>
    let r : DRef := ⟨slot, d.index⟩
    match d.kind with
    | 0 => s.moverAck p r d
    | 1 => s.mmAck p r d
    | 2 => s.vecAck p r d
    | 4 => if d.sgScope = 3 then s.fabFlagAck p r d else s
    | 6 => s.moverAck p r d
    | 7 => s.moverAck p r d
    | 8 => s.moverAck p r d
    | _ => s

end State

open State

/-- Dispatch of a VEC whose operation satisfies p. -/
def dispatchVec (pp slot : Nat) (is : Nat → Bool) (s : State) : State :=
  dispatchNext pp slot (fun d => d.kind == kVEC && is d.vOp) vecCheck vecFree vecBody s

/-- VEC elementwise (R72). -/
def execVecElementwise (pp : Fin 24) (slot : Fin 192) (s : State) : Out' :=
  .next (dispatchVec pp slot (fun op => decide (op < 0x10)) s)

/-- VEC reduction (R72). -/
def execVecReduction (pp : Fin 24) (slot : Fin 192) (s : State) : Out' := .next (dispatchVec pp slot isReduction s)

/-- SOFTMAX (R72). -/
def execSoftmax (pp : Fin 24) (slot : Fin 192) (s : State) : Out' := .next (dispatchVec pp slot (fun op => op == 0x18) s)

/-- LAYERNORM (R72). -/
def execLayernorm (pp : Fin 24) (slot : Fin 192) (s : State) : Out' := .next (dispatchVec pp slot (fun op => op == 0x19) s)

/-- RMSNORM (R72). -/
def execRmsnorm (pp : Fin 24) (slot : Fin 192) (s : State) : Out' := .next (dispatchVec pp slot (fun op => op == 0x1A) s)

/-- CONVERT (R72). -/
def execConvert (pp : Fin 24) (slot : Fin 192) (s : State) : Out' := .next (dispatchVec pp slot (fun op => op == 0x20) s)

/-- FUNC through a firmware table (R76). -/
def execFuncSlot (pp : Fin 24) (slot : Fin 192) (s : State) : Out' := .next (dispatchVec pp slot (fun op => op == 0x28) s)

/-- FUNC through a table image (R74). -/
def execFuncTableImage (pp : Fin 24) (slot : Fin 192) (s : State) : Out' :=
  .next (dispatchVec pp slot (fun op => op == 0x29) s)

/-- DISPATCH (R153). -/
def execDispatch (pp : Fin 24) (slot : Fin 192) (s : State) : Out' :=
  .next (dispatchNext pp slot (fun d => d.kind == kDISPATCH) dispatchCheck duFree duBody s)

/-- DISPATCH_COMPLETE (R77, R121). -/
def execDispatchComplete (pp : Fin 24) (s : State) : Out' :=
  .next (match (s.part pp).du with
    | none => s
    | some r =>
      match s.findDesc (cid pp r.slot) r.index, s.findJob pp r with
      | some d, some j => if s.unitsRun pp then s.duComplete pp r d j else s
      | _, _ => s)

/-- LAST_WRITE_ACKNOWLEDGED (R79, R205).
DESIGN CHOICE, safe (log entry 9): the writes take effect together, and are a free mixture until then. -/
def execLastWriteAcknowledged (pp : Fin 24) (slot : Fin 192) (index : BitVec 16) (s : State) : Out' :=
  .next (if s.inReset pp then s else s.lastAck pp slot index.toNat)

end Sys2Proof.Machine
end

