-- ==== Sys2Proof/Machine/Power.lean ====
section
/-! DEFINITION. Power, droop and heat: the package cap and its split (R305, R306), budgets and PACE (R307–R310), the phase
controller (R314–R318), the Headstock governor (R319), chatter (R321), sensors and throttling (R322, R323, R375), switch
requests and set points (R29, R37, R326, R328), freezes and island holds (R49, R51). Powers are in mW. -/

namespace Sys2Proof.Machine

/-- The domains a domain needs (R29), by the numbers of R325. -/
def domDeps (i : Nat) : List Nat :=
  if i < 72 then (if i % 3 = 2 then [State.domNet (State.burlOf (i / 3)), 122] else [State.domCtl (i / 3), 122])
  else if i < 78 then [State.domHome, 122]
  else if i < 108 then [State.domHome, 122]
  else if i < 111 then [122]
  else if i < 119 then [119 + (i - 111) / 4, 122]
  else if i = 121 then [119, 122]
  else if i < 122 then [122]
  else []

/-- The rail that feeds a domain, as its sensor number (R375, R402). -/
def railOf (i : Nat) : Nat :=
  if i < 72 then 410 + i / 12
  else if i < 78 then 410 + (i - 72)
  else if i ≤ 110 then 416
  else if i < 119 then 418
  else if i < 121 then 416
  else if i = 121 then 418
  else 419

/-- Undervoltage limit of a rail, in mV (R375, R402). -/
def railMin (r : Nat) : Nat := if r < 417 then 850 else if r = 417 then 1000 else if r = 418 then 1100 else 1650

/-- The static window of a rail, in µV (R402). -/
def railWindow (r : Nat) : Nat × Nat :=
  if r < 417 then (921500, 978500)
  else if r = 417 then (1067000, 1133000)
  else if r = 418 then (1176000, 1224000)
  else (1710000, 1890000)

/-- The floor of a die without budget messages (R307). The Headstock's is a set point, not a power. -/
def floorGrant (d : Nat) : Nat := if d < 6 then 20000 else 30000

/-- The thermal sensors that throttle a die (R322, R375). -/
def sensorsOf (d : Nat) : List Nat :=
  if d < 6 then (List.range 32).map (fun k => 32 * d + k)
  else if d = 6 then (List.range 208).map (fun k => 192 + k)
  else (List.range 4).map (fun k => 400 + 4 * (d - 7) + k)

/-- The level of the division of R308: no unit gets more than it, and none less unless it demands less; none when every
demand is met. DESIGN CHOICE, unsafe (log entry 42): rounded down to milliwatts. -/
def fairLevel : Nat → Nat → List Nat → Option Nat
  | 0, _, _ => none
  | n + 1, left, ds =>
    if ds = [] then none
    else
      let l := left / ds.length
      let small := ds.filter (fun d => d ≤ l)
      if small = [] then some l else fairLevel n (left - small.sum) (ds.filter (fun d => l < d))

/-- The division of R308. -/
def fairShares (total : Nat) (ds : List Nat) : List Nat :=
  match fairLevel (ds.length + 1) total ds with
  | none => ds
  | some l => ds.map (fun d => min d l)

/-- A learned field's update: x + (m - x) / 8, rounded down (R316). -/
def learn (first : Bool) (x m : Nat) : Nat := if first then m else (7 * x + m) / 8

namespace State

/-- A record for a power domain. -/
def faultDom (s : State) (cls i : Nat) : State :=
  if i < 72 then s.fault (pq (i / 3)) (s.recordP cls (i / 3) 255)
  else s.faultDev cls (dieOfDom i)
    (if 78 ≤ i && i < 104 then 128 + (i - 78) else if i = 121 then 208 else if 122 ≤ i then 224 else 255)

/-! ### Cap and split -/

/-- Enabled partitions and the Burls that hold one (R306). -/
def nParts (s : State) : Nat := ((List.range 24).filter (fun p => s.enabled p)).length
def nBurls (s : State) : Nat := ((List.range 6).filter (fun b => (List.range 4).any (fun k => s.enabled (4 * b + k)))).length

/-- The fixed shares of R306 for given words of PW_PKGCAP and PW_SPLIT, in W. -/
def fixedShares (s : State) (split : Word) : Nat :=
  10 + PW_SPLIT_STACK_W.get split * s.nParts + PW_SPLIT_TAIL_W.get split * 2 + PW_SPLIT_HS_W.get split
    + PW_SPLIT_LEAK_W.get split * s.nBurls

/-- A staged cap and split are legal (R305, R306, R328). -/
def splitOk (s : State) (cap split : Word) : Bool :=
  let within (v lo hi : Nat) : Bool := decide (lo ≤ v) && decide (v ≤ hi)
  let c := PW_PKGCAP_CAP_W.get cap
  within c 1500 3600 && (decide (c ≤ 1800) || PW_PKGCAP_LIQUID.get cap == 1)
    && within (PW_SPLIT_HS_W.get split) 120 370 && within (PW_SPLIT_TAIL_W.get split) 30 120
    && within (PW_SPLIT_STACK_W.get split) 12 32 && within (PW_SPLIT_LEAK_W.get split) 20 80
    && decide (s.fixedShares split + 20 * s.nBurls ≤ c)

def pwCommitGo (s : State) : State :=
  if s.splitOk (s.stagedRd a_PW_PKGCAP) (s.stagedRd a_PW_SPLIT) then s.commit [a_PW_PKGCAP, a_PW_SPLIT]
  else (s.discard [a_PW_PKGCAP, a_PW_SPLIT]).faultDev cCONFIG 9 224

/-- D of R306, in mW. DESIGN CHOICE, safe (log entry 22): what the device measures is an argument or free. -/
def dynamicBudget (s : State) : Nat := (s.fld a_PW_PKGCAP PW_PKGCAP_CAP_W - s.fixedShares (s.rd a_PW_SPLIT)) * 1000

/-! ### Budgets and PACE -/

/-- The demand of a partition: the one it stated, or while a raise is in progress the learned power of the next phase
(R308, R317). -/
def demandOf (s : State) (p stated : Nat) : Nat :=
  match (s.part p).raises with
  | [] => stated
  | (sl, _) :: _ =>
    s.fld (a_PW_PHTAG p (s.fld (a_PW_PHTAG p (s.ctx (cid p sl)).phaseTag) PW_PHTAG_NEXT_TAG)) PW_PHTAG_POWER * 125

/-- Stored demands of a Burl's enabled partitions. -/
def burlParts (s : State) (b : Nat) : List Nat := ((List.range 4).map (fun k => 4 * b + k)).filter (fun p => s.enabled p)
def burlDemand (s : State) (b : Nat) : Nat := ((s.burlParts b).map (fun p => (s.part p).demand)).sum

/-- The reading of thermal sensor k, in 1/16 °C. -/
def tempOf (s : State) (k : Nat) : Int :=
  let raw := if k < 400 then s.fld (a_PW_TEMP k) PW_TEMP_TEMP else s.fld (a_MG_SENS (k - 400)) MG_SENS_VALUE
  (BitVec.ofNat 16 raw).toInt

/-- The thermal grant of a die is brought up to date (R323). -/
def thermStep (s : State) (d g : Nat) : State :=
  let t : Int := 16 * s.fld a_PW_THERM PW_THERM_THROTTLE_C
  let hot := (sensorsOf d).any (fun k => decide (t < s.tempOf k))
  let cool := (sensorsOf d).all (fun k => decide (s.tempOf k ≤ t - 48))
  let x := s.die d
  match x.therm with
  | none =>
    if hot then
      ((s.setDie d { x with therm := some (x.used * 95 / 100) }).bump a_PW_PKGSTAT PW_PKGSTAT_EPISODES 1).faultDev cTHERMAL d 255
    else s
  | some h =>
    if hot then s.setDie d { x with therm := some (h * 95 / 100) }
    else if cool then s.setDie d { x with therm := if g ≤ h + g * 2 / 100 then none else some (h + g * 2 / 100) }
    else s

/-- The grant of each die without throttling (R306, R308). -/
def rawGrants (s : State) : List Nat :=
  fairShares s.dynamicBudget ((List.range 6).map (fun b => s.burlDemand b))
    ++ [s.fld a_PW_SPLIT PW_SPLIT_HS_W * 1000, s.fld a_PW_SPLIT PW_SPLIT_TAIL_W * 1000, s.fld a_PW_SPLIT PW_SPLIT_TAIL_W * 1000]

/-- Banjo computes the grants and sends the messages (R307, R308, R323). The package average is a measured value. -/
def budgetRun (s : State) (demand : List Nat) : State :=
  let s := (List.range 24).foldl (fun t p => t.modPart p (fun x => { x with demand := s.demandOf p (demand.getD p 0) })) s
  let gs := s.rawGrants
  let s := (List.range 9).foldl (fun t d => t.thermStep d (gs.getD d 0)) s
  let s := (List.range 9).foldl (fun t d =>
    let x := t.die d
    let g := gs.getD d 0
    t.setDie d { x with offer := some (t.now, (x.therm.map (fun h => min h g)).getD g) }) s
  let s := s.setFld a_PW_PKGSTAT PW_PKGSTAT_THROTTLING (b2n ((List.range 9).any (fun d => (s.die d).therm.isSome)))
  { s with budgetAt := s.now + 100000, fresh := s.fresh + 1 }.setFld a_PW_PKGSTAT PW_PKGSTAT_POWER (Config.freeNat s.fresh)

/-- A new goal for a partition's PACE, from where PACE stands (R309, R310). -/
def setPace (s : State) (p goal : Nat) : State :=
  s.modPart p (fun x => { x with pace := s.livePace p, paceGoal := goal, paceAt := s.now, pacedAt := s.pacedUntil p })

/-- A Burl divides its grant among its partitions (R308). -/
def shareOut (s : State) (b g : Nat) : List (Nat × Nat) :=
  (s.burlParts b).zip (fairShares g ((s.burlParts b).map (fun p => (s.part p).demand)))

/-- A Burl divides its grant among its partitions; each takes the largest k that its measured power allows. The power at
k = 256 is a measured value (R308, R309). -/
def paceBurl (s : State) (b g : Nat) : State :=
  (s.shareOut b g).foldl (fun t x =>
    let full := Config.freeNat t.fresh
    let k := if full = 0 then 256 else max 1 (min 256 (x.2 * 256 / full))
    ({ t with fresh := t.fresh + 1 }.modPart x.1 (fun y => { y with grant := x.2 })).setPace x.1 k) s

/-- A die takes a budget message and answers with its energy in µJ (R307, R309). -/
def takeMessage (s : State) (d energy : Nat) : State :=
  let x := s.die d
  match x.offer with
  | none => s
  | some (at_, g) =>
    if x.inReset || at_ + 300000 < s.now then s
    else
      let t := s.setDie d { x with offer := none, lastMsg := s.now, grant := g, used := energy * 10, atFloor := false }
      let t := (t.setFld (a_PW_DIE d) PW_DIE_GRANT (min 65535 (g / 250))).setFld (a_PW_DIE d) PW_DIE_USED
        (min 65535 (energy * 10 / 250))
      if d < 6 then t.paceBurl d g else t

/-- A die keeps time: its replica is synchronised, or it is Banjo's (R45). -/
def keepsTime (s : State) (d : Nat) : Bool := d == 9 || (s.die d).synced

/-- A die without a message for 300 µs falls to its floor (R307). -/
def missMessage (s : State) (d : Nat) : State :=
  let x := s.die d
  if x.inReset || x.atFloor || !s.keepsTime d || s.now < x.lastMsg + 300000 then s
  else
    let t := s.setDie d { x with atFloor := true, grant := if d = 6 then x.grant else floorGrant d }
    let t := if d = 6 then t else t.setFld (a_PW_DIE d) PW_DIE_GRANT (floorGrant d / 250)
    let t := if d < 6 then s.shareOut d (floorGrant d) |>.foldl (fun t x => t.modPart x.1 (fun y => { y with grant := x.2 })) t else t
    (t.bump (a_PW_DIE d) PW_DIE_MISSED 1).faultDev cPOWER d 255

/-- The governor lowers PACE by 4 (R310). -/
def overload (s : State) (p power : Nat) : State :=
  let x := s.part p
  let k := max 1 (s.livePace p - 4)
  if !s.domOn (domEng p) || power * 100 ≤ 105 * x.grant || s.now < x.overAt + 1000 then s
  else s.modPart p (fun x => { x with
    pace := k, paceGoal := min x.paceGoal k, paceAt := s.now, pacedAt := s.pacedUntil p, overAt := s.now })

/-- The Headstock paces instruction issue, or stops it (R311, R319). -/
def paceIssue (s : State) (on : Bool) : State := s.setDie 6 { s.die 6 with paced := on }

/-- A step of the Headstock governor: over its grant it lowers the quad that draws the most; with room it raises the quad
lowered last (R319). It paces instruction issue only when no quad is left to lower, and stops that as soon as there is room. -/
def governorStep (s : State) (quad power : Nat) : State :=
  let i := domQuad quad
  if (s.die 6).grant = 0 || s.now < s.governedAt then s
  else if (s.die 6).grant < power then
    if s.domOn i && decide (600 < s.targetMv i) then
      { s.setDom i { s.dom i with lowered := (s.dom i).lowered + 10 } with
        lowered := quad :: s.lowered, governedAt := s.now + 10000 }
    else if (List.range 26).all (fun q => !s.domOn (domQuad q) || s.targetMv (domQuad q) ≤ 600) then s.paceIssue true
    else s
  else match s.lowered with
    | [] => s.paceIssue false
    | q :: qs =>
      { (s.paceIssue false).setDom (domQuad q) { s.dom (domQuad q) with lowered := (s.dom (domQuad q)).lowered - 10 } with
        lowered := qs, governedAt := s.now + 10000 }

/-! ### The phase controller -/

/-- SET_MV of a tag (R316). The learned condition counts once an instance has been learned. -/
def chooseMv (s : State) (p t : Nat) : Nat :=
  let w := s.rd (a_PW_PHTAG p t)
  let c := s.rd (a_PW_PHASECFG p)
  let known := PW_PHTAG_NEXT_VALID.get w == 1
  match PW_PHTAG_CLASS.get w with
  | 0 => if known && decide (PW_PHTAG_BUSY.get w < 128) then PW_PHASECFG_MEM_MV.get c else PW_PHASECFG_HEAVY_MV.get c
  | 1 => if known && decide (204 < PW_PHTAG_BUSY.get w) then PW_PHASECFG_HEAVY_MV.get c else PW_PHASECFG_MEM_MV.get c
  | 2 => PW_PHASECFG_LIGHT_MV.get c
  | _ => PW_PHASECFG_IDLE_MV.get c

def chooseTag (s : State) (p t : Nat) : State := s.setFld (a_PW_PHTAG p t) PW_PHTAG_SET_MV (s.chooseMv p t)

/-- The instance of a tag that ends when its context's next PHASE arrives (R316). Power and activity are measured. -/
def learnTag (s : State) (p tag next dur : Nat) : State :=
  let a := a_PW_PHTAG p tag
  let w := s.rd a
  let first := PW_PHTAG_NEXT_VALID.get w == 0
  let w := PW_PHTAG_POWER.set w (learn first (PW_PHTAG_POWER.get w) (Config.freeNat s.fresh % 4096))
  let w := PW_PHTAG_BUSY.set w (learn first (PW_PHTAG_BUSY.get w) (Config.freeNat (s.fresh + 1) % 256))
  let w := PW_PHTAG_DUR_US.set w (learn first (PW_PHTAG_DUR_US.get w) (min 16777215 dur))
  let w := PW_PHTAG_NEXT_VALID.set (PW_PHTAG_NEXT_TAG.set w next) 1
  ({ s with fresh := s.fresh + 2 }.wr a w).chooseTag p tag

/-- PHASE: the previous phase of the context is learned, the new one begins, and the descriptor completes at dispatch
(R160, R315–R317). -/
def phaseBody (s : State) (id : Nat) (d : Desc) : State :=
  let p := id / 256
  let c := s.ctx id
  let t := if c.phaseTag < 64 then s.learnTag p c.phaseTag d.phTag ((s.now - c.phaseAt) / 1000) else s
  let a := a_PW_PHTAG p d.phTag
  let t := t.setFld a PW_PHTAG_CLASS d.phClass
  let t := if d.phExpect ≠ 0 ∧ t.fld a PW_PHTAG_NEXT_VALID = 0 then t.setFld a PW_PHTAG_DUR_US d.phExpect else t
  let t := (t.chooseTag p d.phTag).modCtx id (fun c => { c with
    phaseTag := d.phTag, phaseAt := s.now, phaseClass := d.phClass })
  (t.modPart p (fun x => { x with raises := x.raises.filter (fun r => r.1 != id % 256) })).finishOk id d.index

/-- The rise a context's next phase asks for, and when it starts (R317): target and start time. -/
def nextRise (s : State) (p slot : Nat) : Option (Nat × Nat) :=
  let c := s.ctx (cid p slot)
  if 64 ≤ c.phaseTag || s.cstate (cid p slot) ≠ 1 then none
  else
    let w := s.rd (a_PW_PHTAG p c.phaseTag)
    let now_ := PW_PHTAG_SET_MV.get w
    let next := s.fld (a_PW_PHTAG p (PW_PHTAG_NEXT_TAG.get w)) PW_PHTAG_SET_MV
    if PW_PHTAG_NEXT_VALID.get w = 1 ∧ now_ < next then
      some (next, c.phaseAt + (PW_PHTAG_DUR_US.get w * 1000 - (next - now_) * 100 - 5000))
    else none

/-- The first context whose raise is due and has not started. -/
def raiseStart (s : State) (p : Nat) : State :=
  match (List.range 192).findSome? (fun sl =>
      match s.nextRise p sl with
      | some (mv, at_) => if at_ ≤ s.now && !(s.part p).raises.any (fun r => r.1 == sl) then some (sl, mv) else none
      | none => none) with
  | some r => if s.flag (a_PW_PHASECFG p) PW_PHASECFG_AUTO then s.modPart p (fun x => { x with raises := r :: x.raises }) else s
  | none => s

/-- Staged phase set points are legal (R328). -/
def phcfgOk (s : State) (p : Nat) : Bool :=
  let v (f : Fld) : Nat := s.stagedFld (a_PW_PHASECFG p) f
  let r (n : Nat) : Bool := decide (600 ≤ n) && decide (n ≤ 850)
  r (v PW_PHASECFG_HEAVY_MV) && r (v PW_PHASECFG_MEM_MV) && r (v PW_PHASECFG_LIGHT_MV) && r (v PW_PHASECFG_IDLE_MV)
    && decide (v PW_PHASECFG_IDLE_MV ≤ v PW_PHASECFG_LIGHT_MV) && decide (v PW_PHASECFG_LIGHT_MV ≤ v PW_PHASECFG_HEAVY_MV)
    && decide (v PW_PHASECFG_MEM_MV ≤ v PW_PHASECFG_HEAVY_MV)

/-- PW_PHCOMMIT.GO: the tags in use choose again from the new set points. -/
def phCommit (s : State) (p : Nat) : State :=
  if s.phcfgOk p then
    (List.range 64).foldl (fun t k => if t.fld (a_PW_PHTAG p k) PW_PHTAG_SET_MV = 0 then t else t.chooseTag p k)
      (s.commit [a_PW_PHASECFG p])
  else (s.discard [a_PW_PHASECFG p]).faultPart p cCONFIG

/-- The learned table is cleared (R316). -/
def phClear (s : State) (p : Nat) : State := (List.range 64).foldl (fun t k => t.wr (a_PW_PHTAG p k) 0) s

/-! ### Switching and set points -/

/-- A power-down of a domain is refused (R29, R326): a dependent domain is on, or the condition of the table holds. -/
def downRefused (s : State) (i : Nat) : Bool :=
  (List.range 124).any (fun j => (domDeps j).contains i && ((s.dom j).on || (s.dom j).switchOn))
    || (decide (i < 72) && !(s.liveSlots (i / 3)).isEmpty)
    || ((i == 108 || i == 109) && s.flag a_DD_TIER DD_TIER_ACTIVE)
    || (decide (111 ≤ i) && decide (i < 119) && [0, 1].any (fun k => s.flag (a_FB_PORTCTL (2 * (i - 111) + k)) FB_PORTCTL_ENABLE))
    || (i == 121 && (List.range 256).any (fun q => s.flag (a_HI_QCFG q) HI_QCFG_ENABLE))

/-- A power-up of a domain is refused: what it needs is off or going off (R29), or its partition lies outside the licensed set (R6). -/
def upRefused (s : State) (i : Nat) : Bool :=
  (domDeps i).any (fun j => !(s.dom j).on || (s.dom j).switchOff) || (decide (i < 72) && !s.enabled (i / 3))

/-- A write of PW_DOMCTL.ON (R326). Writing the state already requested asks for nothing. -/
def switchReq (s : State) (i : Nat) (on : Bool) : State :=
  if 122 ≤ i || s.flag (a_PW_DOMCTL i) PW_DOMCTL_ON == on then s
  else
    let x := s.dom i
    if x.switchOn || x.switchOff || (if on then s.upRefused i else s.downRefused i) then
      (s.setFld (a_PW_DOMSTAT i) PW_DOMSTAT_REFUSED 1).faultDom cPROTO i
    else
      ((s.setFld (a_PW_DOMCTL i) PW_DOMCTL_ON (b2n on)).setFld (a_PW_DOMSTAT i) PW_DOMSTAT_BUSY 1).setDom i
        { x with switchOn := on, switchOff := !on, railAt := s.now }

/-- The highest legal set point of a domain, in mV (R37, R224).
DESIGN CHOICE, unsafe (log entry 57): 900 mV for a quad without an enabled core. -/
def maxMv (s : State) (i : Nat) : Nat :=
  if 78 ≤ i && i < 104 then
    ((List.range 96).filter (fun c => s.fld (a_HS_CORE_CEIL c) HS_CORE_CEIL_PHYS / 4 == i - 78)).foldl
      (fun m c => min m (s.fld (a_HS_CORE_CEIL c) HS_CORE_CEIL_CEIL_MV)) 900
  else 850

/-- A write of PW_DOMCTL.SET_MV (R37). -/
def setMv (s : State) (i mv : Nat) : State :=
  if 122 ≤ i then s
  else if 600 ≤ mv && mv ≤ s.maxMv i then s.setFld (a_PW_DOMCTL i) PW_DOMCTL_SET_MV mv
  else s.faultDom cPROTO i

/-- A write of PW_THERM.THROTTLE_C (R328). -/
def setThrottle (s : State) (c : Nat) : State :=
  if 80 ≤ c && c ≤ 95 then s.setFld a_PW_THERM PW_THERM_THROTTLE_C c else s.faultDev cPROTO 9 224

/-! ### Sensors -/

/-- One report of the thermal sensors (raw values of PW_TEMP) and of sensors 400 to 419 (R322, R375).
DEDUCED, unsafe (log entry 23): each report that finds a rail low logs. -/
def sensorReport (s : State) (temps levels : List Nat) : State :=
  let t := (temps.take 400).zipIdx.foldl (fun t x => t.setFld (a_PW_TEMP x.2) PW_TEMP_TEMP x.1) s
  let t := (levels.take 20).zipIdx.foldl (fun t x =>
    (t.setFld (a_MG_SENS x.2) MG_SENS_VALUE x.1).setFld (a_MG_SENS x.2) MG_SENS_VALID 1) t
  let hot := (List.range 410).foldl (fun h k => if t.tempOf h < t.tempOf k then k else h) 0
  let deg (k : Nat) : Nat := ((t.tempOf k) / 16).toNat
  let t := (t.setFld a_PW_THERM PW_THERM_HOT_SENSOR hot).setFld a_PW_THERM PW_THERM_HOTTEST (deg hot)
  let t := (List.range 9).foldl (fun u d =>
    u.setFld (a_PW_DIE d) PW_DIE_TMAX ((sensorsOf d).foldl (fun m k => max m (deg k)) 0)) t
  let t := (levels.take 20).zipIdx.foldl (fun u x =>
    if 10 ≤ x.2 && x.1 % 65536 < railMin (400 + x.2) then u.faultDev cPOWER 9 224 else u) t
  { t with sensedAt := s.now + 100000 }

/-! ### Droop, holds and chatter -/

/-- A domain whose blocks hold a clocked island (R40). -/
def hasIsland (i : Nat) : Bool :=
  (decide (i < 72) && i % 3 == 2) || i == 108 || i == 109 || (decide (111 ≤ i) && decide (i < 119)) || i == 121 || i == 122

end State

open State

/-- PW_COMMIT (R305, R306). -/
def execPwCommit (who : Requester) (s : State) : Out' := .next (s.gated who a_PW_COMMIT (fun s => s.pwCommitGo))

/-- PW_PHCOMMIT.GO (R328). -/
def execPwPhcommitGo (who : Requester) (pp : Fin 24) (s : State) : Out' :=
  .next (s.gated who (a_PW_PHCOMMIT pp) (fun s => s.phCommit pp))

/-- PW_PHCOMMIT.CLEAR (R316). -/
def execPwPhcommitClear (who : Requester) (pp : Fin 24) (s : State) : Out' :=
  .next (s.gated who (a_PW_PHCOMMIT pp) (fun s => s.phClear pp))

/-- PW_THERM.THROTTLE_C (R328). -/
def execPwThermWrite (who : Requester) (value : BitVec 8) (s : State) : Out' :=
  .next (s.gated who a_PW_THERM (fun s => s.setThrottle value.toNat))

/-- PW_DOMCTL.ON (R29, R326). -/
def execPwDomctlOn (who : Requester) (dom : Fin 124) (on : Bool) (s : State) : Out' :=
  .next (s.gated who (a_PW_DOMCTL dom) (fun s => s.switchReq dom on))

/-- PW_DOMCTL.SET_MV (R37). -/
def execPwDomctlSetMv (who : Requester) (dom : Fin 124) (mv : BitVec 10) (s : State) : Out' :=
  .next (s.gated who (a_PW_DOMCTL dom) (fun s => s.setMv dom mv.toNat))

/-- BUDGET_INTERVAL (R307, R308, R323): demand lists the partitions' stated demands. No message leaves while the management
cores restart (R374). -/
def execBudgetInterval (demand : List Nat) (s : State) : Out' :=
  .next (if s.now < s.budgetAt || s.now < s.mg.restart then s else s.budgetRun demand)

/-- BUDGET_MESSAGE (R307, R309). -/
def execBudgetMessage (die : Fin 9) (energy : Nat) (s : State) : Out' := .next (s.takeMessage die energy)

/-- BUDGET_MISSED (R307). -/
def execBudgetMissed (die : Fin 9) (s : State) : Out' := .next (s.missMessage die)

/-- PACE_OVERLOAD_STEP (R310): power is the partition's over the last 10 µs. -/
def execPaceOverloadStep (pp : Fin 24) (power : Nat) (s : State) : Out' := .next (s.overload pp power)

/-- HEADSTOCK_GOVERNOR_STEP (R319): quad draws the most power, power is the Headstock's. -/
def execHeadstockGovernorStep (quad : Fin 26) (power : Nat) (s : State) : Out' := .next (s.governorStep quad power)

/-- Dispatch of a PHASE (R160). -/
def execPhase (pp : Fin 24) (slot : Fin 192) (s : State) : Out' :=
  .next (dispatchNext pp slot (fun d => d.kind == kPHASE) noCheck always phaseBody s)

/-- PHASE_RAISE_START (R317). -/
def execPhaseRaiseStart (pp : Fin 24) (s : State) : Out' := .next (if s.domOn (domCtl pp) then s.raiseStart pp else s)

/-- SENSOR_REPORT (R322, R375). -/
def execSensorReport (temps : List Nat) (levels : List Nat) (s : State) : Out' :=
  .next (if s.now < s.sensedAt then s else s.sensorReport temps levels)

/-- UNDERVOLTAGE_FREEZE (R49). -/
def execUndervoltageFreeze (dom : Fin 124) (mv : Nat) (s : State) : Out' :=
  let x := s.dom dom
  .next (
    if !x.on || x.frozen.isSome || 550 ≤ mv then s
    else (s.setDom dom { x with frozen := some s.now, freezeLogged := false }).bump (a_PW_DOMSTAT dom) PW_DOMSTAT_FREEZES 1)

/-- FREEZE_RESUME (R49). -/
def execFreezeResume (dom : Fin 124) (mv : Nat) (s : State) : Out' :=
  let x := s.dom dom
  .next (if x.frozen.isNone || mv ≤ 570 then s else s.setDom dom { x with frozen := none, freezeLogged := false })

/-- FREEZE_TIMEOUT (R49). -/
def execFreezeTimeout (dom : Fin 124) (s : State) : Out' :=
  let x := s.dom dom
  .next (match x.frozen with
    | some t =>
      if t + 10000 < s.now && !x.freezeLogged && s.keepsTime (dieOfDom dom) then (s.setDom dom { x with freezeLogged := true }).faultDom cPOWER dom else s
    | none => s)

/-- ISLAND_SUPPLY_HOLD (R51). -/
def execIslandSupplyHold (dom : Fin 124) (s : State) : Out' :=
  let x := s.dom dom
  .next (
    if !x.on || !hasIsland dom || x.held.isSome then s
    else s.setDom dom { x with held := some s.now, holdLogged := false, holds := x.holds + 1 })

/-- ISLAND_SUPPLY_RETURN (R51). -/
def execIslandSupplyReturn (dom : Fin 124) (s : State) : Out' :=
  let x := s.dom dom
  .next (if x.held.isNone then s else s.setDom dom { x with held := none, holdLogged := false })

/-- ISLAND_HOLD_TIMEOUT (R51). -/
def execIslandHoldTimeout (dom : Fin 124) (s : State) : Out' :=
  let x := s.dom dom
  .next (match x.held with
    | some t =>
      if t + 10000 < s.now && !x.holdLogged && s.keepsTime (dieOfDom dom) then (s.setDom dom { x with holdLogged := true }).faultDom cPOWER dom else s
    | none => s)

/-- CHATTER_DETECT (R321). -/
def execChatterDetect (dom : Fin 124) (s : State) : Out' :=
  let x := s.dom dom
  .next (
    if !x.on then s
    else
      let t := s.setDom dom { x with damped := some (x.damped.getD s.now), chatterAt := s.now }
      ((t.bump (a_PW_DOMSTAT dom) PW_DOMSTAT_CHATTER 1).setFld (a_PW_DOMSTAT dom) PW_DOMSTAT_DAMPED 1).faultDom cPOWER dom)

/-- DAMPED_EXIT (R321). -/
def execDampedExit (dom : Fin 124) (s : State) : Out' :=
  let x := s.dom dom
  .next (
    if x.damped.isNone || s.now < x.chatterAt + 10000000 then s
    else (s.setDom dom { x with damped := none }).setFld (a_PW_DOMSTAT dom) PW_DOMSTAT_DAMPED 0)

/-- CHATTER_PERSIST (R321). -/
def execChatterPersist (dom : Fin 124) (s : State) : Out' :=
  let x := s.dom dom
  .next (match x.damped with
    | some t => if s.now < t + 1000000 || x.halved then s else (s.setDom dom { x with halved := true }).faultDom cPOWER dom
    | none => s)

end Sys2Proof.Machine
end

