-- ==== Sys2Proof/Machine/Coherence.lean ====
section
/-! DEFINITION. Homes and caching agents (R242–R261): requests, snoops, grants, NAKs and reservations, sweeps, dead agents; the
requester queues of the slices (R230); a core's lines, store buffer and barriers (R239, R262, R263). Messages travel in
State.net; the command that names a message is its arrival, and does nothing while it cannot arrive or be acted on. -/

namespace Sys2Proof.Machine

/-- Answer codes: RSP_I, RSP_S, RSP_DATA, and the answer to a sweep. -/
def rsI : Nat := 0
def rsS : Nat := 1
def rsData : Nat := 2
def rsSwept : Nat := 3

/-- Grant codes: DATA_S, DATA_E, CMP. -/
def grS : Nat := 0
def grE : Nat := 1
def grCmp : Nat := 2

/-- Core exceptions: an access the device does not permit, a poisoned value (R227, R244). -/
def excAccess : Nat := 1
def excData : Nat := 2

/-- Stage cycles a requester waits after its n-th NAK (R252). -/
def backoffStages (n : Nat) : Nat := 16 * 2 ^ (min n 5 - 1)

/-- Bytes of a piece laid over a line at their place. -/
def layOver (unit : List Byte) (u a : Nat) (bs : List Byte) : List Byte :=
  (unit.zipIdx).map (fun x => if a ≤ u + x.2 ∧ u + x.2 < a + bs.length then bs.getD (u + x.2 - a) 0 else x.1)

/-- Packet types (R293). -/
def tyWR : Nat := 0
def tyRD : Nat := 1
def tyRDRSP : Nat := 2
def tyACK : Nat := 3
def tyNAK : Nat := 4
def tyWR4 : Nat := 5

/-- Kinds of a core's remote request: 0 to 8 an uncached load of that many bytes, 16 a line fill, 17 a store. -/
def crFILL : Nat := 16
def crSTORE : Nat := 17

/-- The number that stands for the cores among requesting partitions. -/
def coresPP : Nat := 31

namespace State

def setDead (s : State) (a : Nat) (v : Bool) : State :=
  let r := if a < 64 then a_HO_DEAD0 else a_HO_DEAD1
  s.wr r (BitVec.ofNat 64 (natSetBit (s.rd r).toNat (a % 64) v))

/-- The record of a home: a stack home's goes to its partition's queue. -/
def faultHome (s : State) (h : Nat) (r : FRec) : State :=
  if h < 24 then s.fault (pq h) { r with die := burlOf h, unit := 30, part := h }
  else s.fault .device { r with die := 6, unit := 160 + (h - 24) }

/-- A record about a core's access. -/
def faultCore (s : State) (c cls a n : Nat) : State :=
  s.fault .device { s.record cls with die := 6, unit := 128 + s.quadOf c, addr := a, length := n }

/-- A home and the Headstock exchange messages: the home acts or refuses, and COHERENT bundles join their dies (R21, R49, R51). -/
def homeNear (s : State) (h : Nat) : Bool := !s.homeHeld h && s.linked roleCOH 6 (homeDie h)

/-! ### Requests -/

/-- The agent's open request for a line. -/
def missOf (s : State) (a u : Nat) : Option Miss := (s.agent a).misses.find? (fun m => m.addr == u)

def modMiss (s : State) (a u : Nat) (f : Miss → Miss) : State :=
  s.modAgent a (fun x => { x with misses := x.misses.map (fun m => if m.addr = u then f m else m) })

def dropMiss (s : State) (a u : Nat) : State :=
  s.modAgent a (fun x => { x with misses := x.misses.filter (fun m => m.addr != u) })

/-- A core's queue has a miss outstanding at a slice: its L2's, or one that the slice makes for it (R230). -/
def missing (s : State) (c g : Nat) : Bool :=
  (s.agent c).misses.any (fun m => !m.held && sliceOf m.addr == g) || (s.agent (96 + g)).misses.any (fun m => m.queue == c)

/-- Requests of a core wait in its queue at a slice, behind the first miss (R230). -/
def queued (s : State) (c g : Nat) : Bool := (s.agent c).misses.any (fun m => m.held && sliceOf m.addr == g)

/-- A core's request for a line waits: its queue has a miss outstanding at the slice, or the line is WRITING there (R230, R231). -/
def mustQueue (s : State) (a u : Nat) : Bool :=
  decide (a < 96) && (s.missing a (sliceOf u) || s.queued a (sliceOf u) || s.writing u)

/-- Notes a request of an agent for a line, unless it has one. Answers whether it leaves now: an L2's second miss at a slice
waits in its queue (R230). -/
def openMiss (s : State) (a u code key cls queue : Nat) (l1 : Bool) : State × Bool :=
  if (s.missOf a u).isSome then (s, false)
  else
    let wait := s.mustQueue a u
    let m : Miss := { addr := u, req := code, key := key, naks := 0, urgent := false, waiting := false, cls := cls, loads := [],
                      l1 := l1, queue := queue, held := wait }
    (s.modAgent a (fun x => { x with misses := x.misses ++ [m] }), !wait)

/-- Sends a request to the line's home, unless the agent already has one for the line. -/
def sendReq (s : State) (a u code key cls queue : Nat) (l1 : Bool) : State :=
  let x := s.openMiss a u code key cls queue l1
  if x.2 then { x.1 with net := x.1.net ++ [.req (homeOf u) a u code false] } else x.1

/-- What memory returns for a line under a key index. -/
def memFor (s : State) (k u : Nat) : List Byte × Bool :=
  (s.unitUnder (s.keyAt k) u, (s.unitMeta u).poison || s.keyAt k == 0)

/-- A home reads a line's unit: its ECC corrects it, or finds that it cannot (R179). -/
def mended (s : State) (u : Nat) : State :=
  match Sparse.get (fun _ => 0) s.flips u with
  | 0 => s
  | v => (s.foundUnit u v).1

def sendGrant (s : State) (h a u code key : Nat) : State :=
  if code = grCmp then { s with net := s.net ++ [.grant h a u code [] false] }
  else
    let t := s.mended u
    { t with net := t.net ++ [.grant h a u code (t.memFor key u).1 (t.memFor key u).2] }

/-- A home in reset answers with poisoned data and leaves no line (R261). -/
def refuseGrant (s : State) (h a u : Nat) : State := { s with net := s.net ++ [.grant h a u grS [] true] }

def sendNak (s : State) (h a u : Nat) : State :=
  { s with net := s.net ++ [CMsg.nak h a u] }.bump (nakReg h) HO_NAKCNT_NAKS 1

/-- The write of a WR_INV takes effect (R179, R249). -/
def applyWrInv (s : State) (x : Txn) : State :=
  let k := s.keyAt x.key
  if k = 0 then s.reportSec x.addr 64
  else
    let t := s.strike x.addr 64
    let old := t.unitUnder k x.addr
    let bs := (List.range 64).map (fun i => if natBit x.mask i then x.data.getD i 0 else old.getD i 0)
    t.putUnit k x.addr bs (popcount x.mask 64 != 64 && ((t.unitMeta x.addr).poison || t.broken x.addr))

/-- The data of an RD_NA: a running job's bytes may show in it (R204, R249). -/
def answerNa (s : State) (x : Txn) : State :=
  let t := s.mended x.addr
  let m := t.memFor x.key x.addr
  let bs := t.laid 0 (t.alts x.key) x.addr (m.1.map (fun b => (b, m.2)))
  { t with naRead := (bs.map (fun b => b.1), bs.any (fun b => b.2)), fresh := t.fresh + 1 }

/-- A transaction closes: the entry takes its new state and the requester its grant (R249, R250). A request of a caching agent
that was cancelled has no requester; the entry keeps who still holds the line (R259). A recall frees its entry (R246). -/
def conclude (s : State) (h : Nat) (x : Txn) : State :=
  match x.who, x.req with
  | some a, 0 =>
    if x.keep = [] then (s.dirPut h x.addr (.owned a)).sendGrant h a x.addr grE x.key
    else (s.dirPut h x.addr (.shared (x.keep ++ [a]))).sendGrant h a x.addr grS x.key
  | some a, 1 => (s.dirPut h x.addr (.owned a)).sendGrant h a x.addr grE x.key
  | some a, 2 => (s.dirPut h x.addr (.owned a)).sendGrant h a x.addr grCmp x.key
  | none, 0 => if x.keep = [] then s.dirRemove h x.addr else s.dirPut h x.addr (.shared x.keep)
  | none, 1 => s.dirRemove h x.addr
  | none, 2 => s.dirRemove h x.addr
  | none, 3 => s.answerNa x
  | none, 4 =>
    let t := s.applyWrInv x
    if s.bucketSet h x.addr then t.dirPut h x.addr (.shared []) else t.dirRemove h x.addr
  | none, 5 => s.dirRemove h x.addr
  | _, _ => s

/-- Opens a transaction with its snoops: the line's entry is BUSY (R245, R249). Without targets it closes at once. -/
def openTxn (s : State) (h : Nat) (x : Txn) (code : Nat) (targets : List Nat) : State :=
  if targets = [] then s.conclude h x
  else
    let t := if (s.dirOf h x.addr).isSome then s else s.dirPut h x.addr (.shared [])
    let t := t.modHome h (fun y => { y with txns := y.txns ++ [{ x with due := targets.map (fun a => (a, s.now)) }] })
    let t := if code = snBi then t.bump (nakReg h) HO_NAKCNT_BROADCASTS 1 else t
    { t with net := t.net ++ targets.map (fun a => CMsg.snoop h a x.addr code) }

/-- Holders of a line under another key index than the request's (R389). -/
def otherKey (s : State) (as : List Nat) (u k : Nat) : List Nat :=
  as.filter (fun a => (s.lineOf a u).any (fun l => l.key != k))

/-- The home acts on a request for a line that is not BUSY (R249, R389). -/
def serve (s : State) (h : Nat) (x : Txn) : State :=
  let u := x.addr
  let broadcast := s.liveAgents.filter (fun a => some a != x.who)
  match s.dirOf h u, x.req with
  | none, 0 =>
    if s.bucketSet h u then (match x.who with | some a => s.sendGrant h a u grS x.key | none => s) else s.conclude h x
  | none, 3 => s.conclude h x
  | none, _ => if s.bucketSet h u then s.openTxn h x snBi broadcast else s.conclude h x
  | some (.shared as), 0 =>
    let others := s.otherKey as u x.key
    s.openTxn h { x with keep := as.filter (fun a => !others.contains a) } snI (others.filter (fun a => !s.isDead a))
  | some (.shared as), 3 =>
    s.openTxn h x snI ((s.otherKey as u x.key).filter (fun a => !s.isDead a))
  | some (.shared as), _ => s.openTxn h x snI (as.filter (fun a => some a != x.who && !s.isDead a))
  | some (.owned o), 0 =>
    if (s.otherKey [o] u x.key) = [] then s.openTxn h { x with keep := [o] } snS [o] else s.openTxn h x snI [o]
  | some (.owned o), 3 =>
    if (s.otherKey [o] u x.key) = [] then s.openTxn h x snPeek [o] else s.openTxn h x snI [o]
  | some (.owned o), _ => s.openTxn h x snI [o]

/-- A request that the home refuses whatever its reservations: its agent is dead, a sweep or a reclaim covers the line, or an UPG
whose sender does not share the line (R249, R252, R259, R260). DEDUCED, unsafe (log entry 25). -/
def mustNak (s : State) (h a u code : Nat) : Bool :=
  s.isDead a || s.shut h u
    || (match s.dirOf h u with
        | some (.owned o) => code == rqUpg || o == a
        | some (.shared as) => code == rqUpg && !as.contains a
        | none => code == rqUpg && !s.bucketSet h u)

/-- A request leaves the line with a directory entry it does not have yet (R245, R249, R250). -/
def needsEntry (s : State) (h u code : Nat) : Bool :=
  (s.dirOf h u).isNone && (code == rqRdX || code == rqUpg || (code == rqRdS && !s.bucketSet h u) || (code == rqWrInv && s.bucketSet h u))

/-- Makes room in the directory for a request: whether there is room now, and what was done; an OWNED entry in the way is
recalled first (R246). -/
def makeRoom (s : State) (h u code : Nat) : State × Bool :=
  if !s.needsEntry h u code then (s, true)
  else match s.wayFor h u with
    | .free => (s, true)
    | .evict v => ((s.dirRemove h v).setBucket h v, true)
    | .recall v o =>
      (s.openTxn h { addr := v, req := rqRecall, who := none, key := 0, due := [], keep := [], data := [], mask := 0 } snI [o], false)
    | .wait => (s, false)

/-- A home takes a request (R249, R252, R253, R261): the state after it, or none while the request waits for a directory way;
the state then is that of the recall it began. -/
def takeReq (s : State) (h a u code : Nat) (urgent : Bool) : State × Bool :=
  let t := if urgent then s.bump (nakReg h) HO_NAKCNT_URGENT 1 else s
  let key := ((s.missOf a u).map (fun m => m.key)).getD 0
  if s.homeOut h then (t.refuseGrant h a u, true)
  else if s.mustNak h a u code then (t.sendNak h a u, true)
  else if !s.admits a h u then
    (((if urgent then t.reserve a h u else none).getD (t.sendNak h a u)), true)
  else
    let y := t.makeRoom h u code
    if y.2 then
      (y.1.serve h { addr := u, req := code, who := some a, key := key, due := [], keep := [], data := [], mask := 0 }, true)
    else ((s.makeRoom h u code).1, false)

/-- The oldest urgent reservation of a line that is not BUSY is granted (R253); a non-caching agent comes for its own. -/
def serveReserved (s : State) (h u : Nat) : State :=
  match s.reserved h u with
  | none => s
  | some a =>
    if 128 ≤ a || s.busy h u then s
    else
      let t := s.modHome h (fun x => { x with urgent := x.urgent.erase (u, a) })
      match t.missOf a u with
      | none => t
      | some m =>
        if t.mustNak h a u m.req then t.sendNak h a u
        else
          let y := t.makeRoom h u m.req
          if y.2 then
            y.1.serve h { addr := u, req := m.req, who := some a, key := m.key, due := [], keep := [], data := [], mask := 0 }
          else (s.makeRoom h u m.req).1

/-- Every reserved line of a home that is not BUSY is granted. -/
def serveAll (s : State) (h : Nat) : State :=
  (((s.home h).urgent.map (fun e => e.1)).dedup).foldl (fun t u => t.serveReserved h u) s

/-- A transaction all of whose answers are in closes. -/
def closeIfDone (s : State) (h u : Nat) : State :=
  match (s.home h).txns.find? (fun t => t.addr == u) with
  | none => s
  | some x =>
    if x.due = [] then
      ((s.modHome h (fun y => { y with txns := y.txns.filter (fun t => t.addr != u) })).conclude h x).serveAll h
    else s

/-- An agent's answer reaches a transaction: dirty data is written to memory under its key before the home answers. -/
def answerTxn (s : State) (h a u code key : Nat) (data : List Byte) (poison : Bool) : State :=
  let t := if code = rsData then
      s.flushLine { addr := u, key := key, st := .m, data := data, poison := poison, l1 := false } else s
  (t.modHome h (fun y => { y with txns := y.txns.map (fun x =>
    if x.addr = u then { x with
      due := x.due.filter (fun e => e.1 != a)
      keep := if code = rsI then x.keep.filter (fun k => k != a) else x.keep } else x) })).closeIfDone h u

/-- An agent's answer to a sweep (R247). -/
def answerSweep (s : State) (h a : Nat) : State :=
  match (s.home h).sweep with
  | none => s
  | some (b, as) =>
    let rest := as.filter (fun x => x != a)
    if rest = [] then
      ((s.modHome h (fun x => { x with sweep := none, buckets := x.buckets.filter (fun k => k != b) })).startSweep h).serveAll h
    else s.modHome h (fun x => { x with sweep := some (b, rest) })

/-- Takes one message out of the network. -/
def takeMsg (s : State) (m : CMsg) : State := { s with net := s.net.erase m }

/-- An agent answers a snoop of one line (R248). A line whose way is WRITING is answered from the way (R231). -/
def snooped (s : State) (h a u code : Nat) : State :=
  let reply (t : State) (c key : Nat) (d : List Byte) (p : Bool) : State := { t with net := t.net ++ [.rsp h a u c key d p] }
  match s.lineOf a u with
  | none => reply s rsI 0 [] false
  | some l =>
    if code = snPeek then (if l.st = .m then reply s rsData l.key l.data l.poison else reply s rsS 0 [] false)
    else if code = snS then
      let t := s.putLine a { l with st := .s }
      if l.st = .m then reply t rsData l.key l.data l.poison else reply t rsS 0 [] false
    else
      let t := s.dropLine a u
      if l.st = .m then reply t rsData l.key l.data l.poison else reply t rsI 0 [] false

/-- An agent answers a sweep: it writes back and invalidates its lines of the bucket and home (R247). -/
def swept (s : State) (h a b : Nat) : State :=
  let ls := (s.agent a).lines.filter (fun l => decide (l.addr < remoteBase) && homeOf l.addr == h && bucketOf l.addr == b)
  let t := ls.foldl (fun t l => (if l.st = .m then t.flushLine l else t).forgetLine a l.addr) s
  { t with net := t.net ++ [.rsp h a b rsSwept 0 [] false] }

/-! ### A core's remote requests (R227, R297, R299) -/

/-- A load whose data never comes takes a free value (log entry 24). -/
def freeLoad (s : State) (c : Nat) : State :=
  { s with fresh := s.fresh + 1 }.modCore c (fun y => { y with loaded := BitVec.ofNat 64 (Config.freeNat s.fresh) })

/-- A core's request has failed: its load takes a free value, its line does not come and the stores that wait for it are
lost; its store is lost, and never acknowledged (R218; log entry 24). -/
def coreLost (s : State) (a index pa : Nat) : State :=
  if index = crSTORE then s.modCore a (fun x => { x with lostSt := x.lostSt + 1 })
  else if index = crFILL then
    let t := s.dropMiss a pa
    if 96 ≤ a then t
    else
      let t := t.modCore a (fun x => { x with
        buf := x.buf.filter (fun b => !(b.attr == .remoteCacheable && overlap b.addr b.data.length pa 64)) })
      if (s.missOf a pa).any (fun m => !m.loads.isEmpty) then t.freeLoad a else t
  else s.freeLoad a

/-- A core's L2 or a slice sends a request to another device, or loses it where no port is UP (R299). The spec names no
RMODE, RCTX and TENANT for it: they are free values (log entry 24). DESIGN CHOICE, safe. -/
def sendCore (s : State) (a kind pa len poison flag index : Nat) (data : List Byte) : State :=
  let dev := pa / 2 ^ 45
  match s.routeTo dev kind with
  | none => (s.linkFault coresPP dev 0).coreLost a index pa
  | some port =>
    let mode := 1 + Config.freeNat s.fresh % 2
    let rctx := if mode = 1 then Config.freeNat (s.fresh + 1) % 8192 else 0
    let hdr := s.reqHeader kind (if kind = tyWR4 then pa else pa / 64 * 64) len poison mode (Config.freeNat (s.fresh + 2) % 65536)
      rctx flag s.nextTag
    { s with
      fresh := s.fresh + 3
      nextTag := (s.nextTag + 1) % 65536
      outbox := s.outbox ++ [.packet port hdr data]
      remotes := s.remotes ++ [{ tag := s.nextTag, dev := dev, pp := coresPP, ref := ⟨a, index⟩, pa := pa, hdr := hdr,
                                 data := data, first := s.now, limit := s.fld a_FB_TIMEOUT FB_TIMEOUT_TIMEOUT_US * 1000,
                                 resendAt := none, code := 0 }] }

/-- A dirty line goes to its home, which for a T3 line is the remote device (R237); core c waits for the answer. A home in
reset discards it and the refusal is logged (R239, R240). -/
def writeHome (s : State) (c : Nat) (l : Line) : State :=
  if remoteBase ≤ l.addr then s.sendCore c tyWR l.addr 1 (b2n l.poison) 0 crSTORE l.data
  else if !s.homeOut (homeOf l.addr) then s.flushLine l
  else if c < 96 then s.faultCore c cPOISON l.addr 64
  else s

/-- An agent drops a line, written back when it is dirty (R246). -/
def giveUp (s : State) (a : Nat) (l : Line) : State := (if l.st = .m then s.writeHome a l else s).forgetLine a l.addr

/-- A line can leave its agent: its home exchanges messages with the Headstock. -/
def canLeave (s : State) (l : Line) : Bool := decide (remoteBase ≤ l.addr) || s.homeNear (homeOf l.addr)

/-- An agent asks another device for a line (R227). -/
def fillRemote (s : State) (a u key cls queue : Nat) (l1 : Bool) : State :=
  let x := s.openMiss a u rqRdX key cls queue l1
  if x.2 then x.1.sendCore a tyRD u 1 0 0 crFILL [] else x.1

/-! ### A core's lines (R225) -/

/-- Places a line in an L2 of 16 ways: a full set gives up a line that can leave; none while none can.
DESIGN CHOICE, safe (log entry 59): which one is free. -/
def fillL2 (s : State) (c : Nat) (l : Line) : Option State :=
  let set := (s.agent c).lines.filter (fun k => l2Set k.addr == l2Set l.addr && k.addr != l.addr)
  if set.length < 16 then some (s.putLine c l)
  else
    let vs := set.filter (fun k => s.canLeave k)
    match vs[Config.freeNat s.fresh % vs.length]? with
    | none => none
    | some v => some (({ s with fresh := s.fresh + 1 }.giveUp c v).putLine c l)

/-- A line of an L2 is in the L1D too; a full set of 8 ways gives up a line of the L1D, which stays in the L2.
DESIGN CHOICE, safe (log entry 59): which one is free. -/
def markL1 (s : State) (c u : Nat) : State :=
  let set := (s.agent c).lines.filter (fun k => k.l1 && l1Set k.addr == l1Set u && k.addr != u)
  let out : Option Line := if set.length < 8 then none else set[Config.freeNat s.fresh % set.length]?
  ({ s with fresh := s.fresh + b2n out.isSome } : State).modAgent c (fun x => { x with lines := x.lines.map (fun (k : Line) =>
    if k.addr = u then { k with l1 := true }
    else if out.any (fun o => o.addr == k.addr) then { k with l1 := false } else k) })

/-! ### Store buffers (R239, R262) -/

/-- Why a home refuses a core's store: the crash dump reserve and a key index without a key (SEC), a home in reset (POISON)
(R180, R181, R239). -/
def storeRefusal (s : State) (key a : Nat) : Option Nat :=
  if s.inReserve a || s.keyAt key == 0 then some cSEC
  else if s.homeOut (homeOf a) then some cPOISON
  else none

/-- A refused store: dropped, a fault of the refusing class, an asynchronous error exception (R239). -/
def refuseStore (s : State) (c cls a n : Nat) : State :=
  (s.faultCore c cls a n).modCore c (fun x => { x with asyncErr := x.asyncErr ++ [cls] })

/-- The line in E or M under the core's key takes the bytes (R244, R267). -/
def storeLine (s : State) (c : Nat) (l : Line) (a : Nat) (bs : List Byte) : State :=
  (s.strike a bs.length).putLine c { l with
    st := .m, data := layOver l.data l.addr a bs, poison := l.poison && bs.length != 64 }

/-- Nothing of the coherence protocol is under way for a line, and no load of the core waits for it. -/
def quietLine (s : State) (c u : Nat) : Bool :=
  !s.busy (homeOf u) u && (s.missOf c u).all (fun m => m.loads.isEmpty) && s.calm u

/-- The core's L2 gets a line exclusively in one step: an RD_X or UPG with its snoops, answers and grant (R249); none while no
directory way or way of the L2 is free for it. DEDUCED, unsafe (log entry 25). -/
def takeExclusive (s : State) (c u key : Nat) : Option State :=
  let t := (s.pullBack u).dropCopies u
  let t := ({ t with
    net := t.net.filter (fun m => match m with
      | CMsg.req _ a b _ _ => !(a == c && b == u)
      | CMsg.nak _ a b => !(a == c && b == u)
      | _ => true) }.dropMiss c u).mended u
  ((t.takeWay (homeOf u) u).bind (fun t =>
    let d := t.memFor key u
    (t.dirPut (homeOf u) u (.owned c)).fillL2 c
      { addr := u, key := key, st := .e, data := d.1, poison := d.2, l1 := false })).map (fun t => t.markL1 c u)

/-- The core's line in E or M under a key index. -/
def ownedLine (s : State) (c u key : Nat) : Option Line :=
  (s.lineOf c u).filter (fun l => l.key == key && l.st != LineState.s)

/-- A home admits a core to a line, and nothing is under way for it. -/
def lineFree (s : State) (c who u : Nat) : Bool :=
  s.homeNear (homeOf u) && s.quietLine c u && s.admits who (homeOf u) u

/-- One piece of a buffered store is globally performed, or refused; none while its line is not free (R239, R251). -/
def performPiece (s : State) (c : Nat) (b : BufStore) (a : Nat) (bs : List Byte) : Option State :=
  let u := a / 64 * 64
  match (if b.attr = .normalNc || b.attr = .device then none else s.ownedLine c u b.key) with
  | some l => some (s.storeLine c l a bs)
  | none =>
    if remoteBase ≤ u then none
    else match s.storeRefusal b.key a with
    | some cls => some (s.refuseStore c cls a bs.length)
    | none =>
      if b.attr = .normalWb then
        if s.lineFree c c u then
          (s.takeExclusive c u b.key).bind (fun t => (t.lineOf c u).map (fun l => t.storeLine c l a bs))
        else none
      else if s.lineFree c (naCore c) u then some (s.writeMem b.key a bs false)
      else none

/-- One buffered store is globally performed, or refused. Pieces are split at 8 bytes (R266). -/
def performStore (s : State) (c : Nat) (b : BufStore) : Option State :=
  (splitAt_ 8 b.addr b.data).foldl (fun acc p => acc.bind (fun t => t.performPiece c b p.1 p.2)) (some s)

/-- Every buffered store of a core is globally performed, oldest first; none while one cannot be. -/
def drainStores (s : State) (c : Nat) : Option State :=
  ((s.core c).buf.foldl (fun acc b => acc.bind (fun t => t.performStore c b)) (some s)).map
    (fun t => t.modCore c (fun x => { x with buf := [] }))

/-- Writes back and invalidates every line of an agent (R235, R240); a dirty line whose home is in reset is discarded. -/
def emptyAgent (s : State) (a : Nat) : State :=
  ((s.agent a).lines.foldl (fun t l => t.giveUp a l) s).setAgent a Agent.init

/-- Nothing of the coherence protocol is under way for an agent, and its lines can leave (R235, R240). -/
def agentQuiet (s : State) (a : Nat) : Bool :=
  (s.agent a).misses.isEmpty && (s.agent a).lines.all (fun l => s.canLeave l)
    && s.net.all (fun m => match m with
      | .req _ b _ _ _ => b != a
      | .snoop _ b _ _ => b != a
      | .rsp _ b _ _ _ _ _ => b != a
      | .grant _ b _ _ _ _ => b != a
      | .nak _ b _ => b != a)
    && (decide (a < 96) || (s.slice (a - 96)).waits.isEmpty)

/-! ### Loads -/

/-- The line a slice gives a core on a hit: the slice is on, the line has the core's key index and is not WRITING, and no request
of the core waits in its queue there (R230, R231, R233, R389). -/
def sliceHit (s : State) (c key u : Nat) : Option Line :=
  if s.sliceOn u && !s.writing u && !s.queued c (sliceOf u) then
    (s.lineOf (96 + sliceOf u) u).filter (fun l => l.key == key)
  else none

/-- The bytes of an address as a core's older buffered stores, its L2 and the slice give them; none where the line is missing.
DEDUCED, unsafe (log entry 58): a hit in the slice leaves no copy in the L2. -/
def loadByte (s : State) (c key a : Nat) : Option (Byte × Bool) :=
  match ((s.core c).buf.reverse.find? (fun b => within a 1 b.addr b.data.length)) with
  | some b => some (b.data.getD (a - b.addr) 0, false)
  | none =>
    (((s.lineOf c (a / 64 * 64)).filter (fun l => l.key == key)).or (s.sliceHit c key (a / 64 * 64))).map
      (fun l => (l.data.getD (a % 64) 0, l.poison))

/-- A load's value reaches the core; a poisoned one is a data error exception (R244). -/
def loadDone (s : State) (c a : Nat) (bs : List (Byte × Bool)) : State :=
  if bs.any (fun b => b.2) then s.modCore c (fun x => { x with exc := excData, excAddr := a })
  else s.modCore c (fun x => { x with loaded := BitVec.ofNat 64 (ofLeBytes (bs.map (fun b => b.1))) })

/-- The bytes of a load if all of them are at hand. -/
def loadBytes (s : State) (c key a n : Nat) : Option (List (Byte × Bool)) :=
  (List.range n).foldr (fun i acc => match acc, s.loadByte c key (a + i) with
    | some bs, some b => some (b :: bs)
    | _, _ => none) (some [])

/-- The lines of a load are used: those of the L2 lie in the L1D, those of slices become their most recently used ones. -/
def usedLines (s : State) (c key a n : Nat) : State :=
  (unitsOf a n).foldl (fun t u =>
    match (t.lineOf c u).filter (fun l => l.key == key) with
    | some l => if l.l1 then t else t.markL1 c u
    | none => if (t.sliceHit c key u).isSome then t.usedLine (sliceOf u) u else t) s

/-- A core's cacheable access misses a line: its L2 asks the home, and so does the slice the request passes when it may
allocate and lacks the line (R230, R233). A line of the L2 under another key goes first (R389). An RD_X or UPG leaves no copy in
a slice, since its line is the only one (R244). -/
def missLine (s : State) (c u code key : Nat) (l1 : Bool) : State :=
  let t := match (s.lineOf c u).filter (fun l => l.key != key && s.canLeave l) with
    | some l => s.giveUp c l
    | none => s
  if remoteBase ≤ u then t.fillRemote c u key (s.quadOf c) c l1
  else
    let t := t.sendReq c u code key (s.quadOf c) c l1
    if code = rqRdS && (t.missOf c u).any (fun m => !m.held) && t.mayAllocate (s.quadOf c) u && (t.lineOf (96 + sliceOf u) u).isNone then
      t.sendReq (96 + sliceOf u) u rqRdS key (s.quadOf c) c false
    else t

/-- A cacheable load of a core: done when its bytes are at hand, else it waits for its first missing line. -/
def loadOrMiss (s : State) (c key a n : Nat) : State :=
  match s.loadBytes c key a n with
  | some bs => (s.usedLines c key a n).loadDone c a bs
  | none =>
    match (List.range n).find? (fun i => (s.loadByte c key (a + i)).isNone) with
    | none => s
    | some i =>
      let u := (a + i) / 64 * 64
      let t := s.missLine c u rqRdS key true
      if (t.missOf c u).isNone then t.freeLoad c else t.modMiss c u (fun m => { m with loads := m.loads ++ [(a, n)] })

/-! ### Grants -/

/-- The buffered stores of a core to a line it holds in E or M are performed, oldest first. -/
def drainLine (s : State) (c u : Nat) : State :=
  match (s.lineOf c u).filter (fun l => l.st != .s) with
  | none => s
  | some l =>
    let mine := (s.core c).buf.filter (fun b => (b.attr == .normalWb || b.attr == .remoteCacheable) && b.key == l.key && within b.addr b.data.length u 64)
    let t := mine.foldl (fun t b => match t.lineOf c u with | some l => t.storeLine c l b.addr b.data | none => t) s
    t.modCore c (fun x => { x with buf := x.buf.filter (fun b => !mine.contains b) })

/-- A core asks for a line in E for a buffered store, or stores at once where it holds it so (R244, R249). -/
def wantLine (s : State) (c : Nat) (b : BufStore) : State :=
  let u := b.addr / 64 * 64
  match (s.lineOf c u).filter (fun l => l.key == b.key) with
  | some l => if l.st = .s then s.sendReq c u rqUpg b.key (s.quadOf c) c true else s.drainLine c u
  | none =>
    if remoteBase ≤ u || (s.storeRefusal b.key b.addr).isNone then s.missLine c u rqRdX b.key true else s

/-- The cacheable stores that wait in a core's buffer for a line. -/
def wantStores (s : State) (c u : Nat) : State :=
  ((s.core c).buf.filter (fun b => (b.attr == .normalWb || b.attr == .remoteCacheable) && b.addr / 64 * 64 == u)).foldl
    (fun t b => if (t.core c).buf.contains b then t.wantLine c b else t) s

/-- A request that waited in its queue is looked up again (R230): its line is asked for where a store or a hint wants it and it is
not there, and its loads are tried. -/
def lookUp (s : State) (c : Nat) (m : Miss) : State :=
  let code := if m.req = rqUpg && (s.lineOf c m.addr).isNone then rqRdX else m.req
  let there := if code = rqRdS then ((s.lineOf c m.addr).filter (fun l => l.key == m.key)).isSome
    else (s.ownedLine c m.addr m.key).isSome
  let t := if there || (code == rqRdS && !m.loads.isEmpty) then s else s.missLine c m.addr code m.key m.l1
  m.loads.foldl (fun t x => t.loadOrMiss c m.key x.1 x.2) t

/-- A core's queue at a slice moves on once its miss there is over (R230). -/
def release (s : State) (c g : Nat) : State :=
  if s.missing c g then s
  else
    let ms := (s.agent c).misses.filter (fun m => m.held && sliceOf m.addr == g)
    ms.foldl (fun t m => t.lookUp c m)
      (s.modAgent c (fun x => { x with misses := x.misses.filter (fun m => !(m.held && sliceOf m.addr == g)) }))

/-- A line reaches a core's L2: it fills, the loads that wait for it are done, buffered stores drain or ask for more. -/
def l2Granted (s : State) (c : Nat) (m : Miss) (l : Line) : Option State :=
  (s.fillL2 c l).map (fun t =>
    let t := if m.l1 || !m.loads.isEmpty then t.markL1 c l.addr else t
    (m.loads.foldl (fun t x => t.loadOrMiss c m.key x.1 x.2) (t.drainLine c l.addr)).wantStores c l.addr)

/-- A grant reaches a requester: its line fills, its waiting loads are tried again, its buffered stores drain, its queue moves on
(R230, R248). Data that another agent's write has overtaken serves the loads and leaves no line. None while the line has no
place. -/
def granted (s : State) (a u code : Nat) (data : List Byte) (poison : Bool) : Option State :=
  match s.missOf a u with
  | none => some (s.dirLeave (homeOf u) a u)
  | some m =>
    let s := s.dropMiss a u
    let line (st : LineState) (d : List Byte) (p : Bool) : Line :=
      { addr := u, key := m.key, st := st, data := d, poison := p, l1 := false }
    let t : Option State :=
      if code = grOnce then
        if 96 ≤ a then some s
        else if data = [] then some ((m.loads.foldl (fun t x => t.loadOrMiss a m.key x.1 x.2) s).wantStores a u)
        else some (((m.loads.foldl (fun t x => t.loadOrMiss a m.key x.1 x.2) (s.putLine a (line .s data poison))).dropLine a u).wantStores a u)
      else if code ≠ grCmp && data = [] then
        some (m.loads.foldl (fun t l => t.modCore a (fun x => { x with exc := excData, excAddr := l.1 })) s)
      else if 96 ≤ a then s.sliceFill (a - 96) m.cls (line (if code = grE then .e else .s) data poison)
      else if code = grCmp then
        match s.lineOf a u with
        | some l => s.l2Granted a m { l with st := .e }
        | none => some ((s.dirLeave (homeOf u) a u).wantStores a u)
      else s.l2Granted a m (line (if code = grE then .e else .s) data poison)
    t.map (fun t => if m.queue < 96 then t.release m.queue (sliceOf u) else t)

/-! ### Barriers (R218, R238, R263) -/

/-- Every earlier load of a core has returned. -/
def loadsDone (s : State) (c : Nat) : Bool :=
  (s.agent c).misses.all (fun m => m.loads.isEmpty)
    && s.remotes.all (fun x => !(x.pp == coresPP && x.ref.slot == c && decide (x.ref.index ≤ 8)))

/-- Every T3 write of a core is acknowledged (R218). -/
def storesAcked (s : State) (c : Nat) : Bool :=
  (s.core c).lostSt == 0 && s.remotes.all (fun x => !(x.pp == coresPP && x.ref.slot == c && x.ref.index == crSTORE))

/-- The barriers a core has issued complete, if they can; none while they cannot. ORD.DEV brings the new key index into
use (R390). DESIGN CHOICE, unsafe (log entry 26). -/
def passBarrier (s : State) (c : Nat) : Option State :=
  let x := s.core c
  if x.waitLd && !s.loadsDone c then none
  else
    (if x.waitSt then (s.drainStores c).filter (fun t => t.storesAcked c) else some s).map (fun t =>
      t.modCore c (fun y => { y with
        waitLd := false, waitSt := false, waitDev := false
        key := if x.waitDev then t.fld (a_HS_COREKEY c) HS_COREKEY_KEYIDX else y.key }))

/-- The barriers that can complete now do so: a message has changed what their cores wait for. -/
def retryBarriers (s : State) : State :=
  (s.cores.filter (fun e => e.2.waitLd || e.2.waitSt || e.2.waitDev)).foldl (fun t e => (t.passBarrier e.1).getD t) s

/-! ### Dead agents (R258–R261) -/

/-- A quad's reset completes: its caches are invalid, its cores start over, HO_DEAD is cleared for them, a cell on it ends
and the quad is off (R260, R329, R392). -/
def endCell (s : State) (q : Nat) : State :=
  let t := (s.coresOf q).foldl (fun t c => t.wr (a_HS_COREKEY c) (regReset (a_HS_COREKEY c))) s
  { t.setKey (6152 + q) 0 with
    measures := Sparse.put (fun _ => zeroDigest) t.measures (16 + q) zeroDigest
    mg := { t.mg with cells := t.mg.cells.filter (fun x => x.1 != q) } }

def hasCell (s : State) (q : Nat) : Bool := s.mg.cells.any (fun x => x.1 == q)

def quadReset (s : State) (q : Nat) : State :=
  let t := (s.coresOf q).foldl (fun t c =>
    ({ (((t.setAgent c Agent.init).setCore c CoreSt.init).setDead c false) with
      net := t.net.filter (fun m => match m with
        | .req _ a _ _ _ => a != c
        | .snoop _ a _ _ => a != c
        | .rsp _ a _ _ _ _ _ => a != c
        | .grant _ a _ _ _ _ => a != c
        | .nak _ a _ => a != c)
      remotes := t.remotes.filter (fun x => !(x.pp == coresPP && x.ref.slot == c))
      asks := t.asks.filter (fun x => x.who != naCore c) } : State)) s
  if t.hasCell q then
    ((t.endCell q).setDom (domQuad q) Dom.init).setFld (a_PW_DOMSTAT (domQuad q)) PW_DOMSTAT_ON 0
      |>.setFld (a_PW_DOMCTL (domQuad q)) PW_DOMCTL_ON 0 |>.setFld (a_PW_DOMSTAT (domQuad q)) PW_DOMSTAT_DAMPED 0
  else t.setDom (domQuad q) { t.dom (domQuad q) with halved := false, lowered := 0 }

/-- The agents lost with an agent: a quad's four L2s, or one slice (R260, R261). -/
def lostWith (s : State) (a : Nat) : List Nat := if a < 96 then s.coresOf (s.quadOf a) else [a]

/-- A snoop has gone unanswered for 2 ms: the agent is dead in every home (R258). -/
def declareDead (s : State) (a : Nat) : State :=
  let as := s.lostWith a
  let r := { s.record cPROTO with fatal := true, die := 6, unit := if a < 96 then 128 + s.quadOf a else 255 }
  let t := as.foldl (fun t x => t.setDead x true) (s.fault .device r)
  (List.range 36).foldl (fun t h => t.modHome h (fun x => { x with reclaim := (x.reclaim ++ as).dedup })) t

/-- Maximal runs of consecutive lines, at most 2 MiB each (R259). -/
def lineRuns : List Nat → List (Nat × Nat)
  | [] => []
  | u :: us =>
    match lineRuns us with
    | (v, n) :: rest => if v = u + 64 ∧ n < 32768 then (u, n + 1) :: rest else (u, 1) :: (v, n) :: rest
    | [] => [(u, 1)]

/-- A home reclaims a dead agent: open snoops are answered, its requests and reservations go, its entries leave the
directory, the lines it owned are poisoned in memory and reported by runs (R259). When every home is done, its quad is
reset (R329). -/
def reclaimed (s : State) (h a : Nat) : State :=
  let owned := (s.home h).dir.filterMap (fun e => match e.2 with | .owned o => if o = a then some e.1 else none | _ => none)
  let waits := ((s.home h).txns.filter (fun t => t.due.any (fun d => d.1 == a))).map (fun t => t.addr)
  let t := s.modHome h (fun x => { x with
    urgent := x.urgent.filter (fun e => e.2 != a)
    reclaim := x.reclaim.filter (fun k => k != a)
    txns := x.txns.map (fun t => { t with who := t.who.filter (fun k => k != a), keep := t.keep.filter (fun k => k != a) })
    dir := x.dir.filterMap (fun e => match e.2 with
      | .owned o => if o = a then none else some e
      | .shared as => some (e.1, .shared (as.filter (fun k => k != a)))) })
  let t := { t with net := t.net.filter (fun m => match m with
    | .req k b _ _ _ => !(k == h && b == a)
    | .snoop k b _ _ => !(k == h && b == a)
    | _ => true) }
  let t := t.modAgent a (fun x => { x with
    lines := x.lines.filter (fun l => homeOf l.addr != h)
    misses := x.misses.filter (fun m => homeOf m.addr != h) })
  let t := owned.foldl (fun t u => { t with units := Sparse.put (fun _ => ⟨0, false⟩) t.units u { t.unitMeta u with poison := true } }) t
  let t := waits.foldl (fun t u => t.answerTxn h a u rsI 0 [] false) t
  let t := t.answerSweep h a
  let t := (lineRuns (sortBy (fun u => u) owned)).foldl (fun t r =>
    t.faultHome h { t.record cPOISON with addr := r.1, length := 64 * r.2 }) t
  let t := t.serveAll h
  let q := t.quadOf a
  if a < 96 && (List.range 36).all (fun k => (t.coresOf q).all (fun c => !(t.home k).reclaim.contains c)) then t.quadReset q else t

end State

open State

/-- A request message reaches its home; it waits while the home holds it or no COHERENT bundle carries it. -/
def requestArrives (home agent line code : Nat) (s : State) : State :=
  match [false, true].find? (fun g => s.net.contains (.req home agent line code g)) with
  | none => s
  | some g =>
    if !s.homeNear home then s
    else
      let x := s.takeReq home agent line code g
      if x.2 then x.1.takeMsg (.req home agent line code g) else x.1

/-- RD_S (R249). -/
def execRdS (home : Fin 36) (agent : Fin 128) (line : BitVec 45) (s : State) : Out' :=
  .next (requestArrives home agent line.toNat rqRdS s)

/-- RD_X (R249). -/
def execRdX (home : Fin 36) (agent : Fin 128) (line : BitVec 45) (s : State) : Out' :=
  .next (requestArrives home agent line.toNat rqRdX s)

/-- UPG (R249). -/
def execUpg (home : Fin 36) (agent : Fin 128) (line : BitVec 45) (s : State) : Out' :=
  .next (requestArrives home agent line.toNat rqUpg s)

/-- PUT_C: an agent drops a clean line and leaves its entry (R246); it does not wait for an open transaction of the line. -/
def execPutC (home : Fin 36) (agent : Fin 128) (line : BitVec 45) (s : State) : Out' :=
  let u := line.toNat
  .next (
    if homeOf u ≠ home || !s.homeNear home then s
    else match s.lineOf agent u with
      | some l => if l.st = .m then s else s.forgetLine agent u
      | none => s)

/-- PUT_M: an agent drops a dirty line, its home writes it to memory (R246); a home in reset discards it (R261). -/
def execPutM (home : Fin 36) (agent : Fin 128) (line : BitVec 45) (s : State) : Out' :=
  let u := line.toNat
  .next (
    if homeOf u ≠ home || !s.homeNear home then s
    else match s.lineOf agent u with
      | some l => if l.st = .m then (if s.homeOut home then s else s.flushLine l).forgetLine agent u else s
      | none => s)

/-- A request of an agent that caches nothing reaches its home, which admits it or refuses it (R252–R254, R259). -/
def naArrives (home : Fin 36) (u : Nat) (f : State → State) (s : State) : Out' :=
  .next (
    if homeOf u ≠ home || s.homeHeld home then s
    else
      let x := s.ask naAny u
      if x.2 then f x.1 else x.1)

/-- RD_NA: a snooping read of one line under a key index; its data goes to the reader (R249, R180). The crash dump reserve reads
0 (R181); a home in reset answers with poison (R261). -/
def execRdNa (home : Fin 36) (line : BitVec 45) (key : BitVec 13) (s : State) : Out' :=
  let u := line.toNat / 64 * 64
  if homeOf u = home.val ∧ s.homeOut home then .next { s with naRead := ([], true) }
  else naArrives home u (fun s =>
    let t := if s.keyAt key.toNat = 0 || s.inReserve u then s.reportSec u 64 else s
    if s.inReserve u then { t with naRead := (List.replicate 64 0, false) }
    else t.serve home { addr := u, req := rqRdNa, who := none, key := key.toNat, due := [], keep := [], data := [], mask := 0 }) s

/-- WR_INV: an invalidating write of one line; mask names its bytes (R249, R180). It is discarded without a key, in the crash
dump reserve, and by a home in reset (R181, R261). -/
def execWrInv (home : Fin 36) (line : BitVec 45) (key : BitVec 13) (data : List Byte) (mask : BitVec 64) (s : State) : Out' :=
  let u := line.toNat / 64 * 64
  if homeOf u = home.val ∧ s.homeOut home then .next s
  else naArrives home u (fun s =>
    if s.keyAt key.toNat = 0 || s.inReserve u then s.reportSec u 64
    else
      let y := s.makeRoom home u rqWrInv
      if y.2 then
        y.1.serve home { addr := u, req := rqWrInv, who := none, key := key.toNat, due := [], keep := [], data := data, mask := mask.toNat }
      else y.1) s

/-- A snoop message reaches its agent. It stays behind a grant of the same home to the agent for the line or the bucket (R251). -/
def snoopArrives (home agent line code : Nat) (s : State) : State :=
  let behind := s.net.any (fun m => match m with
    | .grant h a u _ _ _ => h == home && a == agent && (if code = snSweep then bucketOf u == line else u == line)
    | _ => false)
  if s.net.contains (.snoop home agent line code) && !behind && !s.isDead agent && s.alive (s.agentDom agent)
      && s.linked roleCOH 6 (homeDie home) then
    let t := s.takeMsg (.snoop home agent line code)
    if code = snSweep then t.swept home agent line else t.snooped home agent line code
  else s

/-- SNP_S (R248). -/
def execSnpS (home : Fin 36) (agent : Fin 128) (line : BitVec 45) (s : State) : Out' :=
  .next (snoopArrives home agent line.toNat snS s)

/-- SNP_I (R248). -/
def execSnpI (home : Fin 36) (agent : Fin 128) (line : BitVec 45) (s : State) : Out' :=
  .next (snoopArrives home agent line.toNat snI s)

/-- SNP_PEEK (R248). -/
def execSnpPeek (home : Fin 36) (agent : Fin 128) (line : BitVec 45) (s : State) : Out' :=
  .next (snoopArrives home agent line.toNat snPeek s)

/-- SNP_BI of a line, or of a bucket under sweep (R247, R248, R250). -/
def execSnpBi (home : Fin 36) (agent : Fin 128) (target : BitVec 45) (sweep : Bool) (s : State) : Out' :=
  .next (snoopArrives home agent target.toNat (if sweep then snSweep else snBi) s)

/-- SNOOP_RESPONSE: an answer reaches the home; a dead agent's late answer is discarded (R250, R260). -/
def execSnoopResponse (home : Fin 36) (agent : Fin 128) (line : BitVec 45) (s : State) : Out' :=
  .next (match s.net.find? (fun m => match m with | .rsp h a u _ _ _ _ => h == home.val && a == agent.val && u == line.toNat | _ => false) with
    | some (.rsp h a u code key data poison) =>
      let t := s.takeMsg (.rsp h a u code key data poison)
      if !s.homeNear home then s
      else if s.isDead agent then t
      else (if code = rsSwept then t.answerSweep home agent
        else t.answerTxn home agent u code key data poison).retryBarriers
    | _ => s)

/-- HOME_GRANT: DATA_S, DATA_E or CMP reaches its requester (R248). -/
def execHomeGrant (home : Fin 36) (agent : Fin 128) (line : BitVec 45) (s : State) : Out' :=
  .next (match s.net.find? (fun m => match m with | .grant h a u _ _ _ => h == home.val && a == agent.val && u == line.toNat | _ => false) with
    | some (.grant h a u code data poison) =>
      if !s.alive (s.agentDom agent) || !s.linked roleCOH 6 (homeDie home) then s
      else (((s.takeMsg (.grant h a u code data poison)).granted a u code data poison).map (fun t => t.retryBarriers)).getD s
    | _ => s)

/-- HOME_NAK: the requester counts it and waits; after the 8th it is URGENT (R252). -/
def execHomeNak (home : Fin 36) (agent : Fin 128) (line : BitVec 45) (s : State) : Out' :=
  let m : CMsg := .nak home agent line.toNat
  .next (
    if s.net.contains m && s.linked roleCOH 6 (homeDie home) then
      (s.takeMsg m).modMiss agent line.toNat (fun x => { x with
        naks := x.naks + 1, waiting := true, urgent := decide (8 ≤ x.naks + 1) })
    else s)

/-- NAK_RETRY: the backoff ends and the request is sent again; an UPG whose line is gone or owned elsewhere is sent as RD_X
(R249, R252). DESIGN CHOICE, safe (log entry 47): the backoff is not timed. -/
def execNakRetry (agent : Fin 128) (line : BitVec 45) (s : State) : Out' :=
  let u := line.toNat
  .next (match s.missOf agent u with
    | none => s
    | some m =>
      if !m.waiting || !s.alive (s.agentDom agent) then s
      else
        let t := match (s.lineOf agent u).filter (fun l => l.key != m.key && s.canLeave l) with
          | some l => s.giveUp agent l
          | none => s
        let code := if m.req = rqUpg && (t.lineOf agent u).isNone then rqRdX else m.req
        let t := t.modMiss agent u (fun x => { x with waiting := false, req := code })
        { t with net := t.net ++ [.req (homeOf u) agent u code m.urgent] })

/-- WRITEBACK_ACCEPTED: a slice's victim reaches its home, the waiting fill takes the way, and requests that waited for the line are
looked up again (R231). -/
def execWritebackAccepted (slice : Fin 32) (line : BitVec 45) (s : State) : Out' :=
  .next (match (s.slice slice).waits.find? (fun w => w.addr == line.toNat) with
    | none => s
    | some w =>
      match s.lineOf (96 + slice) w.addr with
      | some l =>
        if !s.canLeave l then s
        else
          let t := s.giveUp (96 + slice) l
          let x := t.slice slice
          let t := (t.setSlice slice { x with waits := x.waits.erase w, lru := x.lru ++ [(w.way, w.fill.addr)] }).putLine (96 + slice) w.fill
          (List.range 96).foldl (fun t c => if t.queued c slice then t.release c slice else t) t
      | none =>
        let x := s.slice slice
        (s.setSlice slice { x with waits := x.waits.erase w, lru := x.lru ++ [(w.way, w.fill.addr)] }).putLine (96 + slice) w.fill)

/-- SNOOP_TIMEOUT: a snoop of a transaction, or of a sweep, has been unanswered for 2 ms (R44, R258). -/
def execSnoopTimeout (home : Fin 36) (agent : Fin 128) (line : BitVec 45) (s : State) : Out' :=
  let x := s.home home
  .next (
    if (x.txns.any (fun t => t.addr == line.toNat && t.due.any (fun d => d.1 == agent.val && decide (d.2 + 2000000 ≤ s.now)))
        || (x.sweep.any (fun w => w.1 == line.toNat && w.2.contains agent.val) && decide (x.sweepAt + 2000000 ≤ s.now)))
      && !s.isDead agent && !s.homeOut home
    then s.declareDead agent else s)

/-- DEAD_AGENT_RECLAIMED (R259). -/
def execDeadAgentReclaimed (home : Fin 36) (agent : Fin 128) (s : State) : Out' :=
  .next (if (s.home home).reclaim.contains agent.val then s.reclaimed home agent else s)

/-- STORE_REFUSED: a home refuses the oldest buffered store of a core to a line (R239). -/
def execStoreRefused (c : Fin 96) (line : BitVec 45) (s : State) : Out' :=
  let u := line.toNat / 64 * 64
  .next (match (s.core c).buf.find? (fun b => overlap b.addr b.data.length u 64) with
    | none => s
    | some b =>
      match s.storeRefusal b.key b.addr with
      | none => s
      | some cls =>
        (s.modCore c (fun x => { x with buf := x.buf.erase b })).refuseStore c cls b.addr b.data.length)

/-- SC_COMMIT: all 32 masks in one step (R233). -/
def execScCommit (who : Requester) (s : State) : Out' :=
  .next (s.gated who a_SC_COMMIT (fun s => s.commit ((List.range 32).map a_SC_WAYMASK)))

/-- A write of HS_IRQROUTE (R241). -/
def irqRoute (n : Nat) (v : Word) (s : State) : State :=
  if 96 ≤ HS_IRQROUTE_CORE.get v then s.faultDev cPROTO 6 255
  else
    let w := HS_IRQROUTE_ENABLE.set (HS_IRQROUTE_CORE.set 0 (HS_IRQROUTE_CORE.get v)) (HS_IRQROUTE_ENABLE.get v)
    (s.wr (a_HS_IRQROUTE n) w).signalIrq n

/-- HS_IRQROUTE_WRITE (R241). -/
def execHsIrqrouteWrite (who : Requester) (n : Fin 1024) (value : Word) (s : State) : Out' :=
  .next (s.gated who (a_HS_IRQROUTE n) (irqRoute n value))

/-- The key indices a core may select (R390). -/
def coreKeyOk (s : State) (c k : Nat) : Bool :=
  let r := s.rd (a_HS_COREKEY c)
  let ctxOk := s.ctxidOk k && decide (k < 6144) && s.keyAt k != 0
  k == State.keySYS || k == State.keyOPERATOR ||
    (if HS_COREKEY_CELL.get r = 1 then
       k == 6152 + s.quadOf c || (ctxOk && s.tenantOf k == HS_COREKEY_CELL_TENANT.get r)
     else ctxOk && !s.mg.sealed.contains k)

/-- HS_COREKEY_WRITE: only core c writes its own (R390). -/
def execHsCorekeyWrite (who : Requester) (c : Fin 96) (value : Word) (s : State) : Out' :=
  let k := HS_COREKEY_KEYIDX.get value
  .next (s.gated who (a_HS_COREKEY c) (fun s =>
    if who = .core c && coreKeyOk s c k then s.setFld (a_HS_COREKEY c) HS_COREKEY_KEYIDX k
    else s.faultDev cSEC 6 (128 + s.quadOf c)))

end Sys2Proof.Machine
end

