-- ==== Sys2Proof/Machine/Host.lean ====
section
/-! DEFINITION. The host link and its data windows (R271–R285, R406): queue commits, doorbells held until their bytes are
accepted, ingress and egress windows, MSI-X, link loss and function level resets. -/

namespace Sys2Proof.Machine

/-- A function's number: PF0 0, VF v 1 + v (R273). -/
def fnNum : HostFn → Nat
  | .pf => 0
  | .vf n => 1 + n.val

namespace State

/-- The registers one HI_QCOMMIT applies. -/
def queueGroup (q : Nat) : List Nat := [a_HI_QCFG q, a_HI_QDATA q, a_HI_QEGR q]

/-- A field of a queue's live configuration. -/
def qf (s : State) (q : Nat) (f : Fld) : Nat := s.fld (a_HI_QCFG q) f
def qEnabled (s : State) (q : Nat) : Bool := s.qf q HI_QCFG_ENABLE == 1

/-- A record of the host window. -/
def faultHost (s : State) (cls : Nat) : State := s.faultDev cls 7 208

/-- The staged configuration of a queue passes the checks of R285. -/
def queueOk (s : State) (q : Nat) : Bool :=
  let new (f : Fld) : Nat := s.stagedFld (a_HI_QCFG q) f
  let data := s.stagedFld (a_HI_QDATA q) HI_QDATA_BASE * 65536
  let egr := s.stagedFld (a_HI_QEGR q) HI_QEGR_BASE * 65536
  let id := new HI_QCFG_CTXID
  let base (a n : Nat) : Bool := a % n == 0 && s.memRange a n && s.clearOfReserve a n
  (new HI_QCFG_FUNC == 0 || (new HI_QCFG_FUNC == 1 + q / 4 && decide (q / 4 < s.fld a_MG_LICENCE MG_LICENCE_VFS)))
    && s.ctxidOk id && s.cfg id PT_CTXCFG_HOST_OWNED == 1
    && (List.range 256).all (fun k => k == q || !s.qEnabled k || s.qf k HI_QCFG_CTXID != id)
    && decide (16 ≤ new HI_QCFG_LOG2DATA) && decide (new HI_QCFG_LOG2DATA ≤ 28)
    && decide (16 ≤ new HI_QCFG_LOG2EGR) && decide (new HI_QCFG_LOG2EGR ≤ 27)
    && base data (2 ^ new HI_QCFG_LOG2DATA) && base egr (2 ^ new HI_QCFG_LOG2EGR)
    && (!s.qEnabled q || (HI_QCFG_ENABLE.set (s.stagedRd (a_HI_QCFG q)) 0 == HI_QCFG_ENABLE.set (s.rd (a_HI_QCFG q)) 0
        && s.stagedRd (a_HI_QDATA q) == s.rd (a_HI_QDATA q) && s.stagedRd (a_HI_QEGR q) == s.rd (a_HI_QEGR q)))

/-- A queue's counters start at 0 and nothing is held or under way (R274, R284). -/
def clearQueue (s : State) (q : Nat) : State :=
  ([a_HI_QSTAT q, a_HI_QACC q, a_HI_QEGPROD q, a_HI_QEGCONS q].foldl (fun t a => t.wr a 0) s).setQueue q HostQueue.init

/-- HI_QCOMMIT.GO (R284, R285): a refused commit changes nothing. A context that a recovery found DETACHED returns to ACTIVE after
it. -/
def queueCommit (s : State) (q : Nat) : State :=
  if s.queueOk q then
    let was := s.qEnabled q
    let t := s.commit (queueGroup q)
    let id := t.qf q HI_QCFG_CTXID
    if t.qEnabled q && !was then
      let t := t.clearQueue q
      let t := t.setQueue q { HostQueue.init with tenant := t.tenantOf id }
      if t.cstate id = 3 then t.setCstate id 1
      else if t.cstate id = 4 && (t.ctx id).before == 3 then t.modCtx id (fun c => { c with before := 1 })
      else t
    else if was && !t.qEnabled q then t.setQueue q HostQueue.init
    else t
  else s.faultHost cCONFIG

def queueResume (s : State) (q : Nat) : State := s.setFld (a_HI_QSTAT q) HI_QSTAT_STALLED 0

/-- The host reaches the device: link up, domain in service, and inside the IDE stream where that is required (R282). -/
def hostReach (s : State) (inStream : Bool) : Bool :=
  s.hostLink.up && s.alive 121 &&
    (s.fld a_HI_LINK HI_LINK_IDE_REQUIRED == 0 || (inStream && s.fld a_HI_LINK HI_LINK_IDE_ACTIVE == 1))

/-- Host queues serve traffic at L2, at L1 for joined partitions (R367). -/
def queueServes (s : State) (q : Nat) : Bool :=
  let l := s.fld a_MG_BOOTSTAT MG_BOOTSTAT_LEVEL
  s.qEnabled q && (l == 2 || (l == 1 && (s.part (s.qf q HI_QCFG_CTXID / 256)).joined))

/-- A function reaches a queue's aperture: the queue is its own (R273). -/
def ownsQueue (s : State) (fn : HostFn) (q : Nat) : Bool := s.queueServes q && s.qf q HI_QCFG_FUNC == fnNum fn

/-- A host access completes as Unsupported Request (R272). -/
def unsupported (s : State) : State :=
  { s with hostLink := { s.hostLink with unsupported := s.hostLink.unsupported + 1 } }

def dropCount (s : State) (q : Nat) : State := s.bump (a_HI_QSTAT q) HI_QSTAT_DROPPED 1

/-- Raises a queue's STALL_VEC (R277, R278). -/
def stallVec (s : State) (q : Nat) : State := s.raiseMsix (s.qf q HI_QCFG_FUNC) (s.qf q HI_QCFG_STALL_VEC)

/-- A queue takes a doorbell: a 32-bit write is discarded (R276), a stalled queue discards every doorbell (R277).
DEDUCED, unsafe (log entry 29): DROPPED counts every discarded doorbell. -/
def takeDoorbell (s : State) (q size : Nat) (v : Word) : State :=
  if size ≠ 8 then (s.dropCount q).faultHost cPROTO
  else if s.flag (a_HI_QSTAT q) HI_QSTAT_STALLED then s.dropCount q
  else
    let x := s.queue q
    s.setQueue q { x with db := x.db ++ [(HI_QDB_TAIL.get v, HI_QDB_BYTES.get v, s.now)] }

/-- The queue's context is DETACHED: its page reads HI_QSTAT and ignores writes (R284). -/
def qDetached (s : State) (q : Nat) : Bool := s.cstate (s.qf q HI_QCFG_CTXID) == 3

/-- A host doorbell arrives (R276, R277). PF0 reaches every queue's page, a VF its own. -/
def hostDoorbell (s : State) (fn : HostFn) (q size : Nat) (v : Word) (inStream : Bool) : State :=
  if !s.hostReach inStream || (fn != .pf && s.qf q HI_QCFG_FUNC != fnNum fn) then s.unsupported
  else if s.qDetached q then s
  else if !s.queueServes q then s.unsupported
  else s.takeDoorbell q size v

/-- The bytes a doorbell counts are accepted (R276). -/
def bytesIn (s : State) (q bytes : Nat) : Bool :=
  decide ((s.fld (a_HI_QACC q) HI_QACC_ACCEPTED + 2 ^ 48 - bytes) % 2 ^ 48 < 2 ^ 47)

/-- The oldest held doorbell goes to SQ_DB, or is dropped by the check of R419 or by the sequencer (R276, R278). -/
def forwardDoorbell (s : State) (q : Nat) : State :=
  let x := s.queue q
  match x.db with
  | [] => s
  | (tail, bytes, _) :: rest =>
    if !s.alive 121 || !s.bytesIn q bytes then s
    else
      let t := s.setQueue q { x with db := rest }
      let id := s.qf q HI_QCFG_CTXID
      if s.cfg id PT_CTXCFG_HOST_OWNED = 0 || s.tenantOf id ≠ x.tenant then
        ((t.dropCount q).stallVec q).faultHost cCONFIG
      else match t.doorbellFate id tail with
        | .accepted => t.doorbell id tail
        | .ignored => t
        | _ => ((t.doorbell id tail).dropCount q).stallVec q

/-- A doorbell held for 64 µs: the queue stalls; the record carries the queue in SUBCODE, BYTES and ACCEPTED in INFO0 and
INFO1. Doorbells behind it are dropped too (R277). DEDUCED, unsafe (log entry 29): INFO0 and INFO1 of the record, and that DROPPED
counts the held doorbell. -/
def stallQueue (s : State) (q : Nat) : State :=
  let x := s.queue q
  match x.db with
  | [] => s
  | (_, bytes, at_) :: rest =>
    if !s.alive 121 || s.bytesIn q bytes || s.now < at_ + 64000 then s
    else
      let t := (s.setQueue q { x with db := [] }).setFld (a_HI_QSTAT q) HI_QSTAT_STALLED 1
      let t := t.bump (a_HI_QSTAT q) HI_QSTAT_DROPPED (rest.length + 1)
      (t.fault .device { t.record cAHEAD with
        die := 7, unit := 208, sub := q, info0 := bytes, info1 := s.fld (a_HI_QACC q) HI_QACC_ACCEPTED }).stallVec q

/-- The pieces of n bytes at offset o of a ring: they wrap at its end (R273). -/
def ringPieces (base size o : Nat) (bs : List Byte) : List (Nat × List Byte) :=
  let lo := o % size
  if bs.length ≤ size - lo then [(base + lo, bs)] else [(base + lo, bs.take (size - lo)), (base, bs.drop (size - lo))]

/-- Sub-windows of the aperture (R273). -/
def cmdWindow : Nat := 0x10000000
def egrWindow : Nat := 0x18000000

/-- A host write to a queue's aperture: ingress bytes start on their way, a write to the egress sub-window is dropped
(R273, R274). -/
def ingressWrite (s : State) (fn : HostFn) (q offset : Nat) (data : List Byte) (inStream : Bool) : State :=
  if !s.hostReach inStream || !s.ownsQueue fn q || 0x20000000 < offset + data.length then s.unsupported
  else if egrWindow ≤ offset then s.dropCount q
  else
    let id := s.qf q HI_QCFG_CTXID
    let x := s.queue q
    let new :=
      if offset < cmdWindow then
        ringPieces (s.fld (a_HI_QDATA q) HI_QDATA_BASE * 65536) (2 ^ s.qf q HI_QCFG_LOG2DATA) offset data
      else
        ringPieces (s.fld (a_SQ_RINGBASE (id / 256) (id % 256)) SQ_RINGBASE_BASE * 64) (64 * s.ringSize id)
          (offset - cmdWindow) data
    s.setQueue q { x with ingress := x.ingress ++ new.filter (fun p => p.2 != []) }

/-- The oldest ingress write completes at its home and is counted (R274); a home that refuses lets it wait (R340). A write
that the key store or the dump reserve refuses is discarded with a SEC record (R180, R181). -/
def acceptIngress (s : State) (q : Nat) : State :=
  let x := s.queue q
  match x.ingress with
  | [] => s
  | (a, bs) :: rest =>
    let id := s.qf q HI_QCFG_CTXID
    if !s.alive 121 || s.fare roleCOH 7 a != .served then s
    else s.asking naHost [⟨a, bs.length⟩] (fun s =>
      let t := s.setQueue q { x with ingress := rest }
      let refused := s.keyAt id == 0 || !s.clearOfReserve a bs.length
      let t := if refused then t.faultHost cSEC else t.writeMem id a bs false
      t.setFld (a_HI_QACC q) HI_QACC_ACCEPTED (t.fld (a_HI_QACC q) HI_QACC_ACCEPTED + bs.length))

/-- A host read of a queue's aperture: the egress ring, or all ones from an ingress sub-window (R273, R279). A read that its home
does not serve waits (R340). -/
def egressRead (s : State) (fn : HostFn) (q offset n : Nat) (inStream : Bool) : State :=
  if !s.hostReach inStream || !s.ownsQueue fn q || 0x20000000 < offset + n then s.unsupported
  else if offset < egrWindow then
    { s.dropCount q with hostLink := { s.hostLink with reply := List.replicate n 0xFF } }
  else
    let id := s.qf q HI_QCFG_CTXID
    let size := 2 ^ s.qf q HI_QCFG_LOG2EGR
    let ps := ringPieces (s.fld (a_HI_QEGR q) HI_QEGR_BASE * 65536) size (offset - egrWindow) (List.replicate n (0 : Byte))
    if ps.any (fun p => s.fare roleCOH 7 p.1 != .served) then s
    else ({ s with fresh := s.fresh + 1 } : State).asking naHost (ps.map (fun (p : Nat × List Byte) => (⟨p.1, p.2.length⟩ : Range))) (fun t =>
      let bs := (ps.map (fun p => (s.readMem id p.1 p.2.length).1)).flatten
      let t := if s.keyAt id == 0 then t.faultHost cSEC
        else ps.foldl (fun t p => (t.readAs clsHost id p.1 p.2.length).1) t
      { t with hostLink := { t.hostLink with reply := bs } })

/-! ### Link loss (R283) -/

/-- A context named by an enabled queue becomes DETACHED: from ACTIVE, and after a recovery that found it ACTIVE. -/
def detach (s : State) (id : Nat) : State :=
  if s.cstate id = 1 then s.setCstate id 3
  else if s.cstate id = 4 && (s.ctx id).before == 1 then s.modCtx id (fun c => { c with before := 3 })
  else s

/-- A queue loses its window state and its ENABLE (R283); of its registers HI_QCFG alone is kept. -/
def loseQueue (s : State) (q : Nat) : State :=
  let t := if s.qEnabled q then s.detach (s.qf q HI_QCFG_CTXID) else s
  (((((t.discard (queueGroup q)).wr (a_HI_QDATA q) 0).wr (a_HI_QEGR q) 0)).clearQueue q).setFld (a_HI_QCFG q) HI_QCFG_ENABLE 0

/-- The host interface resets itself: link down, every queue lost, MSI-X tables, the DOE session and IDE keys dropped; a
self-reset is counted (R283). -/
def hostReset (s : State) : State :=
  let t := (List.range 256).foldl (fun t q => t.loseQueue q) s
  let t := { t with
    fns := []
    staged := Sparse.drop (fun a => (domOfAddr a).any (fun d => d == 121)) t.staged
    sessions := t.sessions.filter (fun x => x.2 != 0)
    hostLink := { t.hostLink with up := false, reply := [] } }
  ((t.setFld a_HI_LINK HI_LINK_IDE_ACTIVE 0).setFld a_HI_LINK HI_LINK_GEN 0).setFld a_HI_LINK HI_LINK_WIDTH 0
    |>.bump a_HI_LINK HI_LINK_LOSSES 1

/-- PERST_N changes (R406). -/
def setPerst (s : State) (level : Bool) : State :=
  if s.hostLink.perst == level then s
  else
    let t := if level then s else s.hostReset
    ({ t with hostLink := { t.hostLink with perst := level } }).setDom 121 { t.dom 121 with inReset := !level }

/-- A write of HI_LINK.IDE_REQUIRED (R282). -/
def linkWrite (s : State) (who : Requester) (v : Word) : State :=
  if who = .host || s.fld a_HI_LINK HI_LINK_IDE_ACTIVE = 1 then s
  else s.setFld a_HI_LINK HI_LINK_IDE_REQUIRED (HI_LINK_IDE_REQUIRED.get v)

end State

open State

/-- HI_QCOMMIT.RESUME (R277). -/
def execHiQcommitResume (who : Requester) (q : BitVec 8) (s : State) : Out' :=
  .next (s.gated who a_HI_QCOMMIT (fun s => s.queueResume q.toNat))

/-- HI_QCOMMIT.GO, with RESUME when both bits are written (R277, R285). -/
def execHiQcommitGo (who : Requester) (q : BitVec 8) (resume : Bool) (s : State) : Out' :=
  .next (s.gated who a_HI_QCOMMIT (fun s => (if resume then s.queueResume q.toNat else s).queueCommit q.toNat))

/-- HI_QDB (R276). -/
def execHiQdb (fn : HostFn) (q : Fin 256) (size : Nat) (value : Word) (inStream : Bool) (s : State) : Out' :=
  .next (s.hostDoorbell fn q size value inStream)

/-- HI_LINK_WRITE (R282). -/
def execHiLinkWrite (who : Requester) (value : Word) (s : State) : Out' :=
  .next (s.gated who a_HI_LINK (fun s => s.linkWrite who value))

/-- HOST_INGRESS_WRITE (R273, R274). -/
def execHostIngressWrite (fn : HostFn) (q : Fin 256) (offset : Nat) (data : List Byte) (inStream : Bool) (s : State) : Out' :=
  .next (s.ingressWrite fn q offset data inStream)

/-- INGRESS_ACCEPTED (R274). -/
def execIngressAccepted (q : Fin 256) (s : State) : Out' := .next (s.acceptIngress q)

/-- DOORBELL_FORWARD (R276, R278, R419). -/
def execDoorbellForward (q : Fin 256) (s : State) : Out' := .next (s.forwardDoorbell q)

/-- DOORBELL_AHEAD (R277). -/
def execDoorbellAhead (q : Fin 256) (s : State) : Out' := .next (s.stallQueue q)

/-- HOST_EGRESS_READ (R273, R279). -/
def execHostEgressRead (fn : HostFn) (q : Fin 256) (offset : Nat) (bytes : Nat) (inStream : Bool) (s : State) : Out' :=
  .next (s.egressRead fn q offset bytes inStream)

/-- HOST_UNSUPPORTED_ACCESS (R272); outside the permitted part of the mailbox it logs SEC (R378). -/
def execHostUnsupportedAccess (fn : HostFn) (read mailbox : Bool) (s : State) : Out' :=
  .next (
    if !s.hostLink.up then s
    else
      let t := s.unsupported
      let t := if read then { t with hostLink := { t.hostLink with reply := [] } } else t
      if mailbox && fn == .pf then t.faultHost cSEC else t)

/-- MSIX_SEND: a pending message leaves, its vector unmasked and bus mastering enabled (R280). -/
def execMsixSend (fn : HostFn) (vector : Fin 1024) (s : State) : Out' :=
  let f := s.fn (fnNum fn)
  .next (
    if !s.hostLink.up || !s.alive 121 || !f.pending.contains vector.val then s
    else
      { s.setFn (fnNum fn) { f with
          pending := f.pending.filter (fun v => v != vector.val)
          unmasked := insertBy (fun v => v) vector.val (f.unmasked.filter (fun v => v != vector.val))
          busMaster := true } with
        outbox := s.outbox ++ [.msix fn vector.val] })

/-- HOST_LINK_DOWN (R283). -/
def execHostLinkDown (s : State) : Out' := .next (if s.hostLink.up then s.hostReset else s)

/-- FLR of a VF that the licence gives, or of PF0 (R6, R271, R283). -/
def execFlr (fn : HostFn) (s : State) : Out' :=
  .next (
    if !s.hostLink.up then s
    else match fn with
      | .pf => s.hostReset
      | .vf n => if s.fld a_MG_LICENCE MG_LICENCE_VFS ≤ n.val then s else ([0, 1, 2, 3].foldl (fun t k => t.loseQueue (4 * n.val + k)) s).setFn (1 + n.val) FnSt.init)

/-- PERST_N (R406). -/
def execPerstN (level : Bool) (s : State) : Out' := .next (s.setPerst level)

/-- HOST_LINK_UP: PCIe training reaches L0 at a supported speed and width (R271, R285, R406). -/
def execHostLinkUp (gen : BitVec 4) (width : BitVec 5) (s : State) : Out' :=
  .next (
    if s.hostLink.up || !s.hostLink.perst || !s.alive 121 || !s.pins.refPcie
        || gen.toNat < 4 || 6 < gen.toNat || !([1, 2, 4].contains width.toNat) then s
    else
      ({ s with hostLink := { s.hostLink with up := true } }.setFld a_HI_LINK HI_LINK_GEN gen.toNat).setFld a_HI_LINK
        HI_LINK_WIDTH width.toNat)

end Sys2Proof.Machine
end

