-- ==== Sys2Proof/Machine/Fabric.lean ====
section
/-! DEFINITION. The Darmet fabric (R200–R203, R287–R304, R382): receive windows, routing commits, ports, incoming
requests, and the answers to this device's own requests, those of cores among them (R216, R218). -/

namespace Sys2Proof
open Sys2Proof.Machine

/-- Fields of a packet header (R293). -/
def Packet.type (k : Packet) : Nat := natBits k.q0.toNat 63 60
def Packet.dest (k : Packet) : Nat := natBits k.q0.toNat 59 48
def Packet.src (k : Packet) : Nat := natBits k.q0.toNat 47 36
def Packet.tag (k : Packet) : Nat := natBits k.q0.toNat 35 20
def Packet.len (k : Packet) : Nat := natBits k.q0.toNat 19 16
def Packet.poison (k : Packet) : Nat := natBits k.q0.toNat 15 8
def Packet.rmode (k : Packet) : Nat := natBits k.q0.toNat 7 6
def Packet.nakcode (k : Packet) : Nat := natBits k.q0.toNat 5 2
def Packet.tenant (k : Packet) : Nat := natBits k.q1.toNat 63 48
def Packet.addr (k : Packet) : Nat := natBits k.q1.toNat 44 0
def Packet.rctx (k : Packet) : Nat := natBits k.q2.toNat 28 16
def Packet.value (k : Packet) : Nat := natBits k.q3.toNat 31 0

/-- A received request is well formed: its type, LEN, ADDR, RMODE and a DIRECT request's RCTX are legal, and a WR carries LEN units
(R11, R293). -/
def Packet.legal (k : Packet) (kind dataLen : Nat) : Bool :=
  k.type == kind && (k.rmode == 1 || k.rmode == 2) && (k.rmode != 1 || decide (k.rctx % 256 < 192)) &&
    (if kind = 5 then k.len == 0 && k.addr % 4 == 0
     else decide (1 ≤ k.len) && decide (k.len ≤ 8) && k.addr % 64 == 0) &&
    dataLen == (if kind = 0 then 64 * k.len else 0)

end Sys2Proof

namespace Sys2Proof.Machine

/-- Port states (R304). -/
def psDOWN : Nat := 0
def psTRAINING : Nat := 1
def psKEYING : Nat := 2
def psUP : Nat := 3
def psRETRAINING : Nat := 4
def psFAILED : Nat := 5

/-- The key, address and outcome of a request at its receiver (R201, R202): performed under a key, refused in silence, or
refused with WINDOW. -/
inductive Admission where
  | serve (key addr : Nat)
  | silent
  | window
deriving DecidableEq, Repr

namespace State

/-! ### Receive windows (R202, R203) -/

/-- Memory that a remote request may reach: T1 or T2 outside the crash dump reserve, in enabled stacks (R201, R415). -/
def remoteRange (s : State) (a n : Nat) : Bool := s.memRange a n && s.clearOfReserve a n

/-- The staged settings of a receive window may be applied (R203). -/
def windowOk (s : State) (w : Nat) : Bool :=
  let c := a_XL_WINCFG w
  let n := s.stagedFld c XL_WINCFG_LENGTH * 65536
  let b := s.stagedFld (a_XL_WINBASE w) XL_WINBASE_BASE * 65536
  let valid := s.stagedFld c XL_WINCFG_VALID == 1
  (n == 0 || s.remoteRange b n) && decide (n ≤ 2 ^ 37) && !(valid && n == 0)
    && (!valid || s.ctxidOk (s.stagedFld c XL_WINCFG_CTXID))

/-- XL_WINCOMMIT (R203). -/
def winCommit (s : State) (w : Nat) : State :=
  if s.windowOk w then s.commit [a_XL_WINBASE w, a_XL_WINCFG w] else s.faultDev cCONFIG 6 255

/-! ### Routing (R287, R303, R304) -/

/-- A port the licence enables (R287). -/
def portLicensed (s : State) (p : Nat) : Bool := decide (p % 8 < s.fld a_MG_LICENCE MG_LICENCE_PORTS / 2)

/-- The staged table entries. -/
def stagedRoutes (s : State) : List Nat := (List.range 4096).filter (fun d => s.staged.any (fun e => e.1 == a_FB_ROUTE d))

/-- The ports a staged entry lists. -/
def stagedPorts (s : State) (d : Nat) : List Nat :=
  ([FB_ROUTE_PORT0, FB_ROUTE_PORT1, FB_ROUTE_PORT2, FB_ROUTE_PORT3].map (fun f => s.stagedFld (a_FB_ROUTE d) f)).take
    (s.stagedFld (a_FB_ROUTE d) FB_ROUTE_NPORTS)

/-- The staged routing passes the checks of R303. -/
def routesOk (s : State) : Bool :=
  s.stagedRoutes.all (fun d =>
    decide (s.stagedFld (a_FB_ROUTE d) FB_ROUTE_NPORTS ≤ 4) && decide (s.stagedPorts d).Nodup
      && (s.stagedPorts d).all s.portLicensed)
    && s.stagedFld (a_FB_ROUTE (s.stagedFld a_FB_DEVID FB_DEVID_DEV)) FB_ROUTE_NPORTS == 0

/-- FB_COMMIT.GO (R303). -/
def fbCommitGo (s : State) : State :=
  let g := a_FB_DEVID :: s.stagedRoutes.map a_FB_ROUTE
  if s.routesOk then s.commit g else (s.discard g).faultDev cCONFIG 7 255

/-- FB_TIMEOUT (R304). -/
def setFbTimeout (s : State) (v : Nat) : State :=
  if 10 ≤ v ∧ v ≤ 100000 then s.setFld a_FB_TIMEOUT FB_TIMEOUT_TIMEOUT_US v else s.faultDev cPROTO 7 255

/-! ### Ports (R290, R291, R304, R382) -/

def portState (s : State) (p : Nat) : Nat := s.fld (a_FB_PORTSTAT p) FB_PORTSTAT_STATE
def setPortState (s : State) (p st : Nat) : State := s.setFld (a_FB_PORTSTAT p) FB_PORTSTAT_STATE st
def portEnabled (s : State) (p : Nat) : Bool := s.flag (a_FB_PORTCTL p) FB_PORTCTL_ENABLE

/-- The switch and the lane island of a port work, with their reference (R28, R408). -/
def portAlive (s : State) (p : Nat) : Bool :=
  s.alive (119 + p / 8) && s.alive (111 + p / 2) && !s.pins.lostFab.contains (p / 8)

/-- A port begins to train, key or retrain now. -/
def enterPort (s : State) (p st : Nat) : State :=
  (s.setPort p { s.port p with refusals := 0, keySteps := 0, since := s.now }).setPortState p st

/-- A record about a port. -/
def faultPort (s : State) (p cls : Nat) : State := s.faultDev cls (7 + p / 8) (192 + p)

/-- A port fails: it stays FAILED until it is trained again by command (R290, R291, R304). -/
def failPort (s : State) (p cls : Nat) : State := ((s.setPort p Port.init).setPortState p psFAILED).faultPort p cls

/-- FB_PORTCTL.ENABLE (R287, R304). -/
def portEnable (s : State) (p : Nat) (on : Bool) : State :=
  if !s.portLicensed p then s
  else
    let t := s.setFld (a_FB_PORTCTL p) FB_PORTCTL_ENABLE (b2n on)
    if !on then (t.setPort p Port.init).wr (a_FB_PORTSTAT p) 0
    else if s.portState p = psDOWN ∨ s.portState p = psFAILED then t.enterPort p psTRAINING
    else t

/-- A retrain begins. -/
def retrain (s : State) (p : Nat) : State :=
  (s.enterPort p psRETRAINING).bump (a_FB_PORTERR p) FB_PORTERR_RETRAINS 1

/-- FB_PORTCTL.RETRAIN (R290, R304). DEDUCED, unsafe (log entry 31). -/
def portRetrain (s : State) (p : Nat) : State :=
  if !s.portLicensed p || !s.portEnabled p then s
  else if s.portState p = psUP then s.retrain p
  else if s.portState p = psFAILED ∨ s.portState p = psKEYING then s.enterPort p psTRAINING
  else s

/-- A flit arrives at a port (R290, R291, R382). Its link header acknowledges this side's flits: where it asks for some again, they
leave the replay buffer of 1,024 flits once more and are counted. -/
def takeFlit (s : State) (p : Nat) (fecOk tagOk : Bool) (seq resend : Nat) : State :=
  let st := s.portState p
  let x := s.port p
  if (st ≠ psUP ∧ st ≠ psKEYING) ∨ s.portAlive p = false then s
  else if fecOk && (tagOk || st == psKEYING) && seq == x.rxSeq % 4096 then
    (if resend = 0 then s else s.bump (a_FB_PORTERR p) FB_PORTERR_REPLAYS (min resend 1024)).setPort p { x with rxSeq := x.rxSeq + 1, refusals := 0, flits := if st = psUP then x.flits + 1 else x.flits }
  else
    let bad := fecOk && !tagOk && st == psUP
    let fails := if bad then x.tagFails.filter (fun t => decide (s.now ≤ t + 1000000)) ++ [s.now] else x.tagFails
    let t := s.setPort p { x with refusals := x.refusals + 1, tagFails := fails }
    let t := if bad then t.bump (a_FB_PORTERR p) FB_PORTERR_AUTH_FAIL 1 else t
    if bad && decide (4 ≤ fails.length) then t.failPort p cSEC
    else if 8 ≤ x.refusals + 1 then t.retrain p
    else t

/-- A port's lanes finish training (R290, R382). A port goes on only with all four lanes; after a retrain the flits of the replay buffer
leave again, as many as stand in it: a free number of at most 1,024. -/
def trained (s : State) (p lanes : Nat) : State :=
  let st := s.portState p
  if (st ≠ psTRAINING ∧ st ≠ psRETRAINING) ∨ s.portAlive p = false ∨ s.portEnabled p = false then s
  else
    let t := s.setFld (a_FB_PORTSTAT p) FB_PORTSTAT_LANES_OK lanes
    if lanes ≠ 15 then t
    else if st = psTRAINING then t.enterPort p psKEYING
    else
      { t.setPortState p psUP with fresh := t.fresh + 1 }.bump (a_FB_PORTERR p) FB_PORTERR_REPLAYS (Config.freeNat t.fresh % 1025)

/-- A keying message; the last one names the peer and the port is UP with its flit counters at 0 (R382). -/
def keying (s : State) (p : Nat) (ok last : Bool) (peer : Nat) (sw : Bool) : State :=
  if s.portState p ≠ psKEYING ∨ s.portAlive p = false then s
  else if !ok then s.failPort p cSEC
  else if !last then s.setPort p { s.port p with keySteps := (s.port p).keySteps + 1 }
  else
    let a := a_FB_PORTSTAT p
    let t := (s.setFld a FB_PORTSTAT_PEER_SW (b2n sw)).setFld a FB_PORTSTAT_PEER_DEV (if sw then 0 else peer)
    (t.setPort p { t.port p with keySteps := 0, flits := 0, keyGen := (t.port p).keyGen + 1 }).setPortState p psUP

/-! ### Incoming requests (R201, R202, R293, R294, R297, R301) -/

/-- How the receiver treats a request of n bytes: DIRECT by R201, WINDOWED by R202. -/
def admission (s : State) (k : Packet) (write : Bool) (n : Nat) : Admission :=
  if k.rmode = 1 then
    (if s.flag a_XL_RXCFG XL_RXCFG_DIRECT_EN && s.remoteRange k.addr n && s.ctxidOk k.rctx && s.cstate k.rctx == 1
        && s.tenantOf k.rctx == k.tenant then .serve k.rctx k.addr else .silent)
  else
    let w := natBits k.addr 44 37
    let o := natBits k.addr 36 0
    let c := a_XL_WINCFG w
    let id := s.fld c XL_WINCFG_CTXID
    if s.flag c XL_WINCFG_VALID && decide (o + n ≤ s.fld c XL_WINCFG_LENGTH * 65536)
        && s.flag c (if write then XL_WINCFG_WRITE else XL_WINCFG_READ) && s.ctxidOk id && s.cstate id == 1 then
      .serve id (s.fld (a_XL_WINBASE w) XL_WINBASE_BASE * 65536 + o)
    else .window

/-- An answer leaves by this device's own table entry for the requester; with no port UP it is not sent (R294). -/
def answer (s : State) (k : Packet) (kind len poison code : Nat) (data : List Byte) : State :=
  match s.routeTo k.src kind with
  | none => s
  | some port =>
    let h := BitVec.ofNat 64 (kind * 2 ^ 60 + k.src * 2 ^ 48 + s.fld a_FB_DEVID FB_DEVID_DEV * 2 ^ 36 + k.tag * 2 ^ 20
      + len * 2 ^ 16 + poison * 2 ^ 8 + code * 4)
    { s with outbox := s.outbox ++ [.packet port [h, 0, 0, 0] data] }

/-- Why a request from Tailstock t is refused at the home of an address: 2 a die of its path, or the home's die, is in die reset, 1 the
home refuses, 0 it does not (R31, R340). -/
def homeRefusal (s : State) (t a : Nat) : Nat :=
  let h := homeOf a
  if !s.pathClear (7 + t) (homeDie h) || (s.die (homeDie h)).inReset then 2
  else if s.homeOut h then 1
  else 0

/-- A port delivers traffic: it is UP and the device is at finishing service (R288). -/
def portServes (s : State) (p : Nat) : Bool := s.fabricUp && s.portState p == psUP && s.portAlive p

/-- A request arrives on a port: discarded with PROTO, refused, or performed by f under a key at an address and answered.
While the home holds it or does not admit it, it stays in the Tailstock (R51, R252, R301).
DEDUCED, unsafe (log entry 30): performed and answered at once. -/
def request (s : State) (p : Nat) (k : Packet) (kind dataLen n : Nat) (f : State → Nat → Nat → State) : State :=
  if !s.portServes p then s
  else if !k.legal kind dataLen || k.dest != s.fld a_FB_DEVID FB_DEVID_DEV then s.faultPort p cPROTO
  else match s.admission k (kind != tyRD) n with
    | .silent => s.fault .device { s.record cSEC with die := 7 + p / 8, unit := 192 + p, addr := k.addr, length := n }
    | .window =>
      (s.fault .device { s.record cXLATE with die := 7 + p / 8, unit := 192 + p, sub := 7, addr := k.addr, length := n }).answer k
        tyNAK 0 0 3 []
    | .serve key a =>
      match s.homeRefusal (p / 8) a with
      | 0 =>
        if s.fare roleTILE (7 + p / 8) a != .served then s
        else s.asking (naTail (p / 8)) [⟨a, n⟩] (fun t => f t key a)
      | c => s.answer k tyNAK 0 0 c []

/-- A remote write of LEN units with their poison (R293, R297). -/
def requestWr (s : State) (p : Nat) (k : Packet) (data : List Byte) : State :=
  s.request p k tyWR data.length (64 * k.len) (fun t key a =>
    (t.writeMemP key a data (fun o => natBit k.poison (o / 64))).answer k tyACK 0 0 0 [])

/-- A remote read of LEN units. -/
def requestRd (s : State) (p : Nat) (k : Packet) : State :=
  s.request p k tyRD 0 (64 * k.len) (fun t key a =>
    let bs := t.readMemP key a (64 * k.len)
    let po := (List.range k.len).foldl (fun n i => n + b2n (((bs.drop (64 * i)).take 64).any (fun (b : PByte) => b.2)) * 2 ^ i) 0
    (({ t with fresh := t.fresh + 1 } : State).readAs clsFabric key a (64 * k.len)).1.answer k tyRDRSP k.len po 0 (bs.map (fun (b : PByte) => b.1)))

/-- A remote flag write of 4 bytes. -/
def requestWr4 (s : State) (p : Nat) (k : Packet) : State :=
  s.request p k tyWR4 0 4 (fun t key a => (t.writeMem key a (leBytes k.value 4) false).answer k tyACK 0 0 0 [])

/-! ### Answers to this device's requests (R297) -/

/-- The request an answer is for: its tag, its target, an answer of the fitting type. -/
def answered (s : State) (p : Nat) (k : Packet) (fits : Nat → Bool) : Option Remote :=
  if s.portServes p && k.dest == s.fld a_FB_DEVID FB_DEVID_DEV then
    s.remotes.find? (fun x => x.tag == k.tag && x.dev == k.src && fits (natBits (x.hdr.getD 0 0).toNat 63 60))
  else none

def dropRemote (s : State) (x : Remote) : State := { s with remotes := s.remotes.filter (fun y => y.tag != x.tag || y.dev != x.dev) }

/-- The movers of a partition send what the freed places allow (R301). -/
def pumpAll (s : State) (p : Nat) : State :=
  (s.part p).dms.foldl (fun t x => match x with | some r => t.moverStart p r | none => t) s

/-- The running descriptor a request serves. -/
def remoteDesc (s : State) (x : Remote) : Option Desc :=
  (s.findDesc (cid x.pp x.ref.slot) x.ref.index).filter (fun d => d.stage == .running)

/-- A remote unit's bytes reach the job that asked for them. -/
def deliver (s : State) (x : Remote) (data : List Byte) (poison : Nat) : State :=
  s.modJob x.pp x.ref (fun j => { j with got := j.got ++ (List.range (data.length / 64)).map (fun i =>
    (x.pa / 64 * 64 + 64 * i, ((data.drop (64 * i)).take 64, natBit poison i))) })

/-- A core's request is answered: an uncached load returns, a line fills, a store is acknowledged; what waited for it goes on. A line
that finds no place serves its loads alone. -/
def coreAnswer (s : State) (x : Remote) (data : List Byte) (poison : Nat) : State :=
  let c := x.ref.slot
  let t :=
    if x.ref.index = crFILL then
      (s.granted c x.pa grE data (natBit poison 0)).getD ((s.granted c x.pa grOnce data (natBit poison 0)).getD s)
    else if x.ref.index = crSTORE then s
    else s.loadDone c x.pa (((data.drop (x.pa % 64)).take x.ref.index).map (fun b => (b, natBit poison 0)))
  t.retryBarriers

/-- A core's request has failed; the requests that waited behind it in its queue go on (R230). -/
def coreFailed (s : State) (x : Remote) : State :=
  let t := s.coreLost x.ref.slot x.ref.index x.pa
  if x.ref.index = crFILL then
    (match s.missOf x.ref.slot x.pa with
     | some m => if m.queue < 96 then t.release m.queue (sliceOf x.pa) else t
     | none => t)
  else t

/-- An RD_RSP: data for a mover, a reload or a core, or the word a flag poll reads (R156, R297). -/
def takeRdRsp (s : State) (p : Nat) (k : Packet) (data : List Byte) : State :=
  match s.answered p k (fun t => t == tyRD) with
  | none => s
  | some x =>
    if k.type ≠ tyRDRSP ∨ k.len ≠ natBits (x.hdr.getD 0 0).toNat 19 16 ∨ data.length ≠ 64 * k.len then s
    else
      let t := s.dropRemote x
      if x.pp = coresPP then t.coreAnswer x data k.poison
      else match t.remoteDesc x with
        | none => if 2 ^ 20 ≤ x.ref.index then t.deliver x data k.poison else t
        | some d =>
          if d.kind = kWAIT then
            (match physical (d.operand 2).exts d.flagVa with
             | some (_, pa) => t.flagSeen x.pp x.ref d (ofLeBytes ((data.drop (pa % 64)).take 4))
             | none => t)
          else (t.deliver x data k.poison).pumpAll x.pp

/-- An ACK: the units of a WR are complete, a flag write completes its SIGNAL (R154, R205, R297). -/
def takeAck (s : State) (p : Nat) (k : Packet) : State :=
  match s.answered p k (fun t => t == tyWR || t == tyWR4) with
  | none => s
  | some x =>
    if k.type ≠ tyACK then s
    else
      let t := s.dropRemote x
      if x.pp = coresPP then t.coreAnswer x [] 0
      else match t.remoteDesc x with
        | none => t
        | some d =>
          if d.kind = kSIGNAL then t.finishOk (cid x.pp x.ref.slot) d.index
          else
            let units := (List.range (x.data.length / 64)).map (fun i => x.pa + 64 * i)
            let t := if d.kind = kREFRESH then
                t.modJob x.pp x.ref (fun j => { j with got := j.got.filter (fun g => !units.contains g.1) })
              else t
            t.pumpAll x.pp

/-- A NAK: TARGET_IN_RESET and PATH_IN_RESET let the request be sent again in 10 µs; WINDOW ends its descriptor with XLATE,
subcode 7 (R195, R202, R297). -/
def takeNak (s : State) (p : Nat) (k : Packet) : State :=
  match s.answered p k (fun _ => true) with
  | none => s
  | some x =>
    if k.type ≠ tyNAK then s
    else if k.nakcode = 1 ∨ k.nakcode = 2 then
      { s with remotes := s.remotes.map (fun y =>
          if y = x then { y with resendAt := some (s.now + 10000), code := k.nakcode } else y) }
    else if k.nakcode ≠ 3 then s
    else
      let t := s.dropRemote x
      if x.pp = coresPP then
        (if x.ref.index = crSTORE then t.refuseStore x.ref.slot cXLATE x.pa 64
         else t.faultCore x.ref.slot cXLATE x.pa 64).coreFailed x
      else if 2 ^ 20 ≤ x.ref.index then t.reloadFail x.pp x.ref.slot
      else match t.remoteDesc x with
        | none => t
        | some d =>
          let id := cid x.pp x.ref.slot
          let (u, n) := t.raise (pq x.pp)
            { t.recordD cXLATE x.pp 27 id (d.index % t.ringSize id) with sub := 7, addr := x.pa }
          (u.endMove x.pp x.ref stXLATE (detailOf n) false).pumpAll x.pp

/-- A request is sent again unchanged once its NAK's 10 µs are over (R297). -/
def resend (s : State) (tag : Nat) : State :=
  match s.remotes.find? (fun x => x.tag == tag && x.resendAt.isSome) with
  | none => s
  | some x =>
    if s.now < x.resendAt.getD 0 ∨ x.first + x.limit ≤ s.now then s
    else
      match s.routeTo x.dev (natBits (x.hdr.getD 0 0).toNat 63 60) with
      | none => s
      | some port =>
        { s with
          outbox := s.outbox ++ [.packet port x.hdr x.data]
          remotes := s.remotes.map (fun y => if y = x then { y with resendAt := none } else y) }

/-- A request's timeout expires (R44, R297). -/
def expire (s : State) (tag : Nat) : State :=
  match s.remotes.find? (fun x => x.tag == tag) with
  | none => s
  | some x =>
    if s.now < x.first + x.limit then s
    else
      let t := ((s.dropRemote x).bump a_FB_TOCNT FB_TOCNT_EXPIRED 1).linkFault x.pp x.dev x.code
      if x.pp = coresPP then t.coreFailed x
      else if 2 ^ 20 ≤ x.ref.index then t.reloadFail x.pp x.ref.slot
      else match t.remoteDesc x with
        | none => t
        | some _ => (t.endMove x.pp x.ref stTIMEOUT 0 false).pumpAll x.pp

end State

open State

/-- XL_WINCOMMIT (R202, R203). -/
def execXlWincommit (who : Requester) (w : Fin 256) (s : State) : Out' :=
  .next (s.gated who a_XL_WINCOMMIT (fun s => s.winCommit w))

/-- FB_COMMIT (R303). -/
def execFbCommit (who : Requester) (s : State) : Out' := .next (s.gated who a_FB_COMMIT fbCommitGo)

/-- FB_TIMEOUT (R304). -/
def execFbTimeoutWrite (who : Requester) (value : Word) (s : State) : Out' :=
  .next (s.gated who a_FB_TIMEOUT (fun s => s.setFbTimeout (FB_TIMEOUT_TIMEOUT_US.get value)))

/-- FB_PORTCTL.ENABLE (R304). -/
def execFbPortctlEnable (who : Requester) (p : Fin 16) (enable : Bool) (s : State) : Out' :=
  .next (s.gated who (a_FB_PORTCTL p) (fun s => s.portEnable p enable))

/-- FB_PORTCTL.RETRAIN (R304). -/
def execFbPortctlRetrain (who : Requester) (p : Fin 16) (s : State) : Out' :=
  .next (s.gated who (a_FB_PORTCTL p) (fun s => s.portRetrain p))

/-- FLIT_RECEIVE (R289–R291): the types of its packets belong to one channel (WellFormed); the commands of the packets act. -/
def execFlitReceive (p : Fin 16) (fecOk : Bool) (tagOk : Bool) (flit : Flit) (s : State) : Out' :=
  .next (s.takeFlit p fecOk tagOk flit.seq.toNat flit.resend)

/-- RETRAIN_TIMEOUT: a retrain did not reach UP within 100 ms (R290). -/
def execRetrainTimeout (p : Fin 16) (s : State) : Out' :=
  .next (if s.portState p = psRETRAINING ∧ (s.port p).since + 100000000 ≤ s.now then s.failPort p cLINK else s)

/-- PORT_TRAINED (R290, R382). -/
def execPortTrained (p : Fin 16) (lanes : BitVec 4) (s : State) : Out' := .next (s.trained p lanes.toNat)

/-- KEYING_MESSAGE (R382). -/
def execKeyingMessage (p : Fin 16) (ok : Bool) (last : Bool) (peer : BitVec 12) (peerSw : Bool) (s : State) : Out' :=
  .next (s.keying p ok last peer.toNat peerSw)

/-- KEYING_TIMEOUT: keying did not complete within 100 ms (R382). -/
def execKeyingTimeout (p : Fin 16) (s : State) : Out' :=
  .next (if s.portState p = psKEYING ∧ (s.port p).since + 100000000 ≤ s.now then s.failPort p cSEC else s)

/-- FABRIC_REKEY: a new key after 2^31 flits, without a pause (R291, R382). -/
def execFabricRekey (p : Fin 16) (s : State) : Out' :=
  .next (
    if s.portState p = psUP ∧ 2 ^ 31 ≤ (s.port p).flits then
      s.setPort p { s.port p with flits := 0, keyGen := (s.port p).keyGen + 1 }
    else s)

/-- WR (R293). -/
def execWr (p : Fin 16) (pkt : Packet) (data : List Byte) (s : State) : Out' := .next (s.requestWr p pkt data)

/-- RD (R293). -/
def execRd (p : Fin 16) (pkt : Packet) (s : State) : Out' := .next (s.requestRd p pkt)

/-- WR4 (R293). -/
def execWr4 (p : Fin 16) (pkt : Packet) (s : State) : Out' := .next (s.requestWr4 p pkt)

/-- RD_RSP (R297). -/
def execRdRsp (p : Fin 16) (pkt : Packet) (data : List Byte) (s : State) : Out' := .next (s.takeRdRsp p pkt data)

/-- ACK (R297). -/
def execAck (p : Fin 16) (pkt : Packet) (s : State) : Out' := .next (s.takeAck p pkt)

/-- NAK (R297). -/
def execNak (p : Fin 16) (pkt : Packet) (s : State) : Out' := .next (s.takeNak p pkt)

/-- REMOTE_RESEND (R297). -/
def execRemoteResend (tag : BitVec 16) (s : State) : Out' := .next (s.resend tag.toNat)

/-- REMOTE_TIMEOUT (R297). -/
def execRemoteTimeout (tag : BitVec 16) (s : State) : Out' := .next (s.expire tag.toNat)

end Sys2Proof.Machine
end

