-- ==== Sys2Proof/Machine/Image.lean ====
section
/-! DEFINITION. The configuration flash (R354–R365, R385, R395): signed objects, firmware slots, base record, overlays,
licences, the re-open token, and the enabled set. -/

namespace Sys2Proof.Machine

/-- One entry of the body of a record (R358). -/
inductive CfgEntry where
  | write (addr : Nat) (value : Word)
  | item (num : Nat) (bytes : List Byte)
deriving DecidableEq, Repr

/-- The entries of a body, in order; none when an operation code has no meaning or an item runs past the end (R358). -/
def parseBody : Nat → List Byte → Option (List CfgEntry)
  | 0, _ => some []
  | n + 1, bs =>
    if bs.length < 16 then some []
    else
      let q0 := ofLeBytes (bs.take 8)
      let q1 := ofLeBytes ((bs.drop 8).take 8)
      match natBits q0 63 56 with
      | 0 => some []
      | 1 => (parseBody n (bs.drop 16)).map (fun es => CfgEntry.write (natBits q0 44 0) (BitVec.ofNat 64 q1) :: es)
      | 2 =>
        let len := q1 % 2 ^ 32
        let rest := bs.drop 16
        if rest.length < ceilDiv len 16 * 16 then none
        else (parseBody n (rest.drop (ceilDiv len 16 * 16))).map (fun es => CfgEntry.item (natBits q0 15 0) (rest.take len) :: es)
      | _ => none

/-- Registers a base record may write (R359). -/
def baseMayWrite : RegClass → Bool
  | .lkRole | .lkCommit | .meRamp | .meCommit | .ptCtxquota | .ptWatchdog | .ptTmcfg | .ptTmpool1 | .ptTmpool2 => true
  | .ptTmtab | .ptTmcommit | .fqCfg | .fqCommit | .scWaymask | .scCommit | .hsIrqroute | .fbRoute | .fbDevid => true
  | .fbTimeout | .fbCommit | .fbPortctl | .xlRxcfg | .pwPkgcap | .pwSplit | .pwCommit | .pwPhasecfg | .pwPhcommit => true
  | .pwTherm | .pwDomctl | .hiLink => true
  | _ => false

/-- Registers an overlay may write (R359). -/
def overlayMayWrite : RegClass → Bool
  | .lkRole | .lkCommit | .pwPkgcap | .pwSplit | .pwCommit | .ptCtxquota | .scWaymask | .scCommit => true
  | .ptWatchdog | .fbTimeout => true
  | _ => false

/-- The WRITEs of a body. -/
def writesOf (es : List CfgEntry) : List (Nat × Word) :=
  es.filterMap (fun e => match e with | .write a v => some (a, v) | .item _ _ => none)

/-- The bytes of item n, if the body holds it. -/
def itemOf (n : Nat) (es : List CfgEntry) : Option (List Byte) :=
  es.findSome? (fun e => match e with | .item k bs => if k = n then some bs else none | .write _ _ => none)

/-- A base record's entries are legal (R358, R359). -/
def baseLegal (es : List CfgEntry) : Bool :=
  es.all (fun e => match e with
    | .write a _ => (regFind a).any (fun x => baseMayWrite x.1.cls)
    | .item 1 bs => bs.length == 97
    | .item 2 bs => bs.length == 3
    | .item _ _ => false)

/-- An overlay's entries are legal: it has no items. -/
def overlayLegal (es : List CfgEntry) : Bool :=
  es.all (fun e => match e with
    | .write a _ => (regFind a).any (fun x => overlayMayWrite x.1.cls)
    | .item _ _ => false)

/-- The areas of the flash (R355). -/
def slotArea (k : Nat) : Nat := if k = 0 then 0x01000000 else 0x04000000
def slotBytes : Nat := 0x03000000
def baseArea : Nat := 0x00010000
def baseBytes : Nat := 0xF0000
def overlayArea (m : Nat) : Nat := 0x00100000 + m * 0x40000
def overlayBytes : Nat := 0x40000
def licenceArea (j : Nat) : Nat := 0x00500000 + j * 0x4000
def licenceBytes : Nat := 0x4000

/-- Object types (R356). -/
def tySLOT : Nat := 1
def tyBASE : Nat := 2
def tyOVERLAY : Nat := 3
def tyLICENCE : Nat := 4
def tyREOPEN : Nat := 5

/-- What a licence grants (R362). -/
structure Licence where
  seq : Nat
  bump : Bool
  parts : Nat
  fp46 : Nat
  ports : Nat
  vfs : Nat
  ctx : Nat
  dump : Nat
deriving DecidableEq, Repr

/-- The enabled partitions (R364): the lowest PARTS of the preference mask, filled from outside it. -/
def enabledSet (parts mask : Nat) : List Nat :=
  let pref := (List.range 24).filter (fun p => natBit mask p)
  let rest := (List.range 24).filter (fun p => !natBit mask p)
  (pref ++ rest).take parts

namespace State

/-- A byte of the configuration flash (R354). DESIGN CHOICE, unsafe (log entry 3): unwritten flash is erased. -/
def flashByte (s : State) (a : Nat) : Byte := Sparse.get (fun _ => 0xFF) s.flash a
def flashBytes (s : State) (a n : Nat) : List Byte := (List.range n).map (fun i => s.flashByte (a + i))
def flashNat (s : State) (a n : Nat) : Nat := ofLeBytes (s.flashBytes a n)

/-- The area at an offset is absent (R355). -/
def absent (s : State) (a : Nat) : Bool := s.flashBytes a 8 == List.replicate 8 0xFF

def objLen (s : State) (a : Nat) : Nat := s.flashNat (a + 4) 4
def objSvn (s : State) (a : Nat) : Nat := s.flashNat (a + 16) 4
def objBytes (s : State) (a : Nat) : List Byte := s.flashBytes a (s.objLen a)

/-- The header of an object is legal for its area and type (R356). -/
def headerOk (s : State) (a size kind : Nat) : Bool :=
  let serial := s.flashNat (a + 8) 8
  let flags := s.flashNat (a + 20) 4
  !s.absent a && s.flashNat a 2 == kind && s.flashNat (a + 2) 2 == 1 && s.objLen a % 16 == 0
    && decide (160 ≤ s.objLen a) && decide (s.objLen a ≤ size)
    && (serial == Config.serial.toNat || (serial == 0 && kind != tyLICENCE && kind != tyREOPEN))
    && (flags == 0 || (kind == tyLICENCE && flags == 1))
    && (s.objSvn a == 0 || kind == tySLOT || kind == tyLICENCE || kind == tyREOPEN)
    && s.flashNat (a + 24) 40 == 0

/-- The last 96 bytes of the first n bytes of an object sign the bytes before them. -/
def signedBy (s : State) (a n key : Nat) : Bool :=
  Config.ecdsaOk key (s.flashBytes a (n - 96)) (s.flashBytes (a + n - 96) 96)

/-- An object is valid (R356). -/
def objectOk (s : State) (a size kind key : Nat) : Bool := s.headerOk a size kind && s.signedBy a (s.objLen a) key

/-- A firmware slot qualifies (R357). -/
def slotOkAt (s : State) (k : Nat) : Bool :=
  let a := slotArea k
  s.objectOk a slotBytes tySLOT Config.tagrimetKey && decide (s.fld a_MG_FLOOR MG_FLOOR_FW_FLOOR ≤ s.objSvn a)
    && Config.componentsOk (s.objBytes a)

/-- The slot PREFER names (R355). -/
def preferred (s : State) : Nat := if s.flashByte 0 = 1 then 1 else 0

/-- The slot that boots, with FALLBACK (R357). -/
def chooseSlot (s : State) : Option (Nat × Bool) :=
  let k := s.preferred
  if s.slotOkAt k then some (k, false) else if s.slotOkAt (1 - k) then some (1 - k, true) else none

/-- The body of a record (R358). -/
def recordBody (s : State) (a : Nat) : Option (List CfgEntry) :=
  let n := s.objLen a
  parseBody n (s.flashBytes (a + 64) (n - 160))

/-- The base record, when it is present and valid. -/
def baseRecord (s : State) : Option (List CfgEntry) :=
  if s.objectOk baseArea baseBytes tyBASE Config.operatorKey then (s.recordBody baseArea).filter baseLegal else none

/-- An overlay: absent, or its WRITEs, or none when it is invalid (R361). -/
def overlayRecord (s : State) (m : Nat) : Option (Option (List (Nat × Word))) :=
  let a := overlayArea m
  if s.absent a then some none
  else if s.objectOk a overlayBytes tyOVERLAY Config.operatorKey then
    ((s.recordBody a).filter overlayLegal).map (fun es => some (writesOf es))
  else none

/-- The licence in an area, when it is valid (R356, R362); a REOPEN object is no licence (R395). -/
def licenceAt (s : State) (j : Nat) : Option Licence :=
  let a := licenceArea j
  let b (i : Nat) : Nat := (s.flashByte (a + i)).toNat
  let l : Licence := { seq := s.objSvn a, bump := natBit (s.flashNat (a + 20) 4) 0, parts := b 64, fp46 := b 65,
                       ports := b 66, vfs := b 67, ctx := b 68, dump := b 69 }
  if s.objectOk a licenceBytes tyLICENCE Config.tagrimetKey && decide (176 ≤ s.objLen a) && decide (s.fld a_MG_LICFLOOR MG_LICFLOOR_LIC_FLOOR ≤ l.seq)
      && [8, 16, 24].contains l.parts && decide (l.fp46 ≤ 1) && [0, 4, 8, 16].contains l.ports
      && [0, 16, 64].contains l.vfs && [64, 128, 192].contains l.ctx && decide (l.dump ≤ 1)
      && s.flashNat (a + 70) 10 == 0 then some l else none

/-- The licence that applies, with its area: the highest SEQ, of equals the lowest area (R363). -/
def chosenLicence (s : State) : Option (Nat × Licence) :=
  ((List.range 64).filterMap (fun j => (s.licenceAt j).map (fun l => (j, l)))).foldl (fun best x =>
    match best with
    | none => some x
    | some y => if y.2.seq < x.2.seq then some x else some y) none

/-- Area 63 holds an accepted re-open token (R394, R395). -/
def reopenOk (s : State) : Bool :=
  let a := licenceArea 63
  s.headerOk a licenceBytes tyREOPEN && s.objLen a == 272
    && decide (s.fld a_MG_LICFLOOR MG_LICFLOOR_LIC_FLOOR ≤ s.objSvn a) && s.flashByte (a + 64) == 1
    && s.flashNat (a + 65) 15 == 0 && s.flag a_MG_CFG MG_CFG_OWNER_KEY
    && s.signedBy a 176 Config.tagrimetKey && s.signedBy a 272 Config.operatorKey

/-! ### Measurements and fuses (R384, R385) -/

def measure (s : State) (i : Nat) : List Byte := Sparse.get (fun _ => zeroDigest) s.measures i
def setMeasure (s : State) (i : Nat) (d : List Byte) : State :=
  { s with measures := Sparse.put (fun _ => zeroDigest) s.measures i d }
def extendMeasure (s : State) (i : Nat) (bs : List Byte) : State := s.setMeasure i (Config.extend (s.measure i) bs)

/-- Fuses a new floor, unless its 16 words are used up or it is not a rise (R385). -/
def raiseFloor (s : State) (reg : Nat) (floor raises : Fld) (v : Nat) : State :=
  let n := s.fld a_MG_FLOOR raises
  if n < 16 ∧ s.fld reg floor < v then (s.setFld reg floor v).setFld a_MG_FLOOR raises (n + 1) else s

/-- The licence takes effect (R5, R362, R363). -/
def applyLicence (s : State) : State :=
  match s.chosenLicence with
  | none => s.wr a_MG_LICENCE (regReset a_MG_LICENCE)
  | some (j, l) =>
    let w := MG_LICENCE_PORTS.set (MG_LICENCE_VFS.set (MG_LICENCE_CTX.set 0 l.ctx) l.vfs) l.ports
    let w := MG_LICENCE_PARTS.set (MG_LICENCE_DUMP.set (MG_LICENCE_FP46.set w l.fp46) l.dump) l.parts
    let w := MG_LICENCE_VALID.set (MG_LICENCE_SEQ.set w l.seq) 1
    let t := (s.wr a_MG_LICENCE w).extendMeasure 5 (s.objBytes (licenceArea j))
    if l.bump then t.raiseFloor a_MG_LICFLOOR MG_LICFLOOR_LIC_FLOOR MG_FLOOR_LIC_RAISES l.seq else t

end State
end Sys2Proof.Machine
end

