-- ==== Sys2Proof/Machine/Resets.lean ====
section
/-! DEFINITION. Resets (R30, R31, R45, R220, R349, R372, R388), the start of a bring-up (R360, R361, R364, R371), and
on-package links (R19–R27). -/

namespace Sys2Proof.Machine

/-- The dies a link joins (R19): 0 to 5 BURLn, 6 HEAD, 7 and 8 the Tailstocks. -/
def linkEnds (l : Nat) : Nat × Nat := linkPairs.getD l (6, 8)

/-- Physical bundles of a link (R19). -/
def linkPhysical (l : Nat) : Nat := linkLogical l + linkSpares l

/-- The die reset that a failing link asks for, as an escalation code: 0 to 5 BURLn, 7 and 8 a Tailstock (R26). -/
def linkEscalation (l : Nat) : Nat :=
  if l < 6 then l
  else if l = 6 then 0
  else if l = 7 then 1
  else if l = 8 then 3
  else if l = 9 then 4
  else if l = 10 then 0
  else if l = 11 then 3
  else if l = 12 then 2
  else if l = 13 then 5
  else l - 7

/-- The links of a die. -/
def linksOf (d : Nat) : List Nat := (List.range 16).filter (fun l => (linkEnds l).1 == d || (linkEnds l).2 == d)

/-- Link states (R27). -/
def lsDOWN : Nat := 0
def lsACTIVE : Nat := 2
def lsDEGRADED : Nat := 3
def lsIN_RESET : Nat := 4

/-- Reduces a requested split to W bundles: TILE down to 4, then COHERENT down to 4, then CONTROL down to 1 (R24). -/
def reduceSplit (coh tile ctrl w : Nat) : Nat × Nat × Nat :=
  let cut := coh + tile + ctrl - w
  let t := min cut (tile - 4)
  let c := min (cut - t) (coh - 4)
  (coh - c, tile - t, ctrl - min (cut - t - c) (ctrl - 1))

namespace State

/-- A record about a link. -/
def faultLink (s : State) (l : Nat) (fatal : Bool) : State :=
  s.fault .device { s.record cLINK with fatal := fatal, die := (linkEnds l).1, unit := 64 + l }

/-- A link goes down into a state; its roles carry nothing. -/
def dropLink (s : State) (l st : Nat) : State :=
  let a := a_LK_STATUS l
  let w := [LK_STATUS_COH_USE, LK_STATUS_TILE_USE, LK_STATUS_CTRL_USE, LK_STATUS_BUNDLES_OK].foldl (fun w f => f.set w 0) (s.rd a)
  (s.wr a (LK_STATUS_STATE.set w st)).setLink l Link.init

/-! ### Die resets (R30, R45, R349) -/

/-- Resets a domain that is on: it acts again when its reset ends. What its supply does goes on (R49, R51, R321). -/
def holdDom (s : State) (i : Nat) : State :=
  s.setDom i { s.dom i with inReset := true, halved := false, lowered := 0, cfgWrites := [] }

/-- A die's reset begins: its links go to IN_RESET, its replica is no longer synchronised, as SYNC_OK shows (R45, R47). -/
def enterDie (s : State) (d : Nat) : State :=
  let t := (linksOf d).foldl (fun t l => t.dropLink l lsIN_RESET) s
  (t.setFld a_MG_TSYNC MG_TSYNC_SYNC_OK (natSetBit (t.fld a_MG_TSYNC MG_TSYNC_SYNC_OK) d false)).setDie d { Die.init with inReset := true }

/-- A die reset of a Burl: its network domain resets and its partitions recover from step 4 on (R30, R349). -/
def burlReset (s : State) (b : Nat) : State :=
  let t := ((s.enterDie b).holdDom (domNet b))
  [0, 1, 2, 3].foldl (fun t k => t.enterByDie (4 * b + k)) t

/-- The routing table, device number and timeout, which the other Tailstock's switch holds a copy of (chapter 13, Registers): they
return from it after a reset of TAIL0 unless that switch is away too. -/
def keepRouting (s old : State) : State :=
  if !old.domOn 120 then s
  else
    let copied := (regFind a_FB_DEVID).toList.map (fun x => x.1.cls) ++ (regFind a_FB_TIMEOUT).toList.map (fun x => x.1.cls)
      ++ (regFind (a_FB_ROUTE 0)).toList.map (fun x => x.1.cls)
    (old.regs.filter (fun e => (regFind e.1).any (fun x => copied.contains x.1.cls))).foldl (fun t e => t.wr e.1 e.2) s

/-- A reset of a Tailstock: its switch and lane islands, with TAIL0 the host interface; ports go down, and what was sent on
them is neither resent nor reported (R30, R288, R298). -/
def tailReset (s : State) (n : Nat) : State :=
  let doms := (119 + n) :: (List.range 4).map (fun m => 111 + 4 * n + m)
  let t := ((s.enterDie (7 + n)).resetDoms (fun d => doms.contains d)).keepRouting s
  let t := { t with asks := t.asks.filter (fun a => a.who != naTail n && (n != 0 || a.who != naHost)) }
  let t := (List.range 8).foldl (fun t k => t.setPort (8 * n + k) Port.init) t
  let t := doms.foldl (fun t d => t.holdDom d) t
  if n = 0 then ((t.hostReset).resetDoms (fun d => d == 121)).holdDom 121 else t

/-- A die leaves its reset once its replica has completed a synchronisation round; a Burl whose link did not train stays
(R24, R45). -/
def dieExit (s : State) (d : Nat) : State :=
  if !(s.die d).inReset || !(s.die d).synced || (decide (d < 6) && !(s.link d).up) then s
  else
    let t := s.setDie d { s.die d with inReset := false, lastMsg := s.now }
    let mine := (List.range 122).filter (fun i => dieOfDom i == d && (s.dom i).inReset && !(s.dom i).switchOn)
    mine.foldl (fun t i => if i = 121 && !t.hostLink.perst then t else t.setDom i { t.dom i with inReset := false }) t

/-! ### Device resets (R30, R220, R372) -/

/-- What every device reset and power-off loses: registers outside Banjo, memories, contexts, keys but those the root of
trust keeps over a warm reset, everything under way (R220, R386). LK_REPAIR.FIELD stays until a cold reset, and LK_ROLE, which takes
effect at the training that follows (R23). -/
def loseDevice (s : State) : State :=
  let field := (List.range 16).filter (fun l => s.flag (a_LK_REPAIR l) LK_REPAIR_FIELD)
  let t := (s.resetDoms (fun d => d < 122)).setFld a_MG_TSYNC MG_TSYNC_SYNC_OK 0
  let t := { t with
    flips := [], tsFlips := [], asks := []
    mem := [], units := [], ts := [], tsPoison := [], tsDirty := [], t2Era := s.t2Era + 1, sram := []
    keys := Sparse.drop (fun k => decide (k < 6144) || decide (6148 ≤ k)) t.keys
    ctxs := [], parts := [], jobs := [], epochs := [], bead := [], semWaits := [], barWaits := [], homes := []
    agents := [], slices := [], cores := [], net := [], lowered := [], links := [], queues := [], fns := []
    hostLink := { t.hostLink with up := false, reply := [] }
    ports := [], remotes := [], linkFaultAt := [], chans := []
    held := t.held.filter (fun h => h.1 == .device)
    sessions := t.sessions.filter (fun x => x.2 == 2)
    measures := Sparse.drop (fun k => decide (16 ≤ k)) t.measures
    mg := { t.mg with cells := [], sealed := [], dumpFor := [], broadcasts := 0, imaged := 0, retrained := false, retrainAt := none,
                      updSession := none, devRseq := 0 } }
  let t := field.foldl (fun t l => t.setFld (a_LK_REPAIR l) LK_REPAIR_FIELD 1) t
  (List.range 6).foldl (fun t l => t.wr (a_LK_ROLE l) (s.rd (a_LK_ROLE l))) t

/-- Every domain outside Banjo takes a new state: held in reset or off. -/
def allDoms (s : State) (f : Nat → Dom) : State :=
  (List.range 122).foldl (fun t i =>
    let x := f i
    ((t.setDom i x).setFld (a_PW_DOMSTAT i) PW_DOMSTAT_ON (b2n x.on)).setFld (a_PW_DOMSTAT i) PW_DOMSTAT_BUSY 0
      |>.setFld (a_PW_DOMSTAT i) PW_DOMSTAT_DAMPED 0) s

/-- Bring-up stops at L0 (R361, R373). -/
def halt (s : State) (code : Nat) : State := s.setFld a_MG_BOOTSTAT MG_BOOTSTAT_HALT code
def halted (s : State) : Bool := s.fld a_MG_BOOTSTAT MG_BOOTSTAT_HALT != 0

/-- Banjo firmware runs. -/
def firmware (s : State) : Bool := s.mg.phase == 2 && decide (s.mg.restart ≤ s.now)

/-! ### Bring-up (R360, R361, R363, R364, R371) -/

/-- A WRITE of an object to one of Banjo's registers. -/
def banjoWrite (s : State) (a : Nat) (v : Word) : State :=
  match regFind a with
  | none => s
  | some (r, ix) =>
    let i := ix.headD 0
    match r.cls with
    | .pwPkgcap => s.stage a v
    | .pwSplit => s.stage a v
    | .pwCommit => if PW_COMMIT_GO.get v = 1 then s.pwCommitGo else s
    | .pwTherm => s.setThrottle (PW_THERM_THROTTLE_C.get v)
    | .pwDomctl => (s.setMv i (PW_DOMCTL_SET_MV.get v)).switchReq i (PW_DOMCTL_ON.get v == 1)
    | _ => s

/-- CONFIG_MISMATCH events counted so far in the records held for merging. -/
def configEvents (s : State) : Nat :=
  ((s.held.map (fun h => h.2)) ++ s.parts.flatMap (fun p => p.2.hold)).foldl
    (fun n r => if r.cls = cCONFIG then n + r.count else n) 0

/-- Runs one WRITE of the configuration and counts a refused commit (R360). -/
def countRefused (s : State) (f : State → State) : State :=
  if s.configEvents < (f s).configEvents then (f s).bump a_MG_BOOTSTAT MG_BOOTSTAT_CFG_REFUSED 1 else f s

/-- A WRITE names a partition or a port outside the licensed set (R360). -/
def outsideLicence (s : State) (a : Nat) : Bool :=
  match regFind a with
  | none => true
  | some (r, ix) =>
    match r.domain with
    | .partCtl => !s.enabled (ix.headD 0)
    | .portSw => !s.portLicensed (ix.headD 0)
    | .fixed _ => false

/-- Hands the WRITEs to the domains they wait for; those of Banjo's own domains act at once (R360). -/
def giveWrites (s : State) (ws : List (Nat × Word)) : State :=
  ws.foldl (fun t w =>
    if t.outsideLicence w.1 then t
    else match domOfAddr w.1 with
      | none => t
      | some d =>
        if 122 ≤ d then t.countRefused (fun t => t.banjoWrite w.1 w.2)
        else t.setDom d { t.dom d with cfgWrites := (t.dom d).cfgWrites ++ [w] }) s

/-- The domains a bring-up switches on: everything but what no enabled partition, present quad or licensed port uses
(R287, R371). DEDUCED, unsafe (log entry 33). -/
def bringsUp (s : State) (i : Nat) : Bool :=
  if i < 72 then s.enabled (i / 3)
  else if i < 78 then true
  else if i < 104 then !(s.coresOf (i - 78)).isEmpty
  else if i < 111 then true
  else if i < 119 then s.portLicensed (2 * (i - 111)) || s.portLicensed (2 * (i - 111) + 1)
  else i < 122

/-- Bring-up goes on with the objects at hand: enabled set, the order to switch on every domain, the WRITEs. -/
def goOn (s : State) : State :=
  let en := enabledSet (s.fld a_MG_LICENCE MG_LICENCE_PARTS) s.mg.partSet
  let t := s.setFld a_MG_PARTEN MG_PARTEN_ENABLED (en.foldl (fun n p => n + 2 ^ p) 0)
  let t := (List.range 122).foldl (fun t i =>
    if t.bringsUp i then
      (t.setDom i { t.dom i with switchOn := true, railAt := t.now }).setFld (a_PW_DOMCTL i) PW_DOMCTL_ON 1
    else t) t
  t.giveWrites (s.mg.image ++ s.mg.overlayImage)

/-- The overlay's number for this start (R361). -/
def modeFor (s : State) (warm : Bool) : Nat :=
  if warm && s.flag a_MG_MODE MG_MODE_OVR_VALID then s.fld a_MG_MODE MG_MODE_OVR_MODE else s.mg.strapMode

/-- The overlay is read and applied (R361): absent it leaves the base record alone, invalid it stops bring-up with SEC. -/
def readOverlay (s : State) (m : Nat) : State :=
  let t := s.setFld a_MG_BOOTSTAT MG_BOOTSTAT_MODE m
  match s.overlayRecord m with
  | none => (t.faultDev cSEC 9 224).halt 3
  | some none =>
    ({ t with mg := { t.mg with overlayImage := [], overlay := m + 1 } }.setFld a_MG_BOOTSTAT MG_BOOTSTAT_OVERLAY_USED 0).goOn
  | some (some ws) =>
    (({ t with mg := { t.mg with overlayImage := ws, overlay := m + 1 } }.setFld a_MG_BOOTSTAT MG_BOOTSTAT_OVERLAY_USED 1).extendMeasure
      4 (s.objBytes (overlayArea m))).goOn

/-- Banjo reads the flash: slot, base record, licences, overlay; each step may stop bring-up at L0 (R354, R357, R361). -/
def readFlash (s : State) (m : Nat) : State :=
  if !s.flashFitted then { s with mg := { s.mg with phase := 1 } }.halt 5
  else match s.chooseSlot with
    | none => { s with mg := { s.mg with phase := 1 } }.halt 1
    | some (k, fb) =>
      let t := { s with mg := { s.mg with phase := 2, updStaged := false } }
      let t := (t.setFld a_MG_BOOTSTAT MG_BOOTSTAT_SLOT k).setFld a_MG_BOOTSTAT MG_BOOTSTAT_FALLBACK (b2n fb)
      let t := t.extendMeasure 2 (s.objBytes (slotArea k))
      if !t.flag a_MG_CFG MG_CFG_OWNER_KEY then t.halt 4
      else match t.baseRecord with
        | none => (t.faultDev cSEC 9 224).halt 2
        | some es =>
          let t := { t with mg := { t.mg with
            image := writesOf es
            partSet := ((itemOf 2 es).map ofLeBytes).getD 0xFFFFFF
            dumpKey := (itemOf 1 es).isSome } }
          ((t.extendMeasure 3 (s.objBytes baseArea)).applyLicence).readOverlay m

/-- The sequence after the reset of R30: the image in SRAM is applied again, or the flash is read when another overlay is
named or an update is staged (R372); it waits while WARM_RST_N is low (R406). -/
def resume (s : State) : State :=
  let m := s.modeFor true
  let t := { s with mg := { s.mg with warmHeld := false } }
  if t.pins.lostMem.contains 6 then t.halt 7
  else if t.mg.overlay ≠ m + 1 || t.mg.updStaged then
    { t with measures := Sparse.drop (fun k => decide (2 ≤ k) && decide (k ≤ 5)) t.measures }.readFlash m
  else t.goOn

/-- A warm device reset (R372). Episodes under way are absorbed by an escalation (R349). -/
def warmReset (s : State) (escalated : Bool) : State :=
  let t := if escalated then (List.range 24).foldl (fun t p =>
      if (t.part p).episode.isSome then t.recovery p evESCALATED none else t) s else s
  let t := t.loseDevice
  let t := t.allDoms (fun i => { Dom.init with on := (s.dom i).on, inReset := true })
  let t := { t with dies := (List.range 9).map (fun d => (d, { Die.init with inReset := true })) }
  let b := a_MG_BOOTSTAT
  let t := (((t.setFld b MG_BOOTSTAT_LEVEL 0).setFld b MG_BOOTSTAT_WARM 1).setFld b MG_BOOTSTAT_JOINED 0).halt 0
  let t := t.setFld b MG_BOOTSTAT_SCRUBBED 0
  let t := t.logEvent 371
  if t.pins.warmRstN then t.resume else { t with mg := { t.mg with warmHeld := true } }

/-- An escalation proceeds (R349): 0 to 5 BURLn, 6 warm device reset, 7 and 8 a Tailstock. -/
def escalateNow (s : State) (code : Nat) : State :=
  if code < 6 then s.burlReset code else if code = 6 then s.warmReset true else s.tailReset (code - 7)

/-- A fault escalates: a dump is written first where one can be (R349, R350). -/
def escalate (s : State) (code : Nat) (cause : List Word) : State :=
  let (t, wait) := s.startDump cause (some code)
  if wait then t else t.escalateNow code

/-! ### Links (R21–R27) -/

/-- LK_COMMIT.GO (R22). -/
def roleCommit (s : State) (l : Nat) : State :=
  let a := a_LK_ROLE l
  let c := s.stagedFld a LK_ROLE_COH_N
  let t := s.stagedFld a LK_ROLE_TILE_N
  let k := s.stagedFld a LK_ROLE_CTRL_N
  if c + t + k = 32 ∧ 4 ≤ c ∧ 4 ≤ t ∧ 1 ≤ k ∧ k ≤ 4 then
    (s.commit [a]).setFld (a_LK_STATUS l) LK_STATUS_COMMIT_RESULT 1
  else ((s.discard [a]).fault .device { s.record cCONFIG with die := 6, unit := 64 + l }).setFld (a_LK_STATUS l)
    LK_STATUS_COMMIT_RESULT 2

/-- The physical bundles that a link's fuses leave as its logical ones, in ascending order (R21, R365). -/
def logicalBundles (s : State) (l : Nat) : List Nat :=
  ((List.range (linkPhysical l)).filter (fun b => !natBit (s.fld (a_LK_REPAIR l) LK_REPAIR_OUT_MAP) b)).take (linkLogical l)

/-- A link may train: both ends are on, it stands DOWN or IN_RESET, and its Burl is not held after a training that failed (R23, R24,
R27). -/
def mayTrain (s : State) (l : Nat) : Bool :=
  let dom (d : Nat) : Nat := if d < 6 then domNet d else if d = 6 then domHome else 119 + (d - 7)
  let st := s.fld (a_LK_STATUS l) LK_STATUS_STATE
  (s.dom (dom (linkEnds l).1)).on && (s.dom (dom (linkEnds l).2)).on && s.domOn domHome && (st == lsDOWN || st == lsIN_RESET)
    && !(decide (l < 6) && (s.die l).untrained)

/-- Training ends (R24, R26, R408). DESIGN CHOICE, unsafe (log entry 32): roles go to bundles in ascending order. -/
def train (s : State) (l working : Nat) : State :=
  if !s.mayTrain l then s
  else
    let ls := s.logicalBundles l
    let ok := if l < 6 && s.pins.lostMem.contains l then [] else ls.filter (fun b => natBit working b)
    let w := ok.length
    let a := a_LK_STATUS l
    let t := if w < ls.length then s.setFld (a_LK_REPAIR l) LK_REPAIR_FIELD 1 else s
    if l < 6 then
      if w < 9 then
        let t := (t.faultLink l true).enterDie l
        (t.setDie l { t.die l with untrained := true }).holdDom (domNet l)
      else
        let r := a_LK_ROLE l
        let (c, tl, k) := reduceSplit (t.fld r LK_ROLE_COH_N) (t.fld r LK_ROLE_TILE_N) (t.fld r LK_ROLE_CTRL_N) w
        let t := (((t.setFld a LK_STATUS_COH_USE c).setFld a LK_STATUS_TILE_USE tl).setFld a LK_STATUS_CTRL_USE k).setFld a
          LK_STATUS_BUNDLES_OK w
        (t.setFld a LK_STATUS_STATE lsACTIVE).setLink l
          { bundles := (ok.zipIdx).map (fun x => (x.1, if x.2 < c then 0 else if x.2 < c + tl then 1 else 2)), retries := [],
            words := [], sent := 0, up := true }
    else if w < linkLogical l then
      let r := { t.record cLINK with fatal := true, die := (linkEnds l).1, unit := 64 + l }
      ((t.dropLink l lsDOWN).fault .device r).escalate (linkEscalation l) (r.words 1)
    else
      ((t.setFld a LK_STATUS_BUNDLES_OK w).setFld a LK_STATUS_STATE lsACTIVE).setLink l
        { bundles := ok.map (fun b => (b, 3)), retries := [], words := [], sent := 0, up := true }

/-- The status field that counts a role's bundles. -/
def roleField (r : Nat) : Fld := if r = 0 then LK_STATUS_COH_USE else if r = 1 then LK_STATUS_TILE_USE else LK_STATUS_CTRL_USE

/-- The words in a bundle's replay buffer, by number, in order. -/
def replay (x : Link) (bundle : Nat) : List Nat := ((x.words.find? (fun w => w.1 == bundle)).map (fun w => w.2)).getD []

/-- A bundle's replay buffer holds some words. -/
def setReplay (x : Link) (bundle : Nat) (ws : List Nat) : Link :=
  { x with words := x.words.filter (fun w => w.1 != bundle) ++ (if ws = [] then [] else [(bundle, ws)]) }

/-- A bundle is retired after four failures of one word: its unacknowledged words go behind those of another bundle of its role, in
their order; a role without a bundle, or any retirement on links 6 to 15, fails the link (R25, R26). -/
def retire (s : State) (l bundle role : Nat) : State :=
  let x := s.link l
  let a := a_LK_STATUS l
  let rest := x.bundles.filter (fun b => b.1 != bundle)
  let y := setReplay { x with bundles := rest, retries := x.retries.filter (fun r => r.1 != bundle) } bundle []
  let t := s.setLink l (match rest.find? (fun b => b.2 == role) with
    | some b => setReplay y b.1 (replay y b.1 ++ replay x bundle)
    | none => y)
  let t := (t.setFld (a_LK_REPAIR l) LK_REPAIR_FIELD 1).setFld a LK_STATUS_BUNDLES_OK rest.length
  let t := if l < 6 then t.setFld a (roleField role) ((rest.filter (fun b => b.2 == role)).length) else t
  let t := (t.setFld a LK_STATUS_STATE lsDEGRADED).faultLink l false
  if decide (6 ≤ l) || !rest.any (fun b => b.2 == role) then
    let r := { t.record cLINK with fatal := true, die := (linkEnds l).1, unit := 64 + l }
    ((t.setLink l { t.link l with up := false }).fault .device r).escalate (linkEscalation l) (r.words 1)
  else t

/-- A word arrives on a bundle (R25). A good one leaves the replay buffer. The words that stand behind a refused one are as many as
the buffer of 16 words holds: a free number.
DESIGN CHOICE, safe (log entry 32): words have numbers and no contents. -/
def takeWord (s : State) (l bundle : Nat) (fate : WordFate) : State :=
  let x := s.link l
  match x.bundles.find? (fun b => b.1 == bundle) with
  | none => s
  | some (_, role) =>
    if !x.up || !s.domOn domHome then s
    else
      let clear := setReplay { x with retries := x.retries.filter (fun r => r.1 != bundle) } bundle ((replay x bundle).drop 1)
      match fate with
      | .good => s.setLink l clear
      | .corrected => (s.setLink l clear).bump (a_LK_ERRCNT l) LK_ERRCNT_CORRECTED 1
      | .refused =>
        let n := ((x.retries.find? (fun r => r.1 == bundle)).map (fun r => r.2)).getD 0 + 1
        let k := 1 + Config.freeNat s.fresh % 16
        let held := if replay x bundle = [] then
            { setReplay x bundle ((List.range k).map (fun i => x.sent + i)) with sent := x.sent + k }
          else x
        let s := { s with fresh := s.fresh + 1 }.setLink l held
        if n < 4 then
          (s.setLink l { held with retries := x.retries.filter (fun r => r.1 != bundle) ++ [(bundle, n)] }).bump (a_LK_ERRCNT l) LK_ERRCNT_RESENDS 1
        else s.retire l bundle role

/-! ### Time base and references (R42, R46, R408) -/

/-- A round is due: a millisecond has passed since the last one, or a die waits for its first (R42, R45). -/
def roundDue (s : State) : Bool :=
  decide (s.tsyncAt = 0) || decide (s.tsyncAt - 1 + 1000000 ≤ s.now) || (List.range 9).any (fun d => !(s.die d).synced)

/-- A replica after a round found it x ns ahead or behind: within 100 ns, so that two readers differ by at most 200, and never
stepping back while it takes timestamps: it is slewed or pauses (R42).
DESIGN CHOICE, unsafe (log entry 60): which way it stood off is free. -/
def slewed (s : State) (d x : Nat) : Die :=
  let y := s.die d
  let m : Int := (min x 100 : Nat)
  let off : Int := if Config.freeBool (s.fresh + d) then -m else m
  { y with
    synced := true
    offset := if y.synced then max off ((s.dieNow d : Int) - (s.now : Int)) else off
    offsetAt := s.now }

/-- A synchronisation round: the offsets of the dies in ns and the dies that answered (R42, R47). -/
def syncRound (s : State) (offsets : List Nat) (answered : Nat) : State :=
  let got := (offsets.take 9).zipIdx.filter (fun x => natBit answered x.2)
  let a := a_MG_TSYNC
  let good := got.filter (fun x => decide (x.1 ≤ 200))
  let t := s.setFld a MG_TSYNC_MAX_OFFSET (min 0xFFFF (got.foldl (fun m x => max m x.1) 0))
  let t := t.setFld a MG_TSYNC_SYNC_OK (good.foldl (fun n x => n + 2 ^ x.2) 0)
  good.foldl (fun t x => t.setDie x.2 (s.slewed x.2 x.1)) { t with fresh := t.fresh + 9, tsyncAt := t.now + 1 }

/-- A reference of R408 is lost. DEDUCED, unsafe (log entry 34): the UNIT of the record. -/
def loseClock (s : State) : RefClock → State
  | .mem n =>
    if s.pins.lostMem.contains n.val then s
    else
      let t := { s with pins := { s.pins with lostMem := s.pins.lostMem ++ [n.val] } }
      if n.val < 6 then
        (if t.domOn (domNet n) then
          let r := { t.record cLINK with fatal := true, die := n.val, unit := 255 }
          (t.fault .device r).escalate n (r.words 1)
         else t)
      else if t.mg.phase = 2 then ((t.setFld a_DD_TIER DD_TIER_ACTIVE 0).logEvent 350).warmReset true
      else t
  | .fab n =>
    if s.pins.lostFab.contains n.val then s
    else
      let t := { s with pins := { s.pins with lostFab := s.pins.lostFab ++ [n.val] } }
      (List.range 8).foldl (fun t k =>
        let p := 8 * n.val + k
        if t.portEnabled p then t.failPort p cLINK else t) t
  | .pcie =>
    let t := { s with pins := { s.pins with refPcie := false } }
    if t.hostLink.up then t.hostReset else t

/-- A reference returns (R408): a warm reset that it halted goes on. -/
def regainClock (s : State) : RefClock → State
  | .mem n =>
    let t := { s with pins := { s.pins with lostMem := s.pins.lostMem.filter (fun k => k != n.val) } }
    if n.val = 6 && s.pins.lostMem.contains 6 && t.fld a_MG_BOOTSTAT MG_BOOTSTAT_HALT == 7 then (t.halt 0).resume else t
  | .fab n => { s with pins := { s.pins with lostFab := s.pins.lostFab.filter (fun k => k != n.val) } }
  | .pcie => { s with pins := { s.pins with refPcie := true } }

end State

open State

/-- LK_COMMIT.GO: links 6 to 15 have no such register (R22, R27). -/
def execLkCommitGo (who : Requester) (link : Fin 16) (s : State) : Out' :=
  .next (if 6 ≤ link.val then s else s.gated who (a_LK_COMMIT link) (fun s => s.roleCommit link))

/-- LINK_WORD_RECEIVE (R25, R26). -/
def execLinkWordReceive (link : Fin 16) (bundle : Fin 40) (fate : WordFate) (s : State) : Out' :=
  .next (s.takeWord link bundle fate)

/-- LINK_TRAINING (R24). -/
def execLinkTraining (link : Fin 16) (working : BitVec 40) (s : State) : Out' := .next (s.train link working.toNat)

/-- DIE_RESET_EXIT (R45). -/
def execDieResetExit (die : Fin 9) (s : State) : Out' := .next (s.dieExit die)

/-- TSYNC_ROUND (R42). -/
def execTsyncRound (offsets : List Nat) (ok : BitVec 9) (s : State) : Out' :=
  .next (if s.firmware && s.roundDue then s.syncRound offsets ok.toNat else s)

/-- REF_LOST: holdover (R46). -/
def execRefLost (s : State) : Out' :=
  .next (
    if !s.pins.refMgmt then s
    else
      let t := { s with pins := { s.pins with refMgmt := false }, mg := { s.mg with refLostAt := s.now } }
      ((t.setFld a_MG_TSYNC MG_TSYNC_REF_LOST 1).setFld a_MG_TSYNC MG_TSYNC_REF_HOLDOVER 1).faultDev cLINK 9 224)

/-- REF_RESTORED: the reference has been in tolerance for 10 ms (R46). -/
def execRefRestored (s : State) : Out' :=
  .next (
    if s.pins.refMgmt || s.now < s.mg.refLostAt + 10000000 then s
    else { s with pins := { s.pins with refMgmt := true } }.setFld a_MG_TSYNC MG_TSYNC_REF_HOLDOVER 0)

/-- REFERENCE_CLOCK_LOST (R408). -/
def execReferenceClockLost (clk : RefClock) (s : State) : Out' := .next (s.loseClock clk)

/-- REFERENCE_CLOCK_RETURN (R408). -/
def execReferenceClockReturn (clk : RefClock) (s : State) : Out' := .next (s.regainClock clk)

/-- DUMP_DONE: the escalation that waited for the dump proceeds (R349, R350). -/
def execDumpDone (truncated : Bool) (s : State) : Out' :=
  .next (
    let (t, code) := dumpDone truncated s
    match code with
    | some c => t.escalateNow c
    | none => t)

/-- MG_RESETCTL.WARM: ignored with PROTO under the boot ROM alone (R372, R373). -/
def warmRequest (s : State) : State := if s.mg.phase = 2 then s.warmReset false else s.faultDev cPROTO 9 224

/-- MG_RESETCTL.WARM (R372). -/
def execMgResetctlWarm (who : Requester) (s : State) : Out' := .next (s.gated who a_MG_RESETCTL warmRequest)

/-- The writable fields of MG_IOCTL (R411). -/
def ioctlWrite (v : Word) (s : State) : State :=
  let fs := [MG_IOCTL_JTAG_DRV, MG_IOCTL_JTAG_SLEW, MG_IOCTL_UART_DRV, MG_IOCTL_UART_SLEW, MG_IOCTL_I3C_DRV, MG_IOCTL_I3C_SLEW,
    MG_IOCTL_RGMII_DRV, MG_IOCTL_RGMII_SLEW, MG_IOCTL_XSPI_DRV, MG_IOCTL_XSPI_SLEW, MG_IOCTL_OD_SLEW]
  s.wr a_MG_IOCTL (fs.foldl (fun w f => f.set w (f.get v)) 0)

/-- MG_IOCTL (R411). -/
def execMgIoctlWrite (who : Requester) (value : Word) (s : State) : Out' := .next (s.gated who a_MG_IOCTL (ioctlWrite value))

end Sys2Proof.Machine
end

