-- ==== Sys2Proof/Machine/Management.lean ====
section
/-! DEFINITION. Management and security (chapter 17): mailbox and Ethernet requests, updates, floors, context keys, cells,
SPDM, and the lockstep check (R374–R381, R384–R392). Channel 3 of State.chans is the Ethernet port. -/

namespace Sys2Proof.Machine

/-- Opcodes (R380). -/
def opSTATUS : Nat := 0x01
def opSET_MODE : Nat := 0x02
def opWARM_RESET : Nat := 0x03
def opLOG_READ : Nat := 0x04
def opDUMP_READ : Nat := 0x05
def opDUMP_RELEASE : Nat := 0x06
def opUPDATE_WRITE : Nat := 0x07
def opUPDATE_ACTIVATE : Nat := 0x08
def opFLOOR_RAISE : Nat := 0x09
def opKEY_CREATE : Nat := 0x10
def opKEY_IMPORT : Nat := 0x11
def opCELL_CREATE : Nat := 0x20
def opCELL_DESTROY : Nat := 0x21
def opSPDM : Nat := 0x30

/-- Completion codes (R379). -/
def mbOK : Nat := 0
def mbBAD_OPCODE : Nat := 1
def mbBAD_ARG : Nat := 2
def mbDENIED : Nat := 3
def mbFAILED : Nat := 4

/-- The channels an opcode is permitted on, 3 for Ethernet (R380). -/
def permitted (op ch : Nat) : Bool :=
  if op = opSTATUS || op = opLOG_READ || op = opDUMP_READ || op = opUPDATE_WRITE || op = opUPDATE_ACTIVATE || op = opSPDM then
    decide (ch ≤ 3)
  else if op = opSET_MODE || op = opWARM_RESET || op = opDUMP_RELEASE || op = opFLOOR_RAISE then
    decide (1 ≤ ch) && decide (ch ≤ 3)
  else if op = opKEY_IMPORT then decide (ch ≤ 2)
  else if op = opKEY_CREATE || op = opCELL_CREATE || op = opCELL_DESTROY then ch == 1 || ch == 2
  else false

/-- The channel number of a request's source. -/
def chanOf : ReqChannel → Nat
  | .mailbox ch => ch.val
  | .oob => 3

/-- Where a mailbox channel's control block and buffer lie (R378). -/
def chanBase (ch : Nat) : Nat := sramBase + 0x800000 + ch * 0x200000
def chanBuffer (ch : Nat) : Nat := chanBase ch + 0x100000

namespace State

/-! ### The mailbox (R255, R378, R379) -/

def sramByte (s : State) (a : Nat) : Byte := Sparse.get (fun _ => 0) s.sram a
def sramBytes (s : State) (a n : Nat) : List Byte := (List.range n).map (fun i => s.sramByte (a + i))
def sramWrite (s : State) (a : Nat) (bs : List Byte) : State := { s with sram := putBytes s.sram a bs }
def sramWord (s : State) (a : Nat) : Word := BitVec.ofNat 64 (ofLeBytes (s.sramBytes a 8))
def sramPut (s : State) (a : Nat) (w : Word) : State := s.sramWrite a (leBytes w.toNat 8)

/-- Argument i of the request in hand. -/
def arg (s : State) (ch i : Nat) : Nat :=
  if ch = 3 then ((s.chan 3).args.getD i 0).toNat else (s.sramWord (chanBase ch + 8 * (i + 1))).toNat

/-- The request bytes. -/
def reqBytes (s : State) (ch : Nat) : List Byte :=
  if ch = 3 then (s.chan 3).data else s.sramBytes (chanBuffer ch) (min (natBits (s.chan ch).req.toNat 31 0) 0x100000)

/-- A request is answered: buffer, RESP0, and STATUS last; then its interrupt (R379). -/
def respond (s : State) (ch code resp : Nat) (data : List Byte) : State :=
  let req := (s.chan ch).req.toNat
  let t := s.setChan ch Chan.init
  if ch = 3 then { t with outbox := t.outbox ++ [.oob code [BitVec.ofNat 64 resp] data] }
  else
    let t := (t.sramWrite (chanBuffer ch) data).sramPut (chanBase ch + 48) (BitVec.ofNat 64 resp)
    let t := t.sramPut (chanBase ch + 56) (BitVec.ofNat 64 (natBits req 63 48 * 2 ^ 48 + code * 2 ^ 40 + data.length))
    if natBit req 39 then
      (if ch = 0 then t.raiseMsix 0 (t.fld a_MG_MBXCFG MG_MBXCFG_CH0_MSIX)
       else t.raiseIrq (t.fld a_MG_MBXCFG (if ch = 1 then MG_MBXCFG_CH1_IRQ else MG_MBXCFG_CH2_IRQ)))
    else t

/-- An answer without a result. -/
def reply (s : State) (ch code : Nat) : State := s.respond ch code 0 []

/-- A request with an opcode is in hand and served: by the firmware, or by the boot ROM when it is an update request (R357,
R374). -/
def serves (s : State) (ch op : Nat) : Bool :=
  (s.chan ch).busy && natBits (s.chan ch).req.toNat 47 40 == op
    && (s.firmware || (s.mg.phase == 1 && (op == opUPDATE_WRITE || op == opUPDATE_ACTIVATE)))

/-- Serves a request. DEDUCED, unsafe (log entry 35). -/
def service (s : State) (ch : ReqChannel) (op : Nat) (f : State → Nat → State) : State :=
  if s.serves (chanOf ch) op then f s (chanOf ch) else s

/-- Who reaches a channel (R378). -/
def reachesChan (who : Requester) (ch : Nat) : Bool := who != .host || ch == 0 || ch == 3

/-- REQ is written (R379, R380). -/
def writeReq (s : State) (who : Requester) (ch : Nat) (req : Word) : State :=
  if who == .host && !s.hostReach true then s.unsupported
  else if !reachesChan who ch then s.unsupported.faultHost cSEC
  else if !s.alive domHome then s.faultDev cPROTO 6 255
  else if (s.chan ch).busy then s.faultDev cPROTO 9 224
  else
    let t := (s.sramPut (chanBase ch) req).setChan ch { busy := true, req := req, args := [], data := [] }
    if permitted (natBits req.toNat 47 40) ch then t else t.reply ch mbBAD_OPCODE

/-- A request on the Ethernet port: outside a session of the operator only SPDM messages are answered (R381). -/
def oobTake (s : State) (session op : Nat) (args : List Word) (data : List Byte) : State :=
  let inSession := s.sessions.contains (session, 2) && Config.operatorSession session
  if (s.chan 3).busy || s.mg.phase == 0 || !(inSession || op == opSPDM) then s
  else
    let t := s.setChan 3 { busy := true, req := BitVec.ofNat 64 (op * 2 ^ 40 + data.length), args := args, data := data }
    if permitted op 3 then t else t.reply 3 mbBAD_OPCODE

/-! ### Requests without secrets (R380) -/

def doSetMode (s : State) (ch : Nat) : State :=
  let a := s.arg ch 0
  if 15 < a % 2 ^ 63 then s.reply ch mbBAD_ARG
  else
    let t := if natBit a 63 then s.setFld a_MG_MODE MG_MODE_OVR_VALID 0
      else (s.setFld a_MG_MODE MG_MODE_OVR_VALID 1).setFld a_MG_MODE MG_MODE_OVR_MODE a
    t.reply ch mbOK

/-- LOG_READ: entries from the oldest on (R376, R377). The model's log is never altered, so no block fails. -/
def doLogRead (s : State) (ch : Nat) : State :=
  let n := s.arg ch 2
  if 1 < s.arg ch 0 || n = 0 || 16384 < n then s.reply ch mbBAD_ARG
  else
    let log := if s.arg ch 0 = 0 then s.volLog else s.perLog
    s.respond ch mbOK 0 (((log.drop (s.arg ch 1)).take n).flatMap bytesOfWords)

/-- The byte of a dump slot at an offset: the plaintext header where the model holds it, a free value elsewhere (R352);
the partition image in the last 4 MiB of slot 3, once written there (R366). DESIGN CHOICE, safe (log entry 37). -/
def dumpByteAt (s : State) (k o : Nat) : Byte :=
  if k = 3 ∧ dumpRoom 3 ≤ o ∧ s.mg.imageCopy = true then Config.imageByte (o - dumpRoom 3)
  else match s.dump k with
  | none => Config.dumpByte 0 (k * 2 ^ 29 + o)
  | some d =>
    let head := leBytes 1 4 ++ leBytes d.id 4 ++ leBytes d.time 8 ++ bytesOfWords d.cause ++ leBytes d.level 1
      ++ leBytes (b2n d.truncated) 1
    if o < head.length then head.getD o 0
    else if 88 ≤ o ∧ o < 96 then (leBytes d.len 8).getD (o - 88) 0
    else if 224 ≤ o ∧ o < 512 then 0
    else Config.dumpByte d.id o

def doDumpRead (s : State) (ch : Nat) : State :=
  let k := s.arg ch 0
  let o := s.arg ch 1
  let n := s.arg ch 2
  if 3 < k || 2 ^ 20 < n || 2 ^ 29 < o + n then s.reply ch mbBAD_ARG
  else s.respond ch mbOK 0 ((List.range n).map (fun i => s.dumpByteAt k (o + i)))

/-- The update session belongs to another channel (R380). -/
def updForeign (s : State) (ch : Nat) : Bool := s.mg.updSession.any (fun c => c != ch)

/-- The slot that does not run (R385). -/
def inactive (s : State) : Nat := 1 - s.fld a_MG_BOOTSTAT MG_BOOTSTAT_SLOT

def doUpdateWrite (s : State) (ch : Nat) : State :=
  let bs := s.reqBytes ch
  if s.updForeign ch then s.reply ch mbDENIED
  else if slotBytes < s.arg ch 0 + bs.length then s.reply ch mbBAD_ARG
  else
    let a := slotArea s.inactive + s.arg ch 0
    let f := (bs.zipIdx).foldl (fun m x => Sparse.put (fun _ => (0xFF : Byte)) m (a + x.2) x.1) s.flash
    { s with flash := f, mg := { s.mg with updSession := some ch } }.reply ch mbOK

def doUpdateActivate (s : State) (ch : Nat) : State :=
  if s.updForeign ch then s.reply ch mbDENIED
  else if s.slotOkAt s.inactive then
    ({ s with
        flash := Sparse.put (fun _ => (0xFF : Byte)) s.flash 0 (BitVec.ofNat 8 s.inactive)
        mg := { s.mg with updSession := none, updStaged := true } }.logEvent 385).reply ch mbOK
  else s.reply ch mbFAILED

def doFloorRaise (s : State) (ch : Nat) : State :=
  if s.flag a_MG_BOOTSTAT MG_BOOTSTAT_FALLBACK then s.reply ch mbDENIED
  else
    let v := s.objSvn (slotArea (s.fld a_MG_BOOTSTAT MG_BOOTSTAT_SLOT))
    ((s.raiseFloor a_MG_FLOOR MG_FLOOR_FW_FLOOR MG_FLOOR_FW_RAISES v).logEvent 380).reply ch mbOK

/-! ### Keys (R386–R388) -/

/-- A new key of the root of trust, loaded into every controller at an index.
DESIGN CHOICE, safe (log entry 36): a key is its identity. -/
def newKey (s : State) (k : Nat) : State := { s.setKey k s.mg.keyNext with mg := { s.mg with keyNext := s.mg.keyNext + 1 } }

/-- KEY_CREATE and KEY_IMPORT are denied (R387). -/
def keyDenied (s : State) (id : Nat) (sealing : Bool) : Bool :=
  !s.slotOk (id % 256) || s.cstate id != 0 || s.keyAt id != 0 || (sealing && s.flag a_MG_CFG MG_CFG_DEBUG_OPEN)

/-- A context key is loaded; a SEALED one is measured, with its source, and logged (R377, R384, R387). -/
def loadCtxKey (s : State) (id : Nat) (sealing : Bool) (source : List Byte) : State :=
  let t := s.newKey id
  if sealing then
    ({ t with mg := { t.mg with sealed := id :: t.mg.sealed } }.extendMeasure 12
      (leBytes id 2 ++ leBytes (s.tenantOf id) 2 ++ source)).logEvent 387
  else t

def doKeyCreate (s : State) (ch : Nat) : State :=
  let id := s.arg ch 0
  let sealing := natBit (s.arg ch 1) 0
  if 6144 ≤ id then s.reply ch mbBAD_ARG
  else if s.keyDenied id sealing then s.reply ch mbDENIED
  else (s.loadCtxKey id sealing [BitVec.ofNat 8 opKEY_CREATE]).reply ch mbOK

def doKeyImport (s : State) (ch : Nat) : State :=
  let id := s.arg ch 0
  let n := s.arg ch 1
  if 6144 ≤ id then s.reply ch mbBAD_ARG
  else if s.keyDenied id true then s.reply ch mbDENIED
  else if s.sessions.any (fun x => x.1 == n) && Config.unwrapOk n (s.reqBytes ch) then
    (s.loadCtxKey id true (BitVec.ofNat 8 opKEY_IMPORT :: Config.requesterDigest n)).reply ch mbOK
  else s.reply ch mbFAILED

/-! ### Quads and cells (R240, R392) -/

/-- A quad has drained: its store buffers are empty, no request is open, every line is written back and invalid; none while
it cannot be (R240). -/
def quadDrained (s : State) (q : Nat) : Option State :=
  if (s.coresOf q).any (fun c => !s.agentQuiet c || s.remotes.any (fun x => x.pp == coresPP && x.ref.slot == c)) then
    none
  else
    ((s.coresOf q).foldl (fun acc c => acc.bind (fun t => t.drainStores c)) (some s)).map (fun t =>
      (s.coresOf q).foldl (fun t c => (t.emptyAgent c).setCore c CoreSt.init) t)

/-- A domain is on or off, with its report. -/
def setOn (s : State) (i : Nat) (on : Bool) : State :=
  (((s.setDom i { Dom.init with on := on }).setFld (a_PW_DOMSTAT i) PW_DOMSTAT_ON (b2n on)).setFld (a_PW_DOMSTAT i)
    PW_DOMSTAT_BUSY 0).setFld (a_PW_DOMSTAT i) PW_DOMSTAT_DAMPED 0

/-- A quad that has drained is off; a cell on it ends (R392). -/
def quadOff (s : State) (q : Nat) : State :=
  let t := s.endCell q
  ((if s.hasCell q then t.logEvent 393 else t).setOn (domQuad q) false).setFld (a_PW_DOMCTL (domQuad q)) PW_DOMCTL_ON 0

/-- A range lies in T2 outside the crash dump reserve. -/
def cellRange (s : State) (a n : Nat) : Bool := decide (t2Base ≤ a) && s.memRange a n && s.clearOfReserve a n

/-- The cores of a cell start under its key (R390, R392). -/
def startCell (s : State) (q tenant at_ : Nat) : State :=
  let t := (s.setOn (domQuad q) true).setFld (a_PW_DOMCTL (domQuad q)) PW_DOMCTL_ON 1
  (s.coresOf q).foldl (fun t c =>
    let a := a_HS_COREKEY c
    (((t.setFld a HS_COREKEY_CELL 1).setFld a HS_COREKEY_CELL_TENANT tenant).setFld a HS_COREKEY_KEYIDX (6152 + q)).setCore c
      { CoreSt.init with key := 6152 + q, startAt := at_ }) { t with mg := { t.mg with cells := (q, tenant) :: t.mg.cells } }

def doCellCreate (s : State) (ch : Nat) : State :=
  let q := s.arg ch 0
  let tenant := s.arg ch 1 % 65536
  let src := s.arg ch 2
  let n := s.arg ch 3
  let dst := s.arg ch 4
  let digest := (s.reqBytes ch).take 48
  if 26 ≤ q || (s.coresOf q).isEmpty || !s.cellRange src n || !s.cellRange dst n then s.reply ch mbBAD_ARG
  else s.asking naBanjo [⟨src, n⟩, ⟨dst, n⟩] (fun s => match s.quadDrained q with
    | none => s
    | some t =>
      let t := (t.quadOff q).newKey (6152 + q)
      let image := (t.readMem keyOPERATOR src n).1
      let t := ({ t with fresh := t.fresh + 1 }.readAs clsBanjo keyOPERATOR src n).1
      if Config.sha384 image = digest then
        ((((t.writeMem (6152 + q) dst image false).extendMeasure (16 + q) (leBytes tenant 2 ++ digest)).startCell q tenant
          dst).logEvent 392).reply ch mbOK
      else (t.setKey (6152 + q) 0).reply ch mbFAILED)

def doCellDestroy (s : State) (ch : Nat) : State :=
  let q := s.arg ch 0
  if 26 ≤ q || !s.hasCell q then s.reply ch mbBAD_ARG
  else match s.quadDrained q with
    | none => s
    | some t => (t.quadOff q).reply ch mbOK

/-! ### SPDM (R281, R384) -/

/-- The measurements in index order (R384). -/
def measurements (s : State) : List (List Byte) :=
  ([1, 2, 3, 4, 5, 6, 12] ++ (List.range 26).map (fun q => 16 + q)).map (fun i => s.measure i)

/-- The alias key of this boot, with which the responder signs (R383). -/
def aliasKey (s : State) : Nat := Config.aliasKey Config.deviceSecret ([1, 2, 3, 4, 5].map (fun i => s.measure i))

/-- What the responder answers to a message (R384). -/
def spdmAnswer (s : State) (msg : List Byte) : List Byte := Config.spdmAnswer s.aliasKey msg s.measurements s.fresh

/-- The responder takes one message on a transport (0 DOE, 1 mailbox, 2 Ethernet): its answer, and the session it opens or
ends. -/
def spdmTake (s : State) (transport : Nat) (msg : List Byte) : State × List Byte :=
  let ended := s.sessions.filter (fun x => !(x.2 == transport && Config.spdmEnds msg == some x.1))
  let now_ := match Config.spdmOpens msg with
    | some n => if ended.contains (n, transport) then ended else ended ++ [(n, transport)]
    | none => ended
  ({ s with sessions := now_, fresh := s.fresh + 1 }, s.spdmAnswer msg)

def doSpdm (s : State) (ch : Nat) : State :=
  let (t, ans) := s.spdmTake (if ch = 3 then 2 else 1) (s.reqBytes ch)
  t.respond ch mbOK 0 ans

/-- A message on the DOE mailbox of PF0; its secured session may set the IDE stream (R281). -/
def doeTake (s : State) (msg : List Byte) : State :=
  if !s.hostLink.up || !s.alive 121 || s.mg.phase == 0 then s
  else
    let (t, ans) := s.spdmTake 0 msg
    { t.setFld a_HI_LINK HI_LINK_IDE_ACTIVE (b2n (Config.ideAfter msg (t.fld a_HI_LINK HI_LINK_IDE_ACTIVE == 1))) with
      outbox := t.outbox ++ [.doe ans] }

/-- A lockstep mismatch: both cores restart within 50 ms, requests in progress fail (R374). -/
def lockstep (s : State) : State :=
  let t := { s with mg := { s.mg with restart := s.now + 50000000 } }.faultDev cPROTO 9 224
  (List.range 4).foldl (fun t ch => if (t.chan ch).busy then t.reply ch mbFAILED else t) t

end State

open State

/-- MAILBOX_REQ_WRITE (R379). -/
def execMailboxReqWrite (who : Requester) (ch : Fin 3) (req : Word) (s : State) : Out' := .next (s.writeReq who ch req)

/-- MAILBOX_CH3_HOST_WRITE: QW0 of channel 3 raises CH3_IRQ (R378). -/
def execMailboxCh3HostWrite (value : Word) (s : State) : Out' :=
  .next (
    if !s.hostReach true then s.unsupported
    else if !s.alive domHome then s.faultDev cPROTO 6 255
    else (s.sramPut (chanBase 3) value).raiseIrq (s.fld a_MG_MBXCFG MG_MBXCFG_CH3_IRQ))

/-- MAILBOX_CH3_CORE_WRITE: QW7 of channel 3 raises PF0 entry CH3_MSIX (R378). -/
def execMailboxCh3CoreWrite (c : Fin 96) (value : Word) (s : State) : Out' :=
  .next (
    if !s.alive domHome || !s.domOn (domQuad (s.quadOf c)) then s
    else (s.sramPut (chanBase 3 + 56) value).raiseMsix 0 (s.fld a_MG_MBXCFG MG_MBXCFG_CH3_MSIX))

/-- STATUS (R380). -/
def execStatus (ch : ReqChannel) (s : State) : Out' :=
  .next (s.service ch opSTATUS (fun s c => s.respond c mbOK (s.readReg a_MG_BOOTSTAT).toNat []))

/-- SET_MODE (R380). -/
def execSetMode (ch : ReqChannel) (s : State) : Out' := .next (s.service ch opSET_MODE doSetMode)

/-- WARM_RESET: OK, then the reset (R372, R380). -/
def execWarmReset (ch : ReqChannel) (s : State) : Out' :=
  .next (s.service ch opWARM_RESET (fun s c => (s.reply c mbOK).warmReset false))

/-- LOG_READ (R380). -/
def execLogRead (ch : ReqChannel) (s : State) : Out' := .next (s.service ch opLOG_READ doLogRead)

/-- DUMP_READ (R350, R352, R380). -/
def execDumpRead (ch : ReqChannel) (s : State) : Out' := .next (s.service ch opDUMP_READ doDumpRead)

/-- DUMP_RELEASE (R352, R380). -/
def execDumpRelease (ch : ReqChannel) (s : State) : Out' :=
  .next (s.service ch opDUMP_RELEASE (fun s c => (s.releaseDumps (s.arg c 0)).reply c mbOK))

/-- UPDATE_WRITE (R380, R385). -/
def execUpdateWrite (ch : ReqChannel) (s : State) : Out' := .next (s.service ch opUPDATE_WRITE doUpdateWrite)

/-- UPDATE_ACTIVATE (R380, R385). -/
def execUpdateActivate (ch : ReqChannel) (s : State) : Out' := .next (s.service ch opUPDATE_ACTIVATE doUpdateActivate)

/-- FLOOR_RAISE (R385). -/
def execFloorRaise (ch : ReqChannel) (s : State) : Out' := .next (s.service ch opFLOOR_RAISE doFloorRaise)

/-- KEY_CREATE (R387). -/
def execKeyCreate (ch : ReqChannel) (s : State) : Out' := .next (s.service ch opKEY_CREATE doKeyCreate)

/-- KEY_IMPORT (R387). -/
def execKeyImport (ch : ReqChannel) (s : State) : Out' := .next (s.service ch opKEY_IMPORT doKeyImport)

/-- CELL_CREATE (R392). -/
def execCellCreate (ch : ReqChannel) (s : State) : Out' := .next (s.service ch opCELL_CREATE doCellCreate)

/-- CELL_DESTROY (R392). -/
def execCellDestroy (ch : ReqChannel) (s : State) : Out' := .next (s.service ch opCELL_DESTROY doCellDestroy)

/-- SPDM (R380, R384). -/
def execSpdm (ch : ReqChannel) (s : State) : Out' := .next (s.service ch opSPDM doSpdm)

/-- OOB_REQUEST (R381). -/
def execOobRequest (session : Nat) (opcode : BitVec 8) (args : List Word) (data : List Byte) (s : State) : Out' :=
  .next (s.oobTake session opcode.toNat args data)

/-- DOE_SPDM_REQUEST (R281). -/
def execDoeSpdmRequest (message : List Byte) (s : State) : Out' := .next (s.doeTake message)

/-- LOCKSTEP_MISMATCH (R374). -/
def execLockstepMismatch (s : State) : Out' :=
  .next (if s.flag a_MG_CFG MG_CFG_LOCKSTEP && s.mg.phase == 2 then s.lockstep else s)

end Sys2Proof.Machine
end

