-- ==== Sys2Proof/Machine/Registers.lean ====
section
/-! DEFINITION. Reads and writes of registers by address (R12–R14, R255, R272, R336, R353, R378, R416, R417). A write of a
register that has a command of its own is that command; the others act by the access codes of their fields. -/

namespace Sys2Proof.Machine

/-- A 64-bit access, or a 32-bit access to either half (R12). -/
def accessOk (a size : Nat) : Bool := (size == 8 && a % 8 == 0) || (size == 4 && a % 4 == 0)

/-- Registers of a context slot whose chapter gives slots 192 to 255 a bad access (R12, R133, R175). -/
def badSlots : RegClass → Bool
  | .ptCtxcfg | .ptCtxquota | .ptCtxseed | .ptCtxstat | .ptCtxuse | .sqLen => true
  | _ => false

/-- A register class with the slots 192 to 255 that its addresses leave room for. -/
def RegRow.widened (r : RegRow) : RegRow :=
  { r with dims := r.dims.map (fun d => if d.2 = 192 then (d.1, 256) else d) }

/-- The register of an 8-byte word, those of slots 192 to 255 included. -/
def regAt (a : Nat) : Option (RegRow × List Nat) :=
  match regFind a with
  | some x => some x
  | none => (regRows.filter (fun r => badSlots r.cls)).findSome? (fun r => (r.widened.locate a).map (fun ix => (r, ix)))

/-- The first register that an access touches with one of its bytes. -/
def regOver (a size : Nat) : Option (RegRow × List Nat) :=
  (List.range ((a % 8 + max size 1 + 7) / 8)).findSome? (fun i => regAt (a / 8 * 8 + 8 * i))

/-- The access is bad in the sense of R12: by its size or alignment, or by a slot above 191 (R133). -/
def badAccess (r : RegRow) (ix : List Nat) (a size : Nat) : Bool :=
  !accessOk a size || (badSlots r.cls && decide (192 ≤ ix.getD 1 0))

/-- The access touches the field. -/
def touches (a size : Nat) (f : Fld) : Bool :=
  size == 8 || (if a % 8 = 0 then decide (f.lo < 32) else decide (32 ≤ f.hi))

/-- A word whose accessed half, or all of it, is replaced. -/
def mergeHalf (a size : Nat) (old v : Word) : Word :=
  if size = 8 then v
  else if a % 8 = 0 then BitVec.ofNat 64 (old.toNat / 2 ^ 32 * 2 ^ 32 + v.toNat % 2 ^ 32)
  else BitVec.ofNat 64 (old.toNat % 2 ^ 32 + v.toNat % 2 ^ 32 * 2 ^ 32)

/-- The accessed half of a word, or all of it. -/
def takeHalf (a size : Nat) (w : Word) : Word :=
  if size = 8 then w
  else if a % 8 = 0 then BitVec.ofNat 64 (w.toNat % 2 ^ 32)
  else BitVec.ofNat 64 (w.toNat / 2 ^ 32)

/-- A register as a requester sees it: the host writes HI_QEGCONS and reads HI_QEGPROD and HI_LINK (R285). -/
def RegRow.seenBy (r : RegRow) (who : Requester) : RegRow :=
  if who = .host then
    match r.cls with
    | .hiQegcons => { r with fields := r.fields.map (fun f => { f with acc := .rw }) }
    | .hiQegprod => { r with fields := r.fields.map (fun f => { f with acc := .ro }) }
    | _ => r
  else r

namespace State

/-- What the half of a register that an access leaves alone contributes to a written word: live RW fields, staged ST
fields, nothing else (R13, R14). DEDUCED, unsafe (log entry 19). -/
def keptWord (s : State) (r : RegRow) (a : Nat) : Word :=
  r.fields.foldl (fun w f => match f.acc with
    | .rw => f.fld.set w (f.fld.get (s.rd a))
    | .st => f.fld.set w (f.fld.get (s.stagedRd a))
    | _ => w) 0

/-- One field of a register takes a written value by its access code (R13). -/
def writeField (s : State) (a : Nat) (v : Word) (f : FieldSpec) : State :=
  let new := f.fld.get v
  let old := f.fld.get (s.rd a)
  match f.acc with
  | .rw => s.setFld a f.fld new
  | .w1c => s.setFld a f.fld (BitVec.ofNat 64 old &&& ~~~BitVec.ofNat 64 new).toNat
  | .w1s => s.setFld a f.fld (BitVec.ofNat 64 old ||| BitVec.ofNat 64 new).toNat
  | .st => s.stage a (f.fld.set (s.stagedRd a) new)
  | .ro => s
  | .wo => s
  | .rc => s

/-- The fields that an access touches take their values (R13). -/
def writeFields (s : State) (fs : List FieldSpec) (a : Nat) (v : Word) : State := fs.foldl (fun t f => t.writeField a v f) s

/-- Cleared pending bits are no longer signalled to a core (R241). -/
def unsignal (s : State) (j : Nat) (v : Word) : State :=
  { s with cores := s.cores.filterMap (fun e =>
      let x := { e.2 with irqs := e.2.irqs.filter (fun n => !(n / 64 == j && natBit v.toNat (n % 64))) }
      if x = CoreSt.init then none else some (e.1, x)) }

/-- The PROTO fault of a bad access (R12): of a partition's register in the partition's own queue (R331), else, and while its
domain is off, in the device queue. DESIGN CHOICE, unsafe (log entry 18): UNIT 27 for a partition, else none. -/
def faultAccess (s : State) (r : RegRow) (ix : List Nat) : State :=
  if r.domain = .partCtl && s.domOn (regDom r ix) then s.faultPart (ix.headD 0) cPROTO
  else s.faultDev cPROTO (dieOfDom (regDom r ix)) 255

/-- Clears the RC fields that a read touches (R13). -/
def clearRc (s : State) (r : RegRow) (a size : Nat) : State :=
  (r.fields.filter (fun f => f.acc == .rc && touches a size f.fld)).foldl (fun t f => t.setFld (a / 8 * 8) f.fld 0) s

end State

/-- Runs a second command after a first. -/
def thenDo (o : Out') (f : State → Out') : Out' :=
  match o with
  | .next t => f t
  | .fault e => .fault e
  | .refused e => .refused e

/-- Runs a command when a condition holds. -/
def when (c : Bool) (f : State → Out') (s : State) : Out' := if c then f s else .next s

/-- A write of one register, by its class and indices. hit says which fields the access touches; v is the whole word. -/
def writeReg (who : Requester) (r : RegRow) (ix : List Nat) (a size : Nat) (hit : Fld → Bool) (v : Word) (s : State) : Out' :=
  let i := ix.headD 0
  let j := ix.getD 1 0
  let pp : Fin 24 := Fin.ofNat 24 i
  let on (f : Fld) : Bool := hit f && f.get v == 1
  match r.cls with
  | .ptCommit =>
    let sl := BitVec.ofNat 8 (PT_COMMIT_SLOT.get v)
    if on PT_COMMIT_GO then execPtCommitGo who pp sl (on PT_COMMIT_RESUME) s
    else when (on PT_COMMIT_RESUME) (execPtCommitResume who pp sl) s
  | .sqCommit => when (on SQ_COMMIT_GO) (execSqCommit who pp (BitVec.ofNat 8 (SQ_COMMIT_SLOT.get v))) s
  | .sqDb => when (hit SQ_DB_TAIL) (execSqDb who pp (BitVec.ofNat 8 j) (BitVec.ofNat 16 (SQ_DB_TAIL.get v))) s
  | .ptPred => execPtPredWrite who pp (Fin.ofNat 4 j) v s
  | .bdSem => when (hit BD_SEM_VALUE) (execBdSemWrite who pp (Fin.ofNat 4096 j) (BitVec.ofNat 32 (BD_SEM_VALUE.get v))) s
  | .bdSemadd =>
    when (hit BD_SEMADD_ADDEND) (execBdSemaddWrite who pp (Fin.ofNat 4096 j) (BitVec.ofNat 32 (BD_SEMADD_ADDEND.get v))) s
  | .meCommit => when (on ME_COMMIT_GO) (execMeCommitGo who pp) s
  | .ptTmcommit => when (on PT_TMCOMMIT_GO) (execPtTmcommit who pp) s
  | .ptTmctl => when (hit PT_TMCTL_HOLD) (execPtTmctlHold who pp (PT_TMCTL_HOLD.get v == 1)) s
  | .pwPhcommit => thenDo (when (on PW_PHCOMMIT_GO) (execPwPhcommitGo who pp) s)
      (when (on PW_PHCOMMIT_CLEAR) (execPwPhcommitClear who pp))
  | .fqCommit => when (on FQ_COMMIT_GO) (execFqCommit who pp) s
  | .fqHead => when (hit FQ_HEAD_HEAD) (execFqHeadWrite who (.part pp) (BitVec.ofNat 16 (FQ_HEAD_HEAD.get v))) s
  | .fqDevhead => when (hit FQ_DEVHEAD_HEAD) (execFqHeadWrite who .device (BitVec.ofNat 16 (FQ_DEVHEAD_HEAD.get v))) s
  | .fqFatal => when (hit FQ_FATAL_VALID) (execFqFatalClear who (.part pp) (BitVec.ofNat 16 (FQ_FATAL_VALID.get v))) s
  | .fqDevfatal => when (hit FQ_FATAL_VALID) (execFqFatalClear who .device (BitVec.ofNat 16 (FQ_FATAL_VALID.get v))) s
  | .ptWatchdog =>
    when (hit PT_WATCHDOG_WD_ENGINE) (execPtWatchdogWrite who pp (BitVec.ofNat 14 (PT_WATCHDOG_WD_ENGINE.get v))) s
  | .ptRecctl => thenDo (when (on PT_RECCTL_RESET) (execPtRecctlReset who pp) s)
      (when (on PT_RECCTL_RELEASE) (execPtRecctlRelease who pp))
  | .hsCorekey => when (hit HS_COREKEY_KEYIDX) (execHsCorekeyWrite who (Fin.ofNat 96 i) v) s
  | .scCommit => when (on SC_COMMIT_GO) (execScCommit who) s
  | .hsIrqroute => when (hit HS_IRQROUTE_CORE) (execHsIrqrouteWrite who (Fin.ofNat 1024 i) v) s
  | .hsIrqpend => .next ((s.writeFields (r.fields.filter (fun f => hit f.fld)) a v).unsignal i v)
  | .lkCommit => when (on LK_COMMIT_GO) (execLkCommitGo who (Fin.ofNat 16 i)) s
  | .bdBarcfg => execBdBarcfgWrite who (Fin.ofNat 256 i) v s
  | .bdBargen => when (on BD_BARGEN_ARRIVE) (execBdBargenArrive who (Fin.ofNat 256 i)) s
  | .xlFence => when (on XL_FENCE_GO) (execXlFenceGo who (Fin.ofNat 4096 i)) s
  | .xlCommit => when (on XL_COMMIT_GO) (execXlCommit who (Fin.ofNat 4096 (XL_COMMIT_ASID.get v))) s
  | .xlWincommit => when (on XL_WINCOMMIT_GO) (execXlWincommit who (Fin.ofNat 256 (XL_WINCOMMIT_WIN.get v))) s
  | .hiQcommit =>
    let q := BitVec.ofNat 8 (HI_QCOMMIT_Q.get v)
    if on HI_QCOMMIT_GO then execHiQcommitGo who q (on HI_QCOMMIT_RESUME) s
    else when (on HI_QCOMMIT_RESUME) (execHiQcommitResume who q) s
  | .hiQdb => .next (if who = .host && s.qDetached i then s
      else if s.queueServes i then s.takeDoorbell i size v
      else if who = .host then s.unsupported else s)
  | .hiQegcons => .next (if s.qDetached i then s else s.writeFields (r.fields.filter (fun f => hit f.fld)) a v)
  | .hiLink => when (hit HI_LINK_IDE_REQUIRED) (execHiLinkWrite who v) s
  | .fbCommit => when (on FB_COMMIT_GO) (execFbCommit who) s
  | .fbTimeout => when (hit FB_TIMEOUT_TIMEOUT_US) (execFbTimeoutWrite who v) s
  | .fbPortctl =>
    thenDo (when (hit FB_PORTCTL_ENABLE) (execFbPortctlEnable who (Fin.ofNat 16 i) (FB_PORTCTL_ENABLE.get v == 1)) s)
      (when (on FB_PORTCTL_RETRAIN) (execFbPortctlRetrain who (Fin.ofNat 16 i)))
  | .pwCommit => when (on PW_COMMIT_GO) (execPwCommit who) s
  | .pwTherm => when (hit PW_THERM_THROTTLE_C) (execPwThermWrite who (BitVec.ofNat 8 (PW_THERM_THROTTLE_C.get v))) s
  | .pwDomctl =>
    thenDo (when (hit PW_DOMCTL_SET_MV) (execPwDomctlSetMv who (Fin.ofNat 124 i) (BitVec.ofNat 10 (PW_DOMCTL_SET_MV.get v))) s)
      (when (hit PW_DOMCTL_ON) (execPwDomctlOn who (Fin.ofNat 124 i) (PW_DOMCTL_ON.get v == 1)))
  | .mgDumpctl => thenDo (when (on MG_DUMPCTL_TRIGGER) (execMgDumpctlTrigger who) s)
      (when (hit MG_DUMPCTL_RELEASE) (execMgDumpctlRelease who (BitVec.ofNat 4 (MG_DUMPCTL_RELEASE.get v))))
  | .mgResetctl => when (on MG_RESETCTL_WARM) (execMgResetctlWarm who) s
  | .mgIoctl => when (hit MG_IOCTL_OD_SLEW) (execMgIoctlWrite who v) s
  | _ => .next (s.writeFields (r.fields.filter (fun f => hit f.fld)) a v)

/-! ### The mailbox region (R255, R378, R379) -/

/-- The mailbox region, and the channel of an address in it: 4 stands for the core boot image and reserved parts. -/
def inMailbox (a : Nat) : Bool := decide (sramBase ≤ a) && decide (a < sramBase + 0x1000000)
def mailboxChan (a : Nat) : Nat := if a < chanBase 0 then 4 else (a - chanBase 0) / 0x200000

/-- An access to the mailbox lies within one 8-byte word; the host reaches channels 0 and 3 alone (R378). -/
def mailboxAccess (s : State) (who : Requester) (a size : Nat) : Option State :=
  if !s.present who then some s
  else if who = .host && mailboxChan a != 0 && mailboxChan a != 3 then some (s.unsupported.faultHost cSEC)
  else if !s.domOn State.domHome then some (s.faultDev cPROTO 6 255)
  else if size = 0 || 8 < a % 8 + size then some (s.faultDev cPROTO 6 255)
  else none

/-- A write of the mailbox: REQ of channels 0 to 2 asks Banjo, QW0 of channel 3 by the host and its QW7 by a core raise
their interrupts (R378, R379). A write of a part of such a word acts as a write of the merged word. -/
def mailboxWrite (who : Requester) (a size : Nat) (v : Word) (s : State) : Out' :=
  match mailboxAccess s who a size with
  | some t => .next t
  | none =>
    let t := s.sramWrite a (leBytes v.toNat size)
    let w := t.sramWord (a / 8 * 8)
    let ch := mailboxChan a
    if ch < 3 && a / 8 * 8 == chanBase ch then execMailboxReqWrite who (Fin.ofNat 3 ch) w s
    else if ch = 3 && who == .host && a / 8 * 8 == chanBase 3 then execMailboxCh3HostWrite w s
    else match who with
      | .core c => if ch = 3 && a / 8 * 8 == chanBase 3 + 56 then execMailboxCh3CoreWrite c w s else .next t
      | _ => .next t

/-! ### Reads -/

/-- Device queue entries and fatal slots in Banjo's SRAM (R336). -/
def devQueueBase : Nat := 0x1F3000020000

namespace State

/-- Word w of entry e of the device queue: 256 entries, then 16 fatal slots. -/
def devQueueWord (s : State) (k : Nat) : Word :=
  let e := k / 8
  (if e < 256 then Sparse.get (fun _ => []) s.devRing e else Sparse.get (fun _ => []) s.devFatal (e - 256)).getD (k % 8) 0

/-- The ACB answers a read of PT_RECSTAT for a partition that is not enabled or off: STATE = 4 (R353). -/
def recstatOff (s : State) (p : Nat) : Bool := !s.enabled p || !(s.dom (domCtl p)).on

/-- An access to register space, the device queue or the mailbox that is not acknowledged yet: its command repeats it. -/
def waits (s : State) (who : Requester) (a : Nat) : Bool :=
  s.present who &&
    (if inMailbox a then s.accessHeld who domHome
     else match regFind (a / 8 * 8) with
      | none => s.accessHeld who 122
      | some (r, ix) => s.accessHeld who (regDom r ix))

end State

/-- A read of register space, the device queue or the mailbox: what it leaves and what it returns. -/
def readAt (who : Requester) (a size : Nat) (s : State) : State × Word :=
  if inMailbox a then
    match mailboxAccess s who a size with
    | some t => (t, 0)
    | none => (s, BitVec.ofNat 64 (ofLeBytes (s.sramBytes a size)))
  else if devQueueBase ≤ a && a < devQueueBase + 272 * 64 then
    (if !s.present who || who = .host then (s, 0)
     else if !accessOk a size then (s.faultDev cPROTO 9 224, 0)
     else (s, takeHalf a size (s.devQueueWord ((a - devQueueBase) / 8))))
  else
    match regOver a size with
    | none => (s, 0)
    | some (r, ix) =>
      if !s.present who then (s, 0)
      else if who = .host && !hostReaches r.cls then (s.unsupported, 0)
      else if badAccess r ix a size then (s.faultAccess r ix, 0)
      else if r.cls = .ptRecstat && s.recstatOff (ix.headD 0) then (s, takeHalf a size (PT_RECSTAT_STATE.set 0 4))
      else match s.gate who (a / 8 * 8) false with
        | some t => (t, 0)
        | none => (if who = .host then s else s.clearRc r a size, takeHalf a size (s.readReg (a / 8 * 8)))

/-- A write of register space or the mailbox. -/
def writeAt (who : Requester) (a size : Nat) (v : Word) (s : State) : Out' :=
  if inMailbox a then mailboxWrite who a size v s
  else match regOver a size with
    | none => .next s
    | some (r, ix) =>
      if !s.present who then .next s
      else if who = .host && !hostReaches r.cls then .next s.unsupported
      else if badAccess r ix a size then .next (s.faultAccess r ix)
      else match s.gate who (a / 8 * 8) true with
        | some t => .next t
        | none => writeReg who (r.seenBy who) ix (a / 8 * 8) size (touches a size)
          (mergeHalf a size (s.keptWord (r.seenBy who) (a / 8 * 8)) v) s

/-- REGISTER_WRITE (R12, R13, R14). -/
def execRegisterWrite (who : Requester) (addr : BitVec 45) (size : Nat) (value : Word) (s : State) : Out' :=
  if s.waits who addr.toNat then .next s else writeAt who addr.toNat size value s

/-- READ_CLEAR: a read of a register or of the mailbox; RC fields return their value and are cleared (R13). -/
def execReadClear (who : Requester) (addr : BitVec 45) (size : Nat) (s : State) : Out' :=
  let x := readAt who addr.toNat size s
  .next (if s.waits who addr.toNat then s else { x.1 with lastRead := x.2 })

end Sys2Proof.Machine
end

