-- ==== Sys2Proof/Machine/Cores.lean ====
section
/-! DEFINITION. The memory instructions of the Headstock cores (chapters 10 and 11): loads, stores, atomics, barriers, hints
and cache maintenance (R215–R218, R227, R236–R239, R262–R267, R390, R391, R415). -/

namespace Sys2Proof.Machine

namespace State

/-! ### Where an access goes (R227, R414, R415) -/

/-- The core executes: its quad acts, and no power-down has stopped instruction issue (R240). -/
def coreUp (s : State) (c : Nat) : Bool :=
  s.alive (domQuad (s.quadOf c)) && !(s.dom (domQuad (s.quadOf c))).switchOff

/-- Memory of this device that belongs to a block (R415). -/
def coreMem (s : State) (a n : Nat) : Bool := (s.inT1 a && s.inT1 (a + n - 1)) || (s.inT2 a && s.inT2 (a + n - 1))

/-- A tile store window (R62). -/
def inWindow (a n : Nat) : Bool := decide (tsWindow ≤ a) && decide (a + n ≤ tsWindow + 24 * tsSize)

/-- Register space and the mailbox region (R414). -/
def inRegisters (a : Nat) : Bool :=
  within a 1 regBase 0x18000000 || within a 1 0x1F1000000000 0x2000000 || within a 1 0x1F2000000000 0x1000000
    || within a 1 0x1F3000000000 0x1000000

/-- A synchronous exception (R239). -/
def takeExc (s : State) (c kind a : Nat) : State := s.modCore c (fun x => { x with exc := kind, excAddr := a })

/-- An access that R227 or R415 does not allow: an exception and a PROTO fault. -/
def badAccess (s : State) (c a n : Nat) : State := (s.faultCore c cPROTO a n).takeExc c excAccess a

/-- A load's value that comes with no memory access. -/
def setLoaded (s : State) (c : Nat) (w : Word) : State := s.modCore c (fun x => { x with loaded := w })

/-- Some byte of a range lies in the crash dump reserve (R181). -/
def meetsReserve (s : State) (a n : Nat) : Bool := s.inReserve a || s.inReserve (a + n - 1)

/-! ### Barriers (R218, R238, R263) -/

/-- A barrier is issued: it completes now, or with a later instruction of the core, which waits for it. -/
def barrier (s : State) (c : Nat) (ld st dev : Bool) : State :=
  if !s.coreUp c then s
  else
    let t := s.modCore c (fun x => { x with
      waitLd := x.waitLd || ld, waitSt := x.waitSt || st, waitDev := x.waitDev || dev })
    (t.passBarrier c).getD t

/-! ### Loads (R181, R180, R227, R244, R391) -/

/-- An uncached read of memory: the core sees its own older stores (R262). A home in reset answers with poison (R261); while a
home does not answer or admit the read, it waits (R49, R51, R252). -/
def loadNc (s : State) (c key a n : Nat) : State :=
  let hs := [homeOf a, homeOf (a + n - 1)]
  let out := hs.any (fun h => s.homeOut h)
  if hs.any (fun h => !s.homeNear h) then s
  else { s with fresh := s.fresh + 1 }.asking (naCore c) (if out then [] else [⟨a, n⟩]) (fun t =>
    let mem := s.readMemP key a n
    let t := if out then t else (t.touchMem key a n).1
    t.loadDone c a ((List.range n).map (fun i =>
      match (s.core c).buf.reverse.find? (fun (b : BufStore) => within (a + i) 1 b.addr b.data.length) with
      | some b => (b.data.getD (a + i - b.addr) 0, false)
      | none => ((mem.getD i (0, false)).1, (mem.getD i (0, false)).2 || out))))

/-- A load from T1 or T2. The crash dump reserve reads 0, a key index without a key reads poison; both log SEC. -/
def loadMem (s : State) (c a n : Nat) (cached : Bool) : State :=
  let key := (s.core c).key
  if s.meetsReserve a n then (s.faultCore c cSEC a n).setLoaded c 0
  else if s.keyAt key == 0 then (s.faultCore c cSEC a n).takeExc c excData a
  else if cached then s.loadOrMiss c key a n
  else s.loadNc c key a n

/-- The tile store range of a window address: partition and offset. -/
def windowPart (a : Nat) : Nat := (a - tsWindow) / tsSize
def windowOff (a : Nat) : Nat := (a - tsWindow) % tsSize

/-- The window answers: the store's domain is on and its partition not in reset (R62). -/
def windowUp (s : State) (a : Nat) : Bool := s.domOn (domTs (windowPart a)) && !s.inReset (windowPart a)

/-- An access through the window waits: the store's domain is frozen, or no TILE bundle carries it (R21, R49; the role is
log entry 46's). -/
def windowHeld (s : State) (a : Nat) : Bool :=
  (s.dom (domTs (windowPart a))).frozen.isSome || !s.linked roleTILE 6 (burlOf (windowPart a))

/-- A core reaches only the T0 ranges that the context of its key index has claimed (R391). -/
def windowOpen (s : State) (c a n : Nat) : Bool :=
  let k := (s.core c).key
  k / 256 == windowPart a && decide (k % 256 < 192) && decide (windowOff a + n ≤ tsSize) && s.inClaims k (windowOff a) n

/-- A load through the tile store window (R62, R391). -/
def loadWindow (s : State) (c a n : Nat) : State :=
  let p := windowPart a
  if s.windowHeld a then s
  else if !s.windowUp a then (s.faultPart p cPROTO).setLoaded c 0
  else if !s.windowOpen c a n then (s.faultCore c cSEC a n).setLoaded c 0
  else
    let bs := s.readTsP p (windowOff a) n
    ({ s with fresh := s.fresh + 1 }.touchTs p (windowOff a) n).1.loadDone c a bs

/-- A load of n bytes (R227). -/
def load (s : State) (c a n : Nat) (attr : MemAttr) : State :=
  if remoteBase ≤ a then
    match attr with
    | .remoteCacheable => s.loadOrMiss c (s.core c).key a n
    | .remoteNc => s.sendCore c tyRD a (if a % 64 + n ≤ 64 then 1 else 2) 0 0 n []
    | _ => s.badAccess c a n
  else if s.coreMem a n then
    match attr with
    | .normalWb => s.loadMem c a n true
    | .normalNc => s.loadMem c a n false
    | .device => s.loadMem c a n false
    | _ => s.badAccess c a n
  else if inWindow a n then
    match attr with
    | .remoteCacheable => s.badAccess c a n
    | .remoteNc => s.badAccess c a n
    | _ => s.loadWindow c a n
  else if inRegisters a && (attr == .normalWb || attr == .device) then
    if s.waits (.core (Fin.ofNat 96 c)) a then s
    else
      let x := readAt (.core (Fin.ofNat 96 c)) a n s
      x.1.setLoaded c x.2
  else s.badAccess c a n

/-! ### Stores -/

/-- Room in a core's store buffer of 64 entries: a full one drains first; none while it cannot (R239). -/
def bufferRoom (s : State) (c n : Nat) : Option State :=
  if (s.core c).buf.length + n ≤ 64 then some s else s.drainStores c

/-- A cacheable store waits in the store buffer until its lines are there (R262), in pieces of at most 8 aligned bytes (R266). -/
def storeCached (s : State) (c : Nat) (b : BufStore) : State :=
  let ps := (splitAt_ 8 b.addr b.data).map (fun p => { b with addr := p.1, data := p.2 })
  match s.bufferRoom c ps.length with
  | none => s
  | some s =>
    let t := s.modCore c (fun x => { x with buf := x.buf ++ ps })
    ps.foldl (fun t p => if (t.core c).buf.contains p then t.wantLine c p else t) t

/-- An uncached store is performed at once unless an older store to its bytes waits or its home does not admit it. -/
def storeNc (s : State) (c : Nat) (b : BufStore) : State :=
  match s.bufferRoom c 1 with
  | none => s
  | some s =>
    let wait (t : State) : State := t.modCore c (fun x => { x with buf := x.buf ++ [b] })
    if (s.core c).buf.any (fun o => overlap o.addr o.data.length b.addr b.data.length) then wait s
    else
      let x := s.askAll (naCore c) [⟨b.addr, b.data.length⟩]
      if x.2 then (x.1.performStore c b).getD (wait s) else wait x.1

/-- A store through the tile store window (R62, R391). -/
def storeWindow (s : State) (c a : Nat) (bs : List Byte) : State :=
  if s.windowHeld a then s
  else if !s.windowUp a then s.faultPart (windowPart a) cPROTO
  else if !s.windowOpen c a bs.length then s.faultCore c cSEC a bs.length
  else s.tsWrite (windowPart a) (windowOff a) bs false

/-- An uncached store to another device: whole aligned words travel as flag writes, other bytes as a write of their unit,
whose other bytes are free (log entry 24). -/
def storeRemote (s : State) (c a : Nat) (bs : List Byte) : State :=
  if a % 4 = 0 ∧ bs.length % 4 = 0 then
    (List.range (bs.length / 4)).foldl (fun t i =>
      t.sendCore c tyWR4 (a + 4 * i) 0 0 (ofLeBytes ((bs.drop (4 * i)).take 4)) crSTORE []) s
  else
    (pieces a bs).foldl (fun t p =>
      let unit := (List.range 64).map (fun i => Config.freeByte (t.fresh + i))
      { t with fresh := t.fresh + 64 }.sendCore c tyWR (p.1 / 64 * 64) 1 0 0 crSTORE (overlay unit (p.1 % 64) p.2)) s

/-- A store of bytes (R227). -/
def store (s : State) (c a : Nat) (bs : List Byte) (attr : MemAttr) (v : Word) : Out' :=
  let n := bs.length
  let b : BufStore := { addr := a, data := bs, attr := attr, key := (s.core c).key }
  if remoteBase ≤ a then
    match attr with
    | .remoteCacheable => .next (s.storeCached c b)
    | .remoteNc => .next (s.storeRemote c a bs)
    | _ => .next (s.badAccess c a n)
  else if s.coreMem a n then
    match attr with
    | .normalWb => .next (s.storeCached c b)
    | .normalNc => .next (s.storeNc c b)
    | .device => .next (s.storeNc c b)
    | _ => .next (s.badAccess c a n)
  else if inWindow a n then
    match attr with
    | .remoteCacheable => .next (s.badAccess c a n)
    | .remoteNc => .next (s.badAccess c a n)
    | _ => .next (s.storeWindow c a bs)
  else if inRegisters a && (attr == .normalWb || attr == .device) then
    (if s.waits (.core (Fin.ofNat 96 c)) a then .next s else writeAt (.core (Fin.ofNat 96 c)) a n v s)
  else .next (s.badAccess c a n)

/-! ### Atomics (R215, R216, R266, R267) -/

/-- The line of an address in E or M under a core's key, brought there in one step where the core does not hold it; none while the
line is not free. -/
def ownLine (s : State) (c u key : Nat) : Option State :=
  if (s.ownedLine c u key).isSome then some s
  else if s.lineFree c c u then s.takeExclusive c u key
  else none

/-- An atomic operation of n bytes: f gives the new value, or none where nothing is written. The core gets the old value.
The core's older stores are performed first; while they or the line are busy, nothing happens.
PRESUMED, unsafe (log entry 27): the old value is loaded. -/
def atomic (s : State) (c a n : Nat) (attr : MemAttr) (f : Nat → Option Nat) : State :=
  let key := (s.core c).key
  let u := a / 64 * 64
  if !((n == 4 || n == 8) && a % n == 0) || remoteBase ≤ a || !s.coreMem a n || attr != .normalWb then s.badAccess c a n
  else if s.inReserve a then (s.faultCore c cSEC a n).setLoaded c 0
  else if s.keyAt key == 0 then (s.faultCore c cSEC a n).takeExc c excData a
  else if s.homeOut (homeOf a) then s.takeExc c excData a
  else match (s.drainStores c).bind (fun t => t.ownLine c u key) with
    | none => s
    | some t =>
      match t.lineOf c u with
      | none => s
      | some l =>
        if l.poison then t.takeExc c excData a
        else
          let old := ofLeBytes ((l.data.drop (a % 64)).take n)
          let t := match f old with
            | some v => t.storeLine c l a (leBytes v n)
            | none => t
          t.setLoaded c (BitVec.ofNat 64 old)

/-- The greater of two n-byte numbers; the spec does not say whether they are signed. -/
def atomMaxOf (n old v : Nat) : Nat :=
  let m := 2 ^ (8 * n)
  let rank (x : Nat) : Nat := if Config.maxSigned then (x + m / 2) % m else x
  if rank old < rank (v % m) then v % m else old

/-! ### Hints (R236) -/

/-- A hint's target is readable cacheable memory or a cacheable T3 line. -/
def touchable (s : State) (c a : Nat) (attr : MemAttr) : Bool :=
  match attr with
  | .normalWb => decide (a < remoteBase) && s.coreMem a 1 && !s.inReserve a && s.keyAt (s.core c).key != 0 && !s.homeOut (homeOf a)
  | .remoteCacheable => decide (remoteBase ≤ a)
  | _ => false

/-- A hint would be a second outstanding miss of its queue at the slice: it is dropped, because a hint never waits. -/
def queueBusy (s : State) (c u : Nat) : Bool := s.mustQueue c u

/-- A hint that brings a line to a core's L2, in E when asked. DEDUCED, unsafe (log entry 28). -/
def touch (s : State) (c a : Nat) (attr : MemAttr) (exclusive l1 : Bool) : State :=
  let u := a / 64 * 64
  let key := (s.core c).key
  if !s.coreUp c || !s.touchable c a attr || s.queueBusy c u then s
  else match (s.lineOf c u).filter (fun l => l.key == key) with
    | some l =>
      if exclusive && l.st == .s then s.sendReq c u rqUpg key (s.quadOf c) c l1
      else if l1 && !l.l1 then s.markL1 c u
      else s
    | none => s.missLine c u (if exclusive then rqRdX else rqRdS) key l1

/-- A hint that brings a line to the system cache, in the core's class ways. -/
def touchSlice (s : State) (c a : Nat) (attr : MemAttr) : State :=
  let u := a / 64 * 64
  let g := 96 + sliceOf u
  let key := (s.core c).key
  if !s.coreUp c || !s.touchable c a attr || s.queueBusy c u || !s.mayAllocate (s.quadOf c) u || (s.lineOf g u).isSome then s
  else if remoteBase ≤ u then s.fillRemote g u key (s.quadOf c) c false
  else s.sendReq g u rqRdS key (s.quadOf c) c false

/-! ### Cache maintenance (R237, R238) -/

/-- The copies of the lines that a command covers, in the caches of the Headstock. -/
def covered (s : State) (lo hi : Nat) : List (Nat × Line) :=
  s.agents.flatMap (fun e => (e.2.lines.filter (fun l => decide (lo ≤ l.addr) && decide (l.addr < hi))).map (fun l => (e.1, l)))

/-- The lines from the first to behind the last one of a command's range. -/
def cmoRange (a : Nat) : CmoScope → Nat × Nat
  | .line => (a / 64 * 64, a / 64 * 64 + 64)
  | .range n => if n = 0 then (0, 0) else (a / 64 * 64, (a + min n (2 ^ 32) + 63) / 64 * 64)

/-- A message or a transaction about a line of a range is under way, or a copy of one cannot leave its cache. -/
def cmoBusy (s : State) (lo hi : Nat) : Bool :=
  let in_ (u : Nat) : Bool := decide (lo ≤ u) && decide (u < hi)
  s.net.any (fun m => match m with
    | .rsp _ _ u code _ _ _ => in_ u && code != rsSwept
    | .grant _ _ u _ _ _ => in_ u
    | .snoop _ _ u code => in_ u && code != snSweep
    | _ => false)
    || s.homes.any (fun e => e.2.txns.any (fun t => in_ t.addr))
    || (s.covered lo hi).any (fun x => !s.canLeave x.2)

/-- A cache maintenance command: keep says whether copies stay, clean whether dirty ones are written back. It is ordered as
a store, so the core's older stores are performed first; while they cannot be, or a covered line is busy, it does not act.
DEDUCED, unsafe (log entry 28). -/
def cmo (s : State) (c a : Nat) (scope : CmoScope) (attr : MemAttr) (keep clean : Bool) : State :=
  let r := cmoRange a scope
  if !(attr == .normalWb || attr == .remoteCacheable) then s
  else match (if (s.core c).buf.isEmpty then some s else s.drainStores c) with
    | none => s
    | some t =>
      if t.cmoBusy r.1 r.2 then s
      else
        (t.covered r.1 r.2).foldl (fun t x =>
          let dirty := x.2.st == LineState.m
          let t := if dirty && clean then t.writeHome c x.2 else t
          if keep then (if dirty && clean then t.putLine x.1 { x.2 with st := .e } else t)
          else t.forgetLine x.1 x.2.addr) t

/-- An instruction of a core that must wait for the core's barriers (R263). -/
def coreStep (s : State) (c : Nat) (f : State → Out') : Out' :=
  if s.coreUp c then
    match s.passBarrier c with
    | none => .next s
    | some t => f t
  else .next s

/-- An access that depends on an earlier load is performed after it: a load by its address, a store or an atomic in any way
(R264). DEDUCED, unsafe (log entry 26): it waits for every earlier load of the core. -/
def dependent (s : State) (c : Nat) (store : Bool) (dep : Depends) (f : State → Out') : Out' :=
  s.coreStep c (fun t =>
    let ordered := match dep with
      | .none => false
      | .address => true
      | .data => store
      | .branch => store
    if ordered && !t.loadsDone c then .next t else f t)

end State

open State

/-- LOAD of 1 to 8 bytes (R227, R262, R264, R266). -/
def execLoad (c : Fin 96) (addr : BitVec 57) (size : Nat) (kind : AccessKind) (s : State) : Out' :=
  s.dependent c false kind.dep (fun s => .next (if size = 0 || 8 < size then s else s.load c addr.toNat size kind.attr))

/-- STORE of 1 to 8 bytes (R227, R262, R264, R266). -/
def execStore (c : Fin 96) (addr : BitVec 57) (size : Nat) (kind : AccessKind) (value : Word) (s : State) : Out' :=
  s.dependent c true kind.dep (fun s =>
    if size = 0 || 8 < size then .next s else s.store c addr.toNat (leBytes value.toNat size) kind.attr value)

/-- ATOM.ADD (R267). -/
def execAtomAdd (c : Fin 96) (addr : BitVec 57) (size : Nat) (kind : AccessKind) (value : Word) (s : State) : Out' :=
  s.dependent c true kind.dep (fun s => .next (s.atomic c addr.toNat size kind.attr (fun old => some (old + value.toNat))))

/-- ATOM.SWP (R267). -/
def execAtomSwp (c : Fin 96) (addr : BitVec 57) (size : Nat) (kind : AccessKind) (value : Word) (s : State) : Out' :=
  s.dependent c true kind.dep (fun s => .next (s.atomic c addr.toNat size kind.attr (fun _ => some value.toNat)))

/-- ATOM.CAS (R267). -/
def execAtomCas (c : Fin 96) (addr : BitVec 57) (size : Nat) (kind : AccessKind) (cmp : Word) (value : Word) (s : State) : Out' :=
  s.dependent c true kind.dep (fun s => .next (s.atomic c addr.toNat size kind.attr (fun old =>
    if old = cmp.toNat % 2 ^ (8 * size) then some value.toNat else none)))

/-- ATOM.MAX (R267). -/
def execAtomMax (c : Fin 96) (addr : BitVec 57) (size : Nat) (kind : AccessKind) (value : Word) (s : State) : Out' :=
  s.dependent c true kind.dep (fun s => .next (s.atomic c addr.toNat size kind.attr (fun old => some (atomMaxOf size old value.toNat))))

/-- ORD.LD (R263). -/
def execOrdLd (c : Fin 96) (s : State) : Out' := .next (s.barrier c true false false)

/-- ORD.ST (R238, R263). -/
def execOrdSt (c : Fin 96) (s : State) : Out' := .next (s.barrier c false true false)

/-- ORD.FULL (R218, R263). -/
def execOrdFull (c : Fin 96) (s : State) : Out' := .next (s.barrier c true true false)

/-- ORD.DEV (R263, R390). -/
def execOrdDev (c : Fin 96) (s : State) : Out' := .next (s.barrier c false false true)

/-- TOUCH.L1 (R236). -/
def execTouchL1 (c : Fin 96) (addr : BitVec 57) (attr : MemAttr) (s : State) : Out' :=
  .next (s.touch c addr.toNat attr false true)

/-- TOUCH.L2 (R236). -/
def execTouchL2 (c : Fin 96) (addr : BitVec 57) (attr : MemAttr) (s : State) : Out' :=
  .next (s.touch c addr.toNat attr false false)

/-- TOUCH.SC (R236). -/
def execTouchSc (c : Fin 96) (addr : BitVec 57) (attr : MemAttr) (s : State) : Out' := .next (s.touchSlice c addr.toNat attr)

/-- TOUCH.EX (R236). -/
def execTouchEx (c : Fin 96) (addr : BitVec 57) (attr : MemAttr) (s : State) : Out' :=
  .next (s.touch c addr.toNat attr true true)

/-- CMO.CLEAN (R237). -/
def execCmoClean (c : Fin 96) (addr : BitVec 57) (scope : CmoScope) (attr : MemAttr) (s : State) : Out' :=
  s.coreStep c (fun s => .next (s.cmo c addr.toNat scope attr true true))

/-- CMO.INV: at user privilege it acts as CMO.CLINV (R237). -/
def execCmoInv (c : Fin 96) (addr : BitVec 57) (scope : CmoScope) (attr : MemAttr) (user : Bool) (s : State) : Out' :=
  s.coreStep c (fun s => .next (s.cmo c addr.toNat scope attr false user))

/-- CMO.CLINV (R237). -/
def execCmoClinv (c : Fin 96) (addr : BitVec 57) (scope : CmoScope) (attr : MemAttr) (s : State) : Out' :=
  s.coreStep c (fun s => .next (s.cmo c addr.toNat scope attr false true))

end Sys2Proof.Machine
end

