-- ==== Sys2Proof/Machine/Boot.lean ====
section
/-! DEFINITION. Package power, cold start and bring-up (R29, R240, R235, R324, R327, R366–R373, R404–R406): the events that
take the device from PWR_GOOD to finishing service and back. -/

namespace Sys2Proof.Machine

namespace State

/-- ALERT_N, active low: some slot of FQ_DEVFATAL is valid (R406). -/
def alertN (s : State) : Bool := s.fld a_FQ_DEVFATAL FQ_FATAL_VALID == 0

/-- THERMTRIP_N, active low (R324, R406). -/
def thermtripN (s : State) : Bool := !s.mg.tripped

/-! ### Power domains (R29, R240, R327, R404) -/

/-- A rail is in its static window, or its sensor has not reported (R404). -/
def railOk (s : State) (r : Nat) : Bool :=
  let a := a_MG_SENS (r - 400)
  let w := railWindow r
  !s.flag a MG_SENS_VALID || (decide (w.1 ≤ s.fld a MG_SENS_VALUE * 1000) && decide (s.fld a MG_SENS_VALUE * 1000 ≤ w.2))

/-- The links that end in a domain (R28). -/
def domLinks (i : Nat) : List Nat :=
  if 72 ≤ i && i < 78 then linksOf (i - 72)
  else if i = 110 then [0, 1, 2, 3, 4, 5, 14, 15]
  else if i = 119 || i = 120 then linksOf (i - 112)
  else []

/-- The blocks of a domain take their reset state (R327), and its links are DOWN (R28). A stack keeps its contents in self-refresh, a partition its record
counter (R29, R423). DEDUCED, unsafe (log entry 38). -/
def blockReset (s : State) (i : Nat) : State :=
  let field := (List.range 16).filter (fun l => s.flag (a_LK_REPAIR l) LK_REPAIR_FIELD)
  let t := (domLinks i).foldl (fun t l => t.dropLink l lsDOWN) (s.resetDoms (fun d => d == i))
  let t := if i = 110 then field.foldl (fun t l => t.setFld (a_LK_REPAIR l) LK_REPAIR_FIELD 1) t else t
  let ports (ps : List Nat) : State := ps.foldl (fun t p => t.setPort p Port.init) t
  if i < 72 then
    let p := i / 3
    let x := t.part p
    if i % 3 = 2 then
      { t with ctxs := Sparse.drop (fun k => k / 256 == p) t.ctxs }.setPart p
        { Part.init with joined := x.joined, rseq := x.rseq, hbAt := t.now }
    else if i % 3 = 1 then t.tsZero p 0 tsSize
    else t.setPart p { x with engines := Part.init.engines, mms := [], ves := Part.init.ves, du := none, token := true,
                              rampIdle := t.fld (a_ME_RAMP p) ME_RAMP_IDLE }
  else if i < 78 then t
  else if i < 104 then (t.coresOf (i - 78)).foldl (fun t c => (t.setAgent c Agent.init).setCore c CoreSt.init) t
  else if i < 108 then
    (List.range 8).foldl (fun t k => (t.setAgent (96 + 8 * (i - 104) + k) Agent.init).setSlice (8 * (i - 104) + k) Slice.init) t
  else if i = 110 then { t with sram := [], homes := Sparse.drop (fun h => decide (24 ≤ h)) t.homes }
  else if i < 111 then t
  else if i < 119 then ports [2 * (i - 111), 2 * (i - 111) + 1]
  else if i < 121 then ports ((List.range 8).map (fun k => 8 * (i - 119) + k))
  else if i = 121 then { t with queues := [], fns := [], hostLink := { t.hostLink with up := false, reply := [] } }
  else t

/-- A WRITE of the configuration by Banjo (R360). -/
def cfgWrite (s : State) (w : Nat × Word) : State :=
  match writeAt .banjo w.1 8 w.2 s with
  | .next t => t
  | .fault _ => s
  | .refused _ => s

/-- A domain may come up: it is wanted, bring-up has not stopped, what it needs is on (R29), its die is out of reset and, for all but
what the links need, its replica is synchronised (R45, R371). -/
def upReady (s : State) (i : Nat) : Bool :=
  (s.dom i).switchOn && s.mg.phase == 2 && !s.mg.warmHeld && !s.halted && (domDeps i).all s.domOn
    && !(s.die (dieOfDom i)).inReset
    && (!(domLinks i).isEmpty || decide (9 ≤ dieOfDom i) || (s.die (dieOfDom i)).synced)

/-- The interrupts that stay pending are signalled to the cores of a quad that has come on (R241). -/
def signalPending (s : State) : State :=
  (((List.range 16).filter (fun k => s.rd (a_HS_IRQPEND k) != 0)).flatMap (fun k => (List.range 64).map (fun i => 64 * k + i))).foldl
    (fun t n => t.signalIrq n) s

/-- A domain comes up in its reset state and takes the WRITEs that wait for it (R327, R360); a warm reset leaves the link roles that
are committed (R23). Outside its rail's window it waits, with one POWER fault in each second (R404). -/
def powerUp (s : State) (i : Nat) : State :=
  let x := s.dom i
  if !s.upReady i then s
  else if !x.on && !s.railOk (railOf i) then
    (if x.railAt ≤ s.now then (s.setDom i { x with railAt := s.now + 1000000000 }).faultDom cPOWER i else s)
  else
    let t := (s.blockReset i).setOn i true
    let t := if i = 110 && x.on then (List.range 6).foldl (fun t l => t.wr (a_LK_ROLE l) (s.rd (a_LK_ROLE l))) t else t
    let t := if 78 ≤ i && i < 104 then t.signalPending else t
    let t := if i = 121 then t.setDom i { t.dom i with inReset := !t.hostLink.perst } else t
    x.cfgWrites.foldl (fun t w => t.countRefused (fun t => t.cfgWrite w)) t

/-- A domain goes off: a quad when it has drained (R240), slices once nothing is under way for them and with their dirty lines written back (R235), the host
interface with its link (R283). -/
def powerDown (s : State) (i : Nat) : State :=
  if !(s.dom i).switchOff || (s.dom i).inReset || s.mg.phase == 0 then s
  else if 78 ≤ i && i < 104 then
    match s.quadDrained (i - 78) with
    | none => s
    | some t => (t.blockReset i).quadOff (i - 78)
  else if 104 ≤ i && i < 108 && !(List.range 8).all (fun k => s.agentQuiet (96 + 8 * (i - 104) + k)) then s
  else
    let t := if 104 ≤ i && i < 108 then (List.range 8).foldl (fun t k => t.emptyAgent (96 + 8 * (i - 104) + k)) s
      else if i = 121 then s.hostReset
      else s
    (t.blockReset i).setOn i false

/-! ### Package power (R220, R324, R371, R405, R406) -/

/-- The fused floors as they stand. -/
def floors (s : State) : Sparse Word :=
  [a_MG_FLOOR, a_MG_LICFLOOR].foldl (fun m a => Sparse.put regReset m a (s.rd a)) []

/-- The device without power: what flash, fuses and the board keep. -/
def bare (s : State) : State :=
  { State.reset with
    pending := s.pending
    fresh := s.fresh
    regs := s.floors
    flash := s.flash
    flashFitted := s.flashFitted
    perLog := s.perLog
    mg := { Mgmt.init with keyNext := s.mg.keyNext, dumpNext := s.mg.dumpNext }
    pins := s.pins
    outbox := s.outbox }

/-- What survives a cold reset without loss of package power: the device queue with its registers, the volatile log, the
crash dumps with theirs (R336, R350, R376). -/
def keepAon (s old : State) : State :=
  let regs := [a_FQ_DEVHEAD, a_FQ_DEVTAIL, a_FQ_DEVOVF, a_FQ_DEVFATAL, a_MG_DUMPCNT] ++ (List.range 4).map a_MG_DUMPSTAT
  regs.foldl (fun t a => t.wr a (old.rd a))
    { s with devRing := old.devRing, devFatal := old.devFatal, volLog := old.volLog, dumps := old.dumps }

/-- The measurement of the debug state (R384): 0 locked, 1 re-opened, 2 never locked. -/
def debugState (s : State) : Nat :=
  if s.flag a_MG_CFG MG_CFG_DEBUG_OPEN then 1 else if s.flag a_MG_CFG MG_CFG_PROD_LOCKED then 0 else 2

/-- The root of trust makes SYS, BANJO, OPERATOR and DEBUG (R386), measures what it starts from (R384), and looks for a re-open token (R394). -/
def rootStart (s : State) : State :=
  let t := [6144, 6145, 6146, 6147].foldl (fun t k => t.newKey k) s
  let t := t.extendMeasure 1 (Config.bootState ++ [a_MG_FLOOR, a_MG_LICFLOOR, a_MG_CFG].flatMap (fun a => leBytes (t.readReg a).toNat 8))
  let t := if t.flag a_MG_CFG MG_CFG_PROD_LOCKED && t.reopenOk then t.setFld a_MG_CFG MG_CFG_DEBUG_OPEN 1 else t
  t.extendMeasure 6 [BitVec.ofNat 8 t.debugState]

/-- A cold start (R361, R371, R394): the straps are latched; in board test nothing more comes up. -/
def coldStart (s : State) : State :=
  let t := s.bare.keepAon s
  let t := { t with
    pins := { t.pins with pwrGood := true }
    mg := { t.mg with strapMode := t.pins.modeSel, strapBoard := t.pins.boardTest } }
  if t.pins.boardTest then { t.setFld a_MG_CFG MG_CFG_BOARD_TEST 1 with mg := { t.mg with phase := 1 } }
  else (t.logEvent 371).rootStart.readFlash t.pins.modeSel

/-- Everything outside Banjo goes off (R324, R405). -/
def allOff (s : State) : State :=
  let t := (s.loseDevice).allDoms (fun _ => Dom.init)
  let t := (List.range 122).foldl (fun t i => t.setFld (a_PW_DOMCTL i) PW_DOMCTL_ON 0) t
  let t := (t.setFld a_MG_BOOTSTAT MG_BOOTSTAT_LEVEL 0).setFld a_MG_BOOTSTAT MG_BOOTSTAT_JOINED 0
  { t with dies := [], mg := { t.mg with phase := 0, warmHeld := false } }

/-- PWR_GOOD falls (R405): an orderly power-down, before any reset or bring-up in progress (R406). -/
def goodFall (s : State) : State :=
  if !s.pins.pwrGood then s
  else
    let t := s.allOff
    { t with pins := { t.pins with pwrGood := false }, mg := { t.mg with tripped := false } }

/-- A thermal trip (R324). -/
def trip (s : State) (sensor raw : Nat) : State :=
  if raw < 1760 || 32768 ≤ raw || s.mg.phase == 0 then s
  else
    let r := { s.record cTHERMAL with fatal := true, die := if sensor < 192 then sensor / 32 else 6, info0 := raw }
    let t := (s.fault .device r).allOff
    { t with mg := { t.mg with tripped := true } }

/-! ### Bring-up (R366, R369–R372) -/

/-- Bring-up is under way and has not stopped. -/
def bootRuns (s : State) : Bool := s.firmware && !s.halted && !s.mg.warmHeld

def imageIn (s : State) (p : Nat) : Bool := natBit s.mg.imaged p

/-- A partition failed to join. -/
def failedJoin (s : State) (p : Nat) : Bool := s.recState p == 3

/-- A Burl is held in die reset because the training of its link failed: its partitions are absent from service (R24). -/
def heldBurl (s : State) (b : Nat) : Bool := (s.die b).untrained

/-- The partitions that still wait for their bring-up. -/
def unjoined (s : State) : List Nat :=
  (List.range 24).filter (fun p => s.enabled p && !(s.part p).joined && !s.failedJoin p && !s.heldBurl (burlOf p))

/-- The retrain of T2 begins once no partition waits for its bring-up (R369, R371). -/
def retrainStart (s : State) : State :=
  if s.bootRuns && s.t2Up && s.fld a_MG_BOOTSTAT MG_BOOTSTAT_LEVEL == 1 && !s.mg.retrained && s.mg.retrainAt.isNone && s.unjoined.isEmpty
  then { s with mg := { s.mg with retrainAt := some s.now } } else s

/-- The watchdogs pause while T2 is retrained (R369). -/
def shiftWatchdogs (s : State) (n : Nat) : State :=
  (List.range 24).foldl (fun t p => t.modPart p (fun x => { x with wd := x.wd.map (fun e => (e.1, e.2 + n)) })) s

/-- A broadcast of the partition image ends: ok names the sequencers whose check passed. The image is broadcast once more for
the others; who fails again does not join. Once T2 is in service the image also stands in the crash dump reserve (R366). -/
def broadcastDone (s : State) (ok : Nat) : State :=
  let todo := s.unjoined.filter (fun p => !s.imageIn p)
  if !s.bootRuns || todo.isEmpty || 2 ≤ s.mg.broadcasts || !todo.all (fun p => s.domOn (domCtl p)) then s
  else
    let good := todo.filter (fun p => natBit ok p)
    let bad := todo.filter (fun p => !natBit ok p)
    let t := good.foldl (fun t p => t.wr (a_VE_TABVALID p) 0xFFFFFFFF) s
    let t := { t with mg := { t.mg with
      imageCopy := t.mg.imageCopy || t.t2Up, broadcasts := t.mg.broadcasts + 1, imaged := good.foldl (fun n p => natSetBit n p true) t.mg.imaged } }
    if s.mg.broadcasts = 0 then t else (bad.foldl (fun t p => t.quarantine p) t).retrainStart

/-- The partition that a Burl brings up next (R346, R371). -/
def nextJoin (s : State) (b : Nat) : Option Nat := s.unjoined.find? (fun p => burlOf p == b)

/-- A partition's stack is trained and scrubbed and its sequencer starts, or it is quarantined (R371). -/
def join (s : State) (p : Nat) (ok : Bool) : State :=
  if !s.bootRuns || !s.imageIn p || s.nextJoin (burlOf p) != some p || s.slotTaken p || !s.domOn (domCtl p)
      || (s.die (burlOf p)).inReset then s
  else if !ok then (s.quarantine p).retrainStart
  else
    let t := (s.tsZero p 0 tsSize).modPart p (fun x => { x with joined := true, inReset := false, stackOut := false, hbAt := s.now })
    let t := { t with mem := Sparse.drop (fun a => stackOf a == p) t.mem, units := Sparse.drop (fun a => stackOf a == p) t.units }
    (t.setFld a_MG_BOOTSTAT MG_BOOTSTAT_JOINED (natSetBit (t.fld a_MG_BOOTSTAT MG_BOOTSTAT_JOINED) p true)).retrainStart

/-- DDR training completes (R181, R366, R371, R372, R408): dimms are the capacities of the twelve channels in GiB, 0 for none and at
most 256 (R1).
DEDUCED, unsafe (log entry 33): L1 begins with T2 in service. -/
def t2Start (s : State) (dimms : List Nat) (ok : Bool) : State :=
  if !s.bootRuns || s.t2Up || !(s.domOn 108 && s.domOn 109 && s.domOn domHome) then s
  else
    let ds := (List.range 12).map (fun k => dimms.getD k 0)
    let warm := s.flag a_MG_BOOTSTAT MG_BOOTSTAT_WARM
    let pop := (List.range 12).foldl (fun n k => n + b2n (ds.getD k 0 != 0) * 2 ^ k) 0
    if ds.any (fun d => decide (256 < d)) then s
    else if ds.any (fun d => d == 0) then (s.setFld a_DD_TIER DD_TIER_POP pop).halt 6
    else if !ok || s.pins.lostMem.contains 6 then s.halt 7
    else
      let a := a_DD_TIER
      let t := (((s.setFld a DD_TIER_POP 0xFFF).setFld a DD_TIER_DIMM_GIB (ds.foldl min (ds.headD 0))).setFld a DD_TIER_SPEED
        (if warm then 6400 else 4800)).setFld a DD_TIER_ACTIVE 1
      ({ t.setFld a_MG_BOOTSTAT MG_BOOTSTAT_LEVEL 1 with mg := { t.mg with
          retrained := warm, imageCopy := t.mg.imageCopy || decide (1 ≤ t.mg.broadcasts) } } : State).retrainStart

/-- The retrain at DDR5-6400 ends; ports begin to train (R369, R371). -/
def retrainDone (s : State) (ok : Bool) : State :=
  if !s.bootRuns || s.fld a_MG_BOOTSTAT MG_BOOTSTAT_LEVEL != 1 || s.mg.retrained || !s.unjoined.isEmpty then s
  else
    let t := { s with mg := { s.mg with retrained := true } }.shiftWatchdogs (min 40000000 (s.now - s.mg.retrainAt.getD s.now))
    let t := if ok then t.setFld a_DD_TIER DD_TIER_SPEED 6400 else t.faultDev cLINK 6 255
    (List.range 16).foldl (fun t p =>
      if t.portState p = psTRAINING then t.setPort p { t.port p with since := t.now } else t) t

/-- Every enabled port is UP or FAILED, or has trained for 500 ms (R369). -/
def portsSettled (s : State) : Bool :=
  (List.range 16).all (fun p => !s.portEnabled p || s.portState p == psUP || s.portState p == psFAILED
    || decide ((s.port p).since + 500000000 ≤ s.now))

/-- The device enters finishing service (R369). A partition whose die is in reset does not hold it back. -/
def enterL2 (s : State) : State :=
  if s.bootRuns && s.fld a_MG_BOOTSTAT MG_BOOTSTAT_LEVEL == 1 && s.mg.retrained && s.portsSettled
      && s.unjoined.all (fun p => (s.die (burlOf p)).inReset) then
    s.setFld a_MG_BOOTSTAT MG_BOOTSTAT_LEVEL 2
  else s

/-- The background scrub of T2 is complete: units that nothing has written hold zero ciphertext (R370, R421). -/
def scrubDone (s : State) : State :=
  if s.t2Up && !s.flag a_MG_BOOTSTAT MG_BOOTSTAT_SCRUBBED then
    { s with t2Era := 0 }.setFld a_MG_BOOTSTAT MG_BOOTSTAT_SCRUBBED 1
  else s

end State

open State

/-- POWER_UP_COMPLETE (R327). -/
def execPowerUpComplete (dom : Fin 124) (s : State) : Out' := .next (s.powerUp dom)

/-- POWER_DOWN_COMPLETE (R240). -/
def execPowerDownComplete (dom : Fin 124) (s : State) : Out' := .next (s.powerDown dom)

/-- PWR_GOOD_RISE (R371, R406). -/
def execPwrGoodRise (s : State) : Out' := .next (if s.pins.pwrGood then s else s.coldStart)

/-- PWR_GOOD_FALL (R405). -/
def execPwrGoodFall (s : State) : Out' := .next s.goodFall

/-- WARM_RST_N falls: a warm device reset, which the low level holds; before the firmware runs a PROTO fault (R406). -/
def execWarmRstN (s : State) : Out' :=
  .next (
    if !s.pins.warmRstN then s
    else
      let t := { s with pins := { s.pins with warmRstN := false } }
      if s.mg.phase = 2 then t.warmReset false else if s.mg.phase = 1 then t.faultDev cPROTO 9 224 else t)

/-- WARM_RST_N_RISE: a held reset goes on (R406). -/
def execWarmRstNRise (s : State) : Out' :=
  .next (
    if s.pins.warmRstN then s
    else
      let t := { s with pins := { s.pins with warmRstN := true } }
      if t.mg.warmHeld then t.resume else t)

/-- POWER_LOSS without warning (R220, R405). -/
def execPowerLoss (s : State) : Out' := .next { s.bare with pins := { s.pins with pwrGood := false } }

/-- THERMAL_TRIP: the sensor's raw reading in 1/16 °C (R324). -/
def execThermalTrip (sensor : Fin 400) (temp : Nat) (s : State) : Out' := .next (s.trip sensor temp)

/-- BROADCAST_END (R366). -/
def execBroadcastEnd (ok : BitVec 24) (s : State) : Out' := .next (s.broadcastDone ok.toNat)

/-- PARTITION_JOIN (R371). -/
def execPartitionJoin (pp : Fin 24) (ok : Bool) (s : State) : Out' := .next (s.join pp ok)

/-- T2_IN_SERVICE (R371). -/
def execT2InService (dimms : List Nat) (ok : Bool) (s : State) : Out' := .next (s.t2Start dimms ok)

/-- DDR_RETRAIN_DONE (R369). -/
def execDdrRetrainDone (ok : Bool) (s : State) : Out' := .next (s.retrainDone ok)

/-- L2_ENTRY (R369). -/
def execL2Entry (s : State) : Out' := .next s.enterL2

/-- T2_SCRUB_COMPLETE (R370). -/
def execT2ScrubComplete (s : State) : Out' := .next s.scrubDone

end Sys2Proof.Machine
end

