-- ==== Sys2Proof/Machine/Dispatch.lean ====
section
/-! DEFINITION. What each command does: one arm per constructor of Instr, each a call of the command's own meaning. -/

namespace Sys2Proof.Machine

/-- The effect of a command on everything but the queue. -/
def exec (i : Instr) (s : State) : Host.Outcome State Fault Refusal :=
  match i with
  | .registerWrite who addr size value => Sys2Proof.Machine.execRegisterWrite who addr size value s
  | .readClear who addr size => Sys2Proof.Machine.execReadClear who addr size s
  | .lkCommitGo who link => Sys2Proof.Machine.execLkCommitGo who link s
  | .meCommitGo who pp => Sys2Proof.Machine.execMeCommitGo who pp s
  | .ptCommitGo who pp slot resume => Sys2Proof.Machine.execPtCommitGo who pp slot resume s
  | .ptCommitResume who pp slot => Sys2Proof.Machine.execPtCommitResume who pp slot s
  | .sqCommit who pp slot => Sys2Proof.Machine.execSqCommit who pp slot s
  | .sqDb who pp slot tail => Sys2Proof.Machine.execSqDb who pp slot tail s
  | .ptPredWrite who pp n value => Sys2Proof.Machine.execPtPredWrite who pp n value s
  | .bdSemWrite who pp ix value => Sys2Proof.Machine.execBdSemWrite who pp ix value s
  | .bdSemaddWrite who pp ix value => Sys2Proof.Machine.execBdSemaddWrite who pp ix value s
  | .bdBarcfgWrite who b value => Sys2Proof.Machine.execBdBarcfgWrite who b value s
  | .bdBargenArrive who b => Sys2Proof.Machine.execBdBargenArrive who b s
  | .xlCommit who asid => Sys2Proof.Machine.execXlCommit who asid s
  | .xlFenceGo who asid => Sys2Proof.Machine.execXlFenceGo who asid s
  | .xlWincommit who w => Sys2Proof.Machine.execXlWincommit who w s
  | .scCommit who => Sys2Proof.Machine.execScCommit who s
  | .hsIrqrouteWrite who n value => Sys2Proof.Machine.execHsIrqrouteWrite who n value s
  | .hsCorekeyWrite who c value => Sys2Proof.Machine.execHsCorekeyWrite who c value s
  | .hiQcommitGo who q resume => Sys2Proof.Machine.execHiQcommitGo who q resume s
  | .hiQcommitResume who q => Sys2Proof.Machine.execHiQcommitResume who q s
  | .hiQdb fn q size value inStream => Sys2Proof.Machine.execHiQdb fn q size value inStream s
  | .hiLinkWrite who value => Sys2Proof.Machine.execHiLinkWrite who value s
  | .fbCommit who => Sys2Proof.Machine.execFbCommit who s
  | .fbTimeoutWrite who value => Sys2Proof.Machine.execFbTimeoutWrite who value s
  | .fbPortctlEnable who p enable => Sys2Proof.Machine.execFbPortctlEnable who p enable s
  | .fbPortctlRetrain who p => Sys2Proof.Machine.execFbPortctlRetrain who p s
  | .pwCommit who => Sys2Proof.Machine.execPwCommit who s
  | .pwPhcommitGo who pp => Sys2Proof.Machine.execPwPhcommitGo who pp s
  | .pwPhcommitClear who pp => Sys2Proof.Machine.execPwPhcommitClear who pp s
  | .pwThermWrite who value => Sys2Proof.Machine.execPwThermWrite who value s
  | .pwDomctlOn who dom on => Sys2Proof.Machine.execPwDomctlOn who dom on s
  | .pwDomctlSetMv who dom mv => Sys2Proof.Machine.execPwDomctlSetMv who dom mv s
  | .fqCommit who pp => Sys2Proof.Machine.execFqCommit who pp s
  | .fqHeadWrite who queue head => Sys2Proof.Machine.execFqHeadWrite who queue head s
  | .fqFatalClear who queue mask => Sys2Proof.Machine.execFqFatalClear who queue mask s
  | .ptWatchdogWrite who pp value => Sys2Proof.Machine.execPtWatchdogWrite who pp value s
  | .ptRecctlReset who pp => Sys2Proof.Machine.execPtRecctlReset who pp s
  | .ptRecctlRelease who pp => Sys2Proof.Machine.execPtRecctlRelease who pp s
  | .ptTmcommit who pp => Sys2Proof.Machine.execPtTmcommit who pp s
  | .ptTmctlHold who pp hold => Sys2Proof.Machine.execPtTmctlHold who pp hold s
  | .mgDumpctlTrigger who => Sys2Proof.Machine.execMgDumpctlTrigger who s
  | .mgDumpctlRelease who mask => Sys2Proof.Machine.execMgDumpctlRelease who mask s
  | .mgResetctlWarm who => Sys2Proof.Machine.execMgResetctlWarm who s
  | .mgIoctlWrite who value => Sys2Proof.Machine.execMgIoctlWrite who value s
  | .mailboxReqWrite who ch req => Sys2Proof.Machine.execMailboxReqWrite who ch req s
  | .mailboxCh3HostWrite value => Sys2Proof.Machine.execMailboxCh3HostWrite value s
  | .mailboxCh3CoreWrite c value => Sys2Proof.Machine.execMailboxCh3CoreWrite c value s
  | .status ch => Sys2Proof.Machine.execStatus ch s
  | .setMode ch => Sys2Proof.Machine.execSetMode ch s
  | .warmReset ch => Sys2Proof.Machine.execWarmReset ch s
  | .logRead ch => Sys2Proof.Machine.execLogRead ch s
  | .dumpRead ch => Sys2Proof.Machine.execDumpRead ch s
  | .dumpRelease ch => Sys2Proof.Machine.execDumpRelease ch s
  | .updateWrite ch => Sys2Proof.Machine.execUpdateWrite ch s
  | .updateActivate ch => Sys2Proof.Machine.execUpdateActivate ch s
  | .floorRaise ch => Sys2Proof.Machine.execFloorRaise ch s
  | .keyCreate ch => Sys2Proof.Machine.execKeyCreate ch s
  | .keyImport ch => Sys2Proof.Machine.execKeyImport ch s
  | .cellCreate ch => Sys2Proof.Machine.execCellCreate ch s
  | .cellDestroy ch => Sys2Proof.Machine.execCellDestroy ch s
  | .spdm ch => Sys2Proof.Machine.execSpdm ch s
  | .oobRequest session opcode args data => Sys2Proof.Machine.execOobRequest session opcode args data s
  | .doeSpdmRequest message => Sys2Proof.Machine.execDoeSpdmRequest message s
  | .descriptorFetch pp slot => Sys2Proof.Machine.execDescriptorFetch pp slot s
  | .descriptorSubmit pp slot => Sys2Proof.Machine.execDescriptorSubmit pp slot s
  | .rangeTableProbe pp slot => Sys2Proof.Machine.execRangeTableProbe pp slot s
  | .moveLinear pp slot => Sys2Proof.Machine.execMoveLinear pp slot s
  | .moveTile pp slot => Sys2Proof.Machine.execMoveTile pp slot s
  | .moveStrided pp slot => Sys2Proof.Machine.execMoveStrided pp slot s
  | .moveGather pp slot => Sys2Proof.Machine.execMoveGather pp slot s
  | .moveScatter pp slot => Sys2Proof.Machine.execMoveScatter pp slot s
  | .mm pp slot => Sys2Proof.Machine.execMm pp slot s
  | .vecElementwise pp slot => Sys2Proof.Machine.execVecElementwise pp slot s
  | .vecReduction pp slot => Sys2Proof.Machine.execVecReduction pp slot s
  | .softmax pp slot => Sys2Proof.Machine.execSoftmax pp slot s
  | .layernorm pp slot => Sys2Proof.Machine.execLayernorm pp slot s
  | .rmsnorm pp slot => Sys2Proof.Machine.execRmsnorm pp slot s
  | .convert pp slot => Sys2Proof.Machine.execConvert pp slot s
  | .funcSlot pp slot => Sys2Proof.Machine.execFuncSlot pp slot s
  | .funcTableImage pp slot => Sys2Proof.Machine.execFuncTableImage pp slot s
  | .dispatch pp slot => Sys2Proof.Machine.execDispatch pp slot s
  | .signalAdd pp slot => Sys2Proof.Machine.execSignalAdd pp slot s
  | .signalSet pp slot => Sys2Proof.Machine.execSignalSet pp slot s
  | .signalMax pp slot => Sys2Proof.Machine.execSignalMax pp slot s
  | .signalCas pp slot => Sys2Proof.Machine.execSignalCas pp slot s
  | .signalFabFlag pp slot => Sys2Proof.Machine.execSignalFabFlag pp slot s
  | .waitSem pp slot => Sys2Proof.Machine.execWaitSem pp slot s
  | .waitFlag pp slot => Sys2Proof.Machine.execWaitFlag pp slot s
  | .waitSeq pp slot => Sys2Proof.Machine.execWaitSeq pp slot s
  | .waitBarrier pp slot => Sys2Proof.Machine.execWaitBarrier pp slot s
  | .refresh pp slot => Sys2Proof.Machine.execRefresh pp slot s
  | .flush pp slot => Sys2Proof.Machine.execFlush pp slot s
  | .evict pp slot => Sys2Proof.Machine.execEvict pp slot s
  | .allocClaim pp slot => Sys2Proof.Machine.execAllocClaim pp slot s
  | .allocRelease pp slot => Sys2Proof.Machine.execAllocRelease pp slot s
  | .phase pp slot => Sys2Proof.Machine.execPhase pp slot s
  | .mark pp slot => Sys2Proof.Machine.execMark pp slot s
  | .fence pp slot => Sys2Proof.Machine.execFence pp slot s
  | .moverTake pp dm => Sys2Proof.Machine.execMoverTake pp dm s
  | .workUnitTake pp me => Sys2Proof.Machine.execWorkUnitTake pp me s
  | .wavefrontFire pp me acc => Sys2Proof.Machine.execWavefrontFire pp me acc s
  | .workUnitResult pp me acc => Sys2Proof.Machine.execWorkUnitResult pp me acc s
  | .startTokenIssue pp => Sys2Proof.Machine.execStartTokenIssue pp s
  | .startTokenTake pp => Sys2Proof.Machine.execStartTokenTake pp s
  | .engineCold pp me => Sys2Proof.Machine.execEngineCold pp me s
  | .dispatchComplete pp => Sys2Proof.Machine.execDispatchComplete pp s
  | .lastWriteAcknowledged pp slot index => Sys2Proof.Machine.execLastWriteAcknowledged pp slot index s
  | .completionRecord pp slot index => Sys2Proof.Machine.execCompletionRecord pp slot index s
  | .epochIncrementApply asid => Sys2Proof.Machine.execEpochIncrementApply asid s
  | .semaphoreUpdate k => Sys2Proof.Machine.execSemaphoreUpdate k s
  | .semWaitArrive k => Sys2Proof.Machine.execSemWaitArrive k s
  | .semWaitRelease k => Sys2Proof.Machine.execSemWaitRelease k s
  | .barrierArrival k => Sys2Proof.Machine.execBarrierArrival k s
  | .barrierRelease k => Sys2Proof.Machine.execBarrierRelease k s
  | .waitTimeout pp slot => Sys2Proof.Machine.execWaitTimeout pp slot s
  | .flagPoll pp slot => Sys2Proof.Machine.execFlagPoll pp slot s
  | .contextDrained pp slot => Sys2Proof.Machine.execContextDrained pp slot s
  | .ageHalving pp => Sys2Proof.Machine.execAgeHalving pp s
  | .migrationStart pp => Sys2Proof.Machine.execMigrationStart pp s
  | .migrationDrained pp => Sys2Proof.Machine.execMigrationDrained pp s
  | .migrationAbandon pp => Sys2Proof.Machine.execMigrationAbandon pp s
  | .migrationCommit pp => Sys2Proof.Machine.execMigrationCommit pp s
  | .hostIngressWrite fn q offset data inStream => Sys2Proof.Machine.execHostIngressWrite fn q offset data inStream s
  | .ingressAccepted q => Sys2Proof.Machine.execIngressAccepted q s
  | .doorbellForward q => Sys2Proof.Machine.execDoorbellForward q s
  | .doorbellAhead q => Sys2Proof.Machine.execDoorbellAhead q s
  | .hostEgressRead fn q offset bytes inStream => Sys2Proof.Machine.execHostEgressRead fn q offset bytes inStream s
  | .hostUnsupportedAccess fn read mailbox => Sys2Proof.Machine.execHostUnsupportedAccess fn read mailbox s
  | .msixSend fn vector => Sys2Proof.Machine.execMsixSend fn vector s
  | .hostLinkDown => Sys2Proof.Machine.execHostLinkDown s
  | .flr fn => Sys2Proof.Machine.execFlr fn s
  | .perstN level => Sys2Proof.Machine.execPerstN level s
  | .hostLinkUp gen width => Sys2Proof.Machine.execHostLinkUp gen width s
  | .flitReceive p fecOk tagOk flit => Sys2Proof.Machine.execFlitReceive p fecOk tagOk flit s
  | .retrainTimeout p => Sys2Proof.Machine.execRetrainTimeout p s
  | .portTrained p lanes => Sys2Proof.Machine.execPortTrained p lanes s
  | .keyingMessage p ok last peer peerSw => Sys2Proof.Machine.execKeyingMessage p ok last peer peerSw s
  | .keyingTimeout p => Sys2Proof.Machine.execKeyingTimeout p s
  | .fabricRekey p => Sys2Proof.Machine.execFabricRekey p s
  | .wr p pkt data => Sys2Proof.Machine.execWr p pkt data s
  | .rd p pkt => Sys2Proof.Machine.execRd p pkt s
  | .wr4 p pkt => Sys2Proof.Machine.execWr4 p pkt s
  | .rdRsp p pkt data => Sys2Proof.Machine.execRdRsp p pkt data s
  | .ack p pkt => Sys2Proof.Machine.execAck p pkt s
  | .nak p pkt => Sys2Proof.Machine.execNak p pkt s
  | .remoteResend tag => Sys2Proof.Machine.execRemoteResend tag s
  | .remoteTimeout tag => Sys2Proof.Machine.execRemoteTimeout tag s
  | .linkWordReceive link bundle fate => Sys2Proof.Machine.execLinkWordReceive link bundle fate s
  | .linkTraining link working => Sys2Proof.Machine.execLinkTraining link working s
  | .dieResetExit die => Sys2Proof.Machine.execDieResetExit die s
  | .tsyncRound offsets ok => Sys2Proof.Machine.execTsyncRound offsets ok s
  | .refLost => Sys2Proof.Machine.execRefLost s
  | .refRestored => Sys2Proof.Machine.execRefRestored s
  | .referenceClockLost clk => Sys2Proof.Machine.execReferenceClockLost clk s
  | .undervoltageFreeze dom mv => Sys2Proof.Machine.execUndervoltageFreeze dom mv s
  | .freezeResume dom mv => Sys2Proof.Machine.execFreezeResume dom mv s
  | .freezeTimeout dom => Sys2Proof.Machine.execFreezeTimeout dom s
  | .islandSupplyHold dom => Sys2Proof.Machine.execIslandSupplyHold dom s
  | .budgetInterval demand => Sys2Proof.Machine.execBudgetInterval demand s
  | .budgetMessage die energy => Sys2Proof.Machine.execBudgetMessage die energy s
  | .budgetMissed die => Sys2Proof.Machine.execBudgetMissed die s
  | .paceOverloadStep pp power => Sys2Proof.Machine.execPaceOverloadStep pp power s
  | .headstockGovernorStep quad power => Sys2Proof.Machine.execHeadstockGovernorStep quad power s
  | .phaseRaiseStart pp => Sys2Proof.Machine.execPhaseRaiseStart pp s
  | .chatterDetect dom => Sys2Proof.Machine.execChatterDetect dom s
  | .dampedExit dom => Sys2Proof.Machine.execDampedExit dom s
  | .chatterPersist dom => Sys2Proof.Machine.execChatterPersist dom s
  | .sensorReport temps levels => Sys2Proof.Machine.execSensorReport temps levels s
  | .thermalTrip sensor temp => Sys2Proof.Machine.execThermalTrip sensor temp s
  | .powerUpComplete dom => Sys2Proof.Machine.execPowerUpComplete dom s
  | .powerDownComplete dom => Sys2Proof.Machine.execPowerDownComplete dom s
  | .rdS home agent line => Sys2Proof.Machine.execRdS home agent line s
  | .rdX home agent line => Sys2Proof.Machine.execRdX home agent line s
  | .upg home agent line => Sys2Proof.Machine.execUpg home agent line s
  | .putC home agent line => Sys2Proof.Machine.execPutC home agent line s
  | .putM home agent line => Sys2Proof.Machine.execPutM home agent line s
  | .rdNa home line key => Sys2Proof.Machine.execRdNa home line key s
  | .wrInv home line key data mask => Sys2Proof.Machine.execWrInv home line key data mask s
  | .snpS home agent line => Sys2Proof.Machine.execSnpS home agent line s
  | .snpI home agent line => Sys2Proof.Machine.execSnpI home agent line s
  | .snpPeek home agent line => Sys2Proof.Machine.execSnpPeek home agent line s
  | .snpBi home agent target sweep => Sys2Proof.Machine.execSnpBi home agent target sweep s
  | .snoopResponse home agent line => Sys2Proof.Machine.execSnoopResponse home agent line s
  | .homeGrant home agent line => Sys2Proof.Machine.execHomeGrant home agent line s
  | .homeNak home agent line => Sys2Proof.Machine.execHomeNak home agent line s
  | .nakRetry agent line => Sys2Proof.Machine.execNakRetry agent line s
  | .writebackAccepted slice line => Sys2Proof.Machine.execWritebackAccepted slice line s
  | .snoopTimeout home agent line => Sys2Proof.Machine.execSnoopTimeout home agent line s
  | .deadAgentReclaimed home agent => Sys2Proof.Machine.execDeadAgentReclaimed home agent s
  | .load c addr size kind => Sys2Proof.Machine.execLoad c addr size kind s
  | .store c addr size kind value => Sys2Proof.Machine.execStore c addr size kind value s
  | .storeRefused c line => Sys2Proof.Machine.execStoreRefused c line s
  | .atomAdd c addr size kind value => Sys2Proof.Machine.execAtomAdd c addr size kind value s
  | .atomSwp c addr size kind value => Sys2Proof.Machine.execAtomSwp c addr size kind value s
  | .atomCas c addr size kind cmp value => Sys2Proof.Machine.execAtomCas c addr size kind cmp value s
  | .atomMax c addr size kind value => Sys2Proof.Machine.execAtomMax c addr size kind value s
  | .ordLd c => Sys2Proof.Machine.execOrdLd c s
  | .ordSt c => Sys2Proof.Machine.execOrdSt c s
  | .ordFull c => Sys2Proof.Machine.execOrdFull c s
  | .ordDev c => Sys2Proof.Machine.execOrdDev c s
  | .touchL1 c addr attr => Sys2Proof.Machine.execTouchL1 c addr attr s
  | .touchL2 c addr attr => Sys2Proof.Machine.execTouchL2 c addr attr s
  | .touchSc c addr attr => Sys2Proof.Machine.execTouchSc c addr attr s
  | .touchEx c addr attr => Sys2Proof.Machine.execTouchEx c addr attr s
  | .cmoClean c addr scope attr => Sys2Proof.Machine.execCmoClean c addr scope attr s
  | .cmoInv c addr scope attr user => Sys2Proof.Machine.execCmoInv c addr scope attr user s
  | .cmoClinv c addr scope attr => Sys2Proof.Machine.execCmoClinv c addr scope attr s
  | .faultRecordSend queue => Sys2Proof.Machine.execFaultRecordSend queue s
  | .faultRingRetry pp => Sys2Proof.Machine.execFaultRingRetry pp s
  | .holdingStackReturn pp => Sys2Proof.Machine.execHoldingStackReturn pp s
  | .watchdogCatch pp unit => Sys2Proof.Machine.execWatchdogCatch pp unit s
  | .heartbeatCheck pp advanced => Sys2Proof.Machine.execHeartbeatCheck pp advanced s
  | .recoveryStart pp => Sys2Proof.Machine.execRecoveryStart pp s
  | .quiesceDone pp => Sys2Proof.Machine.execQuiesceDone pp s
  | .recoverySlotGrant pp => Sys2Proof.Machine.execRecoverySlotGrant pp s
  | .stackReinitDone pp => Sys2Proof.Machine.execStackReinitDone pp s
  | .stackScrubDone pp => Sys2Proof.Machine.execStackScrubDone pp s
  | .firmwareReloadDone pp => Sys2Proof.Machine.execFirmwareReloadDone pp s
  | .reloadEntry pp => Sys2Proof.Machine.execReloadEntry pp s
  | .replayWaitTimeout pp => Sys2Proof.Machine.execReplayWaitTimeout pp s
  | .dumpDone truncated => Sys2Proof.Machine.execDumpDone truncated s
  | .lockstepMismatch => Sys2Proof.Machine.execLockstepMismatch s
  | .pwrGoodRise => Sys2Proof.Machine.execPwrGoodRise s
  | .pwrGoodFall => Sys2Proof.Machine.execPwrGoodFall s
  | .warmRstN => Sys2Proof.Machine.execWarmRstN s
  | .broadcastEnd ok => Sys2Proof.Machine.execBroadcastEnd ok s
  | .partitionJoin pp ok => Sys2Proof.Machine.execPartitionJoin pp ok s
  | .t2InService dimms ok => Sys2Proof.Machine.execT2InService dimms ok s
  | .ddrRetrainDone ok => Sys2Proof.Machine.execDdrRetrainDone ok s
  | .l2Entry => Sys2Proof.Machine.execL2Entry s
  | .t2ScrubComplete => Sys2Proof.Machine.execT2ScrubComplete s
  | .islandSupplyReturn dom => Sys2Proof.Machine.execIslandSupplyReturn dom s
  | .islandHoldTimeout dom => Sys2Proof.Machine.execIslandHoldTimeout dom s
  | .referenceClockReturn clk => Sys2Proof.Machine.execReferenceClockReturn clk s
  | .warmRstNRise => Sys2Proof.Machine.execWarmRstNRise s
  | .powerLoss => Sys2Proof.Machine.execPowerLoss s

end Sys2Proof.Machine
end

