-- ==== Sys2Proof/Safety.lean ====
section
/-! DEFINITION. What the statements call a safe state and a completed command. -/

namespace Sys2Proof.Machine

open State

/-- The sparse maps of a state in their canonical form: keys strictly rising, no entry equal to what an unlisted key reads as.
Equal contents are then equal data. -/
structure CanonicalMaps (mem ts sram flash : List Host.Cell) (regs : Sparse Word) (staged : Sparse (Option Word))
    (units : Sparse UnitMeta) (tsPoison tsDirty : Sparse Bool) (keys : Sparse Nat) (ctxs : Sparse Ctx) (parts : Sparse Part)
    (homes : Sparse Home) (agents : Sparse Agent) (slices : Sparse Slice) (cores : Sparse CoreSt) (doms : Sparse Dom)
    (dies : Sparse Die) (links : Sparse Link) (queues : Sparse HostQueue) (fns : Sparse FnSt) (ports : Sparse Port)
    (linkFaultAt : Sparse Nat) (devRing devFatal : Sparse (List Word)) (dumps : Sparse (Option Dump)) (chans : Sparse Chan)
    (measures : Sparse (List Byte)) (flips tsFlips : Sparse Nat) : Prop where
  mem : Sparse.wf (fun _ => (0 : Byte)) mem = true
  ts : Sparse.wf (fun _ => (0 : Byte)) ts = true
  sram : Sparse.wf (fun _ => (0 : Byte)) sram = true
  flash : Sparse.wf (fun _ => (0xFF : Byte)) flash = true
  regs : Sparse.wf regReset regs = true
  staged : Sparse.wf (fun _ => none) staged = true
  units : Sparse.wf (fun _ => (⟨0, false⟩ : UnitMeta)) units = true
  tsPoison : Sparse.wf (fun _ => false) tsPoison = true
  tsDirty : Sparse.wf (fun _ => false) tsDirty = true
  keys : Sparse.wf (fun _ => 0) keys = true
  ctxs : Sparse.wf (fun _ => Ctx.init) ctxs = true
  parts : Sparse.wf (fun _ => Part.init) parts = true
  homes : Sparse.wf (fun _ => Home.init) homes = true
  agents : Sparse.wf (fun _ => Agent.init) agents = true
  slices : Sparse.wf (fun _ => Slice.init) slices = true
  cores : Sparse.wf (fun _ => CoreSt.init) cores = true
  doms : Sparse.wf (fun _ => Dom.init) doms = true
  dies : Sparse.wf (fun _ => Die.init) dies = true
  links : Sparse.wf (fun _ => Link.init) links = true
  queues : Sparse.wf (fun _ => HostQueue.init) queues = true
  fns : Sparse.wf (fun _ => FnSt.init) fns = true
  ports : Sparse.wf (fun _ => Port.init) ports = true
  linkFaultAt : Sparse.wf (fun _ => 0) linkFaultAt = true
  devRing : Sparse.wf (fun _ => []) devRing = true
  devFatal : Sparse.wf (fun _ => []) devFatal = true
  dumps : Sparse.wf (fun _ => none) dumps = true
  chans : Sparse.wf (fun _ => Chan.init) chans = true
  measures : Sparse.wf (fun _ => zeroDigest) measures = true
  flips : Sparse.wf (fun _ => 0) flips = true
  tsFlips : Sparse.wf (fun _ => 0) tsFlips = true

/-- Every memory, register file and array of a state is in its canonical form. -/
abbrev State.Canonical (s : State) : Prop :=
  CanonicalMaps s.mem s.ts s.sram s.flash s.regs s.staged s.units s.tsPoison s.tsDirty s.keys s.ctxs s.parts s.homes
    s.agents s.slices s.cores s.doms s.dies s.links s.queues s.fns s.ports s.linkFaultAt s.devRing s.devFatal s.dumps
    s.chans s.measures s.flips s.tsFlips

/-- Registers whose write is no command of its own: their fields act by their access codes alone (R13). -/
def plainClass : RegClass → Bool
  | .ptCommit | .sqCommit | .sqDb | .ptPred | .bdSem | .bdSemadd | .meCommit | .ptTmcommit | .ptTmctl | .pwPhcommit => false
  | .fqCommit | .fqHead | .fqDevhead | .fqFatal | .fqDevfatal | .ptWatchdog | .ptRecctl | .hsCorekey | .scCommit => false
  | .hsIrqroute | .hsIrqpend | .lkCommit | .bdBarcfg | .bdBargen | .xlFence | .xlCommit | .xlWincommit | .hiQcommit => false
  | .hiQdb | .hiQegcons | .hiLink | .fbCommit | .fbTimeout | .fbPortctl | .pwCommit | .pwTherm | .pwDomctl | .mgDumpctl => false
  | .mgResetctl | .mgIoctl => false
  | _ => true

/-- From s to t the request of a channel is answered: the channel is free, and the answer stands in the channel's buffer,
RESP0 and STATUS, or has left on the Ethernet port (R379, R381). -/
def State.answeredWith (s t : State) (ch : ReqChannel) (code resp : Nat) (data : List Byte) : Prop :=
  (t.chan (chanOf ch)).busy = false ∧
  match ch with
  | .mailbox m =>
    t.sramBytes (chanBuffer m) data.length = data ∧ t.sramWord (chanBase m + 48) = BitVec.ofNat 64 resp ∧
      t.sramWord (chanBase m + 56) =
        BitVec.ofNat 64 (natBits (s.chan m).req.toNat 63 48 * 2 ^ 48 + code * 2 ^ 40 + data.length)
  | .oob => t.outbox = s.outbox ++ [.oob code [BitVec.ofNat 64 resp] data]

/-- What every warm device reset leaves (R220, R372). -/
def State.warmState (t : State) : Prop :=
  t.mem = [] ∧ t.ts = [] ∧ t.ctxs = [] ∧ t.jobs = [] ∧ (∀ d, d < 9 → (t.die d).inReset = true) ∧
    t.fld a_MG_BOOTSTAT MG_BOOTSTAT_LEVEL = 0 ∧ t.fld a_MG_BOOTSTAT MG_BOOTSTAT_WARM = 1 ∧
    t.fld a_MG_BOOTSTAT MG_BOOTSTAT_JOINED = 0

/-! ### Dispatch -/

/-- The dispatch commands of a slot for MOVE, MM, VEC and DISPATCH, each with the descriptors it dispatches (R143). -/
def dispatchEngines (pp : Fin 24) (slot : Fin 192) : List (Instr × (Desc → Bool)) :=
  let vec (c : Instr) (is : Nat → Bool) : Instr × (Desc → Bool) := (c, fun d => d.kind == kVEC && is d.vOp)
  let move (c : Instr) (mode : Nat) : Instr × (Desc → Bool) := (c, fun d => d.kind == kMOVE && d.mvMode == mode)
  [move (.moveLinear pp slot) 0, move (.moveTile pp slot) 1, move (.moveStrided pp slot) 2, move (.moveGather pp slot) 3,
   move (.moveScatter pp slot) 4, (.mm pp slot, fun d => d.kind == kMM),
   vec (.vecElementwise pp slot) (fun op => decide (op < 0x10)), vec (.vecReduction pp slot) isReduction,
   vec (.softmax pp slot) (fun op => op == 0x18), vec (.layernorm pp slot) (fun op => op == 0x19),
   vec (.rmsnorm pp slot) (fun op => op == 0x1A), vec (.convert pp slot) (fun op => op == 0x20),
   vec (.funcSlot pp slot) (fun op => op == 0x28), vec (.funcTableImage pp slot) (fun op => op == 0x29),
   (.dispatch pp slot, fun d => d.kind == kDISPATCH)]

/-- The dispatch commands of a slot for the other kinds, each with the descriptors it dispatches (R143). -/
def dispatchOthers (pp : Fin 24) (slot : Fin 192) : List (Instr × (Desc → Bool)) :=
  let kind (c : Instr) (k : Nat) : Instr × (Desc → Bool) := (c, fun d => d.kind == k)
  let signal (c : Instr) (op : Nat) : Instr × (Desc → Bool) := (c, fun d => d.kind == kSIGNAL && d.sgScope != 3 && d.sgOp == op)
  let wait (c : Instr) (src : Nat) : Instr × (Desc → Bool) := (c, fun d => d.kind == kWAIT && d.wtSrc == src)
  [signal (.signalAdd pp slot) 0, signal (.signalSet pp slot) 1, signal (.signalMax pp slot) 2, signal (.signalCas pp slot) 3,
   (.signalFabFlag pp slot, fun d => d.kind == kSIGNAL && d.sgScope == 3), wait (.waitSem pp slot) 0, wait (.waitFlag pp slot) 1,
   wait (.waitSeq pp slot) 2, wait (.waitBarrier pp slot) 3, kind (.refresh pp slot) kREFRESH, kind (.flush pp slot) kFLUSH,
   kind (.evict pp slot) kEVICT, (.allocClaim pp slot, fun d => d.kind == kALLOC && !d.alRelease),
   (.allocRelease pp slot, fun d => d.kind == kALLOC && d.alRelease), kind (.phase pp slot) kPHASE, kind (.mark pp slot) kMARK,
   kind (.fence pp slot) kFENCE]

/-- Every dispatch command of a slot. -/
def dispatchTable (pp : Fin 24) (slot : Fin 192) : List (Instr × (Desc → Bool)) := dispatchEngines pp slot ++ dispatchOthers pp slot

/-- A descriptor with its lengths resolved (R125, R126). -/
def State.resolved (s : State) (id : Nat) (d : Desc) : Desc :=
  { d with len := (s.shape id d).1, len2 := (s.shape id d).2.1, lenClamped := (s.shape id d).2.2 }

/-- The next descriptor of a context is d, it is ready, nothing earlier holds it back, its context owns the predicate bits it
names, roughing service allows its formats, and it is its context's turn (R81, R123, R143, R146, R368). -/
structure State.Dispatchable (s : State) (p slot : Nat) (d : Desc) : Prop where
  next : nextUndispatched (s.ctx (cid p slot)) = some d
  run : s.mayRun (cid p slot) = true
  ready : d.stage = .ready
  order : s.orderOk (cid p slot) d = true
  owned : ∀ x ∈ predsNamed d, s.ownsPred (cid p slot) x.1 = true
  formats : s.roughBad d = []
  turn : s.turn p (s.part p).lastDisp slot s.dispatchable = true

/-- The descriptor d may dispatch, its predicate lets it run, its translation is current, and it has work (R124, R126, R196). -/
structure State.Runs (s : State) (p slot : Nat) (d : Desc) : Prop where
  can : s.Dispatchable p slot d
  pred : ¬ (d.predEn = true ∧ s.predBit p d.predIdx = d.predInv)
  current : d.marked = false
  work : (s.resolved (cid p slot) d).len ≠ 0
  work2 : (s.resolved (cid p slot) d).len2 ≠ 0

/-- A descriptor with the configuration and the seed of its context as they stand when it dispatches (R131). -/
def State.configured (s : State) (p slot : Nat) (d : Desc) : Desc :=
  { d with cfgw := s.rd (cfgAddr (cid p slot)), seed := s.rd (a_PT_CTXSEED p slot) }

/-- The descriptor d once it is dispatched: running since now (R131). -/
def State.begun (s : State) (p slot : Nat) (d : Desc) : Desc :=
  { s.configured p slot (s.resolved (cid p slot) d) with
    stage := .running, started := s.now, order := (s.part p).dispatchSeq }

/-- A descriptor of partition p that completes now: the time is that of its die, and an uncorrectable error that its own reads found
makes an OK a POISON (R42, R61, R140, R141). -/
def State.completed (s : State) (p : Nat) (d : Desc) (status detail : Nat) : Desc :=
  { d with
    stage := .complete, status := (endOf d status detail).1, detail := (endOf d status detail).2
    poisoned := d.poisoned || d.eccSeq.isSome, ended := s.dieNow (burlOf p) }

/-- An entry of a context with an index reached another device: its end lets DONE_EPOCH advance (R199). -/
def State.remoteAt (s : State) (id index : Nat) : Prop := ∃ e ∈ (s.ctx id).descs, e.index = index ∧ usesRemote e = true

/-- From s to t no register changes but, where the entry that ends reached another device, the epoch status of its address space
(R199). -/
def State.sameRegs (s t : State) (id index : Nat) : Prop :=
  ∀ a, (s.remoteAt id index → a ≠ a_XL_ASSTAT (s.asidOf id)) → t.rd a = s.rd a

/-- From s to t the entries of a context with an index become what f makes of them, and no other entry changes; where one reached
another device, FENCE descriptors may complete with it (R163, R198, R199). -/
def State.becomes (s t : State) (id index : Nat) (f : Desc → Desc) : Prop :=
  (¬ s.remoteAt id index → (t.ctx id).descs = (s.ctx id).descs.map (fun e => if e.index = index then f e else e)) ∧
    ∀ (k : Nat) (e : Desc), (s.ctx id).descs[k]? = some e → (e.index = index → (t.ctx id).descs[k]? = some (f e)) ∧
      (e.index ≠ index → e.kind ≠ kFENCE → (t.ctx id).descs[k]? = some e)

/-- From s to t no other context changes, but for FENCE descriptors where the entry that ends reached another device (R163, R198,
R199). -/
def State.otherContexts (s t : State) (id index : Nat) : Prop :=
  ∀ k, k ≠ id → (¬ s.remoteAt id index → t.ctx k = s.ctx k) ∧ ∀ e ∈ (s.ctx k).descs, e.kind ≠ kFENCE → e ∈ (t.ctx k).descs

/-- From s to t a snooping read of a class has left registers and memories as they were, where no stored bit has changed
and the class fills no slice (R179, R234). -/
def State.quietRead (s t : State) (cls : Nat) : Prop :=
  s.flips = [] → s.fld (a_SC_WAYMASK cls) SC_WAYMASK_MASK = 0 → t.mem = s.mem ∧ t.units = s.units ∧ t.ts = s.ts

/-- The descriptors of a context with d in the place of its own entry. -/
def State.descsWith (s : State) (id : Nat) (d : Desc) : List Desc := (s.ctx id).descs.map (fun e => if e.index = d.index then d else e)

/-- From s to t the dispatcher of a partition has dispatched a descriptor of a slot; no other partition changes (R81). -/
def State.dispatched (s t : State) (p slot : Nat) : Prop :=
  (t.part p).lastDisp = slot ∧ (t.part p).dispatchSeq = (s.part p).dispatchSeq + 1 ∧ ∀ q, q ≠ p → t.part q = s.part q

/-- From s to t the dispatcher of a partition has served a slot and counted n dispatches; nothing else changes in any partition
(R81). -/
def State.servedSlot (s t : State) (p slot n : Nat) : Prop :=
  ∀ q, t.part q =
    if q = p then { s.part p with lastDisp := slot, dispatchSeq := (s.part p).dispatchSeq + n } else s.part q

/-- Registers and memories are the same. -/
def State.sameData (s t : State) : Prop := t.regs = s.regs ∧ t.mem = s.mem ∧ t.units = s.units ∧ t.ts = s.ts

/-- The choices of a DISPATCH whose scores stand in the tile store (R117–R119). -/
def State.choicesOf (s : State) (p : Nat) (j : Job) (d : Desc) : List Choice :=
  let codes := unpack (fmtBits d.dFmt) ((s.engRead p j d.dScore (d.len * d.dE * fmtBits d.dFmt / 8)).map (fun b => b.1)) (d.len * d.dE)
  (List.range d.len).foldl (fun cs t =>
    chooseToken d cs t (((codes.drop (t * d.dE)).take d.dE).map (elem d.dFmt))) []

/-- Every extent of a descriptor's operands lies on this device. -/
def Desc.local_ (d : Desc) : Prop := ∀ o ∈ d.opnds, ∀ e ∈ o.exts, e.tier ≠ 2

/-- From s to t no port but p changes, no register but those of p, and no memory. -/
def State.otherPorts (s t : State) (p : Nat) : Prop :=
  (∀ q, q ≠ p → t.port q = s.port q) ∧
    (∀ a, a ≠ a_FB_PORTCTL p → a ≠ a_FB_PORTSTAT p → a ≠ a_FB_PORTERR p → t.rd a = s.rd a) ∧ t.mem = s.mem

/-! ### Homes and cores -/

/-- No core waits at a barrier (R263). -/
def State.noBarriers (s : State) : Prop :=
  ∀ c, (s.core c).waitLd = false ∧ (s.core c).waitSt = false ∧ (s.core c).waitDev = false

/-- The directory set of a line has a free way at a home. -/
def State.dirRoom (s : State) (h u : Nat) : Prop :=
  ((s.home h).dir.filter (fun e => Config.dirSet (e.1 / 64) == Config.dirSet (u / 64))).length < 16

/-- A request for a line has reached its home, which answers and is not in reset (R21, R49, R51, R261). -/
structure State.Asked (s : State) (h a u code : Nat) : Prop where
  sent : (.req h a u code false) ∈ s.net
  near : s.homeNear h = true
  up : s.homeOut h = false

/-- The home takes the request for a line of a caching agent: nothing makes it answer NAK, and the line admits it (R252, R253). -/
structure State.Takes (s : State) (h a u code : Nat) : Prop extends s.Asked h a u code where
  free : s.mustNak h a u code = false
  admitted : s.admits a h u = true

/-- The key index of an agent's open request for a line. -/
def State.reqKey (s : State) (a u : Nat) : Nat := ((s.missOf a u).map (fun m => m.key)).getD 0

/-- A snoop has reached an agent that can answer it, with no grant of its home before it (R251). -/
structure State.Snooped (s : State) (h a u code : Nat) : Prop where
  sent : (.snoop h a u code) ∈ s.net
  live : s.isDead a = false
  acts : s.alive (s.agentDom a) = true
  near : s.linked roleCOH 6 (homeDie h) = true
  first : ∀ v c d p, (.grant h a v c d p) ∈ s.net → (if code = snSweep then bucketOf v else v) ≠ u

/-- The network after a snoop has been answered. -/
def State.afterSnoop (s : State) (h a u code answer key : Nat) (data : List Byte) (poison : Bool) : List CMsg :=
  s.net.erase (.snoop h a u code) ++ [.rsp h a u answer key data poison]

/-- A core that executes, with no barrier and no store pending. -/
structure State.CoreFree (s : State) (c : Nat) : Prop where
  up : s.coreUp c = true
  ld : (s.core c).waitLd = false
  st : (s.core c).waitSt = false
  dev : (s.core c).waitDev = false
  buf : (s.core c).buf = []

/-- A core may make a cacheable access of n bytes at a: memory of this device outside the reserve, under a key, in one line, with
its home answering (R180, R181, R227). -/
structure State.CacheOk (s : State) (c a n : Nat) : Prop where
  here : a < remoteBase
  mem : s.coreMem a n = true
  open_ : s.meetsReserve a n = false
  key : s.keyAt (s.core c).key ≠ 0
  near : s.homeNear (homeOf a) = true
  up : s.homeOut (homeOf a) = false
  some_ : 1 ≤ n
  small : n ≤ 8
  line : a % 64 + n ≤ 64

/-- Every line that a home refuses whatever the request is left alone by an access of an agent (R252–R254). -/
abbrev State.Admitted (s : State) (who a n : Nat) : Prop := s.shutLine who [⟨a, n⟩] = none

/-- A core holds a line in E or M under its key, without poison, and nothing of the protocol is under way for it (R244). -/
structure State.Holds (s : State) (c u : Nat) (l : Line) : Prop where
  line : s.lineOf c u = some l
  key : l.key = (s.core c).key
  own : l.st ≠ .s
  good : l.poison = false
  quiet : s.quietLine c u = true

end Sys2Proof.Machine
end

