-- ==== Sys2Proof/Certificates/Slice0/Obligations.lean ====
section
/-! DEFINITION. The statements for the provers. -/

section Statements

open Sys2Proof Sys2Proof.Machine Sys2Proof.Machine.State

/-! ### The machine as a whole -/

/-- A step runs the command at the front of the queue, with the queue's rest. -/
def Obligations.StepRunsFrontCommand : Prop :=
  ∀ (c : Instr) (s : State), step { s with pending := c :: s.pending } = exec c s

/-- On an empty queue one nanosecond passes and nothing else changes (the model's choice, log entry 1). -/
def Obligations.EmptyQueueOnlyTicks : Prop :=
  ∀ s : State, s.pending = [] → step s = .next { s with now := s.now + 1 }

/-- No command ends a run: every command on every state answers a next state (the device reports its errors and goes on; that a command without its event changes nothing is the model's choice, log
entry 7). -/
def Obligations.EveryCommandAnswersNext : Prop :=
  ∀ (c : Instr) (s : State), ∃ t, exec c s = .next t

/-- The reset state is canonical. -/
def Obligations.ResetStateCanonical : Prop := State.reset.Canonical

/-- Every step keeps every memory, register file and array canonical. -/
def Obligations.StepKeepsCanonical : Prop :=
  ∀ s t : State, s.Canonical → step s = .next t → t.Canonical

/-! ### Registers -/

/-- A 64-bit write of a register without a command of its own: each field takes its value by its access code (RW the written
value, W1C and W1S bit by bit, ST as a staged value that leaves the live one, RO and RC nothing); no other register changes
(R13, R14). -/
def Obligations.RegisterWriteByAccessCodes : Prop :=
  ∀ (who : Requester) (addr : BitVec 45) (v : Word) (r : RegRow) (ix : List Nat) (s : State),
    s.Canonical → who ≠ .host → inMailbox addr.toNat = false → addr.toNat % 8 = 0 → regFind addr.toNat = some (r, ix) →
    plainClass r.cls = true → s.gate who addr.toNat true = none →
    ∃ t, exec (.registerWrite who addr 8 v) s = .next t ∧
      (∀ f ∈ r.fields,
        t.fld addr.toNat f.fld = (match f.acc with
          | .rw => f.fld.get v
          | .w1c => (BitVec.ofNat 64 (s.fld addr.toNat f.fld) &&& ~~~BitVec.ofNat 64 (f.fld.get v)).toNat
          | .w1s => (BitVec.ofNat 64 (s.fld addr.toNat f.fld) ||| BitVec.ofNat 64 (f.fld.get v)).toNat
          | _ => s.fld addr.toNat f.fld) ∧
        (f.acc = .st → t.stagedFld addr.toNat f.fld = f.fld.get v)) ∧
      (∀ b, b ≠ addr.toNat → t.rd b = s.rd b) ∧ t.mem = s.mem

/-- A 64-bit read returns the register's value; its RC fields are then 0, its other fields and every other register as before
(R13). -/
def Obligations.ReadReturnsAndClearsCounters : Prop :=
  ∀ (who : Requester) (addr : BitVec 45) (r : RegRow) (ix : List Nat) (s : State),
    s.Canonical → who ≠ .host → inMailbox addr.toNat = false → addr.toNat % 8 = 0 → regFind addr.toNat = some (r, ix) →
    r.cls ≠ .ptRecstat → s.gate who addr.toNat false = none →
    ∃ t, exec (.readClear who addr 8) s = .next t ∧ t.lastRead = s.readReg addr.toNat ∧
      (∀ f ∈ r.fields, t.fld addr.toNat f.fld = if f.acc = .rc then 0 else s.fld addr.toNat f.fld) ∧
      (∀ b, b ≠ addr.toNat → t.rd b = s.rd b) ∧ t.mem = s.mem ∧ t.staged = s.staged

/-- An access that touches a register with another size or alignment, or a register of a slot above 191, reads 0, has no effect
on any register and logs a PROTO fault (R12, R133). The queue and the UNIT of its record are the model's choice (log entry 18). -/
def Obligations.OddAccessReadsZero : Prop :=
  ∀ (who : Requester) (addr : BitVec 45) (size : Nat) (v : Word) (r : RegRow) (ix : List Nat) (s : State),
    who ≠ .host → inMailbox addr.toNat = false → (addr.toNat < devQueueBase ∨ devQueueBase + 272 * 64 ≤ addr.toNat) →
    regOver addr.toNat size = some (r, ix) → s.present who = true → s.waits who addr.toNat = false →
    badAccess r ix addr.toNat size = true →
    let u := s.faultAccess r ix
    exec (.registerWrite who addr size v) s = .next u ∧ exec (.readClear who addr size) s = .next { u with lastRead := 0 } ∧
      u.regs = s.regs ∧ u.staged = s.staged ∧ u.mem = s.mem

/-! ### Contexts, rings, semaphores and barriers -/

/-- An accepted PT_COMMIT makes the staged CTXCFG, CTXQUOTA and CTXSEED of its slot live, all of them; where it raises ENABLE
the context is ACTIVE, its 64 length registers are 0 and it holds no descriptor (R130, R131).

RESUME makes a STOPPED context ACTIVE and changes no other register (R129, R130).

An accepted SQ_COMMIT makes the staged ring registers of its slot live, and with ENABLE = 1 the head, the fetch point
and the tail are 0 (R137).

A doorbell whose new tail does not go backward sets the tail to it, modulo the ring, and changes nothing else; one that
goes backward leaves the tail and logs a PROTO fault (R135). -/
def Obligations.ContextsRingsAndDoorbells : Prop :=
  ((∀ (who : Requester) (pp : Fin 24) (slot : BitVec 8) (resume : Bool) (s : State),
      s.Canonical → s.gate who (a_PT_COMMIT pp) true = none → s.slotOk slot.toNat = true →
      s.commitOk (cid pp slot.toNat) = true →
      ∃ t, exec (.ptCommitGo who pp slot resume) s = .next t ∧
        (∀ a ∈ ctxGroup (cid pp slot.toNat), t.rd a = s.stagedRd a) ∧
        (s.cfg (cid pp slot.toNat) PT_CTXCFG_ENABLE = 0 →
          s.stagedFld (a_PT_CTXCFG pp slot.toNat) PT_CTXCFG_ENABLE = 1 →
          t.cstate (cid pp slot.toNat) = 1 ∧ (∀ i, i < 64 → t.rd (a_SQ_LEN pp slot.toNat i) = 0) ∧
            (t.ctx (cid pp slot.toNat)).descs = []) ∧
        t.mem = s.mem ∧ t.parts = s.parts) ∧
    (∀ (who : Requester) (pp : Fin 24) (slot : BitVec 8) (s : State),
      s.Canonical → s.gate who (a_PT_COMMIT pp) true = none → s.slotOk slot.toNat = true →
      s.cstate (cid pp slot.toNat) = 2 →
      ∃ t, exec (.ptCommitResume who pp slot) s = .next t ∧ t.cstate (cid pp slot.toNat) = 1 ∧
        (∀ a, a ≠ a_PT_CTXSTAT pp slot.toNat → t.rd a = s.rd a) ∧ t.ctxs = s.ctxs ∧ t.mem = s.mem) ∧
    (∀ (who : Requester) (pp : Fin 24) (slot : BitVec 8) (s : State),
      s.Canonical → s.gate who (a_SQ_COMMIT pp) true = none → s.slotOk slot.toNat = true → s.ringOk (cid pp slot.toNat) = true →
      ∃ t, exec (.sqCommit who pp slot) s = .next t ∧
        t.rd (a_SQ_RINGBASE pp slot.toNat) = s.stagedRd (a_SQ_RINGBASE pp slot.toNat) ∧
        t.rd (a_SQ_CPLBASE pp slot.toNat) = s.stagedRd (a_SQ_CPLBASE pp slot.toNat) ∧
        t.rd (a_SQ_RINGCFG pp slot.toNat) = s.stagedRd (a_SQ_RINGCFG pp slot.toNat) ∧
        (s.stagedFld (a_SQ_RINGCFG pp slot.toNat) SQ_RINGCFG_ENABLE = 1 →
          (t.ctx (cid pp slot.toNat)).head = 0 ∧ (t.ctx (cid pp slot.toNat)).fetch = 0 ∧ (t.ctx (cid pp slot.toNat)).tail = 0) ∧
        t.mem = s.mem ∧ t.parts = s.parts)) ∧
  (∀ (who : Requester) (pp : Fin 24) (slot : BitVec 8) (n : BitVec 16) (s : State),
      s.Canonical → slot.toNat < 192 → s.gate who (a_SQ_DB pp slot.toNat) true = none →
      s.cfg (cid pp slot.toNat) PT_CTXCFG_HOST_OWNED ≠ 1 →
      s.flag (a_SQ_RINGCFG pp slot.toNat) SQ_RINGCFG_ENABLE = true → s.cstate (cid pp slot.toNat) = 1 →
      s.inReset pp = false →
      let c := s.ctx (cid pp slot.toNat)
      let size := s.ringSize (cid pp slot.toNat)
      ((c.tail + size - c.head % size) % size ≤ (n.toNat + size - c.head % size) % size →
        ∃ t, exec (.sqDb who pp slot n) s = .next t ∧ (t.ctx (cid pp slot.toNat)).tail % size = n.toNat % size ∧
          (t.ctx (cid pp slot.toNat)).head = c.head ∧ (∀ k, k ≠ cid pp slot.toNat → t.ctx k = s.ctx k) ∧
          t.regs = s.regs ∧ t.mem = s.mem ∧ t.held = s.held) ∧
      ((n.toNat + size - c.head % size) % size < (c.tail + size - c.head % size) % size →
        exec (.sqDb who pp slot n) s = .next (s.faultPart pp cPROTO) ∧ (s.faultPart pp cPROTO).ctxs = s.ctxs))

/-- The register commands of the Bead network send one message: a core's write of BD_SEM a SET, of BD_SEMADD an ADD, of
BD_BARGEN.ARRIVE an arrival; nothing else changes (R164, R165, R167).

A write of BD_BARCFG with nothing counted and legal SCOPE and COUNT takes effect in every field and in no other register; one
while arrivals are counted is ignored and logs CONFIG_MISMATCH. A write of PT_PRED replaces its 64 bits (R122, R167). -/
def Obligations.BeadRegisterWrites : Prop :=
  ((∀ (who : Requester) (pp : Fin 24) (i : Fin 4096) (v : BitVec 32) (s : State), s.gate who (a_BD_SEM pp i) true = none →
    exec (.bdSemWrite who pp i v) s = .next { s with bead := s.bead ++ [.update pp i (.set v.toNat) .core] }) ∧
  (∀ (who : Requester) (pp : Fin 24) (i : Fin 4096) (v : BitVec 32) (s : State), s.gate who (a_BD_SEMADD pp i) true = none →
    exec (.bdSemaddWrite who pp i v) s = .next { s with bead := s.bead ++ [.update pp i (.add v.toNat) .core] }) ∧
  (∀ (who : Requester) (b : Fin 256) (s : State), s.gate who (a_BD_BARGEN b) true = none →
    exec (.bdBargenArrive who b) s = .next { s with bead := s.bead ++ [.barArrive b none] })) ∧
  ((∀ (who : Requester) (b : Fin 256) (v : Word) (s : State),
    s.Canonical → s.gate who (a_BD_BARCFG b) true = none → s.fld (a_BD_BARGEN b) BD_BARGEN_ARRIVED = 0 →
    BD_BARCFG_SCOPE.get v ≠ 3 → 0 < BD_BARCFG_COUNT.get v → BD_BARCFG_COUNT.get v ≤ 4704 →
    ∃ t, exec (.bdBarcfgWrite who b v) s = .next t ∧
      (∀ f ∈ [BD_BARCFG_TENANT, BD_BARCFG_VALID, BD_BARCFG_SCOPE, BD_BARCFG_HOME, BD_BARCFG_COUNT],
        t.fld (a_BD_BARCFG b) f = f.get v) ∧
      (∀ a, a ≠ a_BD_BARCFG b → t.rd a = s.rd a) ∧ t.mem = s.mem) ∧
  (∀ (who : Requester) (b : Fin 256) (v : Word) (s : State),
    s.gate who (a_BD_BARCFG b) true = none → s.fld (a_BD_BARGEN b) BD_BARGEN_ARRIVED ≠ 0 →
    exec (.bdBarcfgWrite who b v) s = .next (s.faultDev cCONFIG 6 255) ∧ (s.faultDev cCONFIG 6 255).regs = s.regs) ∧
  (∀ (who : Requester) (pp : Fin 24) (n : Fin 4) (v : Word) (s : State),
    s.gate who (a_PT_PRED pp n) true = none → exec (.ptPredWrite who pp n v) s = .next (s.wr (a_PT_PRED pp n) v)))

/-- A core's update that reaches a semaphore of a partition in service sets it, adds to it modulo 2^32, raises it to the
maximum or stores on equality, when no WAIT is held there; every other register and all memory stay (R164). With WAITs held there,
each that the value satisfies is released, and none that is left is satisfied (R39, R156).

A WAIT that reaches its semaphore's endpoint while its condition holds is released at once, GE_CONSUME subtracting its
value; one whose condition does not hold is held there (R39, R156).

The COUNT-th arrival closes the generation: ARRIVED is 0, GEN is one more, and the release leaves for the participants
that wait; an earlier arrival only counts (R167). -/
def Obligations.SemaphoresWaitsAndBarriers : Prop :=
  (∀ (k : Nat) (p : Fin 24) (i : Fin 4096) (op : SemOp) (s : State),
      s.Canonical → s.bead[k]? = some (.update p i op .core) → s.inReset p = false → s.endpointHeld p = false →
      ∃ t, exec (.semaphoreUpdate k) s = .next t ∧
        (∀ w ∈ t.semWaits, w ∈ s.semWaits ∧ (w.part = p → w.sem = i → condHolds w.cond (t.sem p i) w.value = false)) ∧
        (∀ w ∈ s.semWaits, w ∈ t.semWaits ∨ w.part = p ∧ w.sem = i ∧ .waitRelease w.pp w.ref true ∈ t.bead) ∧
        ((∀ w ∈ s.semWaits, w.part = p → w.sem ≠ i) →
        t.sem p i = (match op with
          | .add v => (s.sem p i + v) % 2 ^ 32
          | .set v => v % 2 ^ 32
          | .max v => Nat.max (s.sem p i) v % 2 ^ 32
          | .cas c v => if s.sem p i = c then v % 2 ^ 32 else s.sem p i) ∧ t.bead = s.bead.eraseIdx k) ∧
        (∀ a, a ≠ a_BD_SEM p i → t.rd a = s.rd a) ∧ t.mem = s.mem ∧ t.ctxs = s.ctxs) ∧
  ((∀ (k : Nat) (p part : Fin 24) (r : DRef) (i : Fin 4096) (cond v : Nat) (s : State),
        s.Canonical → s.bead[k]? = some (.waitArrive p r part i cond v false) → s.blocked p r = true →
        s.inReset part = false → s.endpointHeld part = false →
        (condHolds cond (s.sem part i) v = true → cond = 4 → ∃ t, exec (.semWaitArrive k) s = .next t ∧
            .waitRelease p r true ∈ t.bead ∧
            (∀ w ∈ t.semWaits, w ∈ s.semWaits ∧ (w.part = part → w.sem = i → condHolds w.cond (t.sem part i) w.value = false)) ∧
            (∀ a, a ≠ a_BD_SEM part i → t.rd a = s.rd a)) ∧
        (condHolds cond (s.sem part i) v = true → (cond = 4 → ∀ w ∈ s.semWaits, w.part = part → w.sem ≠ i) →
          ∃ t, exec (.semWaitArrive k) s = .next t ∧ t.bead = s.bead.eraseIdx k ++ [.waitRelease p r true] ∧
            t.sem part i = (if cond = 4 then s.sem part i - v else s.sem part i) ∧ t.semWaits = s.semWaits ∧
            (∀ a, a ≠ a_BD_SEM part i → t.rd a = s.rd a)) ∧
        (condHolds cond (s.sem part i) v = false →
          exec (.semWaitArrive k) s = .next { s with bead := s.bead.eraseIdx k
                                                     semWaits := s.semWaits ++ [⟨p, r, part, i, cond, v⟩] })) ∧
    (∀ (k : Nat) (b : Fin 256) (s : State),
        s.Canonical → s.bead[k]? = some (.barArrive b none) →
        let n := s.fld (a_BD_BARGEN b) BD_BARGEN_ARRIVED
        (s.fld (a_BD_BARCFG b) BD_BARCFG_COUNT ≤ n + 1 →
          ∃ t, exec (.barrierArrival k) s = .next t ∧ t.fld (a_BD_BARGEN b) BD_BARGEN_ARRIVED = 0 ∧
            t.fld (a_BD_BARGEN b) BD_BARGEN_GEN = (s.fld (a_BD_BARGEN b) BD_BARGEN_GEN + 1) % 2 ^ 32 ∧
            t.bead = s.bead.eraseIdx k ++ [.barRelease b ((s.barWaits.filter (fun w => w.1 == b.val)).map (fun w => w.2))] ∧
            t.barWaits = s.barWaits.filter (fun w => w.1 != b.val) ∧ (∀ a, a ≠ a_BD_BARGEN b → t.rd a = s.rd a)) ∧
        (n + 1 < s.fld (a_BD_BARCFG b) BD_BARCFG_COUNT →
          ∃ t, exec (.barrierArrival k) s = .next t ∧ t.fld (a_BD_BARGEN b) BD_BARGEN_ARRIVED = n + 1 ∧
            t.fld (a_BD_BARGEN b) BD_BARGEN_GEN = s.fld (a_BD_BARGEN b) BD_BARGEN_GEN ∧ t.bead = s.bead.eraseIdx k)))

/-- An accepted XL_COMMIT makes the staged settings of its address space live and changes no other register; a refused one
changes no register (R197). XL_FENCE.GO queues one increment of its address space (R198).

The oldest increment of an address space raises its epoch by one modulo 2^16, unless the new value is still stamped on an
uncompleted descriptor (but the FENCE that waits for it); then it waits. Memory stays, and every register but XL_ASSTAT (R198). -/
def Obligations.AddressSpacesAndEpochs : Prop :=
  ((∀ (who : Requester) (a : Fin 4096) (s : State),
    s.Canonical → s.gate who a_XL_COMMIT true = none → s.ascfgOk a = true →
    ∃ t, exec (.xlCommit who a) s = .next t ∧ t.rd (a_XL_ASCFG a) = s.stagedRd (a_XL_ASCFG a) ∧
      t.rd (a_XL_ASCOUNT a) = s.stagedRd (a_XL_ASCOUNT a) ∧
      (∀ b, b ≠ a_XL_ASCFG a → b ≠ a_XL_ASCOUNT a → t.rd b = s.rd b) ∧ t.mem = s.mem ∧ t.ctxs = s.ctxs) ∧
  (∀ (who : Requester) (a : Fin 4096) (s : State), s.gate who a_XL_COMMIT true = none → s.ascfgOk a = false →
    exec (.xlCommit who a) s = .next (s.faultDev cCONFIG 6 255) ∧ (s.faultDev cCONFIG 6 255).regs = s.regs) ∧
  (∀ (who : Requester) (a : Fin 4096) (s : State), s.gate who (a_XL_FENCE a) true = none →
    exec (.xlFenceGo who a) s = .next { s with epochs := s.epochs ++ [(a.val, .write)] })) ∧
  (∀ (a : Fin 4096) (e : Nat × EpochSrc) (s : State),
    s.Canonical → s.epochs.find? (fun x => x.1 == a.val) = some e →
    let new := (s.fld (a_XL_ASSTAT a) XL_ASSTAT_EPOCH + 1) % 65536
    ((∀ id ∈ s.idsOf a, ∀ d ∈ (s.ctx id).descs, d.stage ≠ .recorded → s.fencePending id d.index = false → d.epoch ≠ new) →
      ∃ t, exec (.epochIncrementApply a) s = .next t ∧ t.fld (a_XL_ASSTAT a) XL_ASSTAT_EPOCH = new ∧
        t.epochs = s.epochs.erase e ∧ (∀ b, b ≠ a_XL_ASSTAT a → t.rd b = s.rd b) ∧ t.mem = s.mem) ∧
    ((∃ id ∈ s.idsOf a, ∃ d ∈ (s.ctx id).descs, d.stage ≠ .recorded ∧ s.fencePending id d.index = false ∧ d.epoch = new) →
      exec (.epochIncrementApply a) s = .next s))

/-! ### Fetch, submission, translation -/

/-- The fetch port reads the next accepted ring entry of the context whose turn it is, under the context's own key, where the home
serves the read: the fetch point moves on by one and the entry's 64 bytes become a descriptor; no other context changes (R80, R134,
R143). Where it is another slot's turn, or the store of 2,048 places is full, nothing is fetched (R80). -/
def Obligations.FetchReadsNextEntry : Prop :=
  ∀ (pp : Fin 24) (slot : Fin 192) (s : State), s.Canonical →
    let id := cid pp slot
    let c := s.ctx id
    let at_ := s.fld (a_SQ_RINGBASE pp slot) SQ_RINGBASE_BASE * 64 + c.fetch % s.ringSize id * 64
    let turn := s.turn pp (s.part pp).lastFetch slot s.fetchable
    (s.fetchable id = true → s.storeUsed pp < 2048 → turn = true → s.fare roleCOH (burlOf pp) at_ = .served →
      s.Admitted (naPart pp) at_ 64 →
      ∃ t d, exec (.descriptorFetch pp slot) s = .next t ∧ (t.ctx id).descs = c.descs ++ [d] ∧
        (t.ctx id).fetch = c.fetch + 1 ∧ (t.ctx id).head = c.head ∧ (t.ctx id).tail = c.tail ∧
        d.index = c.fetch ∧ d.stage = .fetching ∧
        d.words = wordsOf (({ s with fresh := s.fresh + 1 } : State).readMem id at_ 64).1 8 ∧
        d.epoch = s.fld (a_XL_ASSTAT (s.asidOf id)) XL_ASSTAT_EPOCH ∧ (t.part pp).lastFetch = slot ∧
        (∀ k, k ≠ id → t.ctx k = s.ctx k) ∧ s.quietRead t clsAccel) ∧
    (s.fetchable id = false ∨ 2048 ≤ s.storeUsed pp ∨ turn = false → exec (.descriptorFetch pp slot) s = .next s)

/-- Submission: a descriptor whose fields are legal and that has no operand to translate is ready; one with an illegal field
completes ILLEGAL with the position of the lowest such field as its detail (R143, R146).

A probe of the search halves what is left of it: the candidate entry replaces the best one exactly where it exists and starts
at or below the address sought (R193). The first probe takes the table, the mode and the epoch as they are live (R196). -/
def Obligations.SubmissionAndTranslation : Prop :=
  (∀ (pp : Fin 24) (slot : Fin 192) (d : Desc) (s : State),
      s.Canonical → s.mayRun (cid pp slot) = true →
      (s.ctx (cid pp slot)).descs.find? (fun x => x.stage == .fetching) = some d →
      let id := cid pp slot
      (smallest (s.submissionBad id d).1 = none → translated d = [] →
        ∃ t, exec (.descriptorSubmit pp slot) s = .next t ∧
          (t.ctx id).descs = (s.ctx id).descs.map (fun x =>
            if x.index = d.index then { x with stage := .ready, opnds := [], marked := false } else x) ∧
          t.regs = s.regs ∧ t.mem = s.mem) ∧
      (∀ pos, smallest (s.submissionBad id d).1 = some pos → (s.submissionBad id d).2 = false →
        ∃ t, exec (.descriptorSubmit pp slot) s = .next t ∧
          s.becomes t id d.index (fun x => s.completed pp x stILLEGAL pos) ∧ s.sameRegs t id d.index ∧ t.mem = s.mem)) ∧
  (∀ (pp : Fin 24) (slot : Fin 192) (d : Desc) (x : Xlate) (s : State),
      s.Canonical → s.mayRun (cid pp slot) = true →
      (s.ctx (cid pp slot)).descs.find? (fun y => y.stage == .translating) = some d → d.xlate = some x →
      let id := cid pp slot
      let y := s.latchTable id d x
      let cand := y.pos + 2 ^ (y.left - 1)
      let at_ := y.tbase + (min cand y.count - 1) * 32
      let bs := ({ s with fresh := s.fresh + 1 } : State).readMem keySYS at_ 32
      let e := wordsOf bs.1 4
      y.inSeq = false → 2 ≤ y.left → y.count ≠ 0 → s.fare roleCOH (burlOf pp) at_ = .served → s.Admitted (naPart pp) at_ 32 →
      bs.2 = false →
      ∃ t, exec (.rangeTableProbe pp slot) s = .next t ∧
        (t.ctx id).descs = (s.ctx id).descs.map (fun z => if z.index = d.index then { z with
          epoch := if x.begun then z.epoch else s.fld (a_XL_ASSTAT (s.asidOf id)) XL_ASSTAT_EPOCH
          xlate := some { y with
            since := 0
            left := y.left - 1
            pos := if cand ≤ y.count ∧ entryStart e ≤ y.cur then cand else y.pos
            best := if cand ≤ y.count ∧ entryStart e ≤ y.cur then e else y.best } } else z) ∧
        s.quietRead t clsAccel)

/-! ### WAITs and draining -/

/-- A release that reaches its blocked WAIT completes it with OK; a barrier's release completes every waiting participant
it names (R39, R156, R167).

A blocked WAIT whose timeout has passed, with no release on its way, completes with TIMEOUT, and its endpoint holds it no
more; before the timeout the command changes nothing (R157).

A poll of a local flag reads its word where its home serves it: a WAIT whose condition holds completes OK, one that does not polls again
2 µs later, and with TEST the outcome becomes its predicate bit (R156). -/
def Obligations.WaitsEndAndFlagsArePolled : Prop :=
  (((∀ (k : Nat) (pp : Fin 24) (r : DRef) (d : Desc) (s : State),
      s.Canonical → s.bead[k]? = some (.waitRelease pp r true) → s.findDesc (cid pp r.slot) r.index = some d →
      d.stage = .running → d.wtTest = false →
      ∃ t, exec (.semWaitRelease k) s = .next t ∧ t.bead = s.bead.eraseIdx k ∧
        s.becomes t (cid pp r.slot) r.index (fun e => { s.completed pp e stOK 0 with condFalse := false }) ∧
        s.sameRegs t (cid pp r.slot) r.index ∧ t.mem = s.mem) ∧
    (∀ (k b : Nat) (pp : Fin 24) (r : DRef) (d : Desc) (s : State),
      s.Canonical → s.bead[k]? = some (.barRelease b [(pp.val, r)]) → s.findDesc (cid pp r.slot) r.index = some d →
      d.stage = .running → d.wtTest = false →
      ∃ t, exec (.barrierRelease k) s = .next t ∧ t.bead = s.bead.eraseIdx k ∧
        s.becomes t (cid pp r.slot) r.index (fun e => { s.completed pp e stOK 0 with condFalse := false }) ∧
        s.sameRegs t (cid pp r.slot) r.index ∧ t.mem = s.mem)) ∧
    (∀ (pp : Fin 24) (slot : Fin 192) (d : Desc) (s : State),
      s.Canonical → (s.ctx (cid pp slot)).descs.find? (fun x => x.kind == kWAIT && x.stage == .running) = some d →
      d.wtTest = false → s.bead = [] →
      (d.until_ ≤ s.now →
        ∃ t, exec (.waitTimeout pp slot) s = .next t ∧
          s.becomes t (cid pp slot) d.index (fun e => s.completed pp e stTIMEOUT 0) ∧
          (∀ w ∈ t.semWaits, ¬ (w.pp = pp ∧ w.ref = ⟨slot, d.index⟩)) ∧ s.sameRegs t (cid pp slot) d.index ∧ t.mem = s.mem) ∧
      (s.now < d.until_ → exec (.waitTimeout pp slot) s = .next s))) ∧
  (∀ (pp : Fin 24) (slot : Fin 192) (d : Desc) (e : Extent) (pa : Nat) (s : State),
      s.Canonical →
      (s.ctx (cid pp slot)).descs.find? (fun d => d.kind == kWAIT && d.wtSrc == 1 && d.stage == .running) = some d →
      s.findDesc (cid pp slot) d.index = some d →
      d.len2 ≤ s.now → s.waiting pp ⟨slot, d.index⟩ = false → s.inReset pp = false →
      physical (d.operand 2).exts d.flagVa = some (e, pa) → e.tier ≠ 2 → s.fare roleCOH (burlOf pp) pa = .served →
      s.Admitted (naPart pp) pa 4 → s.flips = [] →
      let id := cid pp slot
      let ok := condHolds d.wtCond (ofLeBytes (({ s with fresh := s.fresh + 1 } : State).readMem id pa 4).1) d.wtValue
      let still (t : State) : Prop := s.quietRead t clsAccel ∧
        (s.fld (a_SC_WAYMASK clsAccel) SC_WAYMASK_MASK = 0 → s.sameRegs t id d.index)
      (d.wtTest = false → ok = true → ∃ t, exec (.flagPoll pp slot) s = .next t ∧ still t ∧
        s.becomes t id d.index (fun x => { s.completed pp x stOK 0 with condFalse := false })) ∧
      (d.wtTest = false → ok = false → ∃ t, exec (.flagPoll pp slot) s = .next t ∧ still t ∧
        (t.ctx id).descs = (s.ctx id).descs.map (fun x => if x.index = d.index then { x with len2 := s.now + 2000 } else x)) ∧
      (d.wtTest = true → ∃ t, exec (.flagPoll pp slot) s = .next t ∧ t.predBit pp d.wtPredOut = ok ∧ s.quietRead t clsAccel ∧
        (s.fld (a_SC_WAYMASK clsAccel) SC_WAYMASK_MASK = 0 → ∀ a, a ≠ a_PT_PRED pp (d.wtPredOut / 64) →
          (s.remoteAt id d.index → a ≠ a_XL_ASSTAT (s.asidOf id)) → t.rd a = s.rd a) ∧
        s.becomes t id d.index (fun x => { s.completed pp x stOK 0 with condFalse := !ok })))

/-- The end of DRAINING: the context is FREE, its key is erased, its bindings are gone and it holds neither descriptor nor
claim (R132). -/
def Obligations.DrainedContextBecomesFree : Prop :=
  ∀ (pp : Fin 24) (slot : Fin 192) (s : State),
    s.Canonical → s.cstate (cid pp slot) = 6 → s.drained (cid pp slot) = true →
    ∃ t, exec (.contextDrained pp slot) s = .next t ∧ t.cstate (cid pp slot) = 0 ∧ t.keyAt (cid pp slot) = 0 ∧
      (t.ctx (cid pp slot)).descs = [] ∧ (t.ctx (cid pp slot)).claims = [] ∧
      (∀ b ∈ (t.part pp).binds, b.slot ≠ slot) ∧ t.mem = s.mem

/-! ### Power -/

/-- The division of R308: when the demands fit, each is granted whole; otherwise each unit holds its demand or one equal share,
no more than the total is given out, and less than one unit of power for each claimant is left (whole milliwatts, rounded down: the
model's choice, log entry 42). -/
def Obligations.FairSharesFollowDemands : Prop :=
  ∀ (total : Nat) (ds : List Nat),
    (ds.sum ≤ total → fairShares total ds = ds) ∧
    (total < ds.sum → ∃ l, fairShares total ds = ds.map (fun d => min d l) ∧ (fairShares total ds).sum ≤ total ∧
      total < (fairShares total ds).sum + ds.length)

/-- PW_COMMIT: a legal staged cap and split become live together and no other register changes; an illegal pair is discarded,
the live values stay and CONFIG_MISMATCH is logged (R305, R306).

The phase table and its set points: PW_PHCOMMIT.GO makes legal staged set points live, PW_PHCOMMIT.CLEAR clears the 64 learned
entries and keeps PW_PHASECFG; a due raise starts for the first context that has one and no other partition changes (R316,
R317, R328).

A set point within its range and a throttle threshold of 80 to 95 °C are taken; a threshold outside is ignored and logs a
PROTO fault (R37, R328).

A switch request of a domain that is neither switching nor held by R29 or R326 sets ON and BUSY and starts the switch; a refused
one leaves the domain as it was and sets REFUSED (R29, R326). -/
def Obligations.PowerRegisterCommands : Prop :=
  (∀ (who : Requester) (s : State), s.Canonical → s.gate who a_PW_COMMIT true = none →
    (s.splitOk (s.stagedRd a_PW_PKGCAP) (s.stagedRd a_PW_SPLIT) = true →
      ∃ t, exec (.pwCommit who) s = .next t ∧ t.rd a_PW_PKGCAP = s.stagedRd a_PW_PKGCAP ∧
        t.rd a_PW_SPLIT = s.stagedRd a_PW_SPLIT ∧ (∀ a, a ≠ a_PW_PKGCAP → a ≠ a_PW_SPLIT → t.rd a = s.rd a) ∧ t.mem = s.mem) ∧
    (s.splitOk (s.stagedRd a_PW_PKGCAP) (s.stagedRd a_PW_SPLIT) = false →
      ∃ t, exec (.pwCommit who) s = .next t ∧ t.regs = s.regs ∧ t.stagedRd a_PW_PKGCAP = s.rd a_PW_PKGCAP ∧
        t.stagedRd a_PW_SPLIT = s.rd a_PW_SPLIT ∧ t.mem = s.mem)) ∧
  ((∀ (who : Requester) (pp : Fin 24) (s : State), s.Canonical → s.gate who (a_PW_PHCOMMIT pp) true = none → s.phcfgOk pp = true →
    ∃ t, exec (.pwPhcommitGo who pp) s = .next t ∧ t.rd (a_PW_PHASECFG pp) = s.stagedRd (a_PW_PHASECFG pp) ∧ t.mem = s.mem) ∧
  (∀ (who : Requester) (pp : Fin 24) (s : State), s.Canonical → s.gate who (a_PW_PHCOMMIT pp) true = none →
    ∃ t, exec (.pwPhcommitClear who pp) s = .next t ∧ (∀ k, k < 64 → t.rd (a_PW_PHTAG pp k) = 0) ∧
      t.rd (a_PW_PHASECFG pp) = s.rd (a_PW_PHASECFG pp) ∧ t.mem = s.mem) ∧
  (∀ (pp : Fin 24) (sl mv at_ : Nat) (s : State), s.Canonical → s.domOn (domCtl pp) = true →
    s.flag (a_PW_PHASECFG pp) PW_PHASECFG_AUTO = true → (s.part pp).raises = [] → sl < 192 →
    s.nextRise pp sl = some (mv, at_) → at_ ≤ s.now → (∀ k, k < sl → s.nextRise pp k = none) →
    ∃ t, exec (.phaseRaiseStart pp) s = .next t ∧ (t.part pp).raises = [(sl, mv)] ∧
      (∀ q, q ≠ pp.val → t.part q = s.part q) ∧ t.regs = s.regs ∧ t.mem = s.mem)) ∧
  ((∀ (who : Requester) (i : Fin 124) (mv : BitVec 10) (s : State), s.Canonical → s.gate who (a_PW_DOMCTL i) true = none →
    i.val < 122 → 600 ≤ mv.toNat → mv.toNat ≤ s.maxMv i →
    ∃ t, exec (.pwDomctlSetMv who i mv) s = .next t ∧ t.fld (a_PW_DOMCTL i) PW_DOMCTL_SET_MV = mv.toNat ∧
      t.fld (a_PW_DOMCTL i) PW_DOMCTL_ON = s.fld (a_PW_DOMCTL i) PW_DOMCTL_ON ∧
      (∀ a, a ≠ a_PW_DOMCTL i → t.rd a = s.rd a) ∧ t.doms = s.doms ∧ t.mem = s.mem) ∧
  (∀ (who : Requester) (v : BitVec 8) (s : State), s.Canonical → s.gate who a_PW_THERM true = none → 80 ≤ v.toNat → v.toNat ≤ 95 →
    ∃ t, exec (.pwThermWrite who v) s = .next t ∧ t.fld a_PW_THERM PW_THERM_THROTTLE_C = v.toNat ∧
      (∀ a, a ≠ a_PW_THERM → t.rd a = s.rd a) ∧ t.mem = s.mem) ∧
  (∀ (who : Requester) (v : BitVec 8) (s : State), s.gate who a_PW_THERM true = none → (v.toNat < 80 ∨ 95 < v.toNat) →
    exec (.pwThermWrite who v) s = .next (s.faultDev cPROTO 9 224) ∧ (s.faultDev cPROTO 9 224).regs = s.regs)) ∧
  (∀ (who : Requester) (i : Fin 124) (on : Bool) (s : State), s.Canonical → s.gate who (a_PW_DOMCTL i) true = none → i.val < 122 →
    s.flag (a_PW_DOMCTL i) PW_DOMCTL_ON ≠ on →
    ((s.dom i).switchOn = false → (s.dom i).switchOff = false →
      (if on then s.upRefused i else s.downRefused i) = false →
      ∃ t, exec (.pwDomctlOn who i on) s = .next t ∧ t.fld (a_PW_DOMCTL i) PW_DOMCTL_ON = b2n on ∧
        t.fld (a_PW_DOMSTAT i) PW_DOMSTAT_BUSY = 1 ∧ (t.dom i).switchOn = on ∧ (t.dom i).switchOff = !on ∧
        (t.dom i).on = (s.dom i).on ∧ (∀ j, j ≠ i.val → t.dom j = s.dom j) ∧ t.mem = s.mem) ∧
    ((if on then s.upRefused i else s.downRefused i) = true →
      ∃ t, exec (.pwDomctlOn who i on) s = .next t ∧ t.fld (a_PW_DOMSTAT i) PW_DOMSTAT_REFUSED = 1 ∧ t.doms = s.doms ∧
        t.rd (a_PW_DOMCTL i) = s.rd (a_PW_DOMCTL i) ∧ t.mem = s.mem))

/-- Budget messages: at its time Banjo sends every die a grant (with no die throttled and no sensor hot, the Headstock's is HS_W and
a Tailstock's TAIL_W); a die that takes its message within 300 µs holds that grant and reports its energy; a die without a
message for 300 µs falls to its floor and counts the miss where it keeps time (R45, R307, R308, R323).

The governors: a partition above 1.05 × its grant loses 4 of its PACE, down to 1; while the Headstock is over its grant the
quad that draws the most loses 10 mV, and with room the quad lowered last gets 10 mV back (R310, R319). -/
def Obligations.BudgetsAndGovernors : Prop :=
  ((∀ (demand : List Nat) (s : State), s.Canonical → s.budgetAt ≤ s.now → s.mg.restart ≤ s.now →
      (∀ d, d < 9 → (s.die d).therm = none) →
      (∀ k, k < 408 → s.tempOf k ≤ 16 * (s.fld a_PW_THERM PW_THERM_THROTTLE_C : Int)) →
      ∃ t, exec (.budgetInterval demand) s = .next t ∧ t.budgetAt = s.now + 100000 ∧
        (t.die 6).offer = some (s.now, s.fld a_PW_SPLIT PW_SPLIT_HS_W * 1000) ∧
        (t.die 7).offer = some (s.now, s.fld a_PW_SPLIT PW_SPLIT_TAIL_W * 1000) ∧
        (t.die 8).offer = some (s.now, s.fld a_PW_SPLIT PW_SPLIT_TAIL_W * 1000) ∧
        (∀ b, b < 6 → ∃ g, (t.die b).offer = some (s.now, g)) ∧ t.mem = s.mem) ∧
    (∀ (d : Fin 9) (energy at_ g : Nat) (s : State), s.Canonical → (s.die d).offer = some (at_, g) → (s.die d).inReset = false →
      s.now ≤ at_ + 300000 →
      ∃ t, exec (.budgetMessage d energy) s = .next t ∧ (t.die d).grant = g ∧ (t.die d).used = energy * 10 ∧
        (t.die d).lastMsg = s.now ∧ (t.die d).offer = none ∧ (t.die d).atFloor = false ∧
        t.fld (a_PW_DIE d) PW_DIE_GRANT = min 65535 (g / 250) ∧ t.mem = s.mem) ∧
    (∀ (d : Fin 9) (s : State), s.Canonical → (s.die d).inReset = false → (s.die d).atFloor = false → s.keepsTime d = true →
      (s.die d).lastMsg + 300000 ≤ s.now →
      ∃ t, exec (.budgetMissed d) s = .next t ∧ (t.die d).atFloor = true ∧
        (d.val ≠ 6 → (t.die d).grant = if d.val < 6 then 20000 else 30000) ∧
        t.fld (a_PW_DIE d) PW_DIE_MISSED = satAdd (s.fld (a_PW_DIE d) PW_DIE_MISSED) 1 255 ∧ t.mem = s.mem)) ∧
  ((∀ (pp : Fin 24) (power : Nat) (s : State), s.Canonical → s.domOn (domEng pp) = true → 105 * (s.part pp).grant < power * 100 →
      (s.part pp).overAt + 1000 ≤ s.now →
      ∃ t, exec (.paceOverloadStep pp power) s = .next t ∧ (t.part pp).pace = max 1 (s.livePace pp - 4) ∧
        (t.part pp).paceGoal ≤ (t.part pp).pace ∧ (t.part pp).paceAt = s.now ∧ (∀ q, q ≠ pp.val → t.part q = s.part q) ∧
        t.regs = s.regs ∧ t.mem = s.mem) ∧
    (∀ (q : Fin 26) (power : Nat) (s : State), s.Canonical → (s.die 6).grant ≠ 0 → s.governedAt ≤ s.now → (s.die 6).grant < power →
      s.domOn (domQuad q) = true → 600 < s.targetMv (domQuad q) →
      ∃ t, exec (.headstockGovernorStep q power) s = .next t ∧ (t.dom (domQuad q)).lowered = (s.dom (domQuad q)).lowered + 10 ∧
        t.lowered = q.val :: s.lowered ∧ t.governedAt = s.now + 10000 ∧ (∀ j, j ≠ domQuad q → t.dom j = s.dom j) ∧ t.regs = s.regs) ∧
    (∀ (q : Fin 26) (power k : Nat) (ks : List Nat) (s : State), s.Canonical → (s.die 6).grant ≠ 0 → s.governedAt ≤ s.now →
      power ≤ (s.die 6).grant → s.lowered = k :: ks →
      ∃ t, exec (.headstockGovernorStep q power) s = .next t ∧ (t.dom (domQuad k)).lowered = (s.dom (domQuad k)).lowered - 10 ∧
        t.lowered = ks ∧ t.governedAt = s.now + 10000 ∧ t.regs = s.regs))

/-- A sensor report sets every PW_TEMP to its reading and is due again after 100 µs (R322). -/
def Obligations.SensorReportSetsTemperatures : Prop :=
  ∀ (temps levels : List Nat) (s : State), s.Canonical → s.sensedAt ≤ s.now → temps.length = 400 → levels.length = 20 →
    ∃ t, exec (.sensorReport temps levels) s = .next t ∧
      (∀ k, k < 400 → t.fld (a_PW_TEMP k) PW_TEMP_TEMP = temps.getD k 0 % 65536) ∧
      (∀ k, k < 20 → t.fld (a_MG_SENS k) MG_SENS_VALUE = levels.getD k 0 % 65536 ∧ t.fld (a_MG_SENS k) MG_SENS_VALID = 1) ∧
      t.sensedAt = s.now + 100000 ∧ t.mem = s.mem

/-- Droop: below 0.55 V a domain freezes and counts it, above 0.57 V it resumes as it was; an island whose supply leaves its
window holds and counts it, and goes on when the supply returns; a freeze or a hold longer than 10 µs logs one POWER fault where
the domain's die keeps time (R45).
No register but PW_DOMSTAT and no memory changes (R49, R51).

Chatter: the event is counted and the domain is damped; it leaves the damped mode after 10 ms without chatter; chatter that
lasts 1 ms halves its pace (R321). -/
def Obligations.SupplyHoldsAndChatter : Prop :=
  ((∀ (i : Fin 124) (mv : Nat) (s : State), s.Canonical → (s.dom i).on = true → (s.dom i).frozen = none → mv < 550 →
    ∃ t, exec (.undervoltageFreeze i mv) s = .next t ∧ t.dom i = { s.dom i with frozen := some s.now, freezeLogged := false } ∧
      t.fld (a_PW_DOMSTAT i) PW_DOMSTAT_FREEZES = satAdd (s.fld (a_PW_DOMSTAT i) PW_DOMSTAT_FREEZES) 1 65535 ∧
      (∀ a, a ≠ a_PW_DOMSTAT i → t.rd a = s.rd a) ∧ t.mem = s.mem) ∧
  (∀ (i : Fin 124) (mv : Nat) (s : State), (s.dom i).frozen.isSome = true → 570 < mv →
    exec (.freezeResume i mv) s = .next (s.setDom i { s.dom i with frozen := none, freezeLogged := false })) ∧
  (∀ (i : Fin 124) (at_ : Nat) (s : State), (s.dom i).frozen = some at_ → at_ + 10000 < s.now → (s.dom i).freezeLogged = false →
    s.keepsTime (dieOfDom i) = true →
    exec (.freezeTimeout i) s = .next ((s.setDom i { s.dom i with freezeLogged := true }).faultDom cPOWER i)) ∧
  (∀ (i : Fin 124) (s : State), (s.dom i).on = true → hasIsland i = true → (s.dom i).held = none →
    exec (.islandSupplyHold i) s =
      .next (s.setDom i { s.dom i with held := some s.now, holdLogged := false, holds := (s.dom i).holds + 1 })) ∧
  (∀ (i : Fin 124) (s : State), (s.dom i).held.isSome = true →
    exec (.islandSupplyReturn i) s = .next (s.setDom i { s.dom i with held := none, holdLogged := false })) ∧
  (∀ (i : Fin 124) (at_ : Nat) (s : State), (s.dom i).held = some at_ → at_ + 10000 < s.now → (s.dom i).holdLogged = false →
    s.keepsTime (dieOfDom i) = true →
    exec (.islandHoldTimeout i) s = .next ((s.setDom i { s.dom i with holdLogged := true }).faultDom cPOWER i))) ∧
  ((∀ (i : Fin 124) (s : State), s.Canonical → (s.dom i).on = true →
    ∃ t, exec (.chatterDetect i) s = .next t ∧ (t.dom i).damped = some ((s.dom i).damped.getD s.now) ∧ (t.dom i).chatterAt = s.now ∧
      t.fld (a_PW_DOMSTAT i) PW_DOMSTAT_CHATTER = satAdd (s.fld (a_PW_DOMSTAT i) PW_DOMSTAT_CHATTER) 1 65535 ∧
      t.fld (a_PW_DOMSTAT i) PW_DOMSTAT_DAMPED = 1 ∧ t.mem = s.mem) ∧
  (∀ (i : Fin 124) (s : State), s.Canonical → (s.dom i).damped.isSome = true → (s.dom i).chatterAt + 10000000 ≤ s.now →
    ∃ t, exec (.dampedExit i) s = .next t ∧ (t.dom i).damped = none ∧ t.fld (a_PW_DOMSTAT i) PW_DOMSTAT_DAMPED = 0 ∧
      (∀ a, a ≠ a_PW_DOMSTAT i → t.rd a = s.rd a) ∧ t.mem = s.mem) ∧
  (∀ (i : Fin 124) (at_ : Nat) (s : State), s.Canonical → (s.dom i).damped = some at_ → at_ + 1000000 ≤ s.now →
    (s.dom i).halved = false →
    ∃ t, exec (.chatterPersist i) s = .next t ∧ (t.dom i).halved = true ∧ (t.dom i).damped = some at_ ∧ t.regs = s.regs))

/-! ### The host link -/

/-- HI_QCOMMIT: a legal staged configuration becomes live, and a queue it enables starts with its counters at 0 and nothing held or
under way; a refused one changes no register and keeps what is staged; RESUME clears STALLED (R277, R284, R285).

Other host commands: IDE_REQUIRED is taken from an agent other than the host while the stream is not active; an access outside
the apertures is answered Unsupported Request and counted; a pending MSI-X message leaves once (R272, R280, R282). -/
def Obligations.HostQueuesAndSmallCommands : Prop :=
  ((∀ (who : Requester) (q : BitVec 8) (s : State), s.Canonical → s.gate who a_HI_QCOMMIT true = none → s.queueOk q.toNat = true →
    ∃ t, exec (.hiQcommitGo who q false) s = .next t ∧ (∀ a ∈ queueGroup q.toNat, t.rd a = s.stagedRd a) ∧
      (s.qEnabled q.toNat = false → s.stagedFld (a_HI_QCFG q.toNat) HI_QCFG_ENABLE = 1 →
        t.rd (a_HI_QACC q.toNat) = 0 ∧ t.rd (a_HI_QEGPROD q.toNat) = 0 ∧ t.rd (a_HI_QEGCONS q.toNat) = 0 ∧
        (t.queue q.toNat).ingress = [] ∧ (t.queue q.toNat).db = []) ∧ t.mem = s.mem) ∧
  (∀ (who : Requester) (q : BitVec 8) (s : State), s.Canonical → s.gate who a_HI_QCOMMIT true = none →
    (s.queueOk q.toNat = false → ∃ t, exec (.hiQcommitGo who q false) s = .next t ∧ t.regs = s.regs ∧ t.staged = s.staged ∧
      t.queues = s.queues ∧ t.mem = s.mem) ∧
    ∃ t, exec (.hiQcommitResume who q) s = .next t ∧ t.fld (a_HI_QSTAT q.toNat) HI_QSTAT_STALLED = 0 ∧
      (∀ a, a ≠ a_HI_QSTAT q.toNat → t.rd a = s.rd a) ∧ t.queues = s.queues ∧ t.mem = s.mem)) ∧
  ((∀ (who : Requester) (v : Word) (s : State), s.Canonical → who ≠ .host → s.gate who a_HI_LINK true = none →
    s.fld a_HI_LINK HI_LINK_IDE_ACTIVE ≠ 1 →
    ∃ t, exec (.hiLinkWrite who v) s = .next t ∧ t.fld a_HI_LINK HI_LINK_IDE_REQUIRED = HI_LINK_IDE_REQUIRED.get v ∧
      (∀ a, a ≠ a_HI_LINK → t.rd a = s.rd a) ∧ t.mem = s.mem) ∧
  (∀ (fn : HostFn) (read mailbox : Bool) (s : State), s.hostLink.up = true →
    ∃ t, exec (.hostUnsupportedAccess fn read mailbox) s = .next t ∧
      t.hostLink.unsupported = s.hostLink.unsupported + 1 ∧ t.regs = s.regs ∧ t.mem = s.mem) ∧
  (∀ (fn : HostFn) (n : Fin 1024) (s : State), s.Canonical → s.hostLink.up = true → s.alive 121 = true →
    (s.fn (fnNum fn)).pending.contains n.val = true →
    ∃ t, exec (.msixSend fn n) s = .next t ∧ t.outbox = s.outbox ++ [.msix fn n] ∧ n.val ∉ (t.fn (fnNum fn)).pending ∧
      t.regs = s.regs ∧ t.mem = s.mem))

/-- A host doorbell waits behind those already held; the oldest goes on to the ring once the bytes it counts are accepted, and one
that waits 64 µs for them stalls its queue and is dropped with all behind it (R276, R277).

The data windows: a host write to the data ingress window lands at its offset modulo the ring; its bytes are counted when they
have been written under the context's key; an egress read returns the ring's bytes and changes no memory, where the homes serve them
(R273, R274, R279, R340). -/
def Obligations.HostWindowsAndDoorbells : Prop :=
  ((∀ (fn : HostFn) (q : Fin 256) (v : Word) (inStream : Bool) (s : State), s.Canonical → s.hostReach inStream = true →
      s.qf q HI_QCFG_FUNC = fnNum fn → s.qDetached q = false → s.queueServes q = true →
      s.flag (a_HI_QSTAT q) HI_QSTAT_STALLED = false →
      ∃ t, exec (.hiQdb fn q 8 v inStream) s = .next t ∧
        (t.queue q).db = (s.queue q).db ++ [(HI_QDB_TAIL.get v, HI_QDB_BYTES.get v, s.now)] ∧
        (t.queue q).ingress = (s.queue q).ingress ∧ t.regs = s.regs ∧ t.ctxs = s.ctxs ∧ t.mem = s.mem) ∧
    (∀ (q : Fin 256) (tail bytes at_ : Nat) (rest : List (Nat × Nat × Nat)) (s : State), s.Canonical →
      (s.queue q).db = (tail, bytes, at_) :: rest → s.alive 121 = true → s.bytesIn q bytes = true →
      s.cfg (s.qf q HI_QCFG_CTXID) PT_CTXCFG_HOST_OWNED ≠ 0 → s.tenantOf (s.qf q HI_QCFG_CTXID) = (s.queue q).tenant →
      s.doorbellFate (s.qf q HI_QCFG_CTXID) tail = .accepted →
      let id := s.qf q HI_QCFG_CTXID
      ∃ t, exec (.doorbellForward q) s = .next t ∧ (t.queue q).db = rest ∧
        (t.ctx id).tail % s.ringSize id = tail % s.ringSize id ∧ t.regs = s.regs ∧ t.mem = s.mem) ∧
    (∀ (q : Fin 256) (tail bytes at_ : Nat) (rest : List (Nat × Nat × Nat)) (s : State), s.Canonical →
      (s.queue q).db = (tail, bytes, at_) :: rest → s.alive 121 = true → s.bytesIn q bytes = false → at_ + 64000 ≤ s.now →
      ∃ t, exec (.doorbellAhead q) s = .next t ∧ t.fld (a_HI_QSTAT q) HI_QSTAT_STALLED = 1 ∧ (t.queue q).db = [] ∧
        t.ctxs = s.ctxs ∧ t.mem = s.mem)) ∧
  ((∀ (fn : HostFn) (q : Fin 256) (o : Nat) (bs : List Byte) (inStream : Bool) (s : State), s.Canonical → s.hostReach inStream = true →
      s.ownsQueue fn q = true → bs ≠ [] → o + bs.length ≤ 0x10000000 →
      o % 2 ^ s.qf q HI_QCFG_LOG2DATA + bs.length ≤ 2 ^ s.qf q HI_QCFG_LOG2DATA →
      ∃ t, exec (.hostIngressWrite fn q o bs inStream) s = .next t ∧
        (t.queue q).ingress = (s.queue q).ingress ++
          [(s.fld (a_HI_QDATA q) HI_QDATA_BASE * 65536 + o % 2 ^ s.qf q HI_QCFG_LOG2DATA, bs)] ∧
        t.regs = s.regs ∧ t.mem = s.mem) ∧
    (∀ (q : Fin 256) (a : Nat) (bs : List Byte) (rest : List (Nat × List Byte)) (s : State), s.Canonical →
      (s.queue q).ingress = (a, bs) :: rest → s.alive 121 = true → s.fare roleCOH 7 a = .served → s.Admitted naHost a bs.length →
      s.keyAt (s.qf q HI_QCFG_CTXID) ≠ 0 → s.clearOfReserve a bs.length = true →
      ∃ t, exec (.ingressAccepted q) s = .next t ∧ (t.queue q).ingress = rest ∧
        t.mem = (s.writeMem (s.qf q HI_QCFG_CTXID) a bs false).mem ∧
        t.fld (a_HI_QACC q) HI_QACC_ACCEPTED = (s.fld (a_HI_QACC q) HI_QACC_ACCEPTED + bs.length) % 2 ^ 48 ∧
        (∀ b, b ≠ a_HI_QACC q → t.rd b = s.rd b)) ∧
    (∀ (fn : HostFn) (q : Fin 256) (o n : Nat) (inStream : Bool) (s : State), s.hostReach inStream = true →
      s.ownsQueue fn q = true → egrWindow ≤ o → o + n ≤ 0x20000000 → s.keyAt (s.qf q HI_QCFG_CTXID) ≠ 0 →
      (o - egrWindow) % 2 ^ s.qf q HI_QCFG_LOG2EGR + n ≤ 2 ^ s.qf q HI_QCFG_LOG2EGR →
      let at_ := s.fld (a_HI_QEGR q) HI_QEGR_BASE * 65536 + (o - egrWindow) % 2 ^ s.qf q HI_QCFG_LOG2EGR
      s.fare roleCOH 7 at_ = .served → s.Admitted naHost at_ n →
      ∃ t, exec (.hostEgressRead fn q o n inStream) s = .next t ∧ t.hostLink.reply = (s.readMem (s.qf q HI_QCFG_CTXID) at_ n).1 ∧
        s.quietRead t clsHost ∧ (s.flips = [] → s.fld (a_SC_WAYMASK clsHost) SC_WAYMASK_MASK = 0 → t.regs = s.regs)))

/-- The link: its loss, an FLR of PF0 and PERST_N low leave the link down and disable every queue; an FLR of a VF disables the four
queues of that VF alone and the link stays up, and a VF that the licence does not give has none; PERST_N high ends the reset of the interface; training brings the link up
(R6, R271, R283, R406). -/
def Obligations.HostLinkLossAndReturn : Prop :=
  (∀ s : State, s.Canonical → s.hostLink.up = true →
    ∃ t, exec .hostLinkDown s = .next t ∧ t.hostLink.up = false ∧ (∀ q, q < 256 → t.qEnabled q = false) ∧ t.fns = [] ∧
      t.mem = s.mem) ∧
  (∀ s : State, s.Canonical → s.hostLink.up = true →
    ∃ t, exec (.flr .pf) s = .next t ∧ t.hostLink.up = false ∧ (∀ q, q < 256 → t.qEnabled q = false) ∧ t.mem = s.mem) ∧
  (∀ (n : Fin 64) (s : State), s.Canonical → s.hostLink.up = true →
    (n.val < s.fld a_MG_LICENCE MG_LICENCE_VFS →
      ∃ t, exec (.flr (.vf n)) s = .next t ∧ t.hostLink = s.hostLink ∧
        (∀ q, q < 256 → t.qEnabled q = (decide (q / 4 ≠ n.val) && s.qEnabled q)) ∧ t.mem = s.mem) ∧
    (s.fld a_MG_LICENCE MG_LICENCE_VFS ≤ n.val → exec (.flr (.vf n)) s = .next s)) ∧
  (∀ s : State, s.Canonical → s.hostLink.perst = true →
    ∃ t, exec (.perstN false) s = .next t ∧ t.hostLink.up = false ∧ t.hostLink.perst = false ∧ (t.dom 121).inReset = true ∧
      (∀ q, q < 256 → t.qEnabled q = false) ∧ t.mem = s.mem) ∧
  (∀ s : State, s.Canonical → s.hostLink.perst = false →
    ∃ t, exec (.perstN true) s = .next t ∧ t.hostLink.perst = true ∧ (t.dom 121).inReset = false ∧ t.regs = s.regs) ∧
  (∀ (gen : BitVec 4) (width : BitVec 5) (s : State), s.Canonical → s.hostLink.up = false → s.hostLink.perst = true →
    s.alive 121 = true → s.pins.refPcie = true → 4 ≤ gen.toNat → gen.toNat ≤ 6 → width.toNat ∈ [1, 2, 4] →
    ∃ t, exec (.hostLinkUp gen width) s = .next t ∧ t.hostLink.up = true ∧ t.fld a_HI_LINK HI_LINK_GEN = gen.toNat ∧
      t.fld a_HI_LINK HI_LINK_WIDTH = width.toNat ∧ t.mem = s.mem)

/-! ### The fabric -/

/-- Routing and windows: a legal XL_WINCOMMIT and a legal FB_COMMIT make their staged registers live, and FB_TIMEOUT takes 10 to
100,000 µs; an illegal timeout is refused with PROTO (R203, R303, R304). -/
def Obligations.FabricConfiguration : Prop :=
  (∀ (who : Requester) (w : Fin 256) (s : State), s.Canonical → s.gate who a_XL_WINCOMMIT true = none → s.windowOk w = true →
    ∃ t, exec (.xlWincommit who w) s = .next t ∧ t.rd (a_XL_WINBASE w) = s.stagedRd (a_XL_WINBASE w) ∧
      t.rd (a_XL_WINCFG w) = s.stagedRd (a_XL_WINCFG w) ∧
      (∀ a, a ≠ a_XL_WINBASE w → a ≠ a_XL_WINCFG w → t.rd a = s.rd a) ∧ t.mem = s.mem) ∧
  (∀ (who : Requester) (s : State), s.Canonical → s.gate who a_FB_COMMIT true = none → s.routesOk = true →
    ∃ t, exec (.fbCommit who) s = .next t ∧ t.rd a_FB_DEVID = s.stagedRd a_FB_DEVID ∧
      (∀ d, d < 4096 → t.rd (a_FB_ROUTE d) = s.stagedRd (a_FB_ROUTE d)) ∧ t.mem = s.mem) ∧
  (∀ (who : Requester) (v : Word) (s : State), s.Canonical → s.gate who a_FB_TIMEOUT true = none →
    10 ≤ FB_TIMEOUT_TIMEOUT_US.get v → FB_TIMEOUT_TIMEOUT_US.get v ≤ 100000 →
    ∃ t, exec (.fbTimeoutWrite who v) s = .next t ∧ t.fld a_FB_TIMEOUT FB_TIMEOUT_TIMEOUT_US = FB_TIMEOUT_TIMEOUT_US.get v ∧
      (∀ a, a ≠ a_FB_TIMEOUT → t.rd a = s.rd a) ∧ t.mem = s.mem) ∧
  (∀ (who : Requester) (v : Word) (s : State), s.gate who a_FB_TIMEOUT true = none →
    (FB_TIMEOUT_TIMEOUT_US.get v < 10 ∨ 100000 < FB_TIMEOUT_TIMEOUT_US.get v) →
    exec (.fbTimeoutWrite who v) s = .next (s.faultDev cPROTO 7 255) ∧ (s.faultDev cPROTO 7 255).regs = s.regs)

/-- A port's life: enabling a licensed port that is DOWN or FAILED starts its training, and disabling it leaves it DOWN with nothing of
its flits; trained on all four lanes it keys, or after a retrain is UP again and sends the flits of its replay buffer, at most 1,024;
its last keying message brings it UP with its flit count at 0, and one that fails leaves it FAILED; RETRAIN of an UP port starts a
retrain and counts it, and trains a port that keys or is FAILED anew; a rekey after 2^31 flits takes the next key; a retrain or a
keying that lasts 100 ms fails the port. No other port changes (R287, R290, R291, R304, R382).

A flit in order with a good FEC, and while the port is UP a good tag, is taken, and what it asks for is sent again; one that is
refused leaves the sequence, and the eighth refusal in a row starts a retrain; the fourth tag failure within a millisecond fails
the port (R289–R291). -/
def Obligations.PortsAndFlits : Prop :=
  ((∀ (who : Requester) (p : Fin 16) (s : State), s.Canonical → s.gate who (a_FB_PORTCTL p) true = none → s.portLicensed p = true →
    (s.portState p = psDOWN ∨ s.portState p = psFAILED →
      ∃ t, exec (.fbPortctlEnable who p true) s = .next t ∧ t.portEnabled p = true ∧ t.portState p = psTRAINING ∧
        (t.port p).since = s.now ∧ s.otherPorts t p) ∧
    (s.portState p ≠ psDOWN → s.portState p ≠ psFAILED →
      ∃ t, exec (.fbPortctlEnable who p true) s = .next t ∧ t.portEnabled p = true ∧ t.portState p = s.portState p ∧
        t.port p = s.port p ∧ s.otherPorts t p) ∧
    ∃ t, exec (.fbPortctlEnable who p false) s = .next t ∧ t.portEnabled p = false ∧ t.portState p = psDOWN ∧
      t.port p = Port.init ∧ s.otherPorts t p) ∧
  (∀ (p : Fin 16) (lanes : BitVec 4) (s : State), s.Canonical → s.portAlive p = true → s.portEnabled p = true →
    (s.portState p = psTRAINING → lanes = 15 →
      ∃ t, exec (.portTrained p lanes) s = .next t ∧ t.portState p = psKEYING ∧ (t.port p).since = s.now ∧
        t.fld (a_FB_PORTSTAT p) FB_PORTSTAT_LANES_OK = 15 ∧ s.otherPorts t p) ∧
    (s.portState p = psRETRAINING → lanes = 15 →
      ∃ t n, exec (.portTrained p lanes) s = .next t ∧ t.portState p = psUP ∧ n ≤ 1024 ∧ t.port p = s.port p ∧
        t.fld (a_FB_PORTERR p) FB_PORTERR_REPLAYS =
          satAdd (s.fld (a_FB_PORTERR p) FB_PORTERR_REPLAYS) n (2 ^ FB_PORTERR_REPLAYS.width - 1) ∧ s.otherPorts t p) ∧
    (s.portState p = psTRAINING ∨ s.portState p = psRETRAINING → lanes ≠ 15 →
      ∃ t, exec (.portTrained p lanes) s = .next t ∧ t.portState p = s.portState p ∧
        t.fld (a_FB_PORTSTAT p) FB_PORTSTAT_LANES_OK = lanes.toNat ∧ t.port p = s.port p ∧ s.otherPorts t p)) ∧
  (∀ (p : Fin 16) (peer : BitVec 12) (sw : Bool) (s : State), s.Canonical → s.portAlive p = true → s.portState p = psKEYING →
    (∃ t, exec (.keyingMessage p true true peer sw) s = .next t ∧ t.portState p = psUP ∧ (t.port p).flits = 0 ∧
      (t.port p).keyGen = (s.port p).keyGen + 1 ∧ t.fld (a_FB_PORTSTAT p) FB_PORTSTAT_PEER_SW = b2n sw ∧
      t.fld (a_FB_PORTSTAT p) FB_PORTSTAT_PEER_DEV = (if sw then 0 else peer.toNat) ∧ s.otherPorts t p) ∧
    exec (.keyingMessage p true false peer sw) s = .next (s.setPort p { s.port p with keySteps := (s.port p).keySteps + 1 }) ∧
    ∀ last, ∃ t, exec (.keyingMessage p false last peer sw) s = .next t ∧ t.portState p = psFAILED ∧ s.otherPorts t p) ∧
  (∀ (who : Requester) (p : Fin 16) (s : State), s.Canonical → s.gate who (a_FB_PORTCTL p) true = none → s.portLicensed p = true →
    s.portEnabled p = true →
    (s.portState p = psUP →
      ∃ t, exec (.fbPortctlRetrain who p) s = .next t ∧ t.portState p = psRETRAINING ∧ (t.port p).since = s.now ∧
        t.fld (a_FB_PORTERR p) FB_PORTERR_RETRAINS =
          satAdd (s.fld (a_FB_PORTERR p) FB_PORTERR_RETRAINS) 1 (2 ^ FB_PORTERR_RETRAINS.width - 1) ∧ s.otherPorts t p) ∧
    (s.portState p = psFAILED ∨ s.portState p = psKEYING →
      ∃ t, exec (.fbPortctlRetrain who p) s = .next t ∧ t.portState p = psTRAINING ∧ (t.port p).since = s.now ∧ s.otherPorts t p)) ∧
  (∀ (p : Fin 16) (s : State), s.portState p = psUP → 2 ^ 31 ≤ (s.port p).flits →
    exec (.fabricRekey p) s = .next (s.setPort p { s.port p with flits := 0, keyGen := (s.port p).keyGen + 1 })) ∧
  (∀ (p : Fin 16) (s : State), s.Canonical →
    (s.portState p = psRETRAINING → (s.port p).since + 100000000 ≤ s.now →
      ∃ t, exec (.retrainTimeout p) s = .next t ∧ t.portState p = psFAILED ∧ s.otherPorts t p) ∧
    (s.portState p = psKEYING → (s.port p).since + 100000000 ≤ s.now →
      ∃ t, exec (.keyingTimeout p) s = .next t ∧ t.portState p = psFAILED ∧ s.otherPorts t p) ∧
    (s.now < (s.port p).since + 100000000 →
      exec (.retrainTimeout p) s = .next s ∧ exec (.keyingTimeout p) s = .next s))) ∧
  (∀ (p : Fin 16) (tag : Bool) (seq : BitVec 12) (n : Nat) (types : List (Fin 6)) (s : State), s.Canonical → s.portAlive p = true →
    s.portState p = psUP ∨ s.portState p = psKEYING →
    (seq.toNat = (s.port p).rxSeq % 4096 → tag = true ∨ s.portState p = psKEYING →
      ∃ t, exec (.flitReceive p true tag ⟨seq, n, types⟩) s = .next t ∧ t.portState p = s.portState p ∧
        t.port p = { s.port p with
          rxSeq := (s.port p).rxSeq + 1, refusals := 0
          flits := (s.port p).flits + (if s.portState p = psUP then 1 else 0) } ∧
        t.fld (a_FB_PORTERR p) FB_PORTERR_REPLAYS =
          satAdd (s.fld (a_FB_PORTERR p) FB_PORTERR_REPLAYS) (min n 1024) (2 ^ FB_PORTERR_REPLAYS.width - 1) ∧ s.otherPorts t p) ∧
    (∀ fec, fec = false ∨ (tag = true ∧ seq.toNat ≠ (s.port p).rxSeq % 4096) →
      ((s.port p).refusals < 7 → exec (.flitReceive p fec tag ⟨seq, n, types⟩) s =
        .next (s.setPort p { s.port p with refusals := (s.port p).refusals + 1 })) ∧
      (7 ≤ (s.port p).refusals → ∃ t, exec (.flitReceive p fec tag ⟨seq, n, types⟩) s = .next t ∧ t.portState p = psRETRAINING ∧
        (t.port p).rxSeq = (s.port p).rxSeq ∧ s.otherPorts t p)) ∧
    (s.portState p = psUP → 3 ≤ ((s.port p).tagFails.filter (fun x => decide (s.now ≤ x + 1000000))).length →
      ∃ t, exec (.flitReceive p true false ⟨seq, n, types⟩) s = .next t ∧ t.portState p = psFAILED ∧ s.otherPorts t p) ∧
    (s.portState p = psUP → ((s.port p).tagFails.filter (fun x => decide (s.now ≤ x + 1000000))).length < 3 → (s.port p).refusals < 7 →
      ∃ t, exec (.flitReceive p true false ⟨seq, n, types⟩) s = .next t ∧ t.portState p = psUP ∧
        (t.port p).rxSeq = (s.port p).rxSeq ∧ (t.port p).refusals = (s.port p).refusals + 1 ∧
        t.fld (a_FB_PORTERR p) FB_PORTERR_AUTH_FAIL =
          satAdd (s.fld (a_FB_PORTERR p) FB_PORTERR_AUTH_FAIL) 1 (2 ^ FB_PORTERR_AUTH_FAIL.width - 1) ∧ s.otherPorts t p))

/-- A remote request that its receiver admits and whose home serves it is performed under the key and at the address the admission
gives, and answered to the requester with its tag: a WR and a WR4 write their bytes and are acknowledged, an RD returns the units
read (R201, R202, R252, R293, R297).

A WINDOWED request outside its receive window is answered NAK with code WINDOW and changes no memory; a DIRECT request that is not
admitted is discarded without an answer; a request whose home's die, or a die of its path, is in reset is answered NAK with code
PATH_IN_RESET and one whose home is in reset with TARGET_IN_RESET (R31, R201, R202, R340). -/
def Obligations.RemoteRequests : Prop :=
  ((∀ (p : Fin 16) (k : Packet) (data : List Byte) (key a port : Nat) (s : State), s.portServes p = true →
    k.legal tyWR data.length = true → k.dest = s.fld a_FB_DEVID FB_DEVID_DEV →
    s.admission k true (64 * k.len) = .serve key a → s.homeRefusal (p / 8) a = 0 → s.fare roleTILE (7 + p / 8) a = .served →
    s.Admitted (naTail (p / 8)) a (64 * k.len) → s.routeTo k.src tyACK = some port →
    ∃ t h, exec (.wr p k data) s = .next t ∧ t.mem = (s.writeMemP key a data (fun o => natBit k.poison (o / 64))).mem ∧
      t.outbox = s.outbox ++ [.packet port [h, 0, 0, 0] []] ∧ natBits h.toNat 63 60 = tyACK ∧ natBits h.toNat 59 48 = k.src ∧
      natBits h.toNat 35 20 = k.tag ∧ t.regs = s.regs) ∧
  (∀ (p : Fin 16) (k : Packet) (key a port : Nat) (s : State), s.portServes p = true →
    k.legal tyRD 0 = true → k.dest = s.fld a_FB_DEVID FB_DEVID_DEV →
    s.admission k false (64 * k.len) = .serve key a → s.homeRefusal (p / 8) a = 0 → s.fare roleTILE (7 + p / 8) a = .served →
    s.Admitted (naTail (p / 8)) a (64 * k.len) →
    let u := (({ s with fresh := s.fresh + 1 } : State).readAs clsFabric key a (64 * k.len)).1
    u.routeTo k.src tyRDRSP = some port →
    ∃ t h, exec (.rd p k) s = .next t ∧
      t.outbox = u.outbox ++ [.packet port [h, 0, 0, 0] (s.readMem key a (64 * k.len)).1] ∧
      natBits h.toNat 63 60 = tyRDRSP ∧ natBits h.toNat 35 20 = k.tag ∧ natBits h.toNat 19 16 = k.len ∧ s.quietRead t clsFabric ∧
      (s.flips = [] → s.fld (a_SC_WAYMASK clsFabric) SC_WAYMASK_MASK = 0 → t.regs = s.regs ∧ u.outbox = s.outbox)) ∧
  (∀ (p : Fin 16) (k : Packet) (key a port : Nat) (s : State), s.portServes p = true →
    k.legal tyWR4 0 = true → k.dest = s.fld a_FB_DEVID FB_DEVID_DEV →
    s.admission k true 4 = .serve key a → s.homeRefusal (p / 8) a = 0 → s.fare roleTILE (7 + p / 8) a = .served →
    s.Admitted (naTail (p / 8)) a 4 → s.routeTo k.src tyACK = some port →
    ∃ t h, exec (.wr4 p k) s = .next t ∧ t.mem = (s.writeMem key a (leBytes k.value 4) false).mem ∧
      t.outbox = s.outbox ++ [.packet port [h, 0, 0, 0] []] ∧ natBits h.toNat 63 60 = tyACK ∧ natBits h.toNat 35 20 = k.tag ∧
      t.regs = s.regs)) ∧
  (∀ (p : Fin 16) (k : Packet) (s : State), s.portServes p = true → k.legal tyRD 0 = true →
    k.dest = s.fld a_FB_DEVID FB_DEVID_DEV →
    (∀ port, s.routeTo k.src tyNAK = some port →
      ∀ code, (s.admission k false (64 * k.len) = .window ∧ code = 3) ∨
          (∃ key a, s.admission k false (64 * k.len) = .serve key a ∧ s.homeRefusal (p / 8) a = code ∧ code ≠ 0) →
        ∃ t h, exec (.rd p k) s = .next t ∧ t.outbox = s.outbox ++ [.packet port [h, 0, 0, 0] []] ∧
          natBits h.toNat 63 60 = tyNAK ∧ natBits h.toNat 5 2 = code ∧ natBits h.toNat 35 20 = k.tag ∧ t.mem = s.mem ∧
          t.regs = s.regs) ∧
    (s.admission k false (64 * k.len) = .silent →
      ∃ t, exec (.rd p k) s = .next t ∧ t.outbox = s.outbox ∧ t.mem = s.mem ∧ t.regs = s.regs))

/-- Answers to a core's own requests end them: an ACK of a remote store, an RD_RSP of an uncached load that brings its bytes; a NAK
for a target in reset keeps the request and lets it be sent again in 10 µs, unchanged; a request whose timeout has passed is
given up and counted, and its store stays unacknowledged (R218, R297). -/
def Obligations.RemoteAnswersAndRetries : Prop :=
  (∀ (p : Fin 16) (k : Packet) (x : Remote) (s : State), s.Canonical → s.noBarriers →
    s.answered p k (fun t => t == tyWR || t == tyWR4) = some x → k.type = tyACK → x.pp = coresPP → x.ref.index = crSTORE →
    ∃ t, exec (.ack p k) s = .next t ∧ t.remotes = s.remotes.filter (fun y => y.tag != x.tag || y.dev != x.dev) ∧ t.mem = s.mem ∧
      t.regs = s.regs) ∧
  (∀ (p : Fin 16) (k : Packet) (x : Remote) (data : List Byte) (s : State), s.Canonical → s.noBarriers →
    s.answered p k (fun t => t == tyRD) = some x → k.type = tyRDRSP → k.len = natBits (x.hdr.getD 0 0).toNat 19 16 →
    data.length = 64 * k.len → x.pp = coresPP → x.ref.index ≠ crFILL → x.ref.index ≠ crSTORE →
    ∃ t, exec (.rdRsp p k data) s = .next t ∧ t.remotes = s.remotes.filter (fun y => y.tag != x.tag || y.dev != x.dev) ∧
      (natBit k.poison 0 = false →
        (t.core x.ref.slot).loaded = BitVec.ofNat 64 (ofLeBytes ((data.drop (x.pa % 64)).take x.ref.index))) ∧
      t.mem = s.mem ∧ t.regs = s.regs) ∧
  (∀ (p : Fin 16) (k : Packet) (x : Remote) (s : State), s.answered p k (fun _ => true) = some x → k.type = tyNAK →
    (k.nakcode = 1 ∨ k.nakcode = 2) →
    exec (.nak p k) s = .next { s with remotes := s.remotes.map (fun y =>
      if y = x then { y with resendAt := some (s.now + 10000), code := k.nakcode } else y) }) ∧
  (∀ (tag : BitVec 16) (x : Remote) (at_ port : Nat) (s : State),
    s.remotes.find? (fun y => y.tag == tag.toNat && y.resendAt.isSome) = some x → x.resendAt = some at_ → at_ ≤ s.now →
    s.now < x.first + x.limit → s.routeTo x.dev (natBits (x.hdr.getD 0 0).toNat 63 60) = some port →
    exec (.remoteResend tag) s = .next { s with
      outbox := s.outbox ++ [.packet port x.hdr x.data]
      remotes := s.remotes.map (fun y => if y = x then { y with resendAt := none } else y) }) ∧
  (∀ (tag : BitVec 16) (x : Remote) (s : State), s.Canonical → s.remotes.find? (fun y => y.tag == tag.toNat) = some x →
    x.first + x.limit ≤ s.now → x.pp = coresPP → x.ref.index = crSTORE →
    ∃ t, exec (.remoteTimeout tag) s = .next t ∧ t.remotes = s.remotes.filter (fun y => y.tag != x.tag || y.dev != x.dev) ∧
      t.fld a_FB_TOCNT FB_TOCNT_EXPIRED = satAdd (s.fld a_FB_TOCNT FB_TOCNT_EXPIRED) 1 (2 ^ FB_TOCNT_EXPIRED.width - 1) ∧
      (t.core x.ref.slot).lostSt = (s.core x.ref.slot).lostSt + 1 ∧ t.mem = s.mem)

/-! ### Control registers with commands of their own -/

/-- The commits of link roles, matrix ramp, way masks, fault ring and tier manager: with settings inside the stated limits each
makes its staged registers live and changes no other register but a result field; with settings outside them none becomes
live (R22, R71, R189, R233, R332). -/
def Obligations.CommitsApplyStagedGroups : Prop :=
  (∀ (who : Requester) (l : Fin 16) (s : State), s.Canonical → l.val < 6 → s.gate who (a_LK_COMMIT l) true = none →
    let c := s.stagedFld (a_LK_ROLE l) LK_ROLE_COH_N
    let tl := s.stagedFld (a_LK_ROLE l) LK_ROLE_TILE_N
    let k := s.stagedFld (a_LK_ROLE l) LK_ROLE_CTRL_N
    ∃ t, exec (.lkCommitGo who l) s = .next t ∧
      (c + tl + k = 32 ∧ 4 ≤ c ∧ 4 ≤ tl ∧ 1 ≤ k ∧ k ≤ 4 →
        t.rd (a_LK_ROLE l) = s.stagedRd (a_LK_ROLE l) ∧ t.fld (a_LK_STATUS l) LK_STATUS_COMMIT_RESULT = 1) ∧
      (¬(c + tl + k = 32 ∧ 4 ≤ c ∧ 4 ≤ tl ∧ 1 ≤ k ∧ k ≤ 4) →
        t.rd (a_LK_ROLE l) = s.rd (a_LK_ROLE l) ∧ t.fld (a_LK_STATUS l) LK_STATUS_COMMIT_RESULT = 2) ∧
      (∀ a, a ≠ a_LK_ROLE l → a ≠ a_LK_STATUS l → t.rd a = s.rd a) ∧ t.mem = s.mem ∧ t.links = s.links) ∧
  (∀ (who : Requester) (pp : Fin 24) (s : State), s.Canonical → s.gate who (a_ME_COMMIT pp) true = none →
    let i := s.stagedFld (a_ME_RAMP pp) ME_RAMP_INTERVAL
    ∃ t, exec (.meCommitGo who pp) s = .next t ∧
      t.rd (a_ME_RAMP pp) = (if 160 ≤ i ∧ i ≤ 10000 ∧ 100 ≤ s.stagedFld (a_ME_RAMP pp) ME_RAMP_IDLE then
        s.stagedRd (a_ME_RAMP pp) else s.rd (a_ME_RAMP pp)) ∧
      (∀ a, a ≠ a_ME_RAMP pp → t.rd a = s.rd a) ∧ t.mem = s.mem) ∧
  (∀ (who : Requester) (s : State), s.Canonical → s.gate who a_SC_COMMIT true = none →
    ∃ t, exec (.scCommit who) s = .next t ∧ (∀ k, k < 32 → t.rd (a_SC_WAYMASK k) = s.stagedRd (a_SC_WAYMASK k)) ∧
      (∀ a, (∀ k, k < 32 → a ≠ a_SC_WAYMASK k) → t.rd a = s.rd a) ∧ t.mem = s.mem ∧ t.slices = s.slices) ∧
  (∀ (who : Requester) (pp : Fin 24) (s : State), s.Canonical → s.gate who (a_FQ_COMMIT pp) true = none →
    ∃ t, exec (.fqCommit who pp) s = .next t ∧
      t.rd (a_FQ_CFG pp) = (if s.fqOk pp then s.stagedRd (a_FQ_CFG pp) else s.rd (a_FQ_CFG pp)) ∧
      (∀ a, a ≠ a_FQ_CFG pp → t.rd a = s.rd a) ∧ t.mem = s.mem) ∧
  (∀ (who : Requester) (pp : Fin 24) (s : State), s.Canonical → s.gate who (a_PT_TMCOMMIT pp) true = none →
    ∃ t, exec (.ptTmcommit who pp) s = .next t ∧
      (∀ a ∈ tmGroup pp, t.rd a = if s.tmOk pp then s.stagedRd a else s.rd a) ∧
      (∀ a, a ∉ tmGroup pp → t.rd a = s.rd a) ∧ t.mem = s.mem ∧
      (s.tmOk pp = true → s.tmOn pp = false → s.stagedFld (a_PT_TMCFG pp) PT_TMCFG_ENABLE = 1 →
        (t.part pp).regions = [] ∧ (t.part pp).used1 = [] ∧ (t.part pp).used2 = []))

/-- Interrupt routes name a core below 96, or the write is refused; a core selects its own key index where it may, and nobody
else selects it; HOLD stops a migration under way (R187, R241, R390). -/
def Obligations.RoutesKeysAndHold : Prop :=
  (∀ (who : Requester) (n : Fin 1024) (v : Word) (s : State), s.Canonical → s.gate who (a_HS_IRQROUTE n) true = none →
    ∃ t, exec (.hsIrqrouteWrite who n v) s = .next t ∧
      (HS_IRQROUTE_CORE.get v < 96 → t.fld (a_HS_IRQROUTE n) HS_IRQROUTE_CORE = HS_IRQROUTE_CORE.get v ∧
        t.fld (a_HS_IRQROUTE n) HS_IRQROUTE_ENABLE = HS_IRQROUTE_ENABLE.get v) ∧
      (96 ≤ HS_IRQROUTE_CORE.get v → t.regs = s.regs) ∧
      (∀ a, a ≠ a_HS_IRQROUTE n → t.rd a = s.rd a) ∧ t.mem = s.mem) ∧
  (∀ (who : Requester) (c : Fin 96) (v : Word) (s : State), s.Canonical → s.gate who (a_HS_COREKEY c) true = none →
    ∃ t, exec (.hsCorekeyWrite who c v) s = .next t ∧
      t.fld (a_HS_COREKEY c) HS_COREKEY_KEYIDX =
        (if who = .core c ∧ coreKeyOk s c (HS_COREKEY_KEYIDX.get v) = true then HS_COREKEY_KEYIDX.get v
         else s.fld (a_HS_COREKEY c) HS_COREKEY_KEYIDX) ∧
      t.fld (a_HS_COREKEY c) HS_COREKEY_CELL = s.fld (a_HS_COREKEY c) HS_COREKEY_CELL ∧
      (∀ a, a ≠ a_HS_COREKEY c → t.rd a = s.rd a) ∧ t.mem = s.mem ∧ t.keys = s.keys) ∧
  (∀ (who : Requester) (pp : Fin 24) (hold : Bool) (s : State), s.Canonical → s.gate who (a_PT_TMCTL pp) true = none →
    ∃ t, exec (.ptTmctlHold who pp hold) s = .next t ∧ t.fld (a_PT_TMCTL pp) PT_TMCTL_HOLD = b2n hold ∧
      (t.part pp).migration = (if hold then none else (s.part pp).migration) ∧
      (∀ a, a ≠ a_PT_TMCTL pp → t.rd a = s.rd a) ∧ t.mem = s.mem)

/-- The registers of fault queues and recovery: HEAD moves no further than TAIL, a written 1 frees a fatal slot, WD_ENGINE takes 1
to 10,000, RESET opens an episode without suspects on a partition in service (R331, R335, R336, R353). -/
def Obligations.FaultQueueAndRecoveryRegisters : Prop :=
  (∀ (who : Requester) (q : FaultQueue) (h : BitVec 16) (s : State), s.Canonical → s.gate who (fqHeadOf q) true = none →
    s.fld (fqOvfOf q) FQ_OVF_COUNT = 0 →
    let head := s.fld (fqHeadOf q) FQ_HEAD_HEAD
    let tail := s.fld (fqTailOf q) FQ_TAIL_TAIL
    ∃ t, exec (.fqHeadWrite who q h) s = .next t ∧
      t.fld (fqHeadOf q) FQ_HEAD_HEAD =
        (if (h.toNat + 65536 - head) % 65536 ≤ (tail + 65536 - head) % 65536 then h.toNat else head) ∧
      (∀ a, a ≠ fqHeadOf q → t.rd a = s.rd a) ∧ t.mem = s.mem ∧ t.held = s.held) ∧
  (∀ (who : Requester) (q : FaultQueue) (m : BitVec 16) (s : State), s.Canonical → s.gate who (fqFatalOf q) true = none →
    ∃ t, exec (.fqFatalClear who q m) s = .next t ∧
      (∀ k, k < 16 → natBit (t.fld (fqFatalOf q) FQ_FATAL_VALID) k =
        (natBit (s.fld (fqFatalOf q) FQ_FATAL_VALID) k && !natBit m.toNat k)) ∧
      t.fld (fqFatalOf q) FQ_FATAL_REPLACED = s.fld (fqFatalOf q) FQ_FATAL_REPLACED ∧
      (∀ a, a ≠ fqFatalOf q → t.rd a = s.rd a) ∧ t.mem = s.mem) ∧
  (∀ (who : Requester) (pp : Fin 24) (v : BitVec 14) (s : State), s.Canonical → s.gate who (a_PT_WATCHDOG pp) true = none →
    ∃ t, exec (.ptWatchdogWrite who pp v) s = .next t ∧
      t.fld (a_PT_WATCHDOG pp) PT_WATCHDOG_WD_ENGINE = (if 1 ≤ v.toNat ∧ v.toNat ≤ 10000 then v.toNat
        else s.fld (a_PT_WATCHDOG pp) PT_WATCHDOG_WD_ENGINE) ∧
      (∀ a, a ≠ a_PT_WATCHDOG pp → t.rd a = s.rd a) ∧ t.mem = s.mem) ∧
  (∀ (who : Requester) (pp : Fin 24) (s : State), s.Canonical → s.gate who (a_PT_RECCTL pp) true = none →
    s.recState pp = 0 → (s.part pp).episode = none →
    ∃ t e, exec (.ptRecctlReset who pp) s = .next t ∧ (t.part pp).episode = some e ∧ e.suspects = [] ∧ e.start = s.now ∧
      t.regs = s.regs ∧ t.mem = s.mem ∧ t.ctxs = s.ctxs) ∧
  (∀ (who : Requester) (pp : Fin 24) (s : State), s.gate who (a_PT_RECCTL pp) true = none → s.recState pp ≠ 0 →
    exec (.ptRecctlReset who pp) s = .next (s.faultPart pp cPROTO)) ∧
  (∀ (who : Requester) (pp : Fin 24) (s : State), s.Canonical → s.gate who (a_PT_RECCTL pp) true = none →
    s.recState pp = 3 → s.liveSlots pp = [] →
    ∃ t, exec (.ptRecctlRelease who pp) s = .next t ∧ t.recState pp = 1 ∧ t.recStep pp = 3 ∧
      (∀ i, i < 32 → t.rd (a_PT_PREDOWN pp i) = BitVec.allOnes 64) ∧ (t.part pp).episode.any (fun e => e.release) = true)

/-- The management registers: TRIGGER starts a dump in the slot chosen, RELEASE frees the slots that hold complete dumps, MG_IOCTL
takes its eleven fields; the mailbox takes a request where it is free and raises its interrupts (R350, R352, R378, R379, R411). -/
def Obligations.ManagementRegisters : Prop :=
  (∀ (who : Requester) (s : State), s.Canonical → s.gate who a_MG_DUMPCTL true = none → s.t2Up = true → s.mg.dumpKey = true →
    ∃ t d, exec (.mgDumpctlTrigger who) s = .next t ∧ t.dump s.dumpSlot = some d ∧ d.id = s.mg.dumpNext ∧ d.time = s.now ∧
      d.writing = true ∧ t.mg.dumpNext = s.mg.dumpNext + 1 ∧ (∀ k, k ≠ s.dumpSlot → t.dump k = s.dump k) ∧ t.mem = s.mem) ∧
  (∀ (who : Requester) (m : BitVec 4) (s : State), s.Canonical → s.gate who a_MG_DUMPCTL true = none →
    ∃ t, exec (.mgDumpctlRelease who m) s = .next t ∧
      (∀ k, k < 4 → t.dump k = if natBit m.toNat k && (s.dump k).any (fun d => !d.writing) then none else s.dump k) ∧
      t.mem = s.mem) ∧
  (∀ (who : Requester) (v : Word) (s : State), s.Canonical → s.gate who a_MG_IOCTL true = none →
    ∃ t, exec (.mgIoctlWrite who v) s = .next t ∧
      (∀ f ∈ [MG_IOCTL_JTAG_DRV, MG_IOCTL_JTAG_SLEW, MG_IOCTL_UART_DRV, MG_IOCTL_UART_SLEW, MG_IOCTL_I3C_DRV,
          MG_IOCTL_I3C_SLEW, MG_IOCTL_RGMII_DRV, MG_IOCTL_RGMII_SLEW, MG_IOCTL_XSPI_DRV, MG_IOCTL_XSPI_SLEW, MG_IOCTL_OD_SLEW],
        t.fld a_MG_IOCTL f = f.get v) ∧
      (∀ a, a ≠ a_MG_IOCTL → t.rd a = s.rd a) ∧ t.mem = s.mem) ∧
  (∀ (who : Requester) (ch : Fin 3) (req : Word) (s : State), s.Canonical → who ≠ .host → s.alive domHome = true →
    (s.chan ch).busy = false → permitted (natBits req.toNat 47 40) ch = true →
    ∃ t, exec (.mailboxReqWrite who ch req) s = .next t ∧ (t.chan ch).busy = true ∧ (t.chan ch).req = req ∧
      t.sramWord (chanBase ch) = req ∧ t.regs = s.regs ∧ t.mem = s.mem) ∧
  (∀ (v : Word) (s : State), s.Canonical → s.hostReach true = true → s.alive domHome = true →
    let n := s.fld a_MG_MBXCFG MG_MBXCFG_CH3_IRQ
    ∃ t, exec (.mailboxCh3HostWrite v) s = .next t ∧ t.sramWord (chanBase 3) = v ∧
      natBit (t.rd (a_HS_IRQPEND (n / 64))).toNat (n % 64) = true ∧ (∀ a, a ≠ a_HS_IRQPEND (n / 64) → t.rd a = s.rd a) ∧
      t.mem = s.mem) ∧
  (∀ (c : Fin 96) (v : Word) (s : State), s.Canonical → s.alive domHome = true → s.domOn (domQuad (s.quadOf c)) = true →
    ∃ t, exec (.mailboxCh3CoreWrite c v) s = .next t ∧ t.sramWord (chanBase 3 + 56) = v ∧
      s.fld a_MG_MBXCFG MG_MBXCFG_CH3_MSIX ∈ (t.fn 0).pending ∧ t.regs = s.regs ∧ t.mem = s.mem)

/-! ### Requests to Banjo -/

/-- Banjo serves a request of its channel and answers it with OK: STATUS returns MG_BOOTSTAT, SET_MODE sets the overlay of the next
warm reset, LOG_READ and DUMP_READ return entries and bytes, DUMP_RELEASE frees slots, an update writes the slot that does not
run and activates it when it qualifies, FLOOR_RAISE fuses the running version, SPDM answers a message; a request on the Ethernet port
and a message on the DOE mailbox are taken (R281, R352, R376, R379, R380, R381, R385). -/
def Obligations.RequestsServed : Prop :=
  ∀ (ch : ReqChannel) (s : State), s.Canonical →
    let c := chanOf ch
    (s.serves c opSTATUS = true →
      ∃ t, exec (.status ch) s = .next t ∧ s.answeredWith t ch 0 (s.readReg a_MG_BOOTSTAT).toNat [] ∧ t.mem = s.mem) ∧
    (s.serves c opSET_MODE = true → s.arg c 0 ≤ 15 →
      ∃ t, exec (.setMode ch) s = .next t ∧ s.answeredWith t ch 0 0 [] ∧ t.fld a_MG_MODE MG_MODE_OVR_VALID = 1 ∧
        t.fld a_MG_MODE MG_MODE_OVR_MODE = s.arg c 0 ∧ t.mem = s.mem) ∧
    (s.serves c opLOG_READ = true → s.arg c 0 ≤ 1 → 0 < s.arg c 2 → s.arg c 2 ≤ 16384 →
      ∃ t, exec (.logRead ch) s = .next t ∧ t.mem = s.mem ∧ s.answeredWith t ch 0 0
        ((((if s.arg c 0 = 0 then s.volLog else s.perLog).drop (s.arg c 1)).take (s.arg c 2)).flatMap bytesOfWords)) ∧
    (s.serves c opDUMP_READ = true → s.arg c 0 ≤ 3 → s.arg c 2 ≤ 2 ^ 20 → s.arg c 1 + s.arg c 2 ≤ 2 ^ 29 →
      ∃ t data, exec (.dumpRead ch) s = .next t ∧ data.length = s.arg c 2 ∧ s.answeredWith t ch 0 0 data ∧
        t.dumps = s.dumps ∧ t.mem = s.mem) ∧
    (s.serves c opDUMP_RELEASE = true →
      ∃ t, exec (.dumpRelease ch) s = .next t ∧ s.answeredWith t ch 0 0 [] ∧ t.mem = s.mem ∧
        (∀ k, k < 4 → t.dump k = if natBit (s.arg c 0) k && (s.dump k).any (fun d => !d.writing) then none else s.dump k)) ∧
    (s.serves c opUPDATE_WRITE = true → s.updForeign c = false → s.arg c 0 + (s.reqBytes c).length ≤ slotBytes →
      ∃ t, exec (.updateWrite ch) s = .next t ∧ s.answeredWith t ch 0 0 [] ∧ t.mg.updSession = some c ∧
        t.flashBytes (slotArea s.inactive + s.arg c 0) (s.reqBytes c).length = s.reqBytes c ∧
        (∀ a, (a < slotArea s.inactive + s.arg c 0 ∨ slotArea s.inactive + s.arg c 0 + (s.reqBytes c).length ≤ a) →
          t.flashByte a = s.flashByte a) ∧ t.mem = s.mem) ∧
    (s.serves c opUPDATE_ACTIVATE = true → s.updForeign c = false → s.slotOkAt s.inactive = true →
      ∃ t, exec (.updateActivate ch) s = .next t ∧ s.answeredWith t ch 0 0 [] ∧ t.mg.updSession = none ∧
        t.mg.updStaged = true ∧ t.flashByte 0 = BitVec.ofNat 8 s.inactive ∧
        (∀ a, a ≠ 0 → t.flashByte a = s.flashByte a) ∧ t.mem = s.mem) ∧
    (s.serves c opFLOOR_RAISE = true → s.flag a_MG_BOOTSTAT MG_BOOTSTAT_FALLBACK = false →
      s.fld a_MG_FLOOR MG_FLOOR_FW_RAISES < 16 →
      s.fld a_MG_FLOOR MG_FLOOR_FW_FLOOR < s.objSvn (slotArea (s.fld a_MG_BOOTSTAT MG_BOOTSTAT_SLOT)) →
      ∃ t, exec (.floorRaise ch) s = .next t ∧ s.answeredWith t ch 0 0 [] ∧
        t.fld a_MG_FLOOR MG_FLOOR_FW_FLOOR = s.objSvn (slotArea (s.fld a_MG_BOOTSTAT MG_BOOTSTAT_SLOT)) ∧
        t.fld a_MG_FLOOR MG_FLOOR_FW_RAISES = s.fld a_MG_FLOOR MG_FLOOR_FW_RAISES + 1 ∧ t.mem = s.mem) ∧
    (s.serves c opSPDM = true →
      ∃ t, exec (.spdm ch) s = .next t ∧ t.mem = s.mem ∧
        s.answeredWith t ch 0 0 (s.spdmAnswer (s.reqBytes c))) ∧
    (∀ (session : Nat) (op : BitVec 8) (args : List Word) (data : List Byte), (s.chan 3).busy = false → s.mg.phase ≠ 0 →
      s.sessions.contains (session, 2) = true → Config.operatorSession session = true → permitted op.toNat 3 = true →
      data.length < 2 ^ 40 →
      ∃ t, exec (.oobRequest session op args data) s = .next t ∧ (t.chan 3).busy = true ∧ (t.chan 3).args = args ∧
        (t.chan 3).data = data ∧ natBits (t.chan 3).req.toNat 47 40 = op.toNat ∧ t.regs = s.regs ∧ t.mem = s.mem) ∧
    (∀ msg : List Byte, s.hostLink.up = true → s.alive 121 = true → s.mg.phase ≠ 0 →
      ∃ t, exec (.doeSpdmRequest msg) s = .next t ∧
        t.outbox = s.outbox ++ [.doe (s.spdmAnswer msg)] ∧
        (∀ a, a ≠ a_HI_LINK → t.rd a = s.rd a) ∧ t.mem = s.mem)

/-- Keys and cells: KEY_CREATE and KEY_IMPORT load a key the root of trust has used for nothing else, under a context index that is
FREE; CELL_CREATE starts the cores of a drained quad under the cell's key; CELL_DESTROY removes the key and turns the quad
off (R387, R392). -/
def Obligations.KeysAndCells : Prop :=
  ∀ (ch : ReqChannel) (s : State), s.Canonical →
    let c := chanOf ch
    let id := s.arg c 0
    (s.serves c opKEY_CREATE = true → id < 6144 → s.keyDenied id (natBit (s.arg c 1) 0) = false →
      ∃ t, exec (.keyCreate ch) s = .next t ∧ s.answeredWith t ch 0 0 [] ∧ t.keyAt id = s.mg.keyNext ∧
        t.mg.keyNext = s.mg.keyNext + 1 ∧ t.mg.sealed = (if natBit (s.arg c 1) 0 then id :: s.mg.sealed else s.mg.sealed) ∧
        (∀ k, k ≠ id → t.keyAt k = s.keyAt k) ∧ t.mem = s.mem ∧ t.ctxs = s.ctxs) ∧
    (s.serves c opKEY_IMPORT = true → id < 6144 → s.keyDenied id true = false →
      s.sessions.any (fun x => x.1 == s.arg c 1) = true → Config.unwrapOk (s.arg c 1) (s.reqBytes c) = true →
      ∃ t, exec (.keyImport ch) s = .next t ∧ s.answeredWith t ch 0 0 [] ∧ t.keyAt id = s.mg.keyNext ∧
        t.mg.keyNext = s.mg.keyNext + 1 ∧ t.mg.sealed = id :: s.mg.sealed ∧ (∀ k, k ≠ id → t.keyAt k = s.keyAt k) ∧
        t.mem = s.mem) ∧
    (∀ u, s.serves c opCELL_CREATE = true → id < 26 → s.coresOf id ≠ [] → s.cellRange (s.arg c 2) (s.arg c 3) = true →
      s.cellRange (s.arg c 4) (s.arg c 3) = true → s.quadDrained id = some u →
      s.shutLine naBanjo [⟨s.arg c 2, s.arg c 3⟩, ⟨s.arg c 4, s.arg c 3⟩] = none →
      Config.sha384 (((u.quadOff id).newKey (6152 + id)).readMem keyOPERATOR (s.arg c 2) (s.arg c 3)).1 =
        (s.reqBytes c).take 48 →
      ∃ t, exec (.cellCreate ch) s = .next t ∧ (id, s.arg c 1 % 65536) ∈ t.mg.cells ∧ t.keyAt (6152 + id) = u.mg.keyNext ∧
        (t.dom (domQuad id)).on = true ∧
        (∀ k ∈ u.coresOf id, (t.core k).key = 6152 + id ∧ (t.core k).startAt = s.arg c 4 ∧
          t.fld (a_HS_COREKEY k) HS_COREKEY_CELL = 1 ∧
          t.fld (a_HS_COREKEY k) HS_COREKEY_CELL_TENANT = s.arg c 1 % 65536 ∧
          t.fld (a_HS_COREKEY k) HS_COREKEY_KEYIDX = 6152 + id)) ∧
    (∀ u, s.serves c opCELL_DESTROY = true → id < 26 → s.hasCell id = true → s.quadDrained id = some u →
      ∃ t, exec (.cellDestroy ch) s = .next t ∧ t.hasCell id = false ∧ t.keyAt (6152 + id) = 0 ∧
        (t.dom (domQuad id)).on = false ∧ t.mem = u.mem)

/-! ### Resets, power and bring-up -/

/-- Every warm device reset loses the memories and contexts and leaves the dies in reset at L0: by register, by request, by
WARM_RST_N, which holds it while low. PWR_GOOD starts the device cold with new keys and its fall turns everything off; a power loss keeps
flash, the persistent log and the floors; a thermal trip turns everything off (R220, R324, R371, R372, R385, R386, R405, R406). -/
def Obligations.DeviceResetsAndPower : Prop :=
  (∀ (who : Requester) (s : State), s.Canonical → s.gate who a_MG_RESETCTL true = none → s.mg.phase = 2 →
    ∃ t, exec (.mgResetctlWarm who) s = .next t ∧ t.warmState) ∧
  (∀ (ch : ReqChannel) (s : State), s.Canonical → s.serves (chanOf ch) opWARM_RESET = true →
    ∃ t, exec (.warmReset ch) s = .next t ∧ t.warmState) ∧
  (∀ s : State, s.Canonical → s.pins.warmRstN = true → s.mg.phase = 2 →
    ∃ t, exec .warmRstN s = .next t ∧ t.warmState ∧ t.pins.warmRstN = false ∧ t.mg.warmHeld = true) ∧
  (∀ s : State, s.pins.warmRstN = false →
    ∃ t, exec .warmRstNRise s = .next t ∧ t.pins.warmRstN = true ∧ t.mg.warmHeld = false ∧ t.mem = s.mem ∧
      (s.mg.warmHeld = false → t.regs = s.regs)) ∧
  (∀ s : State, s.pins.pwrGood = false →
    ∃ t, exec .pwrGoodRise s = .next t ∧ t.pins.pwrGood = true ∧ t.mg.strapMode = s.pins.modeSel ∧ t.mem = [] ∧
      (s.pins.boardTest = true → t.mg.phase = 1 ∧ t.fld a_MG_CFG MG_CFG_BOARD_TEST = 1) ∧
      (s.pins.boardTest = false → (t.mg.phase = 1 ∨ t.mg.phase = 2) ∧ ∀ i, i < 4 → t.keyAt (6144 + i) = s.mg.keyNext + i)) ∧
  (∀ s : State, s.Canonical → s.pins.pwrGood = true →
    ∃ t, exec .pwrGoodFall s = .next t ∧ t.pins.pwrGood = false ∧ t.mg.phase = 0 ∧ (∀ i, i < 122 → t.dom i = Dom.init) ∧
      t.mem = [] ∧ t.ctxs = [] ∧ t.flash = s.flash) ∧
  (∀ s : State,
    ∃ t, exec .powerLoss s = .next t ∧ t.pins.pwrGood = false ∧ t.mg.phase = 0 ∧ t.mem = [] ∧ t.volLog = [] ∧
      t.flash = s.flash ∧ t.perLog = s.perLog ∧ t.rd a_MG_FLOOR = s.rd a_MG_FLOOR ∧ t.rd a_MG_LICFLOOR = s.rd a_MG_LICFLOOR) ∧
  (∀ (k : Fin 400) (raw : Nat) (s : State), s.Canonical → 1760 ≤ raw → raw < 32768 → s.mg.phase ≠ 0 →
    ∃ t, exec (.thermalTrip k raw) s = .next t ∧ t.mg.tripped = true ∧ t.mg.phase = 0 ∧
      (∀ i, i < 122 → t.dom i = Dom.init) ∧ t.mem = []) ∧
  (∀ s : State, s.Canonical → s.flag a_MG_CFG MG_CFG_LOCKSTEP = true → s.mg.phase = 2 →
    ∃ t, exec .lockstepMismatch s = .next t ∧ t.mg.restart = s.now + 50000000 ∧
      (∀ k, k < 4 → (t.chan k).busy = false) ∧ t.mem = s.mem)

/-- Bring-up: a domain that is ready comes up on, a drained one goes off; the partition image takes effect where its check
passed; a partition joins with an empty stack; T2 comes into service at L1 with twelve modules, and bring-up halts without
one; the retrain gives T2 its speed; the device enters L2; the scrub of T2 ends (R240, R327, R366, R369, R370, R371). That L1 begins
with T2 in service is the model's reading (log entry 33). -/
def Obligations.BringUpEvents : Prop :=
  (∀ (i : Fin 124) (s : State), s.Canonical → s.upReady i = true → ((s.dom i).on = true ∨ s.railOk (railOf i) = true) →
    (s.dom i).cfgWrites = [] → i.val ≠ 121 →
    ∃ t, exec (.powerUpComplete i) s = .next t ∧ t.domOn i = true ∧ t.fld (a_PW_DOMSTAT i) PW_DOMSTAT_ON = 1 ∧
      t.fld (a_PW_DOMSTAT i) PW_DOMSTAT_BUSY = 0 ∧ t.mem = s.mem) ∧
  (∀ (i : Fin 124) (s : State), s.Canonical → (s.dom i).switchOff = true → (s.dom i).inReset = false → s.mg.phase ≠ 0 →
    (78 ≤ i.val → i.val < 104 → (s.quadDrained (i.val - 78)).isSome = true) →
    (104 ≤ i.val → i.val < 108 → ∀ k, k < 8 → s.agentQuiet (96 + 8 * (i.val - 104) + k) = true) →
    ∃ t, exec (.powerDownComplete i) s = .next t ∧ (t.dom i).on = false ∧ t.fld (a_PW_DOMSTAT i) PW_DOMSTAT_ON = 0) ∧
  (∀ (ok : BitVec 24) (s : State), s.Canonical → s.bootRuns = true → s.mg.broadcasts = 0 →
    (∃ p ∈ s.unjoined, s.imageIn p = false) →
    (∀ p ∈ s.unjoined, s.imageIn p = false → s.domOn (domCtl p) = true) →
    ∃ t, exec (.broadcastEnd ok) s = .next t ∧ t.mg.broadcasts = 1 ∧ t.mem = s.mem ∧
      t.mg.imageCopy = (s.mg.imageCopy || s.t2Up) ∧
      (∀ p ∈ s.unjoined, t.imageIn p = (s.imageIn p || natBit ok.toNat p)) ∧
      (∀ p ∈ s.unjoined, s.imageIn p = false → natBit ok.toNat p = true → t.rd (a_VE_TABVALID p) = 0xFFFFFFFF)) ∧
  (∀ (p : Fin 24) (s : State), s.Canonical → s.bootRuns = true → s.imageIn p = true → s.nextJoin (burlOf p) = some p.val →
    s.slotTaken p = false → s.domOn (domCtl p) = true → (s.die (burlOf p)).inReset = false →
    ∃ t, exec (.partitionJoin p true) s = .next t ∧ (t.part p).joined = true ∧ (t.part p).inReset = false ∧
      (t.part p).stackOut = false ∧ natBit (t.fld a_MG_BOOTSTAT MG_BOOTSTAT_JOINED) p = true ∧
      (∀ a, Sparse.get (fun _ => (0 : Byte)) t.mem a =
        if stackOf a = p then 0 else Sparse.get (fun _ => (0 : Byte)) s.mem a) ∧
      (∀ off, off < tsSize → t.tsByte p off = 0)) ∧
  (∀ (dimms : List Nat) (s : State), s.Canonical → s.bootRuns = true → s.t2Up = false → s.domOn 108 = true → s.domOn 109 = true →
    s.domOn domHome = true → s.pins.lostMem.contains 6 = false →
    ((∀ k, k < 12 → 64 ≤ dimms.getD k 0 ∧ dimms.getD k 0 ≤ 256) →
      ∃ t, exec (.t2InService dimms true) s = .next t ∧ t.fld a_DD_TIER DD_TIER_ACTIVE = 1 ∧ t.fld a_DD_TIER DD_TIER_POP = 0xFFF ∧
        (∀ k, k < 12 → t.fld a_DD_TIER DD_TIER_DIMM_GIB ≤ dimms.getD k 0) ∧
        t.fld a_DD_TIER DD_TIER_SPEED = (if s.flag a_MG_BOOTSTAT MG_BOOTSTAT_WARM then 6400 else 4800) ∧
        t.fld a_MG_BOOTSTAT MG_BOOTSTAT_LEVEL = 1 ∧ (∀ a, a ≠ a_DD_TIER → a ≠ a_MG_BOOTSTAT → t.rd a = s.rd a) ∧
        t.mem = s.mem) ∧
    ((∀ k, k < 12 → dimms.getD k 0 ≤ 256) → (∃ k, k < 12 ∧ dimms.getD k 0 = 0) →
      ∃ t, exec (.t2InService dimms true) s = .next t ∧ t.fld a_MG_BOOTSTAT MG_BOOTSTAT_HALT = 6 ∧
        (∀ k, k < 12 → natBit (t.fld a_DD_TIER DD_TIER_POP) k = decide (dimms.getD k 0 ≠ 0)) ∧
        (∀ a, a ≠ a_DD_TIER → a ≠ a_MG_BOOTSTAT → t.rd a = s.rd a) ∧ t.mem = s.mem)) ∧
  (∀ (ok : Bool) (s : State), s.Canonical → s.bootRuns = true → s.fld a_MG_BOOTSTAT MG_BOOTSTAT_LEVEL = 1 → s.mg.retrained = false →
    s.unjoined = [] →
    ∃ t, exec (.ddrRetrainDone ok) s = .next t ∧ t.mg.retrained = true ∧
      t.fld a_DD_TIER DD_TIER_SPEED = (if ok then 6400 else s.fld a_DD_TIER DD_TIER_SPEED) ∧
      (∀ a, a ≠ a_DD_TIER → t.rd a = s.rd a) ∧ t.mem = s.mem) ∧
  (∀ s : State, s.Canonical → s.bootRuns = true → s.fld a_MG_BOOTSTAT MG_BOOTSTAT_LEVEL = 1 → s.mg.retrained = true →
    s.portsSettled = true → s.unjoined = [] →
    ∃ t, exec .l2Entry s = .next t ∧ t.fld a_MG_BOOTSTAT MG_BOOTSTAT_LEVEL = 2 ∧
      (∀ a, a ≠ a_MG_BOOTSTAT → t.rd a = s.rd a) ∧ t.mem = s.mem) ∧
  (∀ s : State, s.Canonical → s.t2Up = true → s.flag a_MG_BOOTSTAT MG_BOOTSTAT_SCRUBBED = false →
    ∃ t, exec .t2ScrubComplete s = .next t ∧ t.fld a_MG_BOOTSTAT MG_BOOTSTAT_SCRUBBED = 1 ∧ t.t2Era = 0 ∧
      (∀ a, a ≠ a_MG_BOOTSTAT → t.rd a = s.rd a) ∧ t.mem = s.mem)

/-! ### Links, clocks and dies -/

/-- Training puts a link into service on its working bundles, with the roles' shares of links 0 to 5 adding up to them; with fewer than
9 the Burl is held in its reset. A good word leaves the replay buffer of its bundle and ends the retries, a corrected and a
refused one are counted, a refused one keeps at most 16 words; the fourth refusal of a word retires the bundle, and its words follow
those of another bundle of the role (R24, R25). Which bundles train, and the order of the roles, are the model's choice (log
entry 32). -/
def Obligations.LinksTrainAndCarryWords : Prop :=
  (∀ (l : Fin 16) (working : BitVec 40) (s : State), s.Canonical → s.mayTrain l = true →
    (l.val < 6 → s.pins.lostMem.contains l.val = false) →
    let ok := (s.logicalBundles l).filter (fun b => natBit working.toNat b)
    let c := s.fld (a_LK_ROLE l) LK_ROLE_COH_N
    let tl := s.fld (a_LK_ROLE l) LK_ROLE_TILE_N
    let k := s.fld (a_LK_ROLE l) LK_ROLE_CTRL_N
    (if l.val < 6 then 9 else linkLogical l) ≤ ok.length →
    ∃ t, exec (.linkTraining l working) s = .next t ∧ t.fld (a_LK_STATUS l) LK_STATUS_STATE = lsACTIVE ∧
      (t.link l).up = true ∧ (t.link l).bundles.map (fun b => b.1) = ok ∧
      (l.val < 6 → c + tl + k = 32 → 4 ≤ c → 4 ≤ tl → 1 ≤ k →
        t.fld (a_LK_STATUS l) LK_STATUS_COH_USE + t.fld (a_LK_STATUS l) LK_STATUS_TILE_USE
          + t.fld (a_LK_STATUS l) LK_STATUS_CTRL_USE = ok.length) ∧ t.mem = s.mem) ∧
  (∀ (l : Fin 6) (working : BitVec 40) (s : State), s.Canonical → s.mayTrain l = true →
    ((s.logicalBundles l).filter (fun b => natBit working.toNat b)).length < 9 →
    ∃ t, exec (.linkTraining (l.castLE (by decide)) working) s = .next t ∧ (t.die l).inReset = true ∧ t.heldBurl l = true ∧
      (t.link l).up = false ∧ (∀ k, k < 6 → k ≠ l.val → (t.die k) = s.die k) ∧
      (∀ p ∈ s.unjoined, burlOf p ≠ l.val → p ∈ t.unjoined) ∧ (∀ p ∈ t.unjoined, burlOf p ≠ l.val) ∧ t.mem = s.mem) ∧
  (∀ (l : Fin 16) (b : Fin 40) (role : Nat) (s : State), s.Canonical →
    (s.link l).bundles.find? (fun x => x.1 == b.val) = some (b.val, role) → (s.link l).up = true → s.domOn domHome = true →
    let x := s.link l
    let clear := setReplay { x with retries := x.retries.filter (fun r => r.1 != b.val) } b ((replay x b).drop 1)
    exec (.linkWordReceive l b .good) s = .next (s.setLink l clear) ∧
    (∃ t, exec (.linkWordReceive l b .corrected) s = .next t ∧ t.link l = clear ∧
      t.fld (a_LK_ERRCNT l) LK_ERRCNT_CORRECTED =
        satAdd (s.fld (a_LK_ERRCNT l) LK_ERRCNT_CORRECTED) 1 (2 ^ LK_ERRCNT_CORRECTED.width - 1) ∧
      (∀ a, a ≠ a_LK_ERRCNT l → t.rd a = s.rd a)) ∧
    (x.retries.find? (fun r => r.1 == b.val) = none →
      ∃ t, exec (.linkWordReceive l b .refused) s = .next t ∧ (b.val, 1) ∈ (t.link l).retries ∧
        (t.link l).bundles = x.bundles ∧ replay (t.link l) b ≠ [] ∧
        (replay x b ≠ [] → replay (t.link l) b = replay x b) ∧ (replay x b = [] → (replay (t.link l) b).length ≤ 16) ∧ t.fld (a_LK_ERRCNT l) LK_ERRCNT_RESENDS =
          satAdd (s.fld (a_LK_ERRCNT l) LK_ERRCNT_RESENDS) 1 (2 ^ LK_ERRCNT_RESENDS.width - 1) ∧
        (∀ a, a ≠ a_LK_ERRCNT l → t.rd a = s.rd a)) ∧
    (x.retries.find? (fun r => r.1 == b.val) = some (b.val, 3) → l.val < 6 →
      x.bundles.any (fun y => y.1 != b.val && y.2 == role) = true →
      ∃ t, exec (.linkWordReceive l b .refused) s = .next t ∧
        (t.link l).bundles = x.bundles.filter (fun y => y.1 != b.val) ∧ (t.link l).up = true ∧
        (∀ y, (x.bundles.filter (fun y => y.1 != b.val)).find? (fun y => y.2 == role) = some y → replay x b ≠ [] →
          replay (t.link l) y.1 = replay x y.1 ++ replay x b ∧ replay (t.link l) b = []) ∧
        t.fld (a_LK_STATUS l) LK_STATUS_STATE = lsDEGRADED ∧ t.fld (a_LK_REPAIR l) LK_REPAIR_FIELD = 1 ∧ t.mem = s.mem))

/-- Time and clocks: a synchronised die leaves its reset with its domains; a round that is due synchronises the dies that answer within
200 ns, none of whose time steps back; the loss of a reference is recorded, fails the ports or the host link that live on it, and
its return ends that, for REFCLK_MGMT after 10 ms in tolerance (R42, R45, R46, R408). -/
def Obligations.ClocksAndDies : Prop :=
  (∀ (d : Fin 9) (s : State), s.Canonical → (s.die d).inReset = true → (s.die d).synced = true →
    (d.val < 6 → (s.link d).up = true) →
    ∃ t, exec (.dieResetExit d) s = .next t ∧ (t.die d).inReset = false ∧
      (∀ i, i < 121 → dieOfDom i = d → (s.dom i).switchOn = false → (t.dom i).inReset = false) ∧
      t.regs = s.regs ∧ t.mem = s.mem) ∧
  (∀ (offsets : List Nat) (ok : BitVec 9) (s : State), s.Canonical → s.firmware = true → s.roundDue = true →
    ∃ t, exec (.tsyncRound offsets ok) s = .next t ∧
      (∀ d o, offsets[d]? = some o → d < 9 → natBit ok.toNat d = true → o ≤ 200 →
        (t.die d).synced = true ∧ natBit (t.fld a_MG_TSYNC MG_TSYNC_SYNC_OK) d = true ∧
          ((s.die d).synced = false → -100 ≤ (t.die d).offset ∧ (t.die d).offset ≤ 100) ∧
          ((s.die d).synced = true → s.dieNow d ≤ t.dieNow d)) ∧
      (∀ d o, offsets[d]? = some o → d < 9 → natBit ok.toNat d = true → 200 < o →
        natBit (t.fld a_MG_TSYNC MG_TSYNC_SYNC_OK) d = false) ∧
      (∀ a, a ≠ a_MG_TSYNC → t.rd a = s.rd a) ∧ t.mem = s.mem) ∧
  (∀ s : State, s.Canonical → s.pins.refMgmt = true →
    ∃ t, exec .refLost s = .next t ∧ t.pins.refMgmt = false ∧ t.mg.refLostAt = s.now ∧ t.fld a_MG_TSYNC MG_TSYNC_REF_LOST = 1 ∧
      t.fld a_MG_TSYNC MG_TSYNC_REF_HOLDOVER = 1 ∧ (∀ a, a ≠ a_MG_TSYNC → t.rd a = s.rd a) ∧ t.mem = s.mem) ∧
  (∀ s : State, s.Canonical → s.pins.refMgmt = false → s.mg.refLostAt + 10000000 ≤ s.now →
    ∃ t, exec .refRestored s = .next t ∧ t.pins.refMgmt = true ∧ t.fld a_MG_TSYNC MG_TSYNC_REF_HOLDOVER = 0 ∧
      t.fld a_MG_TSYNC MG_TSYNC_REF_LOST = s.fld a_MG_TSYNC MG_TSYNC_REF_LOST ∧ t.mem = s.mem) ∧
  (∀ (n : Fin 7) (s : State),
    (∃ t, exec (.referenceClockLost (.mem n)) s = .next t ∧ n.val ∈ t.pins.lostMem) ∧
    (∃ t, exec (.referenceClockReturn (.mem n)) s = .next t ∧ n.val ∉ t.pins.lostMem)) ∧
  (∀ (n : Fin 2) (s : State), s.Canonical → n.val ∉ s.pins.lostFab →
    ∃ t, exec (.referenceClockLost (.fab n)) s = .next t ∧ n.val ∈ t.pins.lostFab ∧ t.mem = s.mem ∧
      (∀ k, k < 8 → s.portEnabled (8 * n + k) = true → t.portState (8 * n + k) = psFAILED)) ∧
  (∀ (n : Fin 2) (s : State), ∃ t, exec (.referenceClockReturn (.fab n)) s = .next t ∧ n.val ∉ t.pins.lostFab ∧ t.regs = s.regs) ∧
  (∀ s : State, s.Canonical →
    ∃ t, exec (.referenceClockLost .pcie) s = .next t ∧ t.pins.refPcie = false ∧ t.hostLink.up = false ∧ t.mem = s.mem) ∧
  (∀ s : State, exec (.referenceClockReturn .pcie) s = .next { s with pins := { s.pins with refPcie := true } })

/-! ### Fault records and recovery -/

/-- Fault records: a held record leaves for its queue 10 µs after its first event; what waited for a ring's stack is written, in
order, when the stack answers again; a dump that ends fits its slot, slot 3 without its last 4 MiB, and appears in MG_DUMPSTAT (R331,
R333, R336, R350, R366, R424). -/
def Obligations.RecordsReachTheirQueues : Prop :=
  (∀ (r : FRec) (s : State), s.Canonical → s.held.find? (fun h => h.1 == .device) = some (.device, r) →
    r.time + 10000 ≤ s.dieNow r.die →
    let tail := s.fld a_FQ_DEVTAIL FQ_DEVTAIL_TAIL
    (tail + 65536 - s.fld a_FQ_DEVHEAD FQ_DEVHEAD_HEAD) % 65536 ≠ 256 →
    ∃ t, exec (.faultRecordSend .device) s = .next t ∧ t.held = s.held.erase (.device, r) ∧
      t.fld a_FQ_DEVTAIL FQ_DEVTAIL_TAIL = (tail + 1) % 65536 ∧
      Sparse.get (fun _ => []) t.devRing (tail % 256) = r.words (1 - natBits tail 8 8) ∧
      (∀ a, a ≠ a_FQ_DEVTAIL → t.rd a = s.rd a) ∧ t.mem = s.mem) ∧
  (∀ (p : Fin 24) (r : FRec) (s : State), s.Canonical → s.held.find? (fun h => h.1 == .part p) = some (.part p, r) →
    r.time + 10000 ≤ s.dieNow r.die → s.ringOn p = true → s.ringAway p = false → (s.part p).hold = [] → (s.part p).fatalHold = [] →
    let tail := s.fld (a_FQ_TAIL p) FQ_TAIL_TAIL
    (tail + 65536 - s.fld (a_FQ_HEAD p) FQ_HEAD_HEAD) % 65536 ≠ 1024 →
    ∃ t, exec (.faultRecordSend (.part p)) s = .next t ∧ t.held = s.held.erase (.part p, r) ∧
      t.fld (a_FQ_TAIL p) FQ_TAIL_TAIL = (tail + 1) % 65536 ∧
      t.mem = (s.writeMem keySYS (s.ringBase p + tail % 1024 * 64) (bytesOfWords (r.words (1 - natBits tail 10 10))) false).mem ∧
      (∀ a, a ≠ a_FQ_TAIL p → t.rd a = s.rd a)) ∧
  (∀ (p : Fin 24) (r : FRec) (rest : List FRec) (s : State), s.Canonical → (s.part p).hold = r :: rest → s.ringAway p = false →
    (s.part p).lostDue = false →
    let tail := s.fld (a_FQ_TAIL p) FQ_TAIL_TAIL
    (tail + 65536 - s.fld (a_FQ_HEAD p) FQ_HEAD_HEAD) % 65536 ≠ 1024 →
    ∃ t, exec (.faultRingRetry p) s = .next t ∧ (t.part p).hold = rest ∧ t.fld (a_FQ_TAIL p) FQ_TAIL_TAIL = (tail + 1) % 65536 ∧
      (∀ a, a ≠ a_FQ_TAIL p → t.rd a = s.rd a)) ∧
  (∀ (p : Fin 24) (s : State), s.Canonical → s.ringAway p = false →
    ∃ t, exec (.holdingStackReturn p) s = .next t ∧ (t.part p).hold = [] ∧ (t.part p).fatalHold = [] ∧ (t.part p).lostDue = false) ∧
  (∀ (k : Nat) (d : Dump) (truncated : Bool) (s : State), s.Canonical → s.writingDump = some (k, d) →
    (truncated = true → d.time + 200000000 ≤ s.now) → s.mg.dumpFor.find? (fun x => x.1 == d.id) = none →
    ∃ t e, exec (.dumpDone truncated) s = .next t ∧ t.dump k = some e ∧ e.writing = false ∧
      (truncated = true → e.truncated = true) ∧ e.id = d.id ∧ 512 + e.len ≤ (if k = 3 then 508 * 2 ^ 20 else 2 ^ 29) ∧
      t.fld (a_MG_DUMPSTAT k) MG_DUMPSTAT_VALID = 1 ∧ t.fld (a_MG_DUMPSTAT k) MG_DUMPSTAT_TRUNCATED = b2n e.truncated ∧
      (∀ a, a ≠ a_MG_DUMPSTAT k → t.rd a = s.rd a) ∧ t.mem = s.mem)

/-- A unit that stays silent for WD_ENGINE, or a sequencer whose heartbeat does, opens an episode of its partition; the contexts whose
work the unit holds are its suspects (R337, R338). The watchdogs do not run while T2 is retrained (R369). -/
def Obligations.SilenceOpensAnEpisode : Prop :=
  (∀ (p : Fin 24) (unit : Fin 27) (s : State), s.Canonical →
    let w := Sparse.get (fun _ => 0) (s.part p).wd unit
    w ≠ 0 → w - 1 ≤ s.now → s.inReset p = false → s.retraining = false → s.recState p = 0 → s.recStep p = 0 → (s.part p).episode = none →
    ∃ t e, exec (.watchdogCatch p unit) s = .next t ∧ (t.part p).episode = some e ∧ e.cls = cCATCH ∧ e.start = s.now ∧
      (∀ id, id ∈ e.suspects ↔ id ∈ s.heldBy p unit) ∧ t.recState p = 0 ∧ t.ctxs = s.ctxs) ∧
  (∀ (p : Fin 24) (s : State), s.Canonical → s.enabled p = true → s.inReset p = false → s.domOn (domCtl p) = true →
    (∃ t, exec (.heartbeatCheck p true) s = .next t ∧ (t.part p).hbAt = s.now ∧ t.regs = s.regs ∧ t.mem = s.mem) ∧
    ((s.part p).hbAt + s.fld (a_PT_WATCHDOG p) PT_WATCHDOG_WD_ENGINE * 1000000 ≤ s.now → s.recState p = 0 → s.recStep p = 0 →
      (s.part p).episode = none →
      ∃ t e, exec (.heartbeatCheck p false) s = .next t ∧ (t.part p).episode = some e ∧ e.suspects = [] ∧ e.cls = cCATCH ∧
        t.ctxs = s.ctxs) ∧
    (s.now < (s.part p).hbAt + s.fld (a_PT_WATCHDOG p) PT_WATCHDOG_WD_ENGINE * 1000000 →
      exec (.heartbeatCheck p false) s = .next s))

/-- Recovery goes through its steps: the start keeps replayable and idle contexts RECOVERING, quiesce resets the partition and makes
it wait, the slot, the stack's re-initialisation, its scrub and the firmware follow, reload entries set semaphores, and a replay
that stays blocked clears its suspect and ends the episode (R339, R341, R342, R343, R344, R346). -/
def Obligations.RecoverySteps : Prop :=
  (∀ (p : Fin 24) (e : Episode) (s : State), s.Canonical → (s.part p).episode = some e → s.recState p = 0 →
    ∃ t, exec (.recoveryStart p) s = .next t ∧ t.recState p = 2 ∧ t.recStep p = 1 ∧
      (∀ sl, sl < 192 → s.cstate (cid p sl) = 1 → s.ringIn (cid p sl) p = false →
        ((s.ctx (cid p sl)).tail ≤ (s.ctx (cid p sl)).head ∨ (s.ctx (cid p sl)).replayable = true) →
        t.cstate (cid p sl) = 4 ∧ (t.ctx (cid p sl)).before = 1)) ∧
  (∀ (p : Fin 24) (s : State), s.Canonical → s.recState p = 2 → s.recStep p ≤ 2 →
    ∃ t, exec (.quiesceDone p) s = .next t ∧ t.recState p = 1 ∧ t.recStep p = 3 ∧ (t.part p).inReset = true ∧
      (t.part p).stackOut = true ∧ (∀ off, off < tsSize → t.tsByte p off = 0)) ∧
  (∀ (p : Fin 24) (s : State), s.Canonical → s.recState p = 1 → s.slotTaken p = false → s.bringUpsDue (burlOf p) = false →
    s.nextForSlot (burlOf p) = some p.val → (s.die (burlOf p)).inReset = false →
    ∃ t, exec (.recoverySlotGrant p) s = .next t ∧ t.recState p = 2 ∧ t.recStep p = 4 ∧
      (∀ a, a ≠ a_PT_RECSTAT p → t.rd a = s.rd a) ∧ t.mem = s.mem) ∧
  (∀ (p : Fin 24) (s : State), s.Canonical → s.recState p = 2 → s.recStep p = 4 →
    ∃ t, exec (.stackReinitDone p) s = .next t ∧ t.recState p = 2 ∧ t.recStep p = 5 ∧
      (∀ off, off < tsSize → t.tsByte p off = 0) ∧ t.mem = s.mem) ∧
  (∀ (p : Fin 24) (s : State), s.Canonical → s.recState p = 2 → s.recStep p = 5 →
    ∃ t, exec (.stackScrubDone p) s = .next t ∧ t.recState p = 2 ∧ t.recStep p = 6 ∧ (t.part p).stackOut = false ∧
      (∀ a, Sparse.get (fun _ => (0 : Byte)) t.mem a =
        if stackOf a = p then 0 else Sparse.get (fun _ => (0 : Byte)) s.mem a) ∧
      (∀ a, a ≠ a_PT_RECSTAT p → t.rd a = s.rd a)) ∧
  (∀ (p : Fin 24) (e : Episode) (s : State), s.Canonical → s.recState p = 2 → s.recStep p = 6 → (s.part p).episode = some e →
    e.release = false → s.mg.imageCopy = true →
    ∃ t, exec (.firmwareReloadDone p) s = .next t ∧ t.recState p = 2 ∧ t.recStep p = 7 ∧ (t.part p).inReset = false ∧
      t.rd (a_VE_TABVALID p) = 0xFFFFFFFF ∧ t.mem = s.mem) ∧
  (∀ (p : Fin 24) (e : Episode) (sl i : Nat) (s : State), s.Canonical → (s.part p).episode = some e → s.recStep p = 7 →
    s.reloadNext p e = some (sl, i) →
    let at_ := s.fld (a_PT_RELOAD p sl) PT_RELOAD_BASE * 32 + 32 * i
    let ws := wordsOf (s.readMem keySYS at_ 32).1 4
    let q0 := (ws.getD 0 0).toNat
    t2Base ≤ at_ → s.memRange at_ 32 = true → s.clearOfReserve at_ 32 = true → s.fare roleCOH (burlOf p) at_ = .served →
    s.Admitted (naPart p) at_ 32 → (s.readMem keySYS at_ 32).2 = false →
    natBit q0 63 = true → (ws.getD 2 0).toNat = 0 → natBits (ws.getD 3 0).toNat 12 0 = 0 →
    s.semAllowed (s.tenantOf (cid p sl)) p (natBits q0 11 0) = true →
    (∀ w ∈ s.semWaits, w.part = p → w.sem ≠ natBits q0 11 0) →
    ∃ t, exec (.reloadEntry p) s = .next t ∧ t.sem p (natBits q0 11 0) = natBits (ws.getD 1 0).toNat 31 0 ∧
      (t.part p).episode = some { e with slot := sl, entry := i + 1, since := 0 } ∧ s.quietRead t clsAccel ∧
      (s.flips = [] → s.fld (a_SC_WAYMASK clsAccel) SC_WAYMASK_MASK = 0 →
        ∀ a, a ≠ a_BD_SEM p (natBits q0 11 0) → t.rd a = s.rd a)) ∧
  (∀ (p : Fin 24) (e : Episode) (id : Nat) (d : Desc) (s : State), s.Canonical → s.recStep p = 8 →
    (s.part p).episode = some e → e.suspects = [id] → s.fld (a_PT_RECSTAT p) PT_RECSTAT_REPLAY_CTX = id →
    (s.ctx id).descs.find? (fun d => d.kind == kWAIT && d.stage == .running) = some d → d.started + 1000000 ≤ s.now →
    ∃ t, exec (.replayWaitTimeout p) s = .next t ∧ t.recState p = 0 ∧ t.recStep p = 0 ∧ (t.part p).episode = none)

/-- The record of a completed descriptor, with the time of its completion, is written at its index of the completion ring under the
context's key where the home serves it, and the descriptor counts as recorded (R139, R140). -/
def Obligations.CompletionRecordIsWritten : Prop :=
  ∀ (p : Fin 24) (slot : Fin 192) (index : BitVec 16) (d : Desc) (s : State), s.Canonical →
    let id := cid p slot
    let size := s.ringSize id
    (s.ctx id).descs.find? (fun d => d.stage == .complete && d.index % size == index.toNat) = some d →
    s.alive (domCtl p) = true → s.inReset p = false → s.recStep p ≠ 8 →
    let at_ := s.fld (a_SQ_CPLBASE p slot) SQ_CPLBASE_BASE * 16 + d.index % size * 16
    s.fare roleCOH (burlOf p) at_ = .served → s.Admitted (naPart p) at_ 16 →
    ∃ t, exec (.completionRecord p slot index) s = .next t ∧
      t.mem = (s.writeMem id at_ (bytesOfWords (d.record size d.ended)) false).mem ∧
      (∀ e ∈ (t.ctx id).descs, e.index = d.index → e.stage = .recorded)

/-! ### Dispatch -/

/-- Every dispatch command leaves the state alone while the next descriptor is of another kind, or it is another slot's turn. One
whose predicate is false completes PRED_FALSE, one with a length of 0 completes OK, both without work: only its own entry changes,
with the time of its die, and where it reached another device what DONE_EPOCH reaches (R42, R81, R124, R126, R131, R140, R199). -/
def Obligations.DispatchHonoursPredicateAndLength : Prop :=
  ∀ (pp : Fin 24) (slot : Fin 192) (c : Instr) (is : Desc → Bool) (d : Desc) (s : State),
    (c, is) ∈ dispatchTable pp slot → s.Canonical →
    let id := cid pp slot
    let alone (t : State) (e : Desc) : Prop := s.becomes t id d.index (fun _ => e) ∧ s.otherContexts t id d.index ∧
      s.sameRegs t id d.index ∧ s.servedSlot t pp slot 0 ∧ t.mem = s.mem ∧ t.units = s.units ∧ t.ts = s.ts ∧ t.jobs = s.jobs ∧
      t.bead = s.bead ∧ t.held = s.held ∧ t.outbox = s.outbox
    (nextUndispatched (s.ctx id) = some d → is d = false → exec c s = .next s) ∧
    (s.turn pp (s.part pp).lastDisp slot s.dispatchable = false → exec c s = .next s) ∧
    (s.Dispatchable pp slot d → is d = true → d.predEn = true → s.predBit pp d.predIdx = d.predInv →
      ∃ t, exec c s = .next t ∧ alone t (s.completed pp (s.configured pp slot d) stPRED_FALSE 0)) ∧
    (s.Dispatchable pp slot d → is d = true → ¬ (d.predEn = true ∧ s.predBit pp d.predIdx = d.predInv) → d.marked = false →
      (s.resolved id d).len = 0 ∨ (s.resolved id d).len2 = 0 →
      ∃ t, exec c s = .next t ∧ alone t (s.completed pp (s.configured pp slot (s.resolved id d)) stOK 0))

/-- Work handed to the engines of a partition; registers and memories stay.

A MOVE joins the end of the mover queue, with a running job; with BIND its bindings join those of the partition (R78, R150). A
REFRESH, FLUSH or EVICT whose bindings are current joins the mover queue and takes the dirty units of its range (R158, R176).

An MM hands over its ceil(M ÷ 32) × ceil(N ÷ 64) work units once an engine of its mask has a free slot, and waits until then
(R64, R126). A VEC goes to a free permitted vector engine (R152), a DISPATCH to the free dispatch unit (R77); each waits until
there is one. -/
def Obligations.EngineWorkIsHandedOver : Prop :=
  ∀ (pp : Fin 24) (slot : Fin 192) (d : Desc) (s : State), s.Canonical → s.Runs pp slot d →
    let id := cid pp slot
    let r : DRef := ⟨slot, d.index⟩
    let b := s.begun pp slot d
    let started (t : State) (e : Desc) : Prop := (t.ctx id).descs = s.descsWith id e ∧ s.dispatched t pp slot ∧ s.sameData t
    (∀ cm ∈ [(Instr.moveLinear pp slot, 0), (Instr.moveTile pp slot, 1), (Instr.moveStrided pp slot, 2),
        (Instr.moveGather pp slot, 3), (Instr.moveScatter pp slot, 4)],
      d.kind = kMOVE → d.mvMode = cm.2 → s.moveCheck id (s.resolved id d) = none →
      ∃ t, exec cm.1 s = .next t ∧ (t.part pp).moverQ = (s.part pp).moverQ ++ [r] ∧
        (∃ j ∈ t.jobs, j.pp = pp ∧ j.ref = r) ∧
        started t (if d.mvBind then { b with len2 := (s.part pp).bindSeq } else b) ∧
        (t.part pp).binds = (s.part pp).binds ++ (if d.mvBind then newBindings b slot (s.part pp).bindSeq else [])) ∧
    (∀ ck ∈ [(Instr.refresh pp slot, kREFRESH), (Instr.flush pp slot, kFLUSH), (Instr.evict pp slot, kEVICT)],
      d.kind = ck.2 → s.flushCheck id d = none → s.flushFree id d = true → (s.part pp).binds.length ≤ 1024 →
      (∀ x ∈ s.worksOn pp slot d, x.epoch = s.fld (a_XL_ASSTAT (s.asidOf id)) XL_ASSTAT_EPOCH) →
      ∃ t, exec ck.1 s = .next t ∧ (t.part pp).moverQ = (s.part pp).moverQ ++ [r] ∧
        started t { b with rmode := s.fld (a_XL_ASCFG (s.asidOf id)) XL_ASCFG_RMODE } ∧
        (∃ j ∈ t.jobs, j.pp = pp ∧ j.ref = r ∧ j.dirty = s.dirtyUnits pp (s.overlapping pp slot d.rfOff d.rfBytes)) ∧
        (∀ k ∈ s.dirtyUnits pp (s.overlapping pp slot d.rfOff d.rfBytes), Sparse.get (fun _ => false) t.tsDirty k = false)) ∧
    (d.kind = kMM → s.mmCheck id (s.resolved id d) = none →
      (s.mmFree id (s.resolved id d) = true →
        ∃ t, exec (.mm pp slot) s = .next t ∧ started t b ∧ (t.part pp).mms = (s.part pp).mms ++
          [{ ref := r, rows := ceilDiv (s.resolved id d).len 32, cols := ceilDiv (s.resolved id d).len2 64, next := 0, done := 0,
             engMask := d.mmMask }]) ∧
      (s.mmFree id (s.resolved id d) = false → exec (.mm pp slot) s = .next s)) ∧
    (∀ ci ∈ [(Instr.vecElementwise pp slot, fun op => decide (op < 0x10)), (Instr.vecReduction pp slot, isReduction),
        (Instr.softmax pp slot, fun op => op == 0x18), (Instr.layernorm pp slot, fun op => op == 0x19),
        (Instr.rmsnorm pp slot, fun op => op == 0x1A), (Instr.convert pp slot, fun op => op == 0x20),
        (Instr.funcSlot pp slot, fun op => op == 0x28), (Instr.funcTableImage pp slot, fun op => op == 0x29)],
      d.kind = kVEC → ci.2 d.vOp = true → s.vecCheck id (s.resolved id d) = none →
      (∀ v, s.vecEngine pp (s.resolved id d) = some v →
        natBit d.vMask v = true ∧ ((s.part pp).ves.getD v (none, 0)).1 = none ∧
        ∃ t, exec ci.1 s = .next t ∧ started t b ∧ (t.part pp).ves = (s.part pp).ves.set v (some r, 0)) ∧
      (s.vecEngine pp (s.resolved id d) = none → exec ci.1 s = .next s)) ∧
    (d.kind = kDISPATCH → s.dispatchCheck id (s.resolved id d) = none →
      ((s.part pp).du = none → ∃ t, exec (.dispatch pp slot) s = .next t ∧ started t b ∧ (t.part pp).du = some r) ∧
      ((s.part pp).du ≠ none → exec (.dispatch pp slot) s = .next s))

/-- A SIGNAL below FAB scope sends one update with its operation to its semaphore; at FAB scope it starts the write of its flag,
which for another device is a WR4 packet in the mode it was translated under (R154, R200, R217). A WAIT on a semaphore or barrier
sends its arrival and blocks until its timeout, one on a flag blocks (R39, R156, R167). A WAIT on a sequence number completes at once
when no earlier descriptor of that index is pending, blocks otherwise, and with TEST writes the outcome to its predicate bit instead
(R156). -/
def Obligations.SignalsAndWaitsDispatch : Prop :=
  ∀ (pp : Fin 24) (slot : Fin 192) (d : Desc) (s : State), s.Canonical → s.Runs pp slot d →
    let id := cid pp slot
    let r : DRef := ⟨slot, d.index⟩
    let b := s.begun pp slot d
    let untilD : Desc := { b with until_ := s.waitUntil id d }
    let started (t : State) (e : Desc) : Prop := (t.ctx id).descs = s.descsWith id e ∧ s.dispatched t pp slot ∧ s.sameData t
    (∀ co ∈ [(Instr.signalAdd pp slot, 0, SemOp.add d.sgValue), (Instr.signalSet pp slot, 1, SemOp.set d.sgValue),
        (Instr.signalMax pp slot, 2, SemOp.max d.sgValue), (Instr.signalCas pp slot, 3, SemOp.cas d.sgCmp d.sgValue)],
      d.kind = kSIGNAL → d.sgScope ≠ 3 → d.sgOp = co.2.1 →
      ∃ t, exec co.1 s = .next t ∧ t.bead = s.bead ++ [.update d.sgPart d.sgSem co.2.2 (.desc pp r)] ∧ started t b ∧
        t.jobs = s.jobs) ∧
    (∀ e pa, d.kind = kSIGNAL → d.sgScope = 3 → physical (d.operand 2).exts d.flagVa = some (e, pa) →
      (e.tier ≠ 2 → ∃ t, exec (.signalFabFlag pp slot) s = .next t ∧
        (∃ j ∈ t.jobs, j.pp = pp ∧ j.ref = r ∧ j.writes = [⟨pa, 4⟩] ∧ j.alt = [⟨pa, leBytes d.sgValue 4, false⟩]) ∧
        started t b ∧ t.bead = s.bead) ∧
      (∀ port, e.tier = 2 → s.routeTo (pa / 2 ^ 45) tyWR4 = some port →
        ∃ t, exec (.signalFabFlag pp slot) s = .next t ∧
          t.outbox = s.outbox ++ [.packet port (s.reqHeader tyWR4 pa 0 0 d.rmode (s.tenantOf id)
            (if d.rmode = 1 then e.rctx else 0) d.sgValue s.nextTag) []] ∧
          t.nextTag = (s.nextTag + 1) % 65536 ∧ (∃ x ∈ t.remotes, x.tag = s.nextTag ∧ x.pp = pp ∧ x.ref = r ∧ x.pa = pa) ∧
          started t b ∧ t.bead = s.bead)) ∧
    (d.kind = kWAIT → d.wtSrc = 0 → ∃ t, exec (.waitSem pp slot) s = .next t ∧
      t.bead = s.bead ++ [.waitArrive pp r d.wtPart d.wtSem d.wtCond d.wtValue d.wtTest] ∧ started t untilD) ∧
    (d.kind = kWAIT → d.wtSrc = 1 → ∃ t, exec (.waitFlag pp slot) s = .next t ∧ t.bead = s.bead ∧ started t untilD) ∧
    (d.kind = kWAIT → d.wtSrc = 3 → s.barrierAdmits id (d.wtSem % 256) = true →
      d.wtScope = s.fld (a_BD_BARCFG (d.wtSem % 256)) BD_BARCFG_SCOPE →
      ∃ t, exec (.waitBarrier pp slot) s = .next t ∧ t.bead = s.bead ++ [.barArrive (d.wtSem % 256) (some (pp.val, r))] ∧
        started t untilD) ∧
    (d.kind = kWAIT → d.wtSrc = 2 → d.wtTest = false →
      (s.seqPending id d = true → ∃ t, exec (.waitSeq pp slot) s = .next t ∧ started t untilD ∧ t.bead = s.bead) ∧
      (s.seqPending id d = false → ∃ t, exec (.waitSeq pp slot) s = .next t ∧
        s.becomes t id d.index (fun _ => s.completed pp b stOK 0) ∧ s.sameRegs t id d.index ∧ s.dispatched t pp slot ∧
        t.mem = s.mem ∧ t.ts = s.ts ∧ t.bead = s.bead)) ∧
    (d.kind = kWAIT → d.wtSrc = 2 → d.wtTest = true →
      ∃ t, exec (.waitSeq pp slot) s = .next t ∧ t.predBit pp d.wtPredOut = !s.seqPending id d ∧
        (∀ a, a ≠ a_PT_PRED pp (d.wtPredOut / 64) → (s.remoteAt id d.index → a ≠ a_XL_ASSTAT (s.asidOf id)) → t.rd a = s.rd a) ∧
        s.dispatched t pp slot ∧ t.mem = s.mem ∧ t.ts = s.ts ∧ t.bead = s.bead ∧
        s.becomes t id d.index (fun _ => { s.completed pp b stOK 0 with condFalse := s.seqPending id d }))

/-- Descriptors that complete at dispatch. ALLOC CLAIM raises its context's charge by its bytes and appends the claim; RELEASE
lowers the charge, for what the tier manager has moved that of the tier that holds it now, removes the range from the claims, and in
T0 zeroes it and removes the bindings in it (R159, R175, R186). PHASE makes its tag current, stores its class and ends the tag before
it (R160, R315, R316); MARK only completes (R161). A FENCE takes the epoch after all that are asked for, and asks for the increment
(R163, R198). -/
def Obligations.ClaimsPhasesMarksAndFences : Prop :=
  ∀ (pp : Fin 24) (slot : Fin 192) (d : Desc) (s : State), s.Canonical → s.Runs pp slot d →
    let id := cid pp slot
    let b := s.begun pp slot d
    let ok (t : State) : Prop := s.becomes t id d.index (fun _ => s.completed pp b stOK 0) ∧ s.dispatched t pp slot ∧
      t.mem = s.mem ∧ t.units = s.units
    let rest (t : State) (own : List Nat) : Prop :=
      ∀ a, a ∉ own → (s.remoteAt id d.index → a ≠ a_XL_ASSTAT (s.asidOf id)) → t.rd a = s.rd a
    (d.kind = kALLOC → d.alRelease = false → s.allocCheck id d = none →
      ∃ t, exec (.allocClaim pp slot) s = .next t ∧ ok t ∧
        t.charge id d.alTier = s.charge id d.alTier + d.alBytes / 65536 ∧
        (t.ctx id).claims = (s.ctx id).claims ++ [⟨d.alTier, d.alAddr, d.alBytes⟩] ∧
        t.cstate id = s.cstate id ∧ rest t [if d.alTier = 0 then a_PT_CTXSTAT pp slot else a_PT_CTXUSE pp slot] ∧ t.ts = s.ts) ∧
    (d.kind = kALLOC → d.alRelease = true → s.allocCheck id d = none →
      let k := s.movedUnits id d
      ∃ t, exec (.allocRelease pp slot) s = .next t ∧ ok t ∧
        t.charge id d.alTier = s.charge id d.alTier - (d.alBytes / 65536 - k) ∧
        (d.alTier = 1 ∨ d.alTier = 2 → t.charge id (3 - d.alTier) = s.charge id (3 - d.alTier) - k) ∧
        (t.ctx id).claims = subtract (s.ctx id).claims d.alTier d.alAddr d.alBytes ∧
        t.cstate id = s.cstate id ∧ rest t [a_PT_CTXSTAT pp slot, a_PT_CTXUSE pp slot] ∧
        (d.alTier ≠ 0 → t.ts = s.ts) ∧
        (d.alTier = 0 → (∀ x ∈ (t.part pp).binds, overlap x.off x.len d.alAddr d.alBytes = false) ∧
          (∀ k, Sparse.get (fun _ => (0 : Byte)) t.ts k =
            if within k 1 (tsKey pp d.alAddr) d.alBytes then 0 else Sparse.get (fun _ => (0 : Byte)) s.ts k))) ∧
    (d.kind = kPHASE → ∃ t, exec (.phase pp slot) s = .next t ∧ ok t ∧ (t.ctx id).phaseTag = d.phTag ∧
      (t.ctx id).phaseAt = s.now ∧ (t.ctx id).phaseClass = d.phClass ∧
      t.fld (a_PW_PHTAG pp d.phTag) PW_PHTAG_CLASS = d.phClass ∧
      ((s.ctx id).phaseTag < 64 → t.fld (a_PW_PHTAG pp (s.ctx id).phaseTag) PW_PHTAG_NEXT_TAG = d.phTag ∧
        t.fld (a_PW_PHTAG pp (s.ctx id).phaseTag) PW_PHTAG_NEXT_VALID = 1) ∧
      rest t (a_PW_PHTAG pp d.phTag ::
        (if (s.ctx id).phaseTag < 64 then [a_PW_PHTAG pp (s.ctx id).phaseTag] else [])) ∧ t.ts = s.ts) ∧
    (d.kind = kMARK → ∃ t, exec (.mark pp slot) s = .next t ∧ ok t ∧ rest t [] ∧ t.ts = s.ts ∧ t.bead = s.bead ∧
      t.epochs = s.epochs) ∧
    (d.kind = kFENCE → ∃ t, exec (.fence pp slot) s = .next t ∧
      t.epochs = s.epochs ++ [(s.asidOf id, .fence pp ⟨slot, d.index⟩)] ∧ s.sameData t ∧ s.dispatched t pp slot ∧
      (t.ctx id).descs = s.descsWith id { b with
        epoch := (s.fld (a_XL_ASSTAT (s.asidOf id)) XL_ASSTAT_EPOCH + s.pendingIncrements (s.asidOf id) + 1) % 65536 })

/-! ### Engines and completions -/

/-- Movers and matrix engines; memory stays throughout, and of the registers a result may change only the count of tile store
errors.

An idle mover takes the oldest descriptor of the mover queue (R78). An engine takes the next work unit of the earliest MM that
names it, into a free slot (R64). A wavefront moves its unit on by one position; the last one leaves the 32 × 64 roots in the
accumulator (R65, R66). The result of a unit frees its slot and counts (R66).

A token is issued INTERVAL after the later of the last issue and take (R70); the engine that has waited longest takes it and
is warm (R69); an engine idle for longer than the IDLE in force since the last issue is cold, and one that holds work waits for a token
from then on, the time that pacing holds it back not counted (R69, R71). -/
def Obligations.EnginesTakeFireAndCool : Prop :=
  ∀ (pp : Fin 24) (s : State), s.Canonical →
    (∀ (dm : Fin 2) (r : DRef) (rest : List DRef),
      (s.part pp).moverQ = r :: rest → (s.part pp).dms.getD dm none = none → s.alive (domCtl pp) = true → s.inReset pp = false →
      ∃ t, exec (.moverTake pp dm) s = .next t ∧ (t.part pp).moverQ = rest ∧ t.mem = s.mem ∧ t.ts = s.ts ∧
        (∀ a, a ≠ a_XL_ASSTAT (s.asidOf (cid pp r.slot)) → t.rd a = s.rd a) ∧
        (∀ d, s.findDesc (cid pp r.slot) r.index = some d → d.kind = kMOVE → d.local_ →
          (t.part pp).dms = (s.part pp).dms.set dm (some r) ∧ t.regs = s.regs ∧ t.ctxs = s.ctxs ∧ t.outbox = s.outbox)) ∧
    (∀ (me : Fin 20) (m : MmJob) (i : Nat), s.unitsRun pp = true →
      (s.part pp).mms.find? (fun m => natBit m.engMask me && decide (m.next < m.rows * m.cols)) = some m →
      (s.engine pp me).slots.findIdx? (fun x => x.isNone) = some i →
      let e := s.engine pp me
      ∃ t, exec (.workUnitTake pp me) s = .next t ∧
        (t.part pp).engines = (s.part pp).engines.set me { e with
          slots := e.slots.set i (some { ref := m.ref, row := m.next / m.cols, col := m.next % m.cols, pos := 0, acc := [],
                                         poison := false, bad := false })
          waitFrom := if e.cold && e.waitFrom.isNone then some s.now else e.waitFrom } ∧
        (t.part pp).mms = (s.part pp).mms.map (fun y => if y.ref = m.ref then { y with next := y.next + 1 } else y) ∧
        s.sameData t ∧ t.ctxs = s.ctxs ∧ t.jobs = s.jobs) ∧
    (∀ (me : Fin 20) (acc : Fin 2) (w : WorkUnit) (d : Desc) (j : Job), s.unitsRun pp = true →
      (s.engine pp me).slots.getD acc none = some w → s.findDesc (cid pp w.ref.slot) w.ref.index = some d →
      s.findJob pp w.ref = some j → (s.engine pp me).cold = false → w.acc = [] →
      let e := s.engine pp me
      let u := s.unitBlocks pp j d w.row w.col
      w.pos < u.wavefronts d →
      ∃ t v, exec (.wavefrontFire pp me acc) s = .next t ∧
        (t.part pp).engines = (s.part pp).engines.set me
          { e with slots := e.slots.set acc (some v), lastWave := s.now, lastWork := s.now } ∧
        v.ref = w.ref ∧ v.row = w.row ∧ v.col = w.col ∧ v.pos = w.pos + 1 ∧
        v.acc = (if w.pos + 1 = u.wavefronts d then u.roots (d.mmL / 32) else []) ∧
        s.sameData t ∧ t.ctxs = s.ctxs ∧ t.jobs = s.jobs) ∧
    (∀ (me : Fin 20) (acc : Fin 2) (w : WorkUnit) (d : Desc) (j : Job), s.unitsRun pp = true →
      (s.engine pp me).slots.getD acc none = some w → s.findDesc (cid pp w.ref.slot) w.ref.index = some d →
      s.findJob pp w.ref = some j → (s.engine pp me).cold = false → w.acc ≠ [] →
      let e := s.engine pp me
      ∃ t, exec (.workUnitResult pp me acc) s = .next t ∧
        (t.part pp).engines = (s.part pp).engines.set me { e with slots := e.slots.set acc none, lastWork := s.now } ∧
        (t.part pp).mms = (s.part pp).mms.map (fun y => if y.ref = w.ref then { y with done := y.done + 1 } else y) ∧
        (∀ a, a ≠ a_TS_ERRCNT pp → t.rd a = s.rd a) ∧ t.mem = s.mem ∧ t.units = s.units) ∧
    ((s.part pp).token = false → s.alive (domEng pp) = true →
      max (s.part pp).lastIssue (s.part pp).lastTake + s.fld (a_ME_RAMP pp) ME_RAMP_INTERVAL ≤ s.now →
      exec (.startTokenIssue pp) s = .next (s.setPart pp { s.part pp with
        token := true, lastIssue := s.now, rampIdle := s.fld (a_ME_RAMP pp) ME_RAMP_IDLE })) ∧
    (∀ k, longestWaiting (s.part pp).engines = some k → (s.part pp).token = true → s.unitsRun pp = true →
      ∃ t, exec (.startTokenTake pp) s = .next t ∧ (t.part pp).token = false ∧ (t.part pp).lastTake = s.now ∧
        (t.part pp).engines = (s.part pp).engines.set k
          { s.engine pp k with cold := false, waitFrom := none, lastWork := s.now, lastWave := s.now } ∧
        s.sameData t ∧ t.ctxs = s.ctxs) ∧
    (∀ me : Fin 20, (s.engine pp me).cold = false → holdsWork (s.engine pp me) = false →
      (s.engine pp me).lastWork + (s.part pp).rampIdle < s.now →
      ∃ t, exec (.engineCold pp me) s = .next t ∧
        (t.part pp).engines = (s.part pp).engines.set me { s.engine pp me with cold := true, waitFrom := none } ∧
        s.sameData t ∧ t.ctxs = s.ctxs) ∧
    (∀ me : Fin 20, (s.engine pp me).cold = false → holdsWork (s.engine pp me) = true →
      max (s.engine pp me).lastWave (s.pacedUntil pp) + (s.part pp).rampIdle < s.now →
      ∃ t, exec (.engineCold pp me) s = .next t ∧
        (t.part pp).engines = (s.part pp).engines.set me { s.engine pp me with cold := true, waitFrom := some s.now } ∧
        s.sameData t ∧ t.ctxs = s.ctxs)

/-- A DISPATCH that completes, where no stored bit of the tile store has changed, frees its unit, leaves a predicate bit for each
expert of its window (set when the expert has an accepted choice), and sends one ADD of each count with SEM_EN; memory stays
(R117–R121). -/
def Obligations.DispatchUnitCompletes : Prop :=
  ∀ (pp : Fin 24) (r : DRef) (d : Desc) (j : Job) (s : State),
    s.Canonical → (s.part pp).du = some r → s.findDesc (cid pp r.slot) r.index = some d → s.findJob pp r = some j →
    s.unitsRun pp = true → s.tsFlips = [] → r.slot < 192 → d.dPred + d.dWin ≤ 256 →
    (d.dLenEn = true → d.dLen + d.dWin ≤ 64) →
    let n (i : Nat) : Nat := acceptedOf (s.choicesOf pp j d) (d.dExpFirst + i)
    ∃ t, exec (.dispatchComplete pp) s = .next t ∧ (t.part pp).du = none ∧ t.findJob pp r = none ∧
      s.becomes t (cid pp r.slot) r.index (fun e => s.completed pp
        { e with poisoned := e.poisoned || (s.dispatchChoices pp d j).2 } stOK 0) ∧
      (∀ i, i < d.dWin → t.predBit pp (d.dPred + i) = decide (0 < n i)) ∧
      (∀ i, i < 256 → i < d.dPred ∨ d.dPred + d.dWin ≤ i → t.predBit pp i = s.predBit pp i) ∧
      (d.dLenEn = true → ∀ i, i < d.dWin → t.fld (a_SQ_LEN pp r.slot (d.dLen + i)) SQ_LEN_LEN = n i % 2 ^ 32) ∧
      t.bead = s.bead ++ (if d.dSemEn then
        (List.range d.dWin).map (fun i => Bead.update d.dSemPart (d.dSem + i) (.add (n i)) (.duAdd pp)) else []) ∧
      (∀ a, (∀ k, k < 4 → a ≠ a_PT_PRED pp k) → (∀ k, k < 64 → a ≠ a_SQ_LEN pp r.slot k) →
        (s.remoteAt (cid pp r.slot) r.index → a ≠ a_XL_ASSTAT (s.asidOf (cid pp r.slot))) → t.rd a = s.rd a) ∧
      t.mem = s.mem ∧ t.units = s.units

/-- The last write of a running descriptor is acknowledged (R79, R139, R205); that its writes take effect in this one command is the
model's choice (log entry 9). Throughout, no stored bit has changed, the accelerators' class fills no slice, and no other agent wrote
to the descriptor's targets meanwhile. An MM whose work units are all done completes with the status its units left; a VEC with an
operation other than 0x29 completes OK and frees its engine.

A local LINEAR MOVE within its claims and extents, all its homes serving it, completes OK with the bytes of its source, as it reads
them, written to its destination. A local SIGNAL at FAB scope completes OK with its value written to its flag (R154). A local FLUSH
completes OK with the bound bytes of its dirty units written back (R158, R176). -/
def Obligations.LastWritesComplete : Prop :=
  ∀ (pp : Fin 24) (slot : Fin 192) (index : BitVec 16) (d : Desc) (j : Job) (s : State),
    s.Canonical → s.inReset pp = false → s.flips = [] → s.tsFlips = [] → s.fld (a_SC_WAYMASK clsAccel) SC_WAYMASK_MASK = 0 →
    (s.ctx (cid pp slot)).descs.find? (fun d => d.stage == .running && d.index % s.ringSize (cid pp slot) == index.toNat) = some d →
    s.findJob pp ⟨slot, d.index⟩ = some j → j.struck = [] →
    let id := cid pp slot
    let r : DRef := ⟨slot, d.index⟩
    let own := { s with fresh := s.fresh + 1 }.dropJob pp r
    let served := (s.part pp).dms.contains (some r) = true ∧ s.waiting pp r = false ∧ s.jobFare j = .served ∧
      s.shutLine (naPart pp) ((j.reads ++ j.writes).filter (fun r => decide (r.addr < tsWindow))) = none
    let ended (t : State) (st detail : Nat) (poison : Bool) : Prop :=
      t.findJob pp r = none ∧ s.sameRegs t id d.index ∧
        s.becomes t id d.index (fun e => s.completed pp { e with poisoned := e.poisoned || poison } st detail)
    (∀ m, d.kind = kMM → (s.part pp).mms.find? (fun m => m.ref == r) = some m → m.rows * m.cols ≤ m.done →
      ∃ t, exec (.lastWriteAcknowledged pp slot index) s = .next t ∧ ended t d.status d.detail false ∧
        (t.part pp).mms = (s.part pp).mms.filter (fun y => y.ref != r) ∧ t.mem = s.mem ∧ t.units = s.units) ∧
    (d.kind = kVEC → d.vOp ≠ 0x29 → s.unitsRun pp = true →
      ∃ t po, exec (.lastWriteAcknowledged pp slot index) s = .next t ∧ ended t stOK 0 po ∧
        (∃ ps, s.vecParts pp d j = some (ps, po)) ∧
        (t.part pp).ves = (match (s.part pp).ves.findIdx? (fun v => v.1 == some r) with
          | some i => (s.part pp).ves.set i (none, s.now)
          | none => (s.part pp).ves) ∧ t.mem = s.mem ∧ t.units = s.units) ∧
    (d.kind = kMOVE → d.mvMode = 0 → d.mvBind = false → d.local_ → served →
      s.reaches id d 0 d.mvSrc d.len = true → s.reaches id d 1 d.mvDst d.len = true →
      let data := (own.readSrc pp id d j d.mvSrc d.len).getD []
      let u := own.landPieces pp id j ((destParts pp d ⟨d.mvSrc, d.mvDst, d.len⟩).map (fun q =>
        (q.1, (data.drop q.2.1).take q.2.2)))
      ∃ t, exec (.lastWriteAcknowledged pp slot index) s = .next t ∧ ended t stOK 0 (data.any (fun b => b.2)) ∧
        t.mem = u.mem ∧ t.units = u.units ∧ t.ts = u.ts) ∧
    (∀ e pa, d.kind = kSIGNAL → d.sgScope = 3 → physical (d.operand 2).exts d.flagVa = some (e, pa) →
      s.fare roleCOH (burlOf pp) pa = .served → s.Admitted (naPart pp) pa 4 →
      let u := (s.dropJob pp r).writeMem id pa (leBytes d.sgValue 4) false
      ∃ t, exec (.lastWriteAcknowledged pp slot index) s = .next t ∧ ended t stOK 0 false ∧ t.mem = u.mem ∧
        t.units = u.units ∧ t.ts = s.ts) ∧
    (d.kind = kFLUSH → (∀ b ∈ s.jobBinds pp slot d j, ∀ e ∈ b.exts, e.tier ≠ 2) → served →
      let back := own.backPieces pp (own.jobBinds pp slot d j) j j.dirty
      let u := own.landPieces pp id j back
      ∃ t, exec (.lastWriteAcknowledged pp slot index) s = .next t ∧
        ended t stOK 0 (back.any (fun x => x.2.any (fun b => b.2))) ∧ t.mem = u.mem ∧ t.units = u.units ∧ t.ts = u.ts)

/-- The tier manager. Every AGE_MS each access count is halved (R184). A choice that still has its region and a free slot begins:
the region is MOVING and an epoch increment is asked for (R186); the older epochs drained, its copy may begin; a drain longer than
1 ms abandons it (R44). Where the homes serve it, no stored bit has changed and the accelerators' class fills no slice, the commit copies the region's 2 MiB, rewrites its table entry, and moves the region and its charge. -/
def Obligations.TierManagerMigrates : Prop :=
  ∀ (pp : Fin 24) (s : State), s.Canonical →
    (s.tmOn pp = true → s.inReset pp = false → (s.part pp).nextHalving ≤ s.now →
      ∃ t, exec (.ageHalving pp) s = .next t ∧
        (t.part pp).regions = (s.part pp).regions.map (fun r => { r with count := r.count / 2 }) ∧
        (t.part pp).nextHalving = s.now + s.fld (a_PT_TMCFG pp) PT_TMCFG_AGE_MS * 1000000 ∧
        (∀ a, a ≠ a_PT_TMCNT pp → t.rd a = s.rd a) ∧ t.mem = s.mem ∧ t.ctxs = s.ctxs ∧ t.jobs = s.jobs) ∧
    (∀ (slot va dest dst : Nat) (rest : List (Nat × Nat × Nat)) (r : Region),
      s.tmOn pp = true → s.inReset pp = false → (s.part pp).migration = none → s.flag (a_PT_TMCTL pp) PT_TMCTL_HOLD = false →
      (s.part pp).choices = (slot, va, dest) :: rest → (s.part pp).regions.find? (fun r => r.slot == slot && r.va == va) = some r →
      s.freeSlot pp dest (if dest = 0 then (s.part pp).used1 else (s.part pp).used2) = some dst →
      ∃ t, exec (.migrationStart pp) s = .next t ∧ (t.part pp).choices = rest ∧
        (t.part pp).migration = some { slot := slot, va := va, dst := dst, toTier := dest, step := 2, epoch := 0, waitFrom := s.now } ∧
        (t.part pp).regions = (s.part pp).regions.map (fun r => if r.slot = slot ∧ r.va = va then { r with moving := true } else r) ∧
        t.epochs = s.epochs ++ [(s.asidOf (cid pp slot), .migration pp)] ∧ t.regs = s.regs ∧ t.mem = s.mem ∧ t.ctxs = s.ctxs) ∧
    (∀ m, (s.part pp).migration = some m → m.step = 3 → s.olderDone pp m = true →
      exec (.migrationDrained pp) s = .next (s.setPart pp { s.part pp with migration := some { m with step := 4 } })) ∧
    (∀ m, (s.part pp).migration = some m → m.step = 3 → m.waitFrom + 1000000 ≤ s.now →
      ∃ t, exec (.migrationAbandon pp) s = .next t ∧ (t.part pp).migration = none ∧
        (t.part pp).regions = (s.part pp).regions.map (fun r => { r with moving := false }) ∧
        t.fld (a_PT_TMCNT pp) PT_TMCNT_ABANDONED =
          satAdd (s.fld (a_PT_TMCNT pp) PT_TMCNT_ABANDONED) 1 (2 ^ PT_TMCNT_ABANDONED.width - 1) ∧
        (∀ a, a ≠ a_PT_TMCNT pp → t.rd a = s.rd a) ∧ t.mem = s.mem ∧ t.ctxs = s.ctxs) ∧
    (∀ (m : Migration) (r : Region) (i : Nat), (s.part pp).migration = some m → m.step = 4 → m.slot < 192 → m.toTier ≤ 1 →
      (s.part pp).regions.find? (fun r => r.slot == m.slot && r.va == m.va) = some r →
      s.entryOf (s.asidOf (cid pp m.slot)) m.va = some i → s.flips = [] →
      s.fld (a_SC_WAYMASK clsAccel) SC_WAYMASK_MASK = 0 →
      let id := cid pp m.slot
      let table := s.fld (a_XL_ASCFG (s.asidOf id)) XL_ASCFG_TBASE * 4096
      (∀ a ∈ [r.pa, m.dst, table], s.fare roleTILE (burlOf pp) a = .served) →
      s.shutLine (naPart pp) [⟨r.pa, 2097152⟩, ⟨m.dst, 2097152⟩, ⟨table, 524288⟩] = none →
      let entry := table + i * 32 + 16
      let own : State := { s with fresh := s.fresh + 1 }
      let u := (own.writeMemB id m.dst (own.readMemP id r.pa 2097152)).writeMem keySYS entry (leBytes (m.toTier * 2 ^ 62 + m.dst) 8) false
      ∃ t, exec (.migrationCommit pp) s = .next t ∧ t.mem = u.mem ∧ t.units = u.units ∧ t.ts = s.ts ∧
        (t.part pp).migration = none ∧
        (t.part pp).regions = (s.part pp).regions.map (fun y =>
          if y = r then { y with pa := m.dst, tier := m.toTier, moving := false } else y) ∧
        (m.toTier = 1 → s.charge id 2 + 32 < 2 ^ 32 → t.charge id 2 = s.charge id 2 + 32 ∧ t.charge id 1 = s.charge id 1 - 32) ∧
        (m.toTier = 0 → s.charge id 1 + 32 < 2 ^ 32 → t.charge id 1 = s.charge id 1 + 32 ∧ t.charge id 2 = s.charge id 2 - 32) ∧
        (∀ a, a ≠ a_PT_TMCNT pp → a ≠ a_PT_CTXUSE pp m.slot → t.rd a = s.rd a))

/-! ### Coherence -/

/-- Requests of caching agents at a home, where no stored bit has changed (R246, R249, R252, R253). A request that must be refused, or
that comes without URGENT for a line that does not admit its agent, is answered NAK. For a line without an entry RD_S and RD_X get
it from memory exclusively; where every way of its set is taken, a SHARED entry goes and leaves its bucket bit, an OWNED one is
recalled while the request waits. RD_S joins the sharers of a line held under its key. RD_X and UPG snoop the other sharers, or own
the line at once without any; a request for a line that another agent owns snoops that agent. -/
def Obligations.HomesServeRequests : Prop :=
  ∀ (home : Fin 36) (agent : Fin 128) (line : BitVec 45) (s : State), s.Canonical → s.flips = [] →
    let u := line.toNat
    let key := s.reqKey agent u
    let left (code : Nat) : List CMsg := s.net.erase (.req home agent u code false)
    let grant (code g : Nat) (t : State) : Prop :=
      t.net = left code ++ [if g = grCmp then CMsg.grant home agent u g [] false
        else .grant home agent u g (s.memFor key u).1 (s.memFor key u).2]
    let kept (t : State) : Prop := t.mem = s.mem ∧ t.units = s.units ∧ t.agents = s.agents
    (∀ cq ∈ [(Instr.rdS home agent line, rqRdS), (Instr.rdX home agent line, rqRdX), (Instr.upg home agent line, rqUpg)],
      s.Asked home agent u cq.2 → s.mustNak home agent u cq.2 = true ∨ s.admits agent home u = false →
      ∃ t, exec cq.1 s = .next t ∧ t.net = left cq.2 ++ [.nak home agent u] ∧ t.homes = s.homes ∧ kept t ∧
        t.fld (nakReg home) HO_NAKCNT_NAKS =
          satAdd (s.fld (nakReg home) HO_NAKCNT_NAKS) 1 (2 ^ HO_NAKCNT_NAKS.width - 1)) ∧
    (∀ cq ∈ [(Instr.rdS home agent line, rqRdS), (Instr.rdX home agent line, rqRdX)],
      s.Takes home agent u cq.2 → s.dirOf home u = none → s.bucketSet home u = false →
      (s.dirRoom home u → ∃ t, exec cq.1 s = .next t ∧ grant cq.2 grE t ∧ t.dirOf home u = some (.owned agent) ∧ kept t ∧
        t.regs = s.regs) ∧
      (∀ v, s.wayFor home u = .evict v → ∃ t, exec cq.1 s = .next t ∧ t.dirOf home v = none ∧ t.bucketSet home v = true ∧
        kept t) ∧
      (∀ v o, s.wayFor home u = .recall v o → ∃ t, exec cq.1 s = .next t ∧ t.net = s.net ++ [.snoop home o v snI] ∧
        (∃ x ∈ (t.home home).txns, x.addr = v ∧ x.who = none ∧ x.req = rqRecall ∧ x.due = [(o, s.now)]) ∧
        t.dirOf home v = s.dirOf home v ∧ t.dirOf home u = none ∧ kept t ∧ t.regs = s.regs)) ∧
    (∀ as, s.Takes home agent u rqRdS → s.dirOf home u = some (.shared as) → as ≠ [] → s.otherKey as u key = [] →
      ∃ t, exec (.rdS home agent line) s = .next t ∧ grant rqRdS grS t ∧ t.dirOf home u = some (.shared (as ++ [agent.val])) ∧
        kept t ∧ t.regs = s.regs) ∧
    (∀ cq ∈ [(Instr.rdX home agent line, rqRdX, grE), (Instr.upg home agent line, rqUpg, grCmp)], ∀ as : List Nat,
      s.Takes home agent u cq.2.1 → s.dirOf home u = some (.shared as) →
      let others := as.filter (fun a => a != agent.val && !s.isDead a)
      (others = [] → ∃ t, exec cq.1 s = .next t ∧ grant cq.2.1 cq.2.2 t ∧ t.dirOf home u = some (.owned agent) ∧ kept t ∧
        t.regs = s.regs) ∧
      (others ≠ [] → ∃ t, exec cq.1 s = .next t ∧ t.net = left cq.2.1 ++ others.map (fun a => CMsg.snoop home a u snI) ∧
        (∃ x ∈ (t.home home).txns, x.addr = u ∧ x.who = some agent.val ∧ x.req = cq.2.1 ∧ x.due = others.map (fun a => (a, s.now))) ∧
        t.dirOf home u = s.dirOf home u ∧ kept t ∧ t.regs = s.regs)) ∧
    (∀ cq ∈ [(Instr.rdS home agent line, rqRdS, snS), (Instr.rdX home agent line, rqRdX, snI)], ∀ o : Nat,
      s.Takes home agent u cq.2.1 → s.dirOf home u = some (.owned o) → s.otherKey [o] u key = [] →
      ∃ t, exec cq.1 s = .next t ∧ t.net = left cq.2.1 ++ [.snoop home o u cq.2.2] ∧
        (∃ x ∈ (t.home home).txns, x.addr = u ∧ x.who = some agent.val ∧ x.req = cq.2.1 ∧ x.due = [(o, s.now)]) ∧
        t.dirOf home u = s.dirOf home u ∧ kept t ∧ t.regs = s.regs)

/-- Evictions and accesses of non-caching agents at a home, where no stored bit has changed (R246, R249, R253, R254, R261). PUT_C drops
a clean line, PUT_M a dirty one whose data goes to memory, or is lost where the home is in reset; the agent leaves the entry, and what
an open transaction leaves to it. RD_NA of a line without an entry reads memory under its key, with what running jobs may show; of an
owned one it peeks; a home in reset answers it with poison; a line that does not admit it counts a NAK. WR_INV of a line without an
entry or bucket bit writes the bytes its mask names and no other. -/
def Obligations.EvictionsAndUncachedAccesses : Prop :=
  ∀ (home : Fin 36) (agent : Fin 128) (line : BitVec 45) (s : State), s.Canonical → s.flips = [] →
    (∀ l : Line, homeOf line.toNat = home → s.homeNear home = true → s.lineOf agent line.toNat = some l →
      let gone (t : State) : Prop := t.lineOf agent line.toNat = none ∧ t.net = s.net ∧ t.regs = s.regs ∧
        (s.busy home line.toNat = false → s.dirOf home line.toNat = some (.owned agent) → t.dirOf home line.toNat = none) ∧
        (s.busy home line.toNat = true → ∀ x ∈ (t.home home).txns, x.addr = line.toNat → agent.val ∉ x.keep) ∧
        (∀ a v, a ≠ agent.val → t.lineOf a v = s.lineOf a v)
      (l.st ≠ .m → ∃ t, exec (.putC home agent line) s = .next t ∧ gone t ∧ t.mem = s.mem ∧ t.units = s.units) ∧
      (l.st = .m → ∃ t, exec (.putM home agent line) s = .next t ∧ gone t ∧
        t.mem = (if s.homeOut home then s else s.flushLine l).mem ∧
        t.units = (if s.homeOut home then s else s.flushLine l).units)) ∧
    (∀ (key : BitVec 13) (data : List Byte) (mask : BitVec 64),
      let u := line.toNat / 64 * 64
      let plain := (s.memFor key.toNat u).1.map (fun b => (b, (s.memFor key.toNat u).2))
      let seen := s.laid 0 (s.alts key.toNat) u plain
      homeOf u = home →
      (s.homeOut home = true → exec (.rdNa home line key) s = .next { s with naRead := ([], true) } ∧
        exec (.wrInv home line key data mask) s = .next s) ∧
      (s.homeOut home = false → s.homeHeld home = false → s.keyAt key.toNat ≠ 0 → s.inReserve u = false →
        (s.admits naAny home u = true → s.dirOf home u = none →
          ∃ t, exec (.rdNa home line key) s = .next t ∧ t.naRead = (seen.map (fun b => b.1), seen.any (fun b => b.2)) ∧
            t.mem = s.mem ∧ t.units = s.units ∧ t.net = s.net ∧ t.regs = s.regs ∧ t.agents = s.agents) ∧
        (∀ o, s.admits naAny home u = true → s.dirOf home u = some (.owned o) → s.otherKey [o] u key.toNat = [] →
          ∃ t, exec (.rdNa home line key) s = .next t ∧ t.net = s.net ++ [.snoop home o u snPeek] ∧ t.mem = s.mem ∧
            t.dirOf home u = s.dirOf home u ∧ t.regs = s.regs ∧ t.agents = s.agents) ∧
        (s.admits naAny home u = false → (s.home home).urgent.contains (u, naAny) = false →
          (∀ x ∈ s.asks, x.who = naAny → x.line ≠ u) →
          ∃ t, exec (.rdNa home line key) s = .next t ∧ { who := naAny, line := u, naks := 1 } ∈ t.asks ∧
            t.fld (nakReg home) HO_NAKCNT_NAKS =
              satAdd (s.fld (nakReg home) HO_NAKCNT_NAKS) 1 (2 ^ HO_NAKCNT_NAKS.width - 1) ∧
            t.naRead = s.naRead ∧ t.mem = s.mem ∧ t.homes = s.homes ∧ t.net = s.net) ∧
        (s.admits naAny home u = true → s.dirOf home u = none → s.bucketSet home u = false →
          ∃ t, exec (.wrInv home line key data mask) s = .next t ∧
            (∀ i, i < 64 → t.memByte (u + i) =
              if natBit mask.toNat i then data.getD i 0 else (s.unitUnder (s.keyAt key.toNat) u).getD i 0) ∧
            (∀ a, a < u ∨ u + 64 ≤ a → t.memByte a = s.memByte a) ∧ (t.unitMeta u).key = s.keyAt key.toNat ∧
            t.net = s.net ∧ t.regs = s.regs ∧ t.agents = s.agents)))

/-- Snoops, answers and grants where no stored bit has changed, no core waits at a barrier and no request waits in a queue (R248,
R250). A snoop of a line in M is answered with its data, of a clean one without, of a missing
one with RSP_I; S leaves the line shared, I and BI drop it, PEEK keeps it. A sweep drops every line of its bucket (R247). The last
answer to an RD_X writes returned data to memory, closes the transaction and gives the line to its requester. A grant fills the
requester's line. A NAK is counted, after the eighth the request is URGENT (R252), and a retry sends it again. -/
def Obligations.SnoopsAnswersAndGrants : Prop :=
  ∀ (home : Fin 36) (agent : Fin 128) (line : BitVec 45) (s : State), s.Canonical → s.flips = [] → s.noBarriers →
    (∀ c, ∀ x ∈ (s.agent c).misses, x.held = false) →
    let u := line.toNat
    (∀ cq ∈ [(Instr.snpS home agent line, snS), (Instr.snpI home agent line, snI), (Instr.snpPeek home agent line, snPeek),
        (Instr.snpBi home agent line false, snBi)], s.Snooped home agent u cq.2 →
      (s.lineOf agent u = none → ∃ t, exec cq.1 s = .next t ∧ t.net = s.afterSnoop home agent u cq.2 rsI 0 [] false ∧
        t.agents = s.agents ∧ t.mem = s.mem ∧ t.regs = s.regs) ∧
      (∀ l, s.lineOf agent u = some l → ∃ t, exec cq.1 s = .next t ∧
        t.net = (if l.st = .m then s.afterSnoop home agent u cq.2 rsData l.key l.data l.poison
          else s.afterSnoop home agent u cq.2 (if cq.2 = snS ∨ cq.2 = snPeek then rsS else rsI) 0 [] false) ∧
        t.lineOf agent u = (if cq.2 = snPeek then some l else if cq.2 = snS then some { l with st := .s } else none) ∧
        (∀ a v, a ≠ agent.val → t.lineOf a v = s.lineOf a v) ∧ t.mem = s.mem ∧ t.regs = s.regs)) ∧
    (s.Snooped home agent u snSweep → ∃ t, exec (.snpBi home agent line true) s = .next t ∧
      t.net = s.afterSnoop home agent u snSweep rsSwept 0 [] false ∧
      (∀ l ∈ (t.agent agent).lines, ¬ (l.addr < 2 ^ 45 ∧ homeOf l.addr = home ∧ bucketOf l.addr = u)) ∧
      (∀ a v, a ≠ agent.val → t.lineOf a v = s.lineOf a v)) ∧
    (∀ (code key a t0 : Nat) (data : List Byte) (poison : Bool) (x : Txn),
      s.net.find? (fun m => match m with | .rsp h b v _ _ _ _ => h == home.val && b == agent.val && v == u | _ => false) =
        some (.rsp home agent u code key data poison) →
      s.homeNear home = true → s.isDead agent = false → code ≠ rsSwept → (s.home home).txns.find? (fun y => y.addr == u) = some x →
      x.due = [(agent.val, t0)] → x.req = rqRdX → x.who = some a → (s.dirOf home u).isSome = true →
      (s.home home).urgent = [] →
      let v := if code = rsData then s.flushLine { addr := u, key := key, st := .m, data := data, poison := poison, l1 := false } else s
      ∃ t, exec (.snoopResponse home agent line) s = .next t ∧ t.busy home u = false ∧ t.dirOf home u = some (.owned a) ∧
        t.net = s.net.erase (.rsp home agent u code key data poison) ++
          [.grant home a u grE (v.memFor x.key u).1 (v.memFor x.key u).2] ∧
        t.mem = v.mem ∧ t.units = v.units ∧ t.regs = s.regs ∧ t.agents = s.agents) ∧
    (∀ (data : List Byte) (poison : Bool) (m : Miss),
      s.net.find? (fun m => match m with | .grant h b v _ _ _ => h == home.val && b == agent.val && v == u | _ => false) =
        some (.grant home agent u grE data poison) →
      data ≠ [] → agent.val < 96 → s.alive (s.agentDom agent) = true → s.linked roleCOH 6 (homeDie home) = true →
      s.missOf agent u = some m → m.loads = [] → (s.core agent).buf = [] →
      ((s.agent agent).lines.filter (fun k => l2Set k.addr == l2Set u && k.addr != u)).length < 16 →
      ∃ t, exec (.homeGrant home agent line) s = .next t ∧ t.missOf agent u = none ∧
        t.lineOf agent u = some { addr := u, key := m.key, st := .e, data := data, poison := poison, l1 := m.l1 } ∧
        t.net = s.net.erase (.grant home agent u grE data poison) ∧ t.mem = s.mem ∧ t.regs = s.regs ∧
        (∀ a v, a ≠ agent.val ∨ v ≠ u →
          (t.lineOf a v).map (fun l => { l with l1 := false }) = (s.lineOf a v).map (fun l => { l with l1 := false }))) ∧
    ((.nak home agent u) ∈ s.net → s.linked roleCOH 6 (homeDie home) = true → ∃ t, exec (.homeNak home agent line) s = .next t ∧
      t.missOf agent u = (s.missOf agent u).map (fun m =>
        { m with naks := m.naks + 1, waiting := true, urgent := decide (8 ≤ m.naks + 1) }) ∧
      t.net = s.net.erase (.nak home agent u) ∧ t.homes = s.homes ∧ t.mem = s.mem ∧ t.regs = s.regs) ∧
    (∀ m, s.missOf agent u = some m → m.waiting = true → s.alive (s.agentDom agent) = true →
      (∀ l, s.lineOf agent u = some l → l.key = m.key) →
      let code := if m.req = rqUpg ∧ s.lineOf agent u = none then rqRdX else m.req
      ∃ t, exec (.nakRetry agent line) s = .next t ∧ t.net = s.net ++ [.req (homeOf u) agent u code m.urgent] ∧
        t.missOf agent u = some { m with waiting := false, req := code } ∧ t.homes = s.homes ∧ t.mem = s.mem ∧ t.regs = s.regs)

/-- Write-backs of slices and dead agents. A victim that its home accepts is in memory, and the fill that waited stands in its
place (R231). A snoop unanswered for 2 ms makes its agent dead in every home (R258); a home that reclaims it leaves no entry that
it owns, poisons those lines in memory and is done with it (R259). A refused store leaves the buffer, is reported to the core as
an asynchronous error and writes no memory (R239). -/
def Obligations.WriteBacksDeadAgentsRefusedStores : Prop :=
  ∀ s : State, s.Canonical →
    (∀ (slice : Fin 32) (line : BitVec 45) (w : SliceWait) (l : Line),
      (s.slice slice).waits.find? (fun w => w.addr == line.toNat) = some w → s.lineOf (96 + slice) w.addr = some l → l.st = .m →
      s.homeNear (homeOf w.addr) = true → s.homeOut (homeOf w.addr) = false →
      (∀ c, ∀ x ∈ (s.agent c).misses, x.held = false) →
      ∃ t, exec (.writebackAccepted slice line) s = .next t ∧ t.mem = (s.flushLine l).mem ∧ t.units = (s.flushLine l).units ∧
        t.lineOf (96 + slice) w.fill.addr = some w.fill ∧ (t.slice slice).waits = (s.slice slice).waits.erase w ∧
        (w.way, w.fill.addr) ∈ (t.slice slice).lru ∧ t.regs = s.regs ∧ t.net = s.net) ∧
    (∀ (home : Fin 36) (agent : Fin 128) (line : BitVec 45) (x : Txn) (t0 : Nat),
      x ∈ (s.home home).txns → x.addr = line.toNat → (agent.val, t0) ∈ x.due → t0 + 2000000 ≤ s.now → s.isDead agent = false →
      s.homeOut home = false →
      ∃ t, exec (.snoopTimeout home agent line) s = .next t ∧ t.isDead agent = true ∧
        (∀ h, h < 36 → agent.val ∈ (t.home h).reclaim) ∧ t.mem = s.mem ∧ t.agents = s.agents ∧ t.net = s.net) ∧
    (∀ (home : Fin 36) (agent : Fin 128), agent.val ∈ (s.home home).reclaim →
      (∀ x ∈ (s.home home).txns, ∀ e ∈ x.due, e.1 ≠ agent.val) →
      ∃ t, exec (.deadAgentReclaimed home agent) s = .next t ∧ agent.val ∉ (t.home home).reclaim ∧
        (∀ e ∈ (t.home home).dir, e.2 ≠ .owned agent) ∧
        (∀ u, (u, DirState.owned agent) ∈ (s.home home).dir → (t.unitMeta u).poison = true) ∧ t.mem = s.mem) ∧
    (∀ (c : Fin 96) (line : BitVec 45) (b : BufStore) (cls : Nat),
      (s.core c).buf.find? (fun b => overlap b.addr b.data.length (line.toNat / 64 * 64) 64) = some b →
      s.storeRefusal b.key b.addr = some cls →
      ∃ t, exec (.storeRefused c line) s = .next t ∧ (t.core c).buf = (s.core c).buf.erase b ∧
        (t.core c).asyncErr = (s.core c).asyncErr ++ [cls] ∧ t.mem = s.mem ∧ t.agents = s.agents ∧ t.regs = s.regs)

/-! ### Cores -/

/-- Loads and stores of a free core to memory of this device, where no stored bit has changed and no access depends on a load that has not
returned (R227, R230, R244, R262, R264). A cacheable load whose bytes are at hand returns them, and its line lies in the L1D; one that
misses asks the home of its line and waits, or waits in its queue at the slice behind an earlier miss. An uncached load returns the
bytes of memory. A cacheable store to a line held in E or M leaves the buffer for the line, which is then in M; one that misses
stays in the buffer, in pieces of 8 aligned bytes, and asks for the line, one to a line held in S for its ownership. An uncached
store that its home admits writes its bytes to memory. -/
def Obligations.LoadsAndStores : Prop :=
  ∀ (c : Fin 96) (addr : BitVec 57) (size : Nat) (v : Word) (dep : Depends) (s : State),
    s.Canonical → s.CoreFree c → s.CacheOk c addr.toNat size → s.flips = [] → dep = .none ∨ s.loadsDone c = true →
    let a := addr.toNat
    let u := a / 64 * 64
    let key := (s.core c).key
    let bs := leBytes v.toNat size
    let quiet (t : State) : Prop := t.regs = s.regs ∧ t.ts = s.ts ∧ (∀ k, k ≠ c.val → t.core k = s.core k)
    let bare (l : Line) : Line := { l with l1 := false }
    let buffered : List BufStore := (splitAt_ 8 a bs).map (fun p => { addr := p.1, data := p.2, attr := .normalWb, key := key })
    (∀ bytes, s.loadBytes c key a size = some bytes → bytes.any (fun b => b.2) = false →
      ∃ t, exec (.load c addr size ⟨.normalWb, dep⟩) s = .next t ∧
        (t.core c).loaded = BitVec.ofNat 64 (ofLeBytes (bytes.map (fun b => b.1))) ∧
        (∀ l, s.lineOf c u = some l → l.key = key → t.lineOf c u = some { l with l1 := true }) ∧
        (∀ k w, (t.lineOf k w).map bare = (s.lineOf k w).map bare) ∧ t.net = s.net ∧ t.mem = s.mem ∧ quiet t) ∧
    (s.lineOf c u = none → s.sliceHit c key u = none → s.mustQueue c u = false →
      ∃ t, exec (.load c addr size ⟨.normalWb, dep⟩) s = .next t ∧ .req (homeOf u) c u rqRdS false ∈ t.net ∧
        (t.missOf c u).map (fun m => (m.req, m.key, m.loads)) = some (rqRdS, key, [(a, size)]) ∧
        (t.core c).loaded = (s.core c).loaded ∧ t.mem = s.mem ∧ quiet t) ∧
    (s.lineOf c u = none → s.sliceHit c key u = none → s.missOf c u = none → s.mustQueue c u = true →
      ∃ t, exec (.load c addr size ⟨.normalWb, dep⟩) s = .next t ∧ t.net = s.net ∧
        (t.missOf c u).map (fun m => (m.req, m.held, m.loads)) = some (rqRdS, true, [(a, size)]) ∧
        (t.core c).loaded = (s.core c).loaded ∧ t.mem = s.mem ∧ quiet t) ∧
    (s.Admitted (naCore c) a size → (s.readMem key a size).2 = false →
      ∃ t, exec (.load c addr size ⟨.normalNc, dep⟩) s = .next t ∧
        (t.core c).loaded = BitVec.ofNat 64 (ofLeBytes (s.readMem key a size).1) ∧ t.agents = s.agents ∧ t.mem = s.mem ∧ quiet t) ∧
    (∀ l, s.lineOf c u = some l → l.key = key → l.st ≠ .s →
      ∃ t, exec (.store c addr size ⟨.normalWb, dep⟩ v) s = .next t ∧ (t.core c).buf = [] ∧
        t.lineOf c u = some { l with st := .m, data := layOver l.data u a bs } ∧
        (∀ k w, k ≠ c.val ∨ w ≠ u → t.lineOf k w = s.lineOf k w) ∧ t.net = s.net ∧ t.mem = s.mem ∧ quiet t) ∧
    (s.missOf c u = none → s.mustQueue c u = false →
      (s.lineOf c u = none → ∃ t, exec (.store c addr size ⟨.normalWb, dep⟩ v) s = .next t ∧
        .req (homeOf u) c u rqRdX false ∈ t.net ∧ (t.core c).buf = buffered ∧ t.mem = s.mem ∧ quiet t) ∧
      (∀ l, s.lineOf c u = some l → l.key = key → l.st = .s → ∃ t, exec (.store c addr size ⟨.normalWb, dep⟩ v) s = .next t ∧
        .req (homeOf u) c u rqUpg false ∈ t.net ∧ (t.core c).buf = buffered ∧
        t.lineOf c u = some l ∧ t.mem = s.mem ∧ quiet t)) ∧
    (s.Admitted (naCore c) a size → s.lineFree c (naCore c) u = true →
      ∃ t, exec (.store c addr size ⟨.normalNc, dep⟩ v) s = .next t ∧ (t.core c).buf = [] ∧
        t.mem = (s.writeMem key a bs false).mem ∧ t.units = (s.writeMem key a bs false).units ∧ quiet t)

/-- Atomic operations on a line that the core holds: the old value is loaded, and ADD, SWP and MAX leave the sum, the operand, the
greater value in the line, CAS its value where the old one equals the compare operand and nothing otherwise; every other byte of
the line, every other line and memory stay (R215, R267). That the core gets the old value is the model's choice (log entry 27), and
MAX compares as the free Config.maxSigned says. -/
def Obligations.AtomicsReturnOldValue : Prop :=
  ∀ (c : Fin 96) (addr : BitVec 57) (size : Nat) (v cmp : Word) (dep : Depends) (l : Line) (s : State),
    s.Canonical → s.CoreFree c → dep = .none ∨ s.loadsDone c = true → s.CacheOk c addr.toNat size → size = 4 ∨ size = 8 → addr.toNat % size = 0 →
    s.Holds c (addr.toNat / 64 * 64) l →
    let a := addr.toNat
    let u := a / 64 * 64
    let old := ofLeBytes ((l.data.drop (a % 64)).take size)
    let done (i : Instr) (new : Option Nat) : Prop :=
      ∃ t, exec i s = .next t ∧ (t.core c).loaded = BitVec.ofNat 64 old ∧
        t.lineOf c u = some (match new with
          | some w => { l with st := .m, data := layOver l.data u a (leBytes w size) }
          | none => l) ∧
        (∀ k w, k ≠ c.val ∨ w ≠ u → t.lineOf k w = s.lineOf k w) ∧ (∀ k, k ≠ c.val → t.core k = s.core k) ∧
        t.mem = s.mem ∧ t.regs = s.regs ∧ t.net = s.net
    done (.atomAdd c addr size ⟨.normalWb, dep⟩ v) (some (old + v.toNat)) ∧
    done (.atomSwp c addr size ⟨.normalWb, dep⟩ v) (some v.toNat) ∧
    done (.atomCas c addr size ⟨.normalWb, dep⟩ cmp v) (if old = cmp.toNat % 2 ^ (8 * size) then some v.toNat else none) ∧
    done (.atomMax c addr size ⟨.normalWb, dep⟩ v) (some (atomMaxOf size old v.toNat))

/-- A barrier of a free core with nothing outstanding completes at once; ORD.DEV brings the key index of HS_COREKEY into use (R263,
R390). ORD.LD with a load outstanding stays pending, and the core's accesses wait for it; ORD.ST first performs the buffered
stores; with a store to another device not acknowledged ORD.ST and ORD.FULL stay pending (R218; how a barrier waits is the
model's choice, log entry 26). -/
def Obligations.BarriersComplete : Prop :=
  ∀ (c : Fin 96) (s : State), s.Canonical → s.coreUp c = true →
    (s.CoreFree c → s.loadsDone c = true → s.storesAcked c = true →
      exec (.ordLd c) s = .next s ∧ exec (.ordSt c) s = .next s ∧ exec (.ordFull c) s = .next s ∧
      exec (.ordDev c) s = .next (s.setCore c { s.core c with key := s.fld (a_HS_COREKEY c) HS_COREKEY_KEYIDX })) ∧
    (s.CoreFree c → s.loadsDone c = false →
      let t := s.setCore c { s.core c with waitLd := true }
      exec (.ordLd c) s = .next t ∧
      ∀ (addr : BitVec 57) (size : Nat) (attr : MemAttr) (dep : Depends), exec (.load c addr size ⟨attr, dep⟩) t = .next t) ∧
    (s.CoreFree c → s.storesAcked c = false →
      exec (.ordSt c) s = .next (s.setCore c { s.core c with waitSt := true }) ∧
      exec (.ordFull c) s = .next (s.setCore c { s.core c with waitLd := true, waitSt := true })) ∧
    (∀ d, (s.core c).waitLd = false → (s.core c).waitDev = false →
      (s.setCore c { s.core c with waitSt := true }).drainStores c = some d → d.storesAcked c = true →
      ∃ t, exec (.ordSt c) s = .next t ∧ t.mem = d.mem ∧ t.agents = d.agents ∧ (t.core c).buf = [] ∧ (t.core c).waitSt = false)

/-- Hints bring a line to the L2 (shared, or exclusively for TOUCH.EX), or to the system cache slice of its address; for a line
already held they only mark it as wanted in L1 (R236). Registers, memory and the core's registers stay.

Cache maintenance over a line or a range about which nothing is under way (R237). After INV and CLINV no cache of the Headstock holds a line of the range; INV in
supervisor mode writes nothing to memory, and INV in user mode does what CLINV does. After CLEAN no line of the range is in M and
none is lost. -/
def Obligations.HintsAndCacheMaintenance : Prop :=
  (∀ (c : Fin 96) (addr : BitVec 57) (s : State),
      s.Canonical → s.coreUp c = true → addr.toNat < remoteBase → s.touchable c addr.toNat .normalWb = true →
      let u := addr.toNat / 64 * 64
      s.queueBusy c u = false →
      let quiet (t : State) : Prop := t.regs = s.regs ∧ t.mem = s.mem ∧ t.cores = s.cores
      (∀ ce ∈ [(Instr.touchL1 c addr .normalWb, rqRdS), (Instr.touchL2 c addr .normalWb, rqRdS),
          (Instr.touchEx c addr .normalWb, rqRdX)], s.lineOf c u = none →
        ∃ t, exec ce.1 s = .next t ∧ .req (homeOf u) c u ce.2 false ∈ t.net ∧
          (t.missOf c u).map (fun m => (m.req, m.key, m.loads)) = some (ce.2, (s.core c).key, []) ∧ quiet t) ∧
      (∀ cl ∈ [(Instr.touchL1 c addr .normalWb, true), (Instr.touchL2 c addr .normalWb, false),
          (Instr.touchEx c addr .normalWb, true)], ∀ l, s.lineOf c u = some l → l.key = (s.core c).key → l.st ≠ .s →
        ∃ t, exec cl.1 s = .next t ∧ t.lineOf c u = some { l with l1 := l.l1 || cl.2 } ∧ t.net = s.net ∧ quiet t) ∧
      (s.mayAllocate (s.quadOf c) u = true → s.lineOf (96 + sliceOf u) u = none → s.missOf (96 + sliceOf u) u = none →
        ∃ t, exec (.touchSc c addr .normalWb) s = .next t ∧ t.net = s.net ++ [.req (homeOf u) (96 + sliceOf u) u rqRdS false] ∧ quiet t)) ∧
  (∀ (c : Fin 96) (addr : BitVec 57) (scope : CmoScope) (s : State), s.Canonical → s.CoreFree c →
      let r := cmoRange addr.toNat scope
      s.cmoBusy r.1 r.2 = false →
      let inside (l : Line) : Prop := r.1 ≤ l.addr ∧ l.addr < r.2
      let empty (t : State) : Prop := ∀ k, ∀ l ∈ (t.agent k).lines, ¬ inside l
      let outside (t : State) : Prop := ∀ k v, v < r.1 ∨ r.2 ≤ v → t.lineOf k v = s.lineOf k v
      (∃ t, exec (.cmoInv c addr scope .normalWb false) s = .next t ∧ empty t ∧ outside t ∧ t.mem = s.mem ∧ t.regs = s.regs) ∧
      (∃ t, exec (.cmoInv c addr scope .normalWb true) s = .next t ∧ empty t ∧ outside t ∧
        exec (.cmoClinv c addr scope .normalWb) s = .next t) ∧
      (∃ t, exec (.cmoClean c addr scope .normalWb) s = .next t ∧ outside t ∧
        (∀ k, ∀ l ∈ (t.agent k).lines, inside l → l.st ≠ .m) ∧
        (∀ k v, (t.lineOf k v).isSome = (s.lineOf k v).isSome)))

/-- A core ATOM to a T3 address or to the tile store window changes no memory: the core takes a synchronous exception and a PROTO
fault is logged (R216). Through the window a core reaches only the T0 ranges claimed by the context whose CTXID is its key index;
any other access reads 0, writes nothing and logs a SEC fault (R391). -/
def Obligations.WindowAccessesAndRemoteAtomics : Prop :=
  ∀ (c : Fin 96) (addr : BitVec 57) (size : Nat) (v cmp : Word) (attr : MemAttr) (dep : Depends) (s : State),
    s.Canonical → s.CoreFree c → dep = .none ∨ s.loadsDone c = true →
    let a := addr.toNat
    let p := windowPart a
    let off := windowOff a
    let still (t : State) : Prop := t.mem = s.mem ∧ t.units = s.units ∧ t.ts = s.ts ∧ t.agents = s.agents ∧ t.regs = s.regs
    (∀ i ∈ [Instr.atomAdd c addr size ⟨attr, dep⟩ v, .atomSwp c addr size ⟨attr, dep⟩ v, .atomCas c addr size ⟨attr, dep⟩ cmp v,
        .atomMax c addr size ⟨attr, dep⟩ v], remoteBase ≤ a ∨ inWindow a size = true →
      ∃ t, exec i s = .next t ∧ still t ∧ (t.core c).exc = excAccess ∧ (t.core c).excAddr = a ∧
        t.held = (s.faultCore c cPROTO a size).held) ∧
    (1 ≤ size → size ≤ 8 → inWindow a size = true → s.windowUp a = true → s.windowHeld a = false →
      attr = .normalWb ∨ attr = .normalNc ∨ attr = .device →
      (s.windowOpen c a size = false →
        (∃ t, exec (.load c addr size ⟨attr, dep⟩) s = .next t ∧ still t ∧ (t.core c).loaded = 0 ∧
          t.held = (s.faultCore c cSEC a size).held) ∧
        (∃ t, exec (.store c addr size ⟨attr, dep⟩ v) s = .next t ∧ still t ∧ t.held = (s.faultCore c cSEC a size).held)) ∧
      (s.windowOpen c a size = true →
        (s.tsFlips = [] → (s.readTsP p off size).any (fun b => b.2) = false →
          ∃ t, exec (.load c addr size ⟨attr, dep⟩) s = .next t ∧ still t ∧
            (t.core c).loaded = BitVec.ofNat 64 (ofLeBytes ((s.readTsP p off size).map (fun b => b.1))) ∧ t.held = s.held) ∧
        (∃ t, exec (.store c addr size ⟨attr, dep⟩ v) s = .next t ∧ t.mem = s.mem ∧ t.regs = s.regs ∧ t.held = s.held ∧
          (∀ k, Sparse.get (fun _ => (0 : Byte)) t.ts k =
            if within k 1 (tsKey p off) size then (leBytes v.toNat size).getD (k - tsKey p off) 0
            else Sparse.get (fun _ => (0 : Byte)) s.ts k))))

/-! ### Requests to other devices -/

/-- A request whose table entry has no port that is UP is not sent: its descriptor completes at once with TIMEOUT, binding nothing, and a
LINK fault is logged, unless one was logged for the destination within the last millisecond (R150, R297, R299). -/
def Obligations.RequestWithoutPortTimesOut : Prop :=
  ∀ (p : Fin 24) (r : DRef) (kind pa len poison rctx rmode flag : Nat) (data : List Byte) (s : State),
    s.Canonical → r.slot < 192 → (∀ q ∈ s.listed (pa / 2 ^ 45), s.fld (a_FB_PORTSTAT q) FB_PORTSTAT_STATE ≠ 3) →
    let id := cid p r.slot
    let t := s.sendRemote p r kind pa len poison rctx rmode flag data
    let last := Sparse.get (fun _ => 0) s.linkFaultAt (pa / 2 ^ 45)
    t.outbox = s.outbox ∧ t.remotes = s.remotes ∧ s.sameRegs t id r.index ∧ t.mem = s.mem ∧ t.ts = s.ts ∧
      s.becomes t id r.index (fun e => s.completed p e stTIMEOUT 0) ∧
      (∀ d, s.findDesc id r.index = some d → d.kind = kMOVE → d.mvBind = true →
        ∀ b ∈ (t.part p).binds, ¬ (b.slot = r.slot ∧ b.group = d.len2)) ∧
      (last = 0 ∨ last - 1 + 1000000 ≤ s.now →
        t.held = (s.fault (pq p) { s.recordP cLINK p 27 with addr := pa / 2 ^ 45 * 2 ^ 45, sub := 0 }).held) ∧
      (last ≠ 0 → s.now < last - 1 + 1000000 → t.held = s.held)

end Statements
end

