-- ==== Sys2Proof/Laws/Sparse.lean ====
section
/-! SUPPORT. Sparse maps: reading after writing, and the canonical form, which put and drop keep. -/

namespace Sys2Proof.Machine

variable {V : Type} [DecidableEq V] {d : Nat → V}

omit [DecidableEq V] in
theorem Sparse.above_mono {m : Sparse V} {a b : Nat} (h : a ≤ b) (hm : Sparse.above b m = true) :
    Sparse.above a m = true := by
  induction m with
  | nil => rfl
  | cons e m ih =>
    obtain ⟨k, v⟩ := e
    simp only [Sparse.above, Bool.and_eq_true, decide_eq_true_eq] at hm ⊢
    exact ⟨by omega, hm.2⟩

omit [DecidableEq V] in
theorem Sparse.get_above {m : Sparse V} {b k : Nat} (hm : Sparse.above b m = true) (hk : k ≤ b) :
    Sparse.get d m k = d k := by
  induction m generalizing b with
  | nil => rfl
  | cons e m ih =>
    obtain ⟨a, v⟩ := e
    simp only [Sparse.above, Bool.and_eq_true, decide_eq_true_eq] at hm
    simp only [Sparse.get]
    rw [if_neg (by omega)]
    exact ih hm.2 (by omega)

/-- A write leaves every other key alone. -/
theorem Sparse.get_put_ne (m : Sparse V) {k k' : Nat} (v : V) (h : k' ≠ k) :
    Sparse.get d (Sparse.put d m k v) k' = Sparse.get d m k' := by
  induction m with
  | nil =>
    simp only [Sparse.put]
    split
    · rfl
    · simp only [Sparse.get]; rw [if_neg (Ne.symm h)]
  | cons e m ih =>
    obtain ⟨a, w⟩ := e
    simp only [Sparse.put]
    split
    · split
      · rfl
      · simp only [Sparse.get]; rw [if_neg (Ne.symm h)]
    · split
      · rename_i hka
        subst hka
        split
        · simp only [Sparse.get]; rw [if_neg (Ne.symm h)]
        · simp only [Sparse.get]; rw [if_neg (Ne.symm h), if_neg (Ne.symm h)]
      · simp only [Sparse.get]
        split
        · rfl
        · exact ih

theorem Sparse.above_put {m : Sparse V} {b k : Nat} (v : V) (hm : Sparse.above b m = true) (hk : b < k) :
    Sparse.above b (Sparse.put d m k v) = true := by
  induction m generalizing b with
  | nil => simp only [Sparse.put]; split <;> simp [Sparse.above, hk]
  | cons e m ih =>
    obtain ⟨a, w⟩ := e
    simp only [Sparse.above, Bool.and_eq_true, decide_eq_true_eq] at hm
    simp only [Sparse.put]
    split
    · split <;> simp [Sparse.above, *]
    · split
      · split
        · exact Sparse.above_mono (by omega) hm.2
        · rename_i hka _
          simp [Sparse.above, hka, hm.2]; omega
      · simp only [Sparse.above, Bool.and_eq_true, decide_eq_true_eq]
        exact ⟨hm.1, ih hm.2 (by omega)⟩

theorem Sparse.sorted_put {m : Sparse V} {k : Nat} (v : V) (hm : Sparse.sorted m = true) :
    Sparse.sorted (Sparse.put d m k v) = true := by
  cases m with
  | nil => simp only [Sparse.put]; split <;> rfl
  | cons e m =>
    obtain ⟨a, w⟩ := e
    simp only [Sparse.sorted] at hm
    simp only [Sparse.put]
    split
    · split <;> simp [Sparse.sorted, Sparse.above, *]
    · split
      · rename_i hka
        subst hka
        split
        · cases m with
          | nil => rfl
          | cons f m =>
            obtain ⟨c, u⟩ := f
            simp only [Sparse.above, Bool.and_eq_true] at hm
            exact hm.2
        · exact hm
      · exact Sparse.above_put v hm (by omega)

/-- A read of a key just written gives the written value. -/
theorem Sparse.get_put {m : Sparse V} {k : Nat} (v : V) (hm : Sparse.sorted m = true) :
    Sparse.get d (Sparse.put d m k v) k = v := by
  induction m with
  | nil => simp only [Sparse.put]; split <;> simp [Sparse.get, *]
  | cons e m ih =>
    obtain ⟨a, w⟩ := e
    simp only [Sparse.sorted] at hm
    simp only [Sparse.put]
    split
    · split
      · rename_i hv
        simp only [Sparse.get]
        rw [if_neg (by omega), hv]
        exact Sparse.get_above hm (by omega)
      · simp [Sparse.get]
    · split
      · rename_i hka
        subst hka
        split
        · rename_i hv
          rw [hv]
          exact Sparse.get_above hm (Nat.le_refl _)
        · simp [Sparse.get]
      · rename_i h1 h2
        simp only [Sparse.get]
        rw [if_neg (fun h => h2 h.symm)]
        refine ih ?_
        cases m with
        | nil => rfl
        | cons f m =>
          obtain ⟨c, u⟩ := f
          simp only [Sparse.above, Bool.and_eq_true] at hm
          exact hm.2

theorem Sparse.wf_sorted {m : Sparse V} (h : Sparse.wf d m = true) : Sparse.sorted m = true := by
  simp only [Sparse.wf, Bool.and_eq_true] at h
  exact h.1

theorem Sparse.all_put {m : Sparse V} {k : Nat} (v : V)
    (hm : m.all (fun e => decide (e.2 ≠ d e.1)) = true) :
    (Sparse.put d m k v).all (fun e => decide (e.2 ≠ d e.1)) = true := by
  induction m with
  | nil => simp only [Sparse.put]; split <;> simp [*]
  | cons e m ih =>
    obtain ⟨a, w⟩ := e
    simp only [List.all_cons, Bool.and_eq_true] at hm
    simp only [Sparse.put]
    split
    · split
      · simp only [List.all_cons, Bool.and_eq_true]; exact hm
      · simp only [List.all_cons, Bool.and_eq_true]; exact ⟨by simpa using ‹¬ v = d k›, hm⟩
    · split
      · split
        · exact hm.2
        · simp only [List.all_cons, Bool.and_eq_true]; exact ⟨by simpa using ‹¬ v = d k›, hm.2⟩
      · simp only [List.all_cons, Bool.and_eq_true]; exact ⟨hm.1, ih hm.2⟩

/-- A write keeps the canonical form. -/
theorem Sparse.wf_put {m : Sparse V} {k : Nat} (v : V) (hm : Sparse.wf d m = true) :
    Sparse.wf d (Sparse.put d m k v) = true := by
  simp only [Sparse.wf, Bool.and_eq_true] at hm ⊢
  exact ⟨Sparse.sorted_put v hm.1, Sparse.all_put v hm.2⟩

omit [DecidableEq V] in
theorem Sparse.above_drop {m : Sparse V} {b : Nat} (p : Nat → Bool) (hm : Sparse.above b m = true) :
    Sparse.above b (Sparse.drop p m) = true := by
  induction m generalizing b with
  | nil => rfl
  | cons e m ih =>
    obtain ⟨a, w⟩ := e
    simp only [Sparse.above, Bool.and_eq_true, decide_eq_true_eq] at hm
    simp only [Sparse.drop, List.filter_cons]
    split
    · simp only [Sparse.above, Bool.and_eq_true, decide_eq_true_eq]
      exact ⟨hm.1, ih hm.2⟩
    · exact Sparse.above_mono (by omega) (ih hm.2)

/-- Dropping keys keeps the canonical form. -/
theorem Sparse.wf_drop {m : Sparse V} (p : Nat → Bool) (hm : Sparse.wf d m = true) :
    Sparse.wf d (Sparse.drop p m) = true := by
  simp only [Sparse.wf, Bool.and_eq_true] at hm ⊢
  refine ⟨?_, ?_⟩
  · cases m with
    | nil => rfl
    | cons e m =>
      obtain ⟨a, w⟩ := e
      have h1 := hm.1
      simp only [Sparse.sorted] at h1
      simp only [Sparse.drop, List.filter_cons]
      split
      · exact Sparse.above_drop p h1
      · have h2 := Sparse.above_drop p h1
        simp only [Sparse.drop] at h2
        cases hc : List.filter (fun e => !p e.1) m with
        | nil => rfl
        | cons f l =>
          obtain ⟨c, u⟩ := f
          rw [hc] at h2
          simp only [Sparse.above, Bool.and_eq_true] at h2
          exact h2.2
  · simp only [Sparse.drop, List.all_eq_true, List.mem_filter] at hm ⊢
    intro e he
    exact hm.2 e he.1

omit [DecidableEq V] in
/-- A dropped key reads as the default, every other as before. -/
theorem Sparse.get_drop (m : Sparse V) (p : Nat → Bool) (k : Nat) :
    Sparse.get d (Sparse.drop p m) k = if p k then d k else Sparse.get d m k := by
  induction m with
  | nil => simp [Sparse.drop, Sparse.get]
  | cons e m ih =>
    obtain ⟨a, w⟩ := e
    simp only [Sparse.drop, List.filter_cons] at ih ⊢
    by_cases hp : p a
    · simp only [hp, Bool.not_true, Bool.false_eq_true, if_false, ih, Sparse.get]
      by_cases hk : a = k
      · subst hk; simp [hp]
      · simp [hk]
    · simp only [hp, Bool.not_false, if_true, Sparse.get, ih]
      by_cases hk : a = k
      · subst hk; simp [hp]
      · simp [hk]

end Sys2Proof.Machine
end

