-- ==== Sys2Proof/Laws/State.lean ====
section
/-! SUPPORT. What each update of the state leaves alone: every other field, by rfl. -/

namespace Sys2Proof.Machine.State

@[simp] theorem wr_frame (s : State) (a : Nat) (w : Word) :
    (s.wr a w).pending = s.pending ∧ (s.wr a w).now = s.now ∧ (s.wr a w).fresh = s.fresh ∧ (s.wr a w).lastRead = s.lastRead ∧
    (s.wr a w).staged = s.staged ∧ (s.wr a w).mem = s.mem ∧ (s.wr a w).units = s.units ∧ (s.wr a w).ts = s.ts ∧
    (s.wr a w).tsPoison = s.tsPoison ∧ (s.wr a w).tsDirty = s.tsDirty ∧ (s.wr a w).flips = s.flips ∧
    (s.wr a w).tsFlips = s.tsFlips ∧ (s.wr a w).t2Era = s.t2Era ∧ (s.wr a w).sram = s.sram ∧ (s.wr a w).flash = s.flash ∧
    (s.wr a w).flashFitted = s.flashFitted ∧ (s.wr a w).keys = s.keys ∧ (s.wr a w).ctxs = s.ctxs ∧ (s.wr a w).parts = s.parts
    ∧ (s.wr a w).jobs = s.jobs ∧ (s.wr a w).epochs = s.epochs ∧ (s.wr a w).bead = s.bead ∧ (s.wr a w).semWaits = s.semWaits ∧
    (s.wr a w).barWaits = s.barWaits ∧ (s.wr a w).homes = s.homes ∧ (s.wr a w).agents = s.agents ∧
    (s.wr a w).slices = s.slices ∧ (s.wr a w).cores = s.cores ∧ (s.wr a w).net = s.net ∧ (s.wr a w).asks = s.asks ∧
    (s.wr a w).naRead = s.naRead ∧ (s.wr a w).doms = s.doms ∧ (s.wr a w).dies = s.dies ∧ (s.wr a w).lowered = s.lowered ∧
    (s.wr a w).governedAt = s.governedAt ∧ (s.wr a w).tsyncAt = s.tsyncAt ∧ (s.wr a w).budgetAt = s.budgetAt ∧
    (s.wr a w).sensedAt = s.sensedAt ∧ (s.wr a w).links = s.links ∧ (s.wr a w).queues = s.queues ∧ (s.wr a w).fns = s.fns ∧
    (s.wr a w).hostLink = s.hostLink ∧ (s.wr a w).ports = s.ports ∧ (s.wr a w).remotes = s.remotes ∧
    (s.wr a w).nextTag = s.nextTag ∧ (s.wr a w).linkFaultAt = s.linkFaultAt ∧ (s.wr a w).held = s.held ∧
    (s.wr a w).devRing = s.devRing ∧ (s.wr a w).devFatal = s.devFatal ∧ (s.wr a w).volLog = s.volLog ∧
    (s.wr a w).perLog = s.perLog ∧ (s.wr a w).dumps = s.dumps ∧ (s.wr a w).chans = s.chans ∧ (s.wr a w).sessions = s.sessions
    ∧ (s.wr a w).measures = s.measures ∧ (s.wr a w).mg = s.mg ∧ (s.wr a w).pins = s.pins ∧ (s.wr a w).outbox = s.outbox := by
  and_intros <;> rfl

@[simp] theorem stage_frame (s : State) (a : Nat) (w : Word) :
    (s.stage a w).pending = s.pending ∧ (s.stage a w).now = s.now ∧ (s.stage a w).fresh = s.fresh ∧
    (s.stage a w).lastRead = s.lastRead ∧ (s.stage a w).regs = s.regs ∧ (s.stage a w).mem = s.mem ∧
    (s.stage a w).units = s.units ∧ (s.stage a w).ts = s.ts ∧ (s.stage a w).tsPoison = s.tsPoison ∧
    (s.stage a w).tsDirty = s.tsDirty ∧ (s.stage a w).flips = s.flips ∧ (s.stage a w).tsFlips = s.tsFlips ∧
    (s.stage a w).t2Era = s.t2Era ∧ (s.stage a w).sram = s.sram ∧ (s.stage a w).flash = s.flash ∧
    (s.stage a w).flashFitted = s.flashFitted ∧ (s.stage a w).keys = s.keys ∧ (s.stage a w).ctxs = s.ctxs ∧
    (s.stage a w).parts = s.parts ∧ (s.stage a w).jobs = s.jobs ∧ (s.stage a w).epochs = s.epochs ∧
    (s.stage a w).bead = s.bead ∧ (s.stage a w).semWaits = s.semWaits ∧ (s.stage a w).barWaits = s.barWaits ∧
    (s.stage a w).homes = s.homes ∧ (s.stage a w).agents = s.agents ∧ (s.stage a w).slices = s.slices ∧
    (s.stage a w).cores = s.cores ∧ (s.stage a w).net = s.net ∧ (s.stage a w).asks = s.asks ∧ (s.stage a w).naRead = s.naRead
    ∧ (s.stage a w).doms = s.doms ∧ (s.stage a w).dies = s.dies ∧ (s.stage a w).lowered = s.lowered ∧
    (s.stage a w).governedAt = s.governedAt ∧ (s.stage a w).tsyncAt = s.tsyncAt ∧ (s.stage a w).budgetAt = s.budgetAt ∧
    (s.stage a w).sensedAt = s.sensedAt ∧ (s.stage a w).links = s.links ∧ (s.stage a w).queues = s.queues ∧
    (s.stage a w).fns = s.fns ∧ (s.stage a w).hostLink = s.hostLink ∧ (s.stage a w).ports = s.ports ∧
    (s.stage a w).remotes = s.remotes ∧ (s.stage a w).nextTag = s.nextTag ∧ (s.stage a w).linkFaultAt = s.linkFaultAt ∧
    (s.stage a w).held = s.held ∧ (s.stage a w).devRing = s.devRing ∧ (s.stage a w).devFatal = s.devFatal ∧
    (s.stage a w).volLog = s.volLog ∧ (s.stage a w).perLog = s.perLog ∧ (s.stage a w).dumps = s.dumps ∧
    (s.stage a w).chans = s.chans ∧ (s.stage a w).sessions = s.sessions ∧ (s.stage a w).measures = s.measures ∧
    (s.stage a w).mg = s.mg ∧ (s.stage a w).pins = s.pins ∧ (s.stage a w).outbox = s.outbox := by
  and_intros <;> rfl

@[simp] theorem setPart_frame (s : State) (p : Nat) (x : Part) :
    (s.setPart p x).pending = s.pending ∧ (s.setPart p x).now = s.now ∧ (s.setPart p x).fresh = s.fresh ∧
    (s.setPart p x).lastRead = s.lastRead ∧ (s.setPart p x).regs = s.regs ∧ (s.setPart p x).staged = s.staged ∧
    (s.setPart p x).mem = s.mem ∧ (s.setPart p x).units = s.units ∧ (s.setPart p x).ts = s.ts ∧
    (s.setPart p x).tsPoison = s.tsPoison ∧ (s.setPart p x).tsDirty = s.tsDirty ∧ (s.setPart p x).flips = s.flips ∧
    (s.setPart p x).tsFlips = s.tsFlips ∧ (s.setPart p x).t2Era = s.t2Era ∧ (s.setPart p x).sram = s.sram ∧
    (s.setPart p x).flash = s.flash ∧ (s.setPart p x).flashFitted = s.flashFitted ∧ (s.setPart p x).keys = s.keys ∧
    (s.setPart p x).ctxs = s.ctxs ∧ (s.setPart p x).jobs = s.jobs ∧ (s.setPart p x).epochs = s.epochs ∧
    (s.setPart p x).bead = s.bead ∧ (s.setPart p x).semWaits = s.semWaits ∧ (s.setPart p x).barWaits = s.barWaits ∧
    (s.setPart p x).homes = s.homes ∧ (s.setPart p x).agents = s.agents ∧ (s.setPart p x).slices = s.slices ∧
    (s.setPart p x).cores = s.cores ∧ (s.setPart p x).net = s.net ∧ (s.setPart p x).asks = s.asks ∧
    (s.setPart p x).naRead = s.naRead ∧ (s.setPart p x).doms = s.doms ∧ (s.setPart p x).dies = s.dies ∧
    (s.setPart p x).lowered = s.lowered ∧ (s.setPart p x).governedAt = s.governedAt ∧ (s.setPart p x).tsyncAt = s.tsyncAt ∧
    (s.setPart p x).budgetAt = s.budgetAt ∧ (s.setPart p x).sensedAt = s.sensedAt ∧ (s.setPart p x).links = s.links ∧
    (s.setPart p x).queues = s.queues ∧ (s.setPart p x).fns = s.fns ∧ (s.setPart p x).hostLink = s.hostLink ∧
    (s.setPart p x).ports = s.ports ∧ (s.setPart p x).remotes = s.remotes ∧ (s.setPart p x).nextTag = s.nextTag ∧
    (s.setPart p x).linkFaultAt = s.linkFaultAt ∧ (s.setPart p x).held = s.held ∧ (s.setPart p x).devRing = s.devRing ∧
    (s.setPart p x).devFatal = s.devFatal ∧ (s.setPart p x).volLog = s.volLog ∧ (s.setPart p x).perLog = s.perLog ∧
    (s.setPart p x).dumps = s.dumps ∧ (s.setPart p x).chans = s.chans ∧ (s.setPart p x).sessions = s.sessions ∧
    (s.setPart p x).measures = s.measures ∧ (s.setPart p x).mg = s.mg ∧ (s.setPart p x).pins = s.pins ∧
    (s.setPart p x).outbox = s.outbox := by
  and_intros <;> rfl

@[simp] theorem setCtx_frame (s : State) (id : Nat) (x : Ctx) :
    (s.setCtx id x).pending = s.pending ∧ (s.setCtx id x).now = s.now ∧ (s.setCtx id x).fresh = s.fresh ∧
    (s.setCtx id x).lastRead = s.lastRead ∧ (s.setCtx id x).regs = s.regs ∧ (s.setCtx id x).staged = s.staged ∧
    (s.setCtx id x).mem = s.mem ∧ (s.setCtx id x).units = s.units ∧ (s.setCtx id x).ts = s.ts ∧
    (s.setCtx id x).tsPoison = s.tsPoison ∧ (s.setCtx id x).tsDirty = s.tsDirty ∧ (s.setCtx id x).flips = s.flips ∧
    (s.setCtx id x).tsFlips = s.tsFlips ∧ (s.setCtx id x).t2Era = s.t2Era ∧ (s.setCtx id x).sram = s.sram ∧
    (s.setCtx id x).flash = s.flash ∧ (s.setCtx id x).flashFitted = s.flashFitted ∧ (s.setCtx id x).keys = s.keys ∧
    (s.setCtx id x).parts = s.parts ∧ (s.setCtx id x).jobs = s.jobs ∧ (s.setCtx id x).epochs = s.epochs ∧
    (s.setCtx id x).bead = s.bead ∧ (s.setCtx id x).semWaits = s.semWaits ∧ (s.setCtx id x).barWaits = s.barWaits ∧
    (s.setCtx id x).homes = s.homes ∧ (s.setCtx id x).agents = s.agents ∧ (s.setCtx id x).slices = s.slices ∧
    (s.setCtx id x).cores = s.cores ∧ (s.setCtx id x).net = s.net ∧ (s.setCtx id x).asks = s.asks ∧
    (s.setCtx id x).naRead = s.naRead ∧ (s.setCtx id x).doms = s.doms ∧ (s.setCtx id x).dies = s.dies ∧
    (s.setCtx id x).lowered = s.lowered ∧ (s.setCtx id x).governedAt = s.governedAt ∧ (s.setCtx id x).tsyncAt = s.tsyncAt ∧
    (s.setCtx id x).budgetAt = s.budgetAt ∧ (s.setCtx id x).sensedAt = s.sensedAt ∧ (s.setCtx id x).links = s.links ∧
    (s.setCtx id x).queues = s.queues ∧ (s.setCtx id x).fns = s.fns ∧ (s.setCtx id x).hostLink = s.hostLink ∧
    (s.setCtx id x).ports = s.ports ∧ (s.setCtx id x).remotes = s.remotes ∧ (s.setCtx id x).nextTag = s.nextTag ∧
    (s.setCtx id x).linkFaultAt = s.linkFaultAt ∧ (s.setCtx id x).held = s.held ∧ (s.setCtx id x).devRing = s.devRing ∧
    (s.setCtx id x).devFatal = s.devFatal ∧ (s.setCtx id x).volLog = s.volLog ∧ (s.setCtx id x).perLog = s.perLog ∧
    (s.setCtx id x).dumps = s.dumps ∧ (s.setCtx id x).chans = s.chans ∧ (s.setCtx id x).sessions = s.sessions ∧
    (s.setCtx id x).measures = s.measures ∧ (s.setCtx id x).mg = s.mg ∧ (s.setCtx id x).pins = s.pins ∧
    (s.setCtx id x).outbox = s.outbox := by
  and_intros <;> rfl

@[simp] theorem setHome_frame (s : State) (h : Nat) (x : Home) :
    (s.setHome h x).pending = s.pending ∧ (s.setHome h x).now = s.now ∧ (s.setHome h x).fresh = s.fresh ∧
    (s.setHome h x).lastRead = s.lastRead ∧ (s.setHome h x).regs = s.regs ∧ (s.setHome h x).staged = s.staged ∧
    (s.setHome h x).mem = s.mem ∧ (s.setHome h x).units = s.units ∧ (s.setHome h x).ts = s.ts ∧
    (s.setHome h x).tsPoison = s.tsPoison ∧ (s.setHome h x).tsDirty = s.tsDirty ∧ (s.setHome h x).flips = s.flips ∧
    (s.setHome h x).tsFlips = s.tsFlips ∧ (s.setHome h x).t2Era = s.t2Era ∧ (s.setHome h x).sram = s.sram ∧
    (s.setHome h x).flash = s.flash ∧ (s.setHome h x).flashFitted = s.flashFitted ∧ (s.setHome h x).keys = s.keys ∧
    (s.setHome h x).ctxs = s.ctxs ∧ (s.setHome h x).parts = s.parts ∧ (s.setHome h x).jobs = s.jobs ∧
    (s.setHome h x).epochs = s.epochs ∧ (s.setHome h x).bead = s.bead ∧ (s.setHome h x).semWaits = s.semWaits ∧
    (s.setHome h x).barWaits = s.barWaits ∧ (s.setHome h x).agents = s.agents ∧ (s.setHome h x).slices = s.slices ∧
    (s.setHome h x).cores = s.cores ∧ (s.setHome h x).net = s.net ∧ (s.setHome h x).asks = s.asks ∧
    (s.setHome h x).naRead = s.naRead ∧ (s.setHome h x).doms = s.doms ∧ (s.setHome h x).dies = s.dies ∧
    (s.setHome h x).lowered = s.lowered ∧ (s.setHome h x).governedAt = s.governedAt ∧ (s.setHome h x).tsyncAt = s.tsyncAt ∧
    (s.setHome h x).budgetAt = s.budgetAt ∧ (s.setHome h x).sensedAt = s.sensedAt ∧ (s.setHome h x).links = s.links ∧
    (s.setHome h x).queues = s.queues ∧ (s.setHome h x).fns = s.fns ∧ (s.setHome h x).hostLink = s.hostLink ∧
    (s.setHome h x).ports = s.ports ∧ (s.setHome h x).remotes = s.remotes ∧ (s.setHome h x).nextTag = s.nextTag ∧
    (s.setHome h x).linkFaultAt = s.linkFaultAt ∧ (s.setHome h x).held = s.held ∧ (s.setHome h x).devRing = s.devRing ∧
    (s.setHome h x).devFatal = s.devFatal ∧ (s.setHome h x).volLog = s.volLog ∧ (s.setHome h x).perLog = s.perLog ∧
    (s.setHome h x).dumps = s.dumps ∧ (s.setHome h x).chans = s.chans ∧ (s.setHome h x).sessions = s.sessions ∧
    (s.setHome h x).measures = s.measures ∧ (s.setHome h x).mg = s.mg ∧ (s.setHome h x).pins = s.pins ∧
    (s.setHome h x).outbox = s.outbox := by
  and_intros <;> rfl

@[simp] theorem setAgent_frame (s : State) (a : Nat) (x : Agent) :
    (s.setAgent a x).pending = s.pending ∧ (s.setAgent a x).now = s.now ∧ (s.setAgent a x).fresh = s.fresh ∧
    (s.setAgent a x).lastRead = s.lastRead ∧ (s.setAgent a x).regs = s.regs ∧ (s.setAgent a x).staged = s.staged ∧
    (s.setAgent a x).mem = s.mem ∧ (s.setAgent a x).units = s.units ∧ (s.setAgent a x).ts = s.ts ∧
    (s.setAgent a x).tsPoison = s.tsPoison ∧ (s.setAgent a x).tsDirty = s.tsDirty ∧ (s.setAgent a x).flips = s.flips ∧
    (s.setAgent a x).tsFlips = s.tsFlips ∧ (s.setAgent a x).t2Era = s.t2Era ∧ (s.setAgent a x).sram = s.sram ∧
    (s.setAgent a x).flash = s.flash ∧ (s.setAgent a x).flashFitted = s.flashFitted ∧ (s.setAgent a x).keys = s.keys ∧
    (s.setAgent a x).ctxs = s.ctxs ∧ (s.setAgent a x).parts = s.parts ∧ (s.setAgent a x).jobs = s.jobs ∧
    (s.setAgent a x).epochs = s.epochs ∧ (s.setAgent a x).bead = s.bead ∧ (s.setAgent a x).semWaits = s.semWaits ∧
    (s.setAgent a x).barWaits = s.barWaits ∧ (s.setAgent a x).homes = s.homes ∧ (s.setAgent a x).slices = s.slices ∧
    (s.setAgent a x).cores = s.cores ∧ (s.setAgent a x).net = s.net ∧ (s.setAgent a x).asks = s.asks ∧
    (s.setAgent a x).naRead = s.naRead ∧ (s.setAgent a x).doms = s.doms ∧ (s.setAgent a x).dies = s.dies ∧
    (s.setAgent a x).lowered = s.lowered ∧ (s.setAgent a x).governedAt = s.governedAt ∧ (s.setAgent a x).tsyncAt = s.tsyncAt ∧
    (s.setAgent a x).budgetAt = s.budgetAt ∧ (s.setAgent a x).sensedAt = s.sensedAt ∧ (s.setAgent a x).links = s.links ∧
    (s.setAgent a x).queues = s.queues ∧ (s.setAgent a x).fns = s.fns ∧ (s.setAgent a x).hostLink = s.hostLink ∧
    (s.setAgent a x).ports = s.ports ∧ (s.setAgent a x).remotes = s.remotes ∧ (s.setAgent a x).nextTag = s.nextTag ∧
    (s.setAgent a x).linkFaultAt = s.linkFaultAt ∧ (s.setAgent a x).held = s.held ∧ (s.setAgent a x).devRing = s.devRing ∧
    (s.setAgent a x).devFatal = s.devFatal ∧ (s.setAgent a x).volLog = s.volLog ∧ (s.setAgent a x).perLog = s.perLog ∧
    (s.setAgent a x).dumps = s.dumps ∧ (s.setAgent a x).chans = s.chans ∧ (s.setAgent a x).sessions = s.sessions ∧
    (s.setAgent a x).measures = s.measures ∧ (s.setAgent a x).mg = s.mg ∧ (s.setAgent a x).pins = s.pins ∧
    (s.setAgent a x).outbox = s.outbox := by
  and_intros <;> rfl

@[simp] theorem setSlice_frame (s : State) (k : Nat) (x : Slice) :
    (s.setSlice k x).pending = s.pending ∧ (s.setSlice k x).now = s.now ∧ (s.setSlice k x).fresh = s.fresh ∧
    (s.setSlice k x).lastRead = s.lastRead ∧ (s.setSlice k x).regs = s.regs ∧ (s.setSlice k x).staged = s.staged ∧
    (s.setSlice k x).mem = s.mem ∧ (s.setSlice k x).units = s.units ∧ (s.setSlice k x).ts = s.ts ∧
    (s.setSlice k x).tsPoison = s.tsPoison ∧ (s.setSlice k x).tsDirty = s.tsDirty ∧ (s.setSlice k x).flips = s.flips ∧
    (s.setSlice k x).tsFlips = s.tsFlips ∧ (s.setSlice k x).t2Era = s.t2Era ∧ (s.setSlice k x).sram = s.sram ∧
    (s.setSlice k x).flash = s.flash ∧ (s.setSlice k x).flashFitted = s.flashFitted ∧ (s.setSlice k x).keys = s.keys ∧
    (s.setSlice k x).ctxs = s.ctxs ∧ (s.setSlice k x).parts = s.parts ∧ (s.setSlice k x).jobs = s.jobs ∧
    (s.setSlice k x).epochs = s.epochs ∧ (s.setSlice k x).bead = s.bead ∧ (s.setSlice k x).semWaits = s.semWaits ∧
    (s.setSlice k x).barWaits = s.barWaits ∧ (s.setSlice k x).homes = s.homes ∧ (s.setSlice k x).agents = s.agents ∧
    (s.setSlice k x).cores = s.cores ∧ (s.setSlice k x).net = s.net ∧ (s.setSlice k x).asks = s.asks ∧
    (s.setSlice k x).naRead = s.naRead ∧ (s.setSlice k x).doms = s.doms ∧ (s.setSlice k x).dies = s.dies ∧
    (s.setSlice k x).lowered = s.lowered ∧ (s.setSlice k x).governedAt = s.governedAt ∧ (s.setSlice k x).tsyncAt = s.tsyncAt ∧
    (s.setSlice k x).budgetAt = s.budgetAt ∧ (s.setSlice k x).sensedAt = s.sensedAt ∧ (s.setSlice k x).links = s.links ∧
    (s.setSlice k x).queues = s.queues ∧ (s.setSlice k x).fns = s.fns ∧ (s.setSlice k x).hostLink = s.hostLink ∧
    (s.setSlice k x).ports = s.ports ∧ (s.setSlice k x).remotes = s.remotes ∧ (s.setSlice k x).nextTag = s.nextTag ∧
    (s.setSlice k x).linkFaultAt = s.linkFaultAt ∧ (s.setSlice k x).held = s.held ∧ (s.setSlice k x).devRing = s.devRing ∧
    (s.setSlice k x).devFatal = s.devFatal ∧ (s.setSlice k x).volLog = s.volLog ∧ (s.setSlice k x).perLog = s.perLog ∧
    (s.setSlice k x).dumps = s.dumps ∧ (s.setSlice k x).chans = s.chans ∧ (s.setSlice k x).sessions = s.sessions ∧
    (s.setSlice k x).measures = s.measures ∧ (s.setSlice k x).mg = s.mg ∧ (s.setSlice k x).pins = s.pins ∧
    (s.setSlice k x).outbox = s.outbox := by
  and_intros <;> rfl

@[simp] theorem setCore_frame (s : State) (c : Nat) (x : CoreSt) :
    (s.setCore c x).pending = s.pending ∧ (s.setCore c x).now = s.now ∧ (s.setCore c x).fresh = s.fresh ∧
    (s.setCore c x).lastRead = s.lastRead ∧ (s.setCore c x).regs = s.regs ∧ (s.setCore c x).staged = s.staged ∧
    (s.setCore c x).mem = s.mem ∧ (s.setCore c x).units = s.units ∧ (s.setCore c x).ts = s.ts ∧
    (s.setCore c x).tsPoison = s.tsPoison ∧ (s.setCore c x).tsDirty = s.tsDirty ∧ (s.setCore c x).flips = s.flips ∧
    (s.setCore c x).tsFlips = s.tsFlips ∧ (s.setCore c x).t2Era = s.t2Era ∧ (s.setCore c x).sram = s.sram ∧
    (s.setCore c x).flash = s.flash ∧ (s.setCore c x).flashFitted = s.flashFitted ∧ (s.setCore c x).keys = s.keys ∧
    (s.setCore c x).ctxs = s.ctxs ∧ (s.setCore c x).parts = s.parts ∧ (s.setCore c x).jobs = s.jobs ∧
    (s.setCore c x).epochs = s.epochs ∧ (s.setCore c x).bead = s.bead ∧ (s.setCore c x).semWaits = s.semWaits ∧
    (s.setCore c x).barWaits = s.barWaits ∧ (s.setCore c x).homes = s.homes ∧ (s.setCore c x).agents = s.agents ∧
    (s.setCore c x).slices = s.slices ∧ (s.setCore c x).net = s.net ∧ (s.setCore c x).asks = s.asks ∧
    (s.setCore c x).naRead = s.naRead ∧ (s.setCore c x).doms = s.doms ∧ (s.setCore c x).dies = s.dies ∧
    (s.setCore c x).lowered = s.lowered ∧ (s.setCore c x).governedAt = s.governedAt ∧ (s.setCore c x).tsyncAt = s.tsyncAt ∧
    (s.setCore c x).budgetAt = s.budgetAt ∧ (s.setCore c x).sensedAt = s.sensedAt ∧ (s.setCore c x).links = s.links ∧
    (s.setCore c x).queues = s.queues ∧ (s.setCore c x).fns = s.fns ∧ (s.setCore c x).hostLink = s.hostLink ∧
    (s.setCore c x).ports = s.ports ∧ (s.setCore c x).remotes = s.remotes ∧ (s.setCore c x).nextTag = s.nextTag ∧
    (s.setCore c x).linkFaultAt = s.linkFaultAt ∧ (s.setCore c x).held = s.held ∧ (s.setCore c x).devRing = s.devRing ∧
    (s.setCore c x).devFatal = s.devFatal ∧ (s.setCore c x).volLog = s.volLog ∧ (s.setCore c x).perLog = s.perLog ∧
    (s.setCore c x).dumps = s.dumps ∧ (s.setCore c x).chans = s.chans ∧ (s.setCore c x).sessions = s.sessions ∧
    (s.setCore c x).measures = s.measures ∧ (s.setCore c x).mg = s.mg ∧ (s.setCore c x).pins = s.pins ∧
    (s.setCore c x).outbox = s.outbox := by
  and_intros <;> rfl

@[simp] theorem setDom_frame (s : State) (i : Nat) (x : Dom) :
    (s.setDom i x).pending = s.pending ∧ (s.setDom i x).now = s.now ∧ (s.setDom i x).fresh = s.fresh ∧
    (s.setDom i x).lastRead = s.lastRead ∧ (s.setDom i x).regs = s.regs ∧ (s.setDom i x).staged = s.staged ∧
    (s.setDom i x).mem = s.mem ∧ (s.setDom i x).units = s.units ∧ (s.setDom i x).ts = s.ts ∧
    (s.setDom i x).tsPoison = s.tsPoison ∧ (s.setDom i x).tsDirty = s.tsDirty ∧ (s.setDom i x).flips = s.flips ∧
    (s.setDom i x).tsFlips = s.tsFlips ∧ (s.setDom i x).t2Era = s.t2Era ∧ (s.setDom i x).sram = s.sram ∧
    (s.setDom i x).flash = s.flash ∧ (s.setDom i x).flashFitted = s.flashFitted ∧ (s.setDom i x).keys = s.keys ∧
    (s.setDom i x).ctxs = s.ctxs ∧ (s.setDom i x).parts = s.parts ∧ (s.setDom i x).jobs = s.jobs ∧
    (s.setDom i x).epochs = s.epochs ∧ (s.setDom i x).bead = s.bead ∧ (s.setDom i x).semWaits = s.semWaits ∧
    (s.setDom i x).barWaits = s.barWaits ∧ (s.setDom i x).homes = s.homes ∧ (s.setDom i x).agents = s.agents ∧
    (s.setDom i x).slices = s.slices ∧ (s.setDom i x).cores = s.cores ∧ (s.setDom i x).net = s.net ∧
    (s.setDom i x).asks = s.asks ∧ (s.setDom i x).naRead = s.naRead ∧ (s.setDom i x).dies = s.dies ∧
    (s.setDom i x).lowered = s.lowered ∧ (s.setDom i x).governedAt = s.governedAt ∧ (s.setDom i x).tsyncAt = s.tsyncAt ∧
    (s.setDom i x).budgetAt = s.budgetAt ∧ (s.setDom i x).sensedAt = s.sensedAt ∧ (s.setDom i x).links = s.links ∧
    (s.setDom i x).queues = s.queues ∧ (s.setDom i x).fns = s.fns ∧ (s.setDom i x).hostLink = s.hostLink ∧
    (s.setDom i x).ports = s.ports ∧ (s.setDom i x).remotes = s.remotes ∧ (s.setDom i x).nextTag = s.nextTag ∧
    (s.setDom i x).linkFaultAt = s.linkFaultAt ∧ (s.setDom i x).held = s.held ∧ (s.setDom i x).devRing = s.devRing ∧
    (s.setDom i x).devFatal = s.devFatal ∧ (s.setDom i x).volLog = s.volLog ∧ (s.setDom i x).perLog = s.perLog ∧
    (s.setDom i x).dumps = s.dumps ∧ (s.setDom i x).chans = s.chans ∧ (s.setDom i x).sessions = s.sessions ∧
    (s.setDom i x).measures = s.measures ∧ (s.setDom i x).mg = s.mg ∧ (s.setDom i x).pins = s.pins ∧
    (s.setDom i x).outbox = s.outbox := by
  and_intros <;> rfl

@[simp] theorem setDie_frame (s : State) (d : Nat) (x : Die) :
    (s.setDie d x).pending = s.pending ∧ (s.setDie d x).now = s.now ∧ (s.setDie d x).fresh = s.fresh ∧
    (s.setDie d x).lastRead = s.lastRead ∧ (s.setDie d x).regs = s.regs ∧ (s.setDie d x).staged = s.staged ∧
    (s.setDie d x).mem = s.mem ∧ (s.setDie d x).units = s.units ∧ (s.setDie d x).ts = s.ts ∧
    (s.setDie d x).tsPoison = s.tsPoison ∧ (s.setDie d x).tsDirty = s.tsDirty ∧ (s.setDie d x).flips = s.flips ∧
    (s.setDie d x).tsFlips = s.tsFlips ∧ (s.setDie d x).t2Era = s.t2Era ∧ (s.setDie d x).sram = s.sram ∧
    (s.setDie d x).flash = s.flash ∧ (s.setDie d x).flashFitted = s.flashFitted ∧ (s.setDie d x).keys = s.keys ∧
    (s.setDie d x).ctxs = s.ctxs ∧ (s.setDie d x).parts = s.parts ∧ (s.setDie d x).jobs = s.jobs ∧
    (s.setDie d x).epochs = s.epochs ∧ (s.setDie d x).bead = s.bead ∧ (s.setDie d x).semWaits = s.semWaits ∧
    (s.setDie d x).barWaits = s.barWaits ∧ (s.setDie d x).homes = s.homes ∧ (s.setDie d x).agents = s.agents ∧
    (s.setDie d x).slices = s.slices ∧ (s.setDie d x).cores = s.cores ∧ (s.setDie d x).net = s.net ∧
    (s.setDie d x).asks = s.asks ∧ (s.setDie d x).naRead = s.naRead ∧ (s.setDie d x).doms = s.doms ∧
    (s.setDie d x).lowered = s.lowered ∧ (s.setDie d x).governedAt = s.governedAt ∧ (s.setDie d x).tsyncAt = s.tsyncAt ∧
    (s.setDie d x).budgetAt = s.budgetAt ∧ (s.setDie d x).sensedAt = s.sensedAt ∧ (s.setDie d x).links = s.links ∧
    (s.setDie d x).queues = s.queues ∧ (s.setDie d x).fns = s.fns ∧ (s.setDie d x).hostLink = s.hostLink ∧
    (s.setDie d x).ports = s.ports ∧ (s.setDie d x).remotes = s.remotes ∧ (s.setDie d x).nextTag = s.nextTag ∧
    (s.setDie d x).linkFaultAt = s.linkFaultAt ∧ (s.setDie d x).held = s.held ∧ (s.setDie d x).devRing = s.devRing ∧
    (s.setDie d x).devFatal = s.devFatal ∧ (s.setDie d x).volLog = s.volLog ∧ (s.setDie d x).perLog = s.perLog ∧
    (s.setDie d x).dumps = s.dumps ∧ (s.setDie d x).chans = s.chans ∧ (s.setDie d x).sessions = s.sessions ∧
    (s.setDie d x).measures = s.measures ∧ (s.setDie d x).mg = s.mg ∧ (s.setDie d x).pins = s.pins ∧
    (s.setDie d x).outbox = s.outbox := by
  and_intros <;> rfl

@[simp] theorem setLink_frame (s : State) (l : Nat) (x : Link) :
    (s.setLink l x).pending = s.pending ∧ (s.setLink l x).now = s.now ∧ (s.setLink l x).fresh = s.fresh ∧
    (s.setLink l x).lastRead = s.lastRead ∧ (s.setLink l x).regs = s.regs ∧ (s.setLink l x).staged = s.staged ∧
    (s.setLink l x).mem = s.mem ∧ (s.setLink l x).units = s.units ∧ (s.setLink l x).ts = s.ts ∧
    (s.setLink l x).tsPoison = s.tsPoison ∧ (s.setLink l x).tsDirty = s.tsDirty ∧ (s.setLink l x).flips = s.flips ∧
    (s.setLink l x).tsFlips = s.tsFlips ∧ (s.setLink l x).t2Era = s.t2Era ∧ (s.setLink l x).sram = s.sram ∧
    (s.setLink l x).flash = s.flash ∧ (s.setLink l x).flashFitted = s.flashFitted ∧ (s.setLink l x).keys = s.keys ∧
    (s.setLink l x).ctxs = s.ctxs ∧ (s.setLink l x).parts = s.parts ∧ (s.setLink l x).jobs = s.jobs ∧
    (s.setLink l x).epochs = s.epochs ∧ (s.setLink l x).bead = s.bead ∧ (s.setLink l x).semWaits = s.semWaits ∧
    (s.setLink l x).barWaits = s.barWaits ∧ (s.setLink l x).homes = s.homes ∧ (s.setLink l x).agents = s.agents ∧
    (s.setLink l x).slices = s.slices ∧ (s.setLink l x).cores = s.cores ∧ (s.setLink l x).net = s.net ∧
    (s.setLink l x).asks = s.asks ∧ (s.setLink l x).naRead = s.naRead ∧ (s.setLink l x).doms = s.doms ∧
    (s.setLink l x).dies = s.dies ∧ (s.setLink l x).lowered = s.lowered ∧ (s.setLink l x).governedAt = s.governedAt ∧
    (s.setLink l x).tsyncAt = s.tsyncAt ∧ (s.setLink l x).budgetAt = s.budgetAt ∧ (s.setLink l x).sensedAt = s.sensedAt ∧
    (s.setLink l x).queues = s.queues ∧ (s.setLink l x).fns = s.fns ∧ (s.setLink l x).hostLink = s.hostLink ∧
    (s.setLink l x).ports = s.ports ∧ (s.setLink l x).remotes = s.remotes ∧ (s.setLink l x).nextTag = s.nextTag ∧
    (s.setLink l x).linkFaultAt = s.linkFaultAt ∧ (s.setLink l x).held = s.held ∧ (s.setLink l x).devRing = s.devRing ∧
    (s.setLink l x).devFatal = s.devFatal ∧ (s.setLink l x).volLog = s.volLog ∧ (s.setLink l x).perLog = s.perLog ∧
    (s.setLink l x).dumps = s.dumps ∧ (s.setLink l x).chans = s.chans ∧ (s.setLink l x).sessions = s.sessions ∧
    (s.setLink l x).measures = s.measures ∧ (s.setLink l x).mg = s.mg ∧ (s.setLink l x).pins = s.pins ∧
    (s.setLink l x).outbox = s.outbox := by
  and_intros <;> rfl

@[simp] theorem setQueue_frame (s : State) (q : Nat) (x : HostQueue) :
    (s.setQueue q x).pending = s.pending ∧ (s.setQueue q x).now = s.now ∧ (s.setQueue q x).fresh = s.fresh ∧
    (s.setQueue q x).lastRead = s.lastRead ∧ (s.setQueue q x).regs = s.regs ∧ (s.setQueue q x).staged = s.staged ∧
    (s.setQueue q x).mem = s.mem ∧ (s.setQueue q x).units = s.units ∧ (s.setQueue q x).ts = s.ts ∧
    (s.setQueue q x).tsPoison = s.tsPoison ∧ (s.setQueue q x).tsDirty = s.tsDirty ∧ (s.setQueue q x).flips = s.flips ∧
    (s.setQueue q x).tsFlips = s.tsFlips ∧ (s.setQueue q x).t2Era = s.t2Era ∧ (s.setQueue q x).sram = s.sram ∧
    (s.setQueue q x).flash = s.flash ∧ (s.setQueue q x).flashFitted = s.flashFitted ∧ (s.setQueue q x).keys = s.keys ∧
    (s.setQueue q x).ctxs = s.ctxs ∧ (s.setQueue q x).parts = s.parts ∧ (s.setQueue q x).jobs = s.jobs ∧
    (s.setQueue q x).epochs = s.epochs ∧ (s.setQueue q x).bead = s.bead ∧ (s.setQueue q x).semWaits = s.semWaits ∧
    (s.setQueue q x).barWaits = s.barWaits ∧ (s.setQueue q x).homes = s.homes ∧ (s.setQueue q x).agents = s.agents ∧
    (s.setQueue q x).slices = s.slices ∧ (s.setQueue q x).cores = s.cores ∧ (s.setQueue q x).net = s.net ∧
    (s.setQueue q x).asks = s.asks ∧ (s.setQueue q x).naRead = s.naRead ∧ (s.setQueue q x).doms = s.doms ∧
    (s.setQueue q x).dies = s.dies ∧ (s.setQueue q x).lowered = s.lowered ∧ (s.setQueue q x).governedAt = s.governedAt ∧
    (s.setQueue q x).tsyncAt = s.tsyncAt ∧ (s.setQueue q x).budgetAt = s.budgetAt ∧ (s.setQueue q x).sensedAt = s.sensedAt ∧
    (s.setQueue q x).links = s.links ∧ (s.setQueue q x).fns = s.fns ∧ (s.setQueue q x).hostLink = s.hostLink ∧
    (s.setQueue q x).ports = s.ports ∧ (s.setQueue q x).remotes = s.remotes ∧ (s.setQueue q x).nextTag = s.nextTag ∧
    (s.setQueue q x).linkFaultAt = s.linkFaultAt ∧ (s.setQueue q x).held = s.held ∧ (s.setQueue q x).devRing = s.devRing ∧
    (s.setQueue q x).devFatal = s.devFatal ∧ (s.setQueue q x).volLog = s.volLog ∧ (s.setQueue q x).perLog = s.perLog ∧
    (s.setQueue q x).dumps = s.dumps ∧ (s.setQueue q x).chans = s.chans ∧ (s.setQueue q x).sessions = s.sessions ∧
    (s.setQueue q x).measures = s.measures ∧ (s.setQueue q x).mg = s.mg ∧ (s.setQueue q x).pins = s.pins ∧
    (s.setQueue q x).outbox = s.outbox := by
  and_intros <;> rfl

@[simp] theorem setFn_frame (s : State) (k : Nat) (x : FnSt) :
    (s.setFn k x).pending = s.pending ∧ (s.setFn k x).now = s.now ∧ (s.setFn k x).fresh = s.fresh ∧
    (s.setFn k x).lastRead = s.lastRead ∧ (s.setFn k x).regs = s.regs ∧ (s.setFn k x).staged = s.staged ∧
    (s.setFn k x).mem = s.mem ∧ (s.setFn k x).units = s.units ∧ (s.setFn k x).ts = s.ts ∧ (s.setFn k x).tsPoison = s.tsPoison
    ∧ (s.setFn k x).tsDirty = s.tsDirty ∧ (s.setFn k x).flips = s.flips ∧ (s.setFn k x).tsFlips = s.tsFlips ∧
    (s.setFn k x).t2Era = s.t2Era ∧ (s.setFn k x).sram = s.sram ∧ (s.setFn k x).flash = s.flash ∧
    (s.setFn k x).flashFitted = s.flashFitted ∧ (s.setFn k x).keys = s.keys ∧ (s.setFn k x).ctxs = s.ctxs ∧
    (s.setFn k x).parts = s.parts ∧ (s.setFn k x).jobs = s.jobs ∧ (s.setFn k x).epochs = s.epochs ∧
    (s.setFn k x).bead = s.bead ∧ (s.setFn k x).semWaits = s.semWaits ∧ (s.setFn k x).barWaits = s.barWaits ∧
    (s.setFn k x).homes = s.homes ∧ (s.setFn k x).agents = s.agents ∧ (s.setFn k x).slices = s.slices ∧
    (s.setFn k x).cores = s.cores ∧ (s.setFn k x).net = s.net ∧ (s.setFn k x).asks = s.asks ∧ (s.setFn k x).naRead = s.naRead
    ∧ (s.setFn k x).doms = s.doms ∧ (s.setFn k x).dies = s.dies ∧ (s.setFn k x).lowered = s.lowered ∧
    (s.setFn k x).governedAt = s.governedAt ∧ (s.setFn k x).tsyncAt = s.tsyncAt ∧ (s.setFn k x).budgetAt = s.budgetAt ∧
    (s.setFn k x).sensedAt = s.sensedAt ∧ (s.setFn k x).links = s.links ∧ (s.setFn k x).queues = s.queues ∧
    (s.setFn k x).hostLink = s.hostLink ∧ (s.setFn k x).ports = s.ports ∧ (s.setFn k x).remotes = s.remotes ∧
    (s.setFn k x).nextTag = s.nextTag ∧ (s.setFn k x).linkFaultAt = s.linkFaultAt ∧ (s.setFn k x).held = s.held ∧
    (s.setFn k x).devRing = s.devRing ∧ (s.setFn k x).devFatal = s.devFatal ∧ (s.setFn k x).volLog = s.volLog ∧
    (s.setFn k x).perLog = s.perLog ∧ (s.setFn k x).dumps = s.dumps ∧ (s.setFn k x).chans = s.chans ∧
    (s.setFn k x).sessions = s.sessions ∧ (s.setFn k x).measures = s.measures ∧ (s.setFn k x).mg = s.mg ∧
    (s.setFn k x).pins = s.pins ∧ (s.setFn k x).outbox = s.outbox := by
  and_intros <;> rfl

@[simp] theorem setPort_frame (s : State) (p : Nat) (x : Port) :
    (s.setPort p x).pending = s.pending ∧ (s.setPort p x).now = s.now ∧ (s.setPort p x).fresh = s.fresh ∧
    (s.setPort p x).lastRead = s.lastRead ∧ (s.setPort p x).regs = s.regs ∧ (s.setPort p x).staged = s.staged ∧
    (s.setPort p x).mem = s.mem ∧ (s.setPort p x).units = s.units ∧ (s.setPort p x).ts = s.ts ∧
    (s.setPort p x).tsPoison = s.tsPoison ∧ (s.setPort p x).tsDirty = s.tsDirty ∧ (s.setPort p x).flips = s.flips ∧
    (s.setPort p x).tsFlips = s.tsFlips ∧ (s.setPort p x).t2Era = s.t2Era ∧ (s.setPort p x).sram = s.sram ∧
    (s.setPort p x).flash = s.flash ∧ (s.setPort p x).flashFitted = s.flashFitted ∧ (s.setPort p x).keys = s.keys ∧
    (s.setPort p x).ctxs = s.ctxs ∧ (s.setPort p x).parts = s.parts ∧ (s.setPort p x).jobs = s.jobs ∧
    (s.setPort p x).epochs = s.epochs ∧ (s.setPort p x).bead = s.bead ∧ (s.setPort p x).semWaits = s.semWaits ∧
    (s.setPort p x).barWaits = s.barWaits ∧ (s.setPort p x).homes = s.homes ∧ (s.setPort p x).agents = s.agents ∧
    (s.setPort p x).slices = s.slices ∧ (s.setPort p x).cores = s.cores ∧ (s.setPort p x).net = s.net ∧
    (s.setPort p x).asks = s.asks ∧ (s.setPort p x).naRead = s.naRead ∧ (s.setPort p x).doms = s.doms ∧
    (s.setPort p x).dies = s.dies ∧ (s.setPort p x).lowered = s.lowered ∧ (s.setPort p x).governedAt = s.governedAt ∧
    (s.setPort p x).tsyncAt = s.tsyncAt ∧ (s.setPort p x).budgetAt = s.budgetAt ∧ (s.setPort p x).sensedAt = s.sensedAt ∧
    (s.setPort p x).links = s.links ∧ (s.setPort p x).queues = s.queues ∧ (s.setPort p x).fns = s.fns ∧
    (s.setPort p x).hostLink = s.hostLink ∧ (s.setPort p x).remotes = s.remotes ∧ (s.setPort p x).nextTag = s.nextTag ∧
    (s.setPort p x).linkFaultAt = s.linkFaultAt ∧ (s.setPort p x).held = s.held ∧ (s.setPort p x).devRing = s.devRing ∧
    (s.setPort p x).devFatal = s.devFatal ∧ (s.setPort p x).volLog = s.volLog ∧ (s.setPort p x).perLog = s.perLog ∧
    (s.setPort p x).dumps = s.dumps ∧ (s.setPort p x).chans = s.chans ∧ (s.setPort p x).sessions = s.sessions ∧
    (s.setPort p x).measures = s.measures ∧ (s.setPort p x).mg = s.mg ∧ (s.setPort p x).pins = s.pins ∧
    (s.setPort p x).outbox = s.outbox := by
  and_intros <;> rfl

@[simp] theorem setChan_frame (s : State) (k : Nat) (x : Chan) :
    (s.setChan k x).pending = s.pending ∧ (s.setChan k x).now = s.now ∧ (s.setChan k x).fresh = s.fresh ∧
    (s.setChan k x).lastRead = s.lastRead ∧ (s.setChan k x).regs = s.regs ∧ (s.setChan k x).staged = s.staged ∧
    (s.setChan k x).mem = s.mem ∧ (s.setChan k x).units = s.units ∧ (s.setChan k x).ts = s.ts ∧
    (s.setChan k x).tsPoison = s.tsPoison ∧ (s.setChan k x).tsDirty = s.tsDirty ∧ (s.setChan k x).flips = s.flips ∧
    (s.setChan k x).tsFlips = s.tsFlips ∧ (s.setChan k x).t2Era = s.t2Era ∧ (s.setChan k x).sram = s.sram ∧
    (s.setChan k x).flash = s.flash ∧ (s.setChan k x).flashFitted = s.flashFitted ∧ (s.setChan k x).keys = s.keys ∧
    (s.setChan k x).ctxs = s.ctxs ∧ (s.setChan k x).parts = s.parts ∧ (s.setChan k x).jobs = s.jobs ∧
    (s.setChan k x).epochs = s.epochs ∧ (s.setChan k x).bead = s.bead ∧ (s.setChan k x).semWaits = s.semWaits ∧
    (s.setChan k x).barWaits = s.barWaits ∧ (s.setChan k x).homes = s.homes ∧ (s.setChan k x).agents = s.agents ∧
    (s.setChan k x).slices = s.slices ∧ (s.setChan k x).cores = s.cores ∧ (s.setChan k x).net = s.net ∧
    (s.setChan k x).asks = s.asks ∧ (s.setChan k x).naRead = s.naRead ∧ (s.setChan k x).doms = s.doms ∧
    (s.setChan k x).dies = s.dies ∧ (s.setChan k x).lowered = s.lowered ∧ (s.setChan k x).governedAt = s.governedAt ∧
    (s.setChan k x).tsyncAt = s.tsyncAt ∧ (s.setChan k x).budgetAt = s.budgetAt ∧ (s.setChan k x).sensedAt = s.sensedAt ∧
    (s.setChan k x).links = s.links ∧ (s.setChan k x).queues = s.queues ∧ (s.setChan k x).fns = s.fns ∧
    (s.setChan k x).hostLink = s.hostLink ∧ (s.setChan k x).ports = s.ports ∧ (s.setChan k x).remotes = s.remotes ∧
    (s.setChan k x).nextTag = s.nextTag ∧ (s.setChan k x).linkFaultAt = s.linkFaultAt ∧ (s.setChan k x).held = s.held ∧
    (s.setChan k x).devRing = s.devRing ∧ (s.setChan k x).devFatal = s.devFatal ∧ (s.setChan k x).volLog = s.volLog ∧
    (s.setChan k x).perLog = s.perLog ∧ (s.setChan k x).dumps = s.dumps ∧ (s.setChan k x).sessions = s.sessions ∧
    (s.setChan k x).measures = s.measures ∧ (s.setChan k x).mg = s.mg ∧ (s.setChan k x).pins = s.pins ∧
    (s.setChan k x).outbox = s.outbox := by
  and_intros <;> rfl

@[simp] theorem setDump_frame (s : State) (k : Nat) (x : Option Dump) :
    (s.setDump k x).pending = s.pending ∧ (s.setDump k x).now = s.now ∧ (s.setDump k x).fresh = s.fresh ∧
    (s.setDump k x).lastRead = s.lastRead ∧ (s.setDump k x).regs = s.regs ∧ (s.setDump k x).staged = s.staged ∧
    (s.setDump k x).mem = s.mem ∧ (s.setDump k x).units = s.units ∧ (s.setDump k x).ts = s.ts ∧
    (s.setDump k x).tsPoison = s.tsPoison ∧ (s.setDump k x).tsDirty = s.tsDirty ∧ (s.setDump k x).flips = s.flips ∧
    (s.setDump k x).tsFlips = s.tsFlips ∧ (s.setDump k x).t2Era = s.t2Era ∧ (s.setDump k x).sram = s.sram ∧
    (s.setDump k x).flash = s.flash ∧ (s.setDump k x).flashFitted = s.flashFitted ∧ (s.setDump k x).keys = s.keys ∧
    (s.setDump k x).ctxs = s.ctxs ∧ (s.setDump k x).parts = s.parts ∧ (s.setDump k x).jobs = s.jobs ∧
    (s.setDump k x).epochs = s.epochs ∧ (s.setDump k x).bead = s.bead ∧ (s.setDump k x).semWaits = s.semWaits ∧
    (s.setDump k x).barWaits = s.barWaits ∧ (s.setDump k x).homes = s.homes ∧ (s.setDump k x).agents = s.agents ∧
    (s.setDump k x).slices = s.slices ∧ (s.setDump k x).cores = s.cores ∧ (s.setDump k x).net = s.net ∧
    (s.setDump k x).asks = s.asks ∧ (s.setDump k x).naRead = s.naRead ∧ (s.setDump k x).doms = s.doms ∧
    (s.setDump k x).dies = s.dies ∧ (s.setDump k x).lowered = s.lowered ∧ (s.setDump k x).governedAt = s.governedAt ∧
    (s.setDump k x).tsyncAt = s.tsyncAt ∧ (s.setDump k x).budgetAt = s.budgetAt ∧ (s.setDump k x).sensedAt = s.sensedAt ∧
    (s.setDump k x).links = s.links ∧ (s.setDump k x).queues = s.queues ∧ (s.setDump k x).fns = s.fns ∧
    (s.setDump k x).hostLink = s.hostLink ∧ (s.setDump k x).ports = s.ports ∧ (s.setDump k x).remotes = s.remotes ∧
    (s.setDump k x).nextTag = s.nextTag ∧ (s.setDump k x).linkFaultAt = s.linkFaultAt ∧ (s.setDump k x).held = s.held ∧
    (s.setDump k x).devRing = s.devRing ∧ (s.setDump k x).devFatal = s.devFatal ∧ (s.setDump k x).volLog = s.volLog ∧
    (s.setDump k x).perLog = s.perLog ∧ (s.setDump k x).chans = s.chans ∧ (s.setDump k x).sessions = s.sessions ∧
    (s.setDump k x).measures = s.measures ∧ (s.setDump k x).mg = s.mg ∧ (s.setDump k x).pins = s.pins ∧
    (s.setDump k x).outbox = s.outbox := by
  and_intros <;> rfl

@[simp] theorem setKey_frame (s : State) (k v : Nat) :
    (s.setKey k v).pending = s.pending ∧ (s.setKey k v).now = s.now ∧ (s.setKey k v).fresh = s.fresh ∧
    (s.setKey k v).lastRead = s.lastRead ∧ (s.setKey k v).regs = s.regs ∧ (s.setKey k v).staged = s.staged ∧
    (s.setKey k v).mem = s.mem ∧ (s.setKey k v).units = s.units ∧ (s.setKey k v).ts = s.ts ∧
    (s.setKey k v).tsPoison = s.tsPoison ∧ (s.setKey k v).tsDirty = s.tsDirty ∧ (s.setKey k v).flips = s.flips ∧
    (s.setKey k v).tsFlips = s.tsFlips ∧ (s.setKey k v).t2Era = s.t2Era ∧ (s.setKey k v).sram = s.sram ∧
    (s.setKey k v).flash = s.flash ∧ (s.setKey k v).flashFitted = s.flashFitted ∧ (s.setKey k v).ctxs = s.ctxs ∧
    (s.setKey k v).parts = s.parts ∧ (s.setKey k v).jobs = s.jobs ∧ (s.setKey k v).epochs = s.epochs ∧
    (s.setKey k v).bead = s.bead ∧ (s.setKey k v).semWaits = s.semWaits ∧ (s.setKey k v).barWaits = s.barWaits ∧
    (s.setKey k v).homes = s.homes ∧ (s.setKey k v).agents = s.agents ∧ (s.setKey k v).slices = s.slices ∧
    (s.setKey k v).cores = s.cores ∧ (s.setKey k v).net = s.net ∧ (s.setKey k v).asks = s.asks ∧
    (s.setKey k v).naRead = s.naRead ∧ (s.setKey k v).doms = s.doms ∧ (s.setKey k v).dies = s.dies ∧
    (s.setKey k v).lowered = s.lowered ∧ (s.setKey k v).governedAt = s.governedAt ∧ (s.setKey k v).tsyncAt = s.tsyncAt ∧
    (s.setKey k v).budgetAt = s.budgetAt ∧ (s.setKey k v).sensedAt = s.sensedAt ∧ (s.setKey k v).links = s.links ∧
    (s.setKey k v).queues = s.queues ∧ (s.setKey k v).fns = s.fns ∧ (s.setKey k v).hostLink = s.hostLink ∧
    (s.setKey k v).ports = s.ports ∧ (s.setKey k v).remotes = s.remotes ∧ (s.setKey k v).nextTag = s.nextTag ∧
    (s.setKey k v).linkFaultAt = s.linkFaultAt ∧ (s.setKey k v).held = s.held ∧ (s.setKey k v).devRing = s.devRing ∧
    (s.setKey k v).devFatal = s.devFatal ∧ (s.setKey k v).volLog = s.volLog ∧ (s.setKey k v).perLog = s.perLog ∧
    (s.setKey k v).dumps = s.dumps ∧ (s.setKey k v).chans = s.chans ∧ (s.setKey k v).sessions = s.sessions ∧
    (s.setKey k v).measures = s.measures ∧ (s.setKey k v).mg = s.mg ∧ (s.setKey k v).pins = s.pins ∧
    (s.setKey k v).outbox = s.outbox := by
  and_intros <;> rfl

end Sys2Proof.Machine.State
end

