-- ==== Sys2Proof/Laws/Ops.lean ====
section
/-! SUPPORT. One lemma for each shared operation on registers, blocks and memory. -/

namespace Sys2Proof.Machine

/-! ### Bit fields -/

theorem natBits_lt (w hi lo : Nat) : natBits w hi lo < 2 ^ (hi + 1 - lo) := Nat.mod_lt _ (Nat.two_pow_pos _)

theorem natBits_mul_le (w hi lo : Nat) : natBits w hi lo * 2 ^ lo ≤ w := by
  have h1 : natBits w hi lo ≤ w / 2 ^ lo := Nat.mod_le _ _
  calc natBits w hi lo * 2 ^ lo ≤ w / 2 ^ lo * 2 ^ lo := Nat.mul_le_mul_right _ h1
    _ ≤ w := Nat.div_mul_le_self _ _

/-- A number cut at a field: what lies above, the field, what lies below. -/
theorem natBits_split (w hi lo : Nat) (h : lo ≤ hi + 1) :
    w = w / 2 ^ (hi + 1) * 2 ^ (hi + 1) + natBits w hi lo * 2 ^ lo + w % 2 ^ lo := by
  have e : (2 : Nat) ^ (hi + 1) = 2 ^ lo * 2 ^ (hi + 1 - lo) := by rw [← pow_add]; congr 1; omega
  have h2 : w / 2 ^ (hi + 1) = w / 2 ^ lo / 2 ^ (hi + 1 - lo) := by rw [e, Nat.div_div_eq_div_mul]
  have h3 := Nat.div_add_mod w (2 ^ lo)
  have h4 := Nat.div_add_mod (w / 2 ^ lo) (2 ^ (hi + 1 - lo))
  rw [h2, e, natBits]
  generalize w / 2 ^ lo / 2 ^ (hi + 1 - lo) = q at *
  generalize w / 2 ^ lo % 2 ^ (hi + 1 - lo) = r at *
  generalize 2 ^ lo = P at *
  generalize 2 ^ (hi + 1 - lo) = W at *
  calc w = P * (w / P) + w % P := h3.symm
    _ = P * (W * q + r) + w % P := by rw [h4]
    _ = q * (P * W) + r * P + w % P := by ring

/-- The value a field takes when it is set. -/
theorem set_toNat (f : Fld) (w : Word) (v : Nat) (h : f.hi < 64) (hl : f.lo ≤ f.hi) :
    (f.set w v).toNat = w.toNat / 2 ^ (f.hi + 1) * 2 ^ (f.hi + 1) + v % 2 ^ f.width * 2 ^ f.lo + w.toNat % 2 ^ f.lo := by
  have hs := natBits_split w.toNat f.hi f.lo (by omega)
  have hw : w.toNat < 2 ^ 64 := w.isLt
  have e : (2 : Nat) ^ (f.hi + 1) = 2 ^ f.width * 2 ^ f.lo := by rw [← pow_add, Fld.width]; congr 1; omega
  have hv : v % 2 ^ f.width + 1 ≤ 2 ^ f.width := Nat.mod_lt _ (Nat.two_pow_pos _)
  have e64 : (2 : Nat) ^ 64 = 2 ^ (63 - f.hi) * 2 ^ (f.hi + 1) := by rw [← pow_add]; congr 1; omega
  have hq : w.toNat / 2 ^ (f.hi + 1) + 1 ≤ 2 ^ (63 - f.hi) := by
    apply Nat.div_lt_of_lt_mul; rw [Nat.mul_comm, ← e64]; exact hw
  have hlow : w.toNat % 2 ^ f.lo < 2 ^ f.lo := Nat.mod_lt _ (Nat.two_pow_pos _)
  have key : w.toNat - f.get w * 2 ^ f.lo + v % 2 ^ f.width * 2 ^ f.lo
      = w.toNat / 2 ^ (f.hi + 1) * 2 ^ (f.hi + 1) + v % 2 ^ f.width * 2 ^ f.lo + w.toNat % 2 ^ f.lo := by
    simp only [Fld.get]; omega
  simp only [Fld.set, BitVec.toNat_ofNat, key]
  apply Nat.mod_eq_of_lt
  have h1 : w.toNat / 2 ^ (f.hi + 1) * 2 ^ (f.hi + 1) + 2 ^ (f.hi + 1) ≤ 2 ^ 64 := by
    calc _ = (w.toNat / 2 ^ (f.hi + 1) + 1) * 2 ^ (f.hi + 1) := by ring
      _ ≤ 2 ^ (63 - f.hi) * 2 ^ (f.hi + 1) := Nat.mul_le_mul_right _ hq
      _ = 2 ^ 64 := e64.symm
  have h2 : v % 2 ^ f.width * 2 ^ f.lo + 2 ^ f.lo ≤ 2 ^ (f.hi + 1) := by
    calc _ = (v % 2 ^ f.width + 1) * 2 ^ f.lo := by ring
      _ ≤ 2 ^ f.width * 2 ^ f.lo := Nat.mul_le_mul_right _ hv
      _ = _ := e.symm
  omega

/-- A field just set reads as the value, cut to its width. -/
theorem get_set (f : Fld) (w : Word) (v : Nat) (h : f.hi < 64) (hl : f.lo ≤ f.hi) :
    f.get (f.set w v) = v % 2 ^ f.width := by
  rw [Fld.get, set_toNat f w v h hl, natBits]
  have e : (2 : Nat) ^ (f.hi + 1) = 2 ^ f.lo * 2 ^ f.width := by rw [← pow_add, Fld.width]; congr 1; omega
  have hlow : w.toNat % 2 ^ f.lo < 2 ^ f.lo := Nat.mod_lt _ (Nat.two_pow_pos _)
  have hv : v % 2 ^ f.width < 2 ^ f.width := Nat.mod_lt _ (Nat.two_pow_pos _)
  have : (w.toNat / 2 ^ (f.hi + 1) * 2 ^ (f.hi + 1) + v % 2 ^ f.width * 2 ^ f.lo + w.toNat % 2 ^ f.lo) / 2 ^ f.lo
      = w.toNat / 2 ^ (f.hi + 1) * 2 ^ f.width + v % 2 ^ f.width := by
    have : w.toNat / 2 ^ (f.hi + 1) * 2 ^ (f.hi + 1) + v % 2 ^ f.width * 2 ^ f.lo + w.toNat % 2 ^ f.lo
        = w.toNat % 2 ^ f.lo + 2 ^ f.lo * (w.toNat / 2 ^ (f.hi + 1) * 2 ^ f.width + v % 2 ^ f.width) := by rw [e]; ring
    rw [this, Nat.add_mul_div_left _ _ (Nat.two_pow_pos _), Nat.div_eq_of_lt hlow, Nat.zero_add]
  rw [this, show f.hi + 1 - f.lo = f.width from rfl, Nat.mul_comm, Nat.mul_add_mod, Nat.mod_mod]

/-- A field apart from the one set keeps its value. -/
theorem get_set_apart (f g : Fld) (w : Word) (v : Nat) (h : f.hi < 64) (hl : f.lo ≤ f.hi) (hg : g.lo ≤ g.hi)
    (hd : g.hi < f.lo ∨ f.hi < g.lo) : g.get (f.set w v) = g.get w := by
  have hs := natBits_split w.toNat f.hi f.lo (by omega)
  have hv : v % 2 ^ f.width < 2 ^ f.width := Nat.mod_lt _ (Nat.two_pow_pos _)
  have hlow : w.toNat % 2 ^ f.lo < 2 ^ f.lo := Nat.mod_lt _ (Nat.two_pow_pos _)
  have e : (2 : Nat) ^ (f.hi + 1) = 2 ^ f.width * 2 ^ f.lo := by rw [← pow_add, Fld.width]; congr 1; omega
  rw [Fld.get, set_toNat f w v h hl, Fld.get]
  rcases hd with hd | hd
  · have low (x : Nat) : natBits x g.hi g.lo = natBits (x % 2 ^ f.lo) g.hi g.lo := by
      simp only [natBits]
      have e2 : (2 : Nat) ^ f.lo = 2 ^ g.lo * 2 ^ (f.lo - g.lo) := by rw [← pow_add]; congr 1; omega
      rw [e2, Nat.mod_mul_right_div_self, Nat.mod_mod_of_dvd]
      exact Nat.pow_dvd_pow 2 (by omega)
    rw [low, low w.toNat]
    congr 1
    have e3 : w.toNat / 2 ^ (f.hi + 1) * 2 ^ (f.hi + 1) + v % 2 ^ f.width * 2 ^ f.lo + w.toNat % 2 ^ f.lo
        = w.toNat % 2 ^ f.lo + 2 ^ f.lo * (w.toNat / 2 ^ (f.hi + 1) * 2 ^ f.width + v % 2 ^ f.width) := by rw [e]; ring
    rw [e3, Nat.add_mul_mod_self_left, Nat.mod_mod]
  · have high (x : Nat) : natBits x g.hi g.lo = natBits (x / 2 ^ (f.hi + 1)) (g.hi - (f.hi + 1)) (g.lo - (f.hi + 1)) := by
      simp only [natBits]
      rw [Nat.div_div_eq_div_mul, ← pow_add]
      congr 2
      · congr 1; omega
      · omega
    rw [high, high w.toNat]
    congr 1
    have hlt : v % 2 ^ f.width * 2 ^ f.lo + w.toNat % 2 ^ f.lo < 2 ^ (f.hi + 1) := by
      have : v % 2 ^ f.width * 2 ^ f.lo + 2 ^ f.lo ≤ 2 ^ (f.hi + 1) := by
        calc _ = (v % 2 ^ f.width + 1) * 2 ^ f.lo := by ring
          _ ≤ 2 ^ f.width * 2 ^ f.lo := Nat.mul_le_mul_right _ hv
          _ = _ := e.symm
      omega
    rw [Nat.add_assoc, Nat.mul_comm, Nat.mul_add_div (Nat.two_pow_pos _), Nat.div_eq_of_lt hlt, Nat.add_zero]

namespace State

/-! ### Registers -/

theorem rd_wr (s : State) (a : Nat) (w : Word) (h : s.Canonical) : (s.wr a w).rd a = w :=
  Sparse.get_put w (Sparse.wf_sorted h.regs)

theorem rd_wr_ne (s : State) (a b : Nat) (w : Word) (h : b ≠ a) : (s.wr a w).rd b = s.rd b :=
  Sparse.get_put_ne s.regs w h

/-- A field just written reads as the value, cut to its width. -/
theorem fld_setFld (s : State) (a : Nat) (f : Fld) (v : Nat) (h : s.Canonical) (hf : f.hi < 64) (hl : f.lo ≤ f.hi) :
    (s.setFld a f v).fld a f = v % 2 ^ f.width := by
  rw [fld, setFld, rd_wr s a _ h, get_set f _ v hf hl]

/-- Another field of the same register keeps its value. -/
theorem fld_setFld_apart (s : State) (a : Nat) (f g : Fld) (v : Nat) (h : s.Canonical) (hf : f.hi < 64) (hl : f.lo ≤ f.hi)
    (hg : g.lo ≤ g.hi) (hd : g.hi < f.lo ∨ f.hi < g.lo) : (s.setFld a f v).fld a g = s.fld a g := by
  rw [fld, setFld, rd_wr s a _ h, get_set_apart f g _ v hf hl hg hd, fld]

/-- Every other register keeps its word. -/
theorem rd_setFld_ne (s : State) (a b : Nat) (f : Fld) (v : Nat) (h : b ≠ a) : (s.setFld a f v).rd b = s.rd b :=
  rd_wr_ne s a b _ h

theorem fld_setFld_ne (s : State) (a b : Nat) (f g : Fld) (v : Nat) (h : b ≠ a) :
    (s.setFld a f v).fld b g = s.fld b g := by rw [fld, rd_setFld_ne s a b f v h, fld]

/-- Writing registers one by one changes no register outside the list. -/
theorem rd_foldl_wr_ne (as : List Nat) (f : Nat → Word) (s : State) (b : Nat) (h : b ∉ as) :
    (as.foldl (fun t a => t.wr a (f a)) s).rd b = s.rd b := by
  induction as generalizing s with
  | nil => rfl
  | cons a as ih =>
    simp only [List.mem_cons, not_or] at h
    rw [List.foldl_cons, ih _ h.2, rd_wr_ne s a b _ h.1]

/-! ### The canonical form through the updates -/

theorem wr_canonical (s : State) (a : Nat) (w : Word) (h : s.Canonical) : (s.wr a w).Canonical :=
  { h with regs := Sparse.wf_put w h.regs }

theorem stage_canonical (s : State) (a : Nat) (w : Word) (h : s.Canonical) : (s.stage a w).Canonical :=
  { h with staged := Sparse.wf_put _ h.staged }

theorem setPart_canonical (s : State) (p : Nat) (x : Part) (h : s.Canonical) : (s.setPart p x).Canonical :=
  { h with parts := Sparse.wf_put _ h.parts }

theorem setCtx_canonical (s : State) (id : Nat) (x : Ctx) (h : s.Canonical) : (s.setCtx id x).Canonical :=
  { h with ctxs := Sparse.wf_put _ h.ctxs }

theorem setFld_canonical (s : State) (a : Nat) (f : Fld) (v : Nat) (h : s.Canonical) : (s.setFld a f v).Canonical :=
  wr_canonical s a _ h

/-! ### Blocks by number -/

theorem part_setPart (s : State) (p : Nat) (x : Part) (h : s.Canonical) : (s.setPart p x).part p = x :=
  Sparse.get_put x (Sparse.wf_sorted h.parts)

theorem part_setPart_ne (s : State) (p q : Nat) (x : Part) (h : q ≠ p) : (s.setPart p x).part q = s.part q :=
  Sparse.get_put_ne s.parts x h

theorem ctx_setCtx (s : State) (id : Nat) (x : Ctx) (h : s.Canonical) : (s.setCtx id x).ctx id = x :=
  Sparse.get_put x (Sparse.wf_sorted h.ctxs)

theorem ctx_setCtx_ne (s : State) (id k : Nat) (x : Ctx) (h : k ≠ id) : (s.setCtx id x).ctx k = s.ctx k :=
  Sparse.get_put_ne s.ctxs x h

theorem dom_setDom (s : State) (i : Nat) (x : Dom) (h : s.Canonical) : (s.setDom i x).dom i = x :=
  Sparse.get_put x (Sparse.wf_sorted h.doms)

theorem core_setCore (s : State) (c : Nat) (x : CoreSt) (h : s.Canonical) : (s.setCore c x).core c = x :=
  Sparse.get_put x (Sparse.wf_sorted h.cores)

theorem home_setHome (s : State) (k : Nat) (x : Home) (h : s.Canonical) : (s.setHome k x).home k = x :=
  Sparse.get_put x (Sparse.wf_sorted h.homes)

theorem port_setPort (s : State) (p : Nat) (x : Port) (h : s.Canonical) : (s.setPort p x).port p = x :=
  Sparse.get_put x (Sparse.wf_sorted h.ports)

/-! ### Memory -/

/-- Writing bytes keeps the canonical form of a memory. -/
theorem putBytes_wf (m : List Host.Cell) (a : Nat) (bs : List Byte) (h : Sparse.wf (fun _ => (0 : Byte)) m = true) :
    Sparse.wf (fun _ => (0 : Byte)) (putBytes m a bs) = true := by
  induction bs generalizing m a with
  | nil => exact h
  | cons b bs ih => exact ih _ _ (Sparse.wf_put b h)

/-- Bytes outside the written range read as before. -/
theorem get_putBytes_ne (m : List Host.Cell) (a k : Nat) (bs : List Byte) (h : k < a ∨ a + bs.length ≤ k) :
    Sparse.get (fun _ => (0 : Byte)) (putBytes m a bs) k = Sparse.get (fun _ => (0 : Byte)) m k := by
  induction bs generalizing m a with
  | nil => rfl
  | cons b bs ih =>
    simp only [List.length_cons] at h
    rw [putBytes, ih _ _ (by omega), Sparse.get_put_ne m b (by omega)]

/-- Bytes of the written range read as written. -/
theorem get_putBytes (m : List Host.Cell) (a i : Nat) (bs : List Byte) (hm : Sparse.wf (fun _ => (0 : Byte)) m = true)
    (hi : i < bs.length) : Sparse.get (fun _ => (0 : Byte)) (putBytes m a bs) (a + i) = bs[i] := by
  induction bs generalizing m a i with
  | nil => simp at hi
  | cons b bs ih =>
    rw [putBytes]
    cases i with
    | zero =>
      rw [get_putBytes_ne _ _ _ _ (by omega)]
      simpa using Sparse.get_put (d := fun _ => (0 : Byte)) (k := a) b (Sparse.wf_sorted hm)
    | succ n =>
      have := ih (Sparse.put (fun _ => (0 : Byte)) m a b) (a + 1) n (Sparse.wf_put b hm) (by simpa using hi)
      rw [show a + 1 + n = a + (n + 1) by omega] at this
      simpa using this

/-! ### Access -/

/-- What an admitted register access does. -/
theorem gated_admitted (s : State) (who : Requester) (a : Nat) (f : State → State) (h : s.gate who a true = none) :
    s.gated who a f = f s := by rw [gated, h]

/-- What a register access leaves that the gate turns away. -/
theorem gated_refused (s t : State) (who : Requester) (a : Nat) (f : State → State) (h : s.gate who a true = some t) :
    s.gated who a f = t := by rw [gated, h]

end State
end Sys2Proof.Machine
end

