-- ==== Sys2Proof/Machine/Package.lean ====
section
/-! DEFINITION. The package: what each die holds, where it lies, its links, its lands and its caches (R17–R19, R225, R286,
R396–R401, R412). Nothing here changes while the device runs. -/

namespace Sys2Proof.Machine

/-- The kinds of die on the module, and the stacks beside them (R17). -/
inductive Item where
  | burl (n : Fin 6)
  | head
  | tail (n : Fin 2)
  | banjo
  | stack (n : Fin 24)
deriving DecidableEq, Repr

/-- An axis-parallel rectangle in hundredths of a millimetre: left, bottom, width, height. -/
structure Rect where
  x : Nat
  y : Nat
  w : Nat
  h : Nat
deriving DecidableEq, Repr

/-- The left edge of BURLn. -/
def burlLeft (n : Nat) : Nat := [600, 4200, 7800].getD (n % 3) 0

/-- Where an item lies (R17). -/
def Item.place : Item → Rect
  | .burl n => ⟨burlLeft n, if n.val < 3 then 1250 else 6250, 3400, 2300⟩
  | .head => ⟨4600, 3700, 2600, 2400⟩
  | .tail n => ⟨if n.val = 0 then 600 else 9200, 4150, 2000, 1500⟩
  | .banjo => ⟨3200, 4600, 700, 600⟩
  | .stack n => ⟨burlLeft (n.val / 4) + 25 + 850 * (n.val % 4), if n.val < 12 then 100 else 8600, 800, 1100⟩

/-- Two rectangles do not overlap. -/
def Rect.apart (a b : Rect) : Bool :=
  decide (a.x + a.w ≤ b.x) || decide (b.x + b.w ≤ a.x) || decide (a.y + a.h ≤ b.y) || decide (b.y + b.h ≤ a.y)

/-- The Burl that holds a partition, and the partition's stack beside it (R17, R18). -/
def burlOfPart (p : Fin 24) : Fin 6 := ⟨p.val / 4, by omega⟩

/-- The endpoints of an on-package link (R19). -/
def linkJoins (l : Fin 16) : Item × Item :=
  match l.val with
  | 6 => (.burl 0, .burl 1)
  | 7 => (.burl 1, .burl 2)
  | 8 => (.burl 3, .burl 4)
  | 9 => (.burl 4, .burl 5)
  | 10 => (.burl 0, .tail 0)
  | 11 => (.burl 3, .tail 0)
  | 12 => (.burl 2, .tail 1)
  | 13 => (.burl 5, .tail 1)
  | 14 => (.head, .tail 0)
  | 15 => (.head, .tail 1)
  | n => (.burl ⟨n % 6, by omega⟩, .head)

/-- Logical bundles of a link and its spares (R19). -/
def linkWidth (l : Fin 16) : Nat × Nat :=
  if l.val < 6 then (32, 2) else if l.val < 10 then (16, 1) else if l.val < 14 then (8, 1) else (4, 1)

/-- Data wires of a link in each direction: 128 a bundle (R19). -/
def linkWires (l : Fin 16) : Nat := 128 * (linkWidth l).1

/-- The crossing count of a link in stages, the same in both directions (R19). -/
def crossing (l : Fin 16) : Nat := if 6 ≤ l.val && l.val < 10 then 8 else 10

/-- The Tailstock of a fabric port, and its first lane (R286). -/
def portTail (p : Fin 16) : Fin 2 := ⟨p.val / 8, by omega⟩
def portLane (p : Fin 16) : Nat := 4 * p.val

/-- Bytes and ways of a core's caches: L1I, L1D, L2 (R225). -/
def l1iShape : Nat × Nat := (64 * 1024, 4)
def l1dShape : Nat × Nat := (64 * 1024, 8)
def l2Shape : Nat × Nat := (2 * 1024 * 1024, 16)

/-- Sets of a cache of 64-byte lines. -/
def cacheSets (shape : Nat × Nat) : Nat := shape.1 / 64 / shape.2

/-! ### Lands -/

/-- What a land carries (R396). Pairs name their true land with p = true. -/
inductive Land where
  | vss
  | vinCmp (n : Nat)
  | vinHs
  | vinMem
  | vinSd
  | vinAon
  | fab (tx p : Bool) (lane : Nat)
  | pcie (tx p : Bool) (lane : Nat)
  | ddr (channel : Nat) (signal : Nat)
  | refclk (pair : Nat) (p : Bool)
  | lowSpeed (t : Nat)
deriving DecidableEq, Repr

/-- A supply where row + column is even, ground elsewhere (R398). -/
def checker (r c : Nat) (x : Land) : Land := if (r + c) % 2 = 0 then x else .vss

/-- The position of a lane's four lands in a row of six or seven columns, from its outer edge (R399). -/
def laneLand (f : Bool → Bool → Land) (k : Nat) (gap : Nat) : Land :=
  if k = 0 then f true true
  else if k = 1 then f true false
  else if k = gap + 1 then f false true
  else if k = gap + 2 then f false false
  else .vss

/-- A DDR5 channel's land at a row of its block and a position counted in its direction (R400). -/
def ddrLand (channel row pos : Nat) : Land :=
  match [1, 2, 4, 5, 6, 7].idxOf? pos with
  | none => .vss
  | some i => if row < 25 && 6 * row + i < 146 then .ddr channel (6 * row + i) else .vss

/-- What the land at a row (0–103) and a column (0–119) carries (R398–R401). -/
def landAt (r c : Nat) : Land :=
  if c < 6 || 114 ≤ c then
    let k := if c < 6 then c else 119 - c
    if 36 ≤ r && r < 68 then laneLand (fun tx p => .fab tx p (r - 36 + if c < 6 then 0 else 32)) k 2
    else if (24 ≤ r && r < 36) || (68 ≤ r && r < 80) then checker r c .vinSd
    else .vss
  else if r < 12 || 92 ≤ r then checker r c .vinMem
  else if r < 32 then checker r c (.vinCmp ((c - 6) / 36))
  else if 72 ≤ r then checker r c (.vinCmp (3 + (c - 6) / 36))
  else if r < 36 || 68 ≤ r then checker r c .vinHs
  else if c < 12 then
    if r < 40 then (if c % 2 = 0 then .vinAon else .vss)
    else if r < 56 then laneLand (fun tx p => .pcie tx p (r - 40)) (c - 6) 2
    else if r < 66 then (if c < 11 && 5 * (r - 56) + (c - 6) < 48 then .lowSpeed (5 * (r - 56) + (c - 6)) else .vss)
    else .vss
  else if r < 38 || 66 ≤ r then checker r c .vinHs
  else if c < 60 then ddrLand ((c - 12) / 8) (r - 38) ((c - 12) % 8)
  else if c < 108 then ddrLand (6 + (107 - c) / 8) (r - 38) ((107 - c) % 8)
  else if 40 ≤ r && r < 50 && c = 109 then .refclk (r - 40) true
  else if 40 ≤ r && r < 50 && c = 110 then .refclk (r - 40) false
  else .vss

/-- A land's number (R397). -/
def landNumber (r c : Nat) : Nat := 120 * r + c

/-- A land's centre from the body corner with the triangular mark, in tenths of a millimetre (R397). -/
def landCentre (r c : Nat) : Nat × Nat := (105 + 10 * c, 85 + 10 * r)

/-- Lands of a row for which p holds. -/
def landsIn (p : Land → Bool) (r : Nat) : Nat := (List.range 120).countP (fun c => p (landAt r c))

/-- Lands of the package for which p holds (R396). -/
def lands (p : Land → Bool) : Nat := (List.range 104).foldl (fun n r => n + landsIn p r) 0

/-- Junction-to-lid thermal resistance in thousandths of a degree per watt (R412). -/
def thetaOf : Item → Nat
  | .burl _ => 35
  | .head => 45
  | .tail _ => 120
  | .banjo => 1000
  | .stack _ => 300

/-- The junction temperature in thousandths of a degree, for a lid temperature and the die's own power in watts (R412). -/
def junction (i : Item) (lid power : Nat) : Nat := 1000 * lid + thetaOf i * power

end Sys2Proof.Machine
end

