-- ==== Sys2Proof/Machine/Timing.lean ====
section
/-! DEFINITION. The timing promises: stage counts of paths, the time of a stage, rates and energies (R2, R3, R15, R19, R20,
R34–R39, R82, R113, R114, R128, R302, R313). Commands of this model take no time; these functions are what the device
promises of the time their effects take (log entry 1). -/

namespace Sys2Proof.Machine

/-! ### The time of a stage -/

/-- Stage cycle times on typical silicon in picoseconds at 25, 60 and 95 °C, from 0.60 V in steps of 50 mV (R35). -/
def stageTable : List (List Nat) :=
  [[900, 935, 980], [760, 790, 830], [640, 660, 690], [540, 556, 578], [480, 495, 512], [430, 442, 458], [395, 405, 418]]

/-- A value between two neighbours, or beyond them on their line. -/
def between (x x0 x1 y0 y1 : Rat) : Rat := y0 + (x - x0) * (y1 - y0) / (x1 - x0)

/-- A column of the table at a supply in mV, 600 to 900: linear between neighbouring rows (R36). -/
def stageColumn (mv col : Nat) : Rat :=
  let row (i : Nat) : Rat := ((stageTable.getD i []).getD col 0 : Nat)
  let i := min 5 ((mv - 600) / 50)
  between mv (600 + 50 * i : Nat) (650 + 50 * i : Nat) (row i) (row (i + 1))

/-- The stage cycle time on typical silicon in picoseconds, from 25 °C to 110 °C (R35, R36). -/
def stageTypical (mv : Nat) (temp : Rat) : Rat :=
  if temp ≤ 60 then between temp 25 60 (stageColumn mv 0) (stageColumn mv 1)
  else between temp 60 95 (stageColumn mv 1) (stageColumn mv 2)

/-- The stage cycle time of a part whose silicon is at the given per mille of typical: 1,120 slow, 900 fast (R35). -/
def stageTime (silicon mv : Nat) (temp : Rat) : Rat := stageTypical mv temp * silicon / 1000

/-- Whether a time may be a part's stage cycle time: exact at 25 °C and above, anywhere within 3 % of the 25 °C value below
(R36). -/
def stageAllowed (silicon mv : Nat) (temp time : Rat) : Bool :=
  if 25 ≤ temp then decide (time = stageTime silicon mv temp)
  else decide (stageTime silicon mv 25 * 97 / 100 ≤ time) && decide (time ≤ stageTime silicon mv 25 * 103 / 100)

/-- The time of a path of one domain: stages, island cycles of a length in picoseconds, and time spent elsewhere (R34, R38, R41). -/
def pathTime (stage : Rat) (stages : Nat) (cycle : Rat) (cycles : Nat) (other : Rat) : Rat :=
  stage * stages + cycle * cycles + other

/-- The rate of a link wire in Gb/s at a stage cycle time of the sending link domain in picoseconds (R20). -/
def wireRate (stage : Rat) : Rat := 4 * 556 / stage

/-- A link's bandwidth in GB/s in each direction (R19, R20). -/
def linkRate (l : Fin 16) (stage : Rat) : Rat := linkWires l * wireRate stage / 8

/-! ### Stage counts -/

/-- Paths and their stage counts (R15, R38, R39, R302). -/
inductive PathSegment where
  | doorbellToFetch
  | decodeAndDispatch
  | probe
  | extentWritten
  | lastWriteToRecord
  | moverToRequest
  | tileStoreToEngine
  | engineToTileStore
  | matrixFirst
  | vectorArith
  | vectorTable
  | dispatchLists (experts : Nat)
  | stackEnter
  | stackReturn
  | stackToRequester
  | ddrLookup
  | ddrEnter
  | ddrReturn
  | transitRouter
  | sidebandDie
  | coreL1
  | coreL2
  | coreSlice
  | headTransit
  | tailTransit
  | moverRead
  | moverWrite
  | resumeToFetch
  | nextFetch
  | islandCrossing
  | dieCrossing (l : Fin 16)
  | fabricEgress
  | fabricIngress
deriving DecidableEq, Repr

/-- The stage count of a segment. -/
def PathSegment.stages : PathSegment → Nat
  | .doorbellToFetch => 40
  | .decodeAndDispatch => 22
  | .probe => 9
  | .extentWritten => 3
  | .lastWriteToRecord => 14
  | .moverToRequest => 8
  | .tileStoreToEngine => 12
  | .engineToTileStore => 10
  | .matrixFirst => 38
  | .vectorArith => 24
  | .vectorTable => 30
  | .dispatchLists experts => 18 + (experts + 63) / 64
  | .stackEnter => 8
  | .stackReturn => 14
  | .stackToRequester => 4
  | .ddrLookup => 10
  | .ddrEnter => 8
  | .ddrReturn => 14
  | .transitRouter => 3
  | .sidebandDie => 12
  | .coreL1 => 4
  | .coreL2 => 14
  | .coreSlice => 40
  | .headTransit => 6
  | .tailTransit => 8
  | .moverRead => 12
  | .moverWrite => 10
  | .resumeToFetch => 40
  | .nextFetch => 1
  | .islandCrossing => 6
  | .dieCrossing l => crossing l
  | .fabricEgress => 18
  | .fabricIngress => 20

/-- Island clock cycles a segment adds (R15). -/
def PathSegment.cycles : PathSegment → Nat
  | .islandCrossing => 2
  | _ => 0

/-- The stage count of a path. -/
def stagesOf (path : List PathSegment) : Nat := (path.map PathSegment.stages).sum

/-- The island cycles of a path. -/
def cyclesOf (path : List PathSegment) : Nat := (path.map PathSegment.cycles).sum

/-- A read of T1 by a requester of the same partition, beside the stack's own access time (R38). -/
def ownStackRead : List PathSegment := [.stackEnter, .islandCrossing, .islandCrossing, .stackReturn, .stackToRequester]

/-- Where the two ends of a Bead operation lie to each other (R39). -/
inductive Near where
  | part | die | pkg
deriving DecidableEq, Repr

/-- Hops below the combining point of a barrier's scope, or of a semaphore's path (R39). -/
def barrierHops : Near → Nat
  | .part => 1
  | .die => 5
  | .pkg => 10

/-- A barrier's count: entry, up, combining, down, release (R39). -/
def barrierStages (n : Near) : Nat := 4 + 4 * barrierHops n + 8 + 4 * barrierHops n + 4

/-- The count of a semaphore update, of a WAIT carried to its semaphore, or of its release carried back (R39). -/
def semStages : Near → Nat
  | .part => 8
  | .die => 8 + 4 * 10
  | .pkg => 8 + 4 * 20

/-- How near two partitions lie (R18). -/
def nearParts (p q : Fin 24) : Near :=
  if p = q then .part else if burlOfPart p = burlOfPart q then .die else .pkg

/-- Cycles of a SerDes island in the path out and the path in (R302). -/
def serdesOut : Nat := 32
def serdesIn : Nat := 96

/-! ### Rates and energies -/

/-- Stage cycles a work unit's wavefronts take: positions, wavefronts fired, positions skipped under R110, stage cycles
a wavefront (R113). -/
def workUnitStages (p f d c : Nat) : Nat := max f (max ((f + d + 1) / 2) ((p + 7) / 8)) * c

/-- Dynamic energy of the matrix engine and tile store, in units of 10⁻¹⁶ J (0.1 fJ) for each P dense-equivalent FP8
operations of a work unit with P positions, at 0.75 V on typical silicon (R114). -/
def workUnitEnergy (p f d : Nat) : Nat := 167 * p + 1133 * f + 110 * d

/-- Peak operations per stage cycle of a matrix engine by format width: 8-bit formats, 4- and 6-bit formats, 16-bit formats,
from the 32 × 64 outputs of a wavefront and its depth (R2, R63, R82). -/
inductive Peak where
  | narrow | byte | half
deriving DecidableEq, Repr

/-- Operations per stage cycle. -/
def Peak.ops : Peak → Nat
  | .narrow => 32768
  | .byte => 16384
  | .half => 8192

/-- Operations per second of a number of matrix engines at a stage cycle time in picoseconds (R2, R82). -/
def peakRate (f : Peak) (engines : Nat) (stage : Rat) : Rat := f.ops * engines * 1000000000000 / stage

/-- Useful bytes per second of a gather or scatter with random addresses, by row size: 0.48 G rows each second, at most 90 %
of the stack's bandwidth (R128). -/
def gatherRate (row : Nat) : Nat := min (row * 480000000) (2048000000000 * 9 / 10)

/-- The bandwidth in bytes per second that a stack controller allows under a grant in mW (R311). -/
def stackBandwidth (grant : Nat) : Nat := min 2048000000000 ((grant - 12000) * 2048000000000 / 20000)

end Sys2Proof.Machine
end

