-- ==== Sys2Proof/Machine/Electrical.lean ====
section
/-! DEFINITION. Electrical and mechanical promises and the conditions the board must meet (R43, R50, R52–R55, R312, R320,
R402–R405, R407, R409–R411, R413). The commands of this model begin after a pin's filter and inside the rails' windows; these
definitions say what that leaves to the board and to the device (log entry 45). Nothing here changes while the device runs. -/

namespace Sys2Proof.Machine

/-- Whether two timestamps in nanoseconds establish an order of their events (R43). -/
def timestampsOrder (t u : Nat) : Bool := t + 200 < u || u + 200 < t

/-! ### Pins -/

/-- What the filter of a low-speed input does with a pulse (R54). -/
inductive Filtered where
  | ignored | passed | either
deriving DecidableEq, Repr

/-- The filter of R54 on a pulse of some nanoseconds. -/
def glitchFilter (ns : Nat) : Filtered := if ns < 50 then .ignored else if ns < 100 then .either else .passed

/-- Whether a passed edge may be delayed by some nanoseconds (R54). -/
def edgeDelayOk (ns : Nat) : Bool := 50 ≤ ns && ns ≤ 60

/-- Inputs without the filter (R409). -/
inductive Unfiltered where
  | xspiDq | xspiDqs | rgmiiRx | tck
deriving DecidableEq, Repr

/-- The level a 1.8 V input reads at a voltage in mV; none between the limits (R409). -/
def inputLevel (mv : Nat) : Option Bool := if 1170 ≤ mv then some true else if mv ≤ 630 then some false else none

/-- Whether an output voltage in mV is legal for the level driven (R409). -/
def outputOk (high : Bool) (mv : Nat) : Bool := if high then 1350 ≤ mv else mv ≤ 450

/-- Drive current in mA of a drive code (R411). -/
def driveOf (code : Fin 4) : Nat := 4 * (code.val + 1)

/-- The 20–80 % edge time of a slew code into 10 pF, in picoseconds (R411). -/
def slewOf (code : Fin 4) : Nat × Nat :=
  match code with
  | 0 => (400, 800)
  | 1 => (800, 1500)
  | 2 => (1500, 3000)
  | 3 => (3000, 6000)

/-- Whether the timings of xSPI or RGMII are met at a slew code (R410). -/
def timingMet (slew : Fin 4) : Bool := slew < 2

/-- The low-speed interfaces (R410). -/
inductive Serial where
  | xspiOctal | xspiSingle | rgmii | i3c | uart | jtag
deriving DecidableEq, Repr

/-- The highest clock of an interface in kHz; for the UART its rate in tenths of a kilobaud (R410). -/
def Serial.rate : Serial → Nat
  | .xspiOctal => 200000
  | .xspiSingle => 50000
  | .rgmii => 125000
  | .i3c => 12500
  | .uart => 1152
  | .jtag => 25000

/-- Voltages a pin withstands: human body model, charged device model (R55). -/
def esdVolts : Nat × Nat := (1000, 250)

/-! ### Reference clocks -/

/-- The reference clocks (R407). -/
inductive ClockInput where
  | mgmt
  | mem (n : Fin 7)
  | fab (n : Fin 2)
  | pcie
deriving DecidableEq, Repr

/-- Nominal frequency in Hz, tolerance in ppm, and the highest phase jitter in femtoseconds, where R407 gives one. -/
def ClockInput.limits : ClockInput → Nat × Nat × Option Nat
  | .mgmt => (100000000, 300, some 5000)
  | .mem _ => (100000000, 100, some 500)
  | .fab _ => (156250000, 100, some 150)
  | .pcie => (100000000, 300, none)

/-- The greatest down-spread a clock accepts, in tenths of a percent (R52, R407). -/
def ClockInput.spread : ClockInput → Nat
  | .pcie => 5
  | _ => 0

/-- Whether a frequency lies within a number of ppm of a nominal one. -/
def withinPpm (hz nominal ppm : Nat) : Bool :=
  nominal * (1000000 - ppm) ≤ hz * 1000000 && hz * 1000000 ≤ nominal * (1000000 + ppm)

/-- Whether an unspread clock meets its row of R407. -/
def ClockInput.ok (c : ClockInput) (hz jitter : Nat) : Bool :=
  withinPpm hz c.limits.1 c.limits.2.1 && c.limits.2.2.all (fun j => jitter ≤ j)

/-- Whether a PLL treats its reference as lost: absent for a microsecond, or beyond 1,000 ppm (R408). -/
def ClockInput.lost (c : ClockInput) (absentNs hz : Nat) : Bool := 1000 ≤ absentNs || !withinPpm hz c.limits.1 1000

/-! ### Rails -/

/-- The input rails (R402). -/
inductive Rail where
  | cmp (n : Fin 6)
  | hs
  | mem
  | sd
  | aon
deriving DecidableEq, Repr

/-- A rail's row: nominal, undervoltage and absolute maximum in mV, static and dynamic windows in tenths of a percent of the
nominal, current in amperes, sensor number. -/
structure RailRow where
  nominal : Nat
  under : Nat
  absMax : Nat
  static : Nat
  dynamic : Nat
  amps : Nat
  sensor : Nat
deriving DecidableEq, Repr

/-- The table of R402. -/
def Rail.row : Rail → RailRow
  | .cmp n => ⟨950, 850, 1050, 30, 50, 400, 410 + n.val⟩
  | .hs => ⟨950, 850, 1050, 30, 50, 500, 416⟩
  | .mem => ⟨1100, 1000, 1210, 30, 50, 700, 417⟩
  | .sd => ⟨1200, 1100, 1320, 20, 40, 120, 418⟩
  | .aon => ⟨1800, 1650, 1980, 50, 80, 6, 419⟩

/-- Whether a voltage in µV lies within a window, in tenths of a percent, of a nominal value in mV (R402). -/
def inWindowOf (nominal window uv : Nat) : Bool := nominal * (1000 - window) ≤ uv && uv ≤ nominal * (1000 + window)

/-- Whether a rail in µV is in its static window, or during a load step in its dynamic one (R402). -/
def Rail.ok (r : Rail) (step : Bool) (uv : Nat) : Bool :=
  inWindowOf r.row.nominal (if step then r.row.dynamic else r.row.static) uv

/-- The supply current steps in A/µs that the board must hold and the device does not exceed, where R403 gives a bound. -/
def Rail.step : Rail → Option Nat
  | .cmp _ => some 150
  | .hs => some 50
  | .mem => some 40
  | _ => none

/-- The supply of a domain in mV: its set point, or the input less the dropout of 20 mV (R403). -/
def domainSupply (setPoint input : Nat) : Nat := if input < setPoint + 20 then input - 20 else setPoint

/-- Whether an SRAM array lengthens its reads: its supply is more than 60 mV below the set point (R50). -/
def arrayWaits (setPoint supply : Nat) : Bool := supply + 60 < setPoint

/-- Whether the board may raise the other rails, in mV: they stay below 0.3 V until VIN_AON exceeds 1.65 V (R404). -/
def aonFirst (aon : Nat) (others : List Nat) : Bool := 1650 < aon || others.all (fun v => v < 300)

/-- Whether PWR_GOOD may rise: VIN_AON in its static window, REFCLK_MGMT in tolerance for a millisecond (R404). -/
def powerGoodMayRise (aonUv refNs : Nat) : Bool := Rail.aon.ok false aonUv && 1000000 ≤ refNs

/-- Whether a rail's rise from 10 % to 90 % of some microseconds is allowed (R404). -/
def riseOk (us : Nat) : Bool := 200 ≤ us && us ≤ 20000

/-- Whether a fall of VIN_AON to a voltage in mV counts as a fall of PWR_GOOD (R405). -/
def aonFell (mv : Nat) : Bool := mv < 1620

/-! ### Power and current -/

/-- Whether the package powers in mW of the ten intervals of an aligned millisecond keep the cap in W (R312). -/
def capKept (cap : Nat) (intervals : List Nat) : Bool :=
  intervals.length == 10 && intervals.sum * 100 ≤ 103 * cap * 1000 * 10 && intervals.all (fun p => p ≤ 1100 * cap)

/-- The bounds on a Burl's supply current rise in tenths of A/µs: engine starts, PACE changes, set point slew (R320). -/
def currentSteps : List Nat := [1280, 64, 100]

/-- The bound that their sum keeps (R320). -/
def currentBound : Nat := 1500

/-! ### Mechanics -/

/-- Body length, width and height with their tolerances, in hundredths of a millimetre (R413). -/
def bodySize : List (Nat × Nat) := [(14000, 10), (12000, 10), (640, 15)]

/-- Socket load in newtons, mass in grams, lid flatness and land coplanarity in hundredths of a millimetre (R413). -/
def socketLoad : Nat × Nat := (2800, 3400)
def massGrams : Nat := 410
def lidFlatness : Nat := 8
def landCoplanarity : Nat := 15

/-- Storage temperatures in °C (R413). -/
def storageRange : Int × Int := (-40, 85)

end Sys2Proof.Machine
end

