-- ==== Sys2Proof/Machine/Scopes.lean ====
section
/-! DEFINITION. The memory model's scopes, releases and acquires (R209–R214). The machine performs each command's effect whole, so
its runs are some of those these rules allow (log entry 6); this file says which pairs order data on every part. -/

namespace Sys2Proof.Machine

/-- The scopes, narrowest first (R10). -/
inductive Scope where
  | part | die | pkg | fab
deriving DecidableEq, Repr

/-- An agent of the memory model: all contexts and blocks of a partition, a core, or Banjo, of a device (R211). -/
inductive Who where
  | part (dev : Nat) (p : Fin 24)
  | core (dev : Nat) (c : Fin 96)
  | banjo (dev : Nat)
deriving DecidableEq, Repr

/-- The device of an agent. -/
def Who.dev : Who → Nat
  | .part d _ => d
  | .core d _ => d
  | .banjo d => d

/-- Whether a scope covers two agents. head: the operation is a barrier with HOME 6; flag: it is a flag write or a flag
poll (R211). -/
def Scope.covers (head flag : Bool) : Scope → Who → Who → Bool
  | .part, .part d p, .part e q => d == e && p == q
  | .part, _, _ => false
  | .die, .part d p, .part e q => d == e && burlOfPart p == burlOfPart q && !head
  | .die, .core d _, .core e _ => d == e && head
  | .die, _, _ => false
  | .pkg, a, b => a.dev == b.dev
  | .fab, _, _ => flag

/-- The operations that are releases (R209). A completion record says whether its descriptor waited for the context's earlier ones
(R206). -/
inductive Release where
  | signal (scope : Scope)
  | barrierArrival (scope : Scope)
  | dispatchAdd (sameBurl : Bool)
  | coreSem
  | coreArrive (dieHead : Bool)
  | completionRecord (waited : Bool)
  | faultRecord
deriving DecidableEq, Repr

/-- A release's scope (R209). -/
def Release.scope : Release → Scope
  | .signal x => x
  | .barrierArrival x => x
  | .dispatchAdd sameBurl => if sameBurl then .die else .pkg
  | .coreSem => .pkg
  | .coreArrive dieHead => if dieHead then .die else .pkg
  | .completionRecord _ => .pkg
  | .faultRecord => .pkg

/-- The operations that are acquires (R210). -/
inductive Acquire where
  | waitSem (scope : Scope)
  | waitBarrier (scope : Scope)
  | waitFlag
  | waitSeq
  | coreSem
  | coreBargen (dieHead : Bool)
  | completionRecord
  | faultTail
  | faultEntry
deriving DecidableEq, Repr

/-- An acquire's scope; a WAIT with SRC = SEQ has none (R210). -/
def Acquire.scope : Acquire → Option Scope
  | .waitSem x => some x
  | .waitBarrier x => some x
  | .waitFlag => some .fab
  | .waitSeq => none
  | .coreSem => some .pkg
  | .coreBargen dieHead => some (if dieHead then .die else .pkg)
  | .completionRecord => some .pkg
  | .faultTail => some .pkg
  | .faultEntry => some .pkg

/-- The second condition of R212: both scopes cover both agents. -/
def scopesCover (head flag : Bool) (r : Release) (a : Acquire) (x y : Who) : Bool :=
  r.scope.covers head flag x y && (a.scope.any (fun z => z.covers head flag x y))

/-! ### Histories -/

namespace History

/-- What a release writes and an acquire reads: a semaphore, a barrier (head: HOME 6), a flag, a completion record, or a fault
ring with its TAIL. -/
inductive Place where
  | sem (p : Fin 24) (n : Nat)
  | barrier (n : Nat) (head : Bool)
  | flag (at64 : Nat)
  | record (seq : Nat)
  | ring (r : Nat)
deriving DecidableEq, Repr

/-- What an event does. A release says whether it sets its place (SET, a core write of BD_SEM, a flag or record write), which ends a
run of updates, and in which generation of a barrier it arrives; an acquire, which generation released it, or which TAIL it read,
and whether it found its condition true. An update is an ADD, MAX, CAS or GE_CONSUME that is no release. -/
inductive Act where
  | write (unit : Nat)
  | read (unit : Nat)
  | release (r : Release) (x : Place) (sets : Bool) (gen : Nat)
  | acquire (a : Acquire) (x : Place) (gen : Nat) (found : Bool)
  | update (x : Place)
  | setOnly (x : Place)
  | regWrite (block : Nat)
  | blockRead (block unit : Nat)
  | ordSt | ordDev | ordLd
deriving DecidableEq, Repr

/-- An event: whose it is, which context of a partition (0 for a core), and which descriptor of that context by dispatch order, or
which entry of a fault ring. A history lists events in the order in which each agent's, and each place's, take effect. -/
structure Ev where
  who : Who
  ctx : Nat
  desc : Nat
  act : Act
deriving DecidableEq, Repr

/-- Two events belong to one context of one partition, or to one core. -/
def Ev.sameLine (x y : Ev) : Bool := x.who == y.who && x.ctx == y.ctx

/-- Whether an agent performs an act at a position strictly between two others. -/
def between (h : List Ev) (who : Who) (act : Act) (i j : Nat) : Bool :=
  (List.range j).any (fun k => decide (i < k) && (h[k]?).any (fun e => e.who == who && e.act == act))

/-- An ORD.ST after position i and an ORD.DEV after that, both before position j (R207). -/
def publishes (h : List Ev) (who : Who) (i j : Nat) : Bool :=
  (List.range j).any (fun k => decide (i < k) && (h[k]?).any (fun e => e.who == who && e.act == .ordSt) && between h who .ordDev k j)

/-- The release at i covers the write at w (R209). -/
def releaseCovers (h : List Ev) (i w : Nat) : Bool :=
  match h[i]?, h[w]? with
  | some x, some y =>
      match x.act, y.act with
      | .release r _ _ _, .write _ =>
          x.sameLine y && (match r with
            | .signal _ | .barrierArrival _ => decide (y.desc < x.desc)
            | .dispatchAdd _ | .faultRecord => decide (w < i) && x.desc == y.desc
            | .completionRecord waited => decide (w < i) && (x.desc == y.desc || (waited && decide (y.desc < x.desc)))
            | .coreSem | .coreArrive _ => publishes h x.who w i)
      | _, _ => false
  | _, _ => false

/-- Where a core's acquire takes effect: the position of the next such barrier of its core, before position k (R210). -/
def effectBefore (h : List Ev) (who : Who) (act : Act) (j k : Nat) : Bool := between h who act j k

/-- The acquire at j orders the later event at k (R210); one that found its condition false orders nothing. -/
def acquireOrders (h : List Ev) (j k : Nat) : Bool :=
  match h[j]?, h[k]? with
  | some x, some y =>
      match x.act with
      | .acquire a _ gen found =>
          found && x.sameLine y && decide (j < k) && (match a with
            | .waitSem _ | .waitBarrier _ | .waitFlag | .waitSeq => decide (x.desc < y.desc)
            | .coreSem | .coreBargen _ => (List.range j).any (fun d => (h[d]?).any (fun e => e.who == x.who && e.act == .ordDev))
                && effectBefore h x.who .ordDev j k
            | .completionRecord => effectBefore h x.who .ordLd j k
            | .faultTail => (List.range j).any (fun d => (h[d]?).any (fun e => e.who == x.who && e.act == .ordDev))
                && effectBefore h x.who .ordDev j k && decide (y.desc < gen)
            | .faultEntry => effectBefore h x.who .ordLd j k && y.desc == x.desc)
      | _ => false
  | _, _ => false

/-- A write of a place that ends every run of updates before it (R212). -/
def Ev.ends (e : Ev) (x : Place) : Bool :=
  match e.act with
  | .release _ y sets _ => y == x && sets
  | .setOnly y => y == x
  | _ => false

/-- The first condition of R212: the acquire at j reads what the release at i wrote, or what a run of updates after it did; a barrier
releases it by the generation in which the release arrived. -/
def readsFrom (h : List Ev) (i j : Nat) : Bool :=
  match h[i]?, h[j]? with
  | some r, some a =>
      match r.act, a.act with
      | .release _ x _ gen, .acquire _ y gen' found =>
          found && x == y && decide (i < j) && (match x with
            | .barrier _ _ => gen == gen'
            | .ring _ => true
            | _ => (List.range j).all (fun k => decide (k ≤ i) || !(h[k]?).any (fun e => e.ends x)))
      | _, _ => false
  | _, _ => false

/-- The release at i and the acquire at j synchronise (R212). A WAIT with SRC = SEQ does so within its own context (R210). -/
def synchronise (h : List Ev) (i j : Nat) : Bool :=
  readsFrom h i j && (match h[i]?, h[j]? with
    | some r, some a =>
        match r.act, a.act with
        | .release rel x _ _, .acquire .waitSeq _ _ _ => r.sameLine a && rel.scope == .pkg && (match x with | .record _ => true | _ => false)
        | .release rel x _ _, .acquire acq _ _ _ =>
            let head := match x with | .barrier _ b => b | _ => false
            let flag := match x with | .flag _ => true | _ => false
            scopesCover head flag rel acq r.who a.who
        | _, _ => false
    | _, _ => false)

/-- The acquire at j comes before the release at i in one context's dispatch order, or in one core's program order, where an ORD.DEV
sets it (R143, R214). -/
def linked (h : List Ev) (j i : Nat) : Bool :=
  acquireOrders h j i && (match h[j]? with
    | some x => match x.who with | .core _ _ => between h x.who .ordDev j i | _ => true
    | none => false)

/-- A scope-complete chain from the release at i to the acquire at j: every pair synchronises (R214). -/
inductive ScopeComplete (h : List Ev) : Nat → Nat → Prop where
  | pair {i j : Nat} : synchronise h i j = true → ScopeComplete h i j
  | link {i j i' j' : Nat} : ScopeComplete h i j → linked h j i' = true → synchronise h i' j' = true → ScopeComplete h i j'

/-- A core's register write publishes its earlier stores to the reads that the register's block makes after it (R422): to those alone. -/
def published (h : List Ev) (w r : Nat) : Prop :=
  ∃ k, ∃ x y z : Ev, h[w]? = some x ∧ h[k]? = some y ∧ h[r]? = some z ∧ (∃ u, x.act = .write u) ∧ x.who = y.who ∧
    publishes h x.who w k = true ∧ k < r ∧ ∃ b u, y.act = .regWrite b ∧ z.act = .blockRead b u

/-- The write at w is ordered before the read at r: another agent's through a scope-complete chain only (R212, R214), a block's also
through a register write (R422). -/
def OrderedBefore (h : List Ev) (w r : Nat) : Prop :=
  (∃ i j, releaseCovers h i w = true ∧ ScopeComplete h i j ∧ acquireOrders h j r = true) ∨ published h w r

/-- The unit an event writes, or reads. -/
def Ev.writes (e : Ev) (u : Nat) : Prop := e.act = .write u

/-- The read at r of unit u may return what the write at w wrote (none: what the unit held before): no later write of the unit is
ordered before the read. After a pair that scopes do not cover, the old value is therefore still possible (R204, R213). -/
def MayReturn (h : List Ev) (u : Nat) (w : Option Nat) (r : Nat) : Prop :=
  (∀ k ∈ w, ∃ x, h[k]? = some x ∧ x.writes u) ∧
  ∀ k, (∀ v ∈ w, v < k) → (∃ x, h[k]? = some x ∧ x.writes u) → ¬ OrderedBefore h k r

end History

end Sys2Proof.Machine
end

