-- ==== Sys2Proof/Tests/Slice0.lean ====
section
/-! SUPPORT. Small states and, on them: for every statement of Certificates/Slice0/Obligations.lean a witness that meets the hypotheses
of each of its clauses; ill-formed terms that WellFormed refuses; one-step tests whose results come from the manual. -/

namespace Sys2Proof.Tests

open Sys2Proof Sys2Proof.Machine Sys2Proof.Machine.State

/-- The canonical form as one evaluation. -/
def canonical (s : State) : Bool :=
  Sparse.wf (fun _ => (0 : Byte)) s.mem && Sparse.wf (fun _ => (0 : Byte)) s.ts && Sparse.wf (fun _ => (0 : Byte)) s.sram
    && Sparse.wf (fun _ => (0xFF : Byte)) s.flash && Sparse.wf regReset s.regs && Sparse.wf (fun _ => none) s.staged
    && Sparse.wf (fun _ => (⟨0, false⟩ : UnitMeta)) s.units && Sparse.wf (fun _ => false) s.tsPoison
    && Sparse.wf (fun _ => false) s.tsDirty && Sparse.wf (fun _ => 0) s.keys && Sparse.wf (fun _ => Ctx.init) s.ctxs
    && Sparse.wf (fun _ => Part.init) s.parts && Sparse.wf (fun _ => Home.init) s.homes && Sparse.wf (fun _ => Agent.init) s.agents
    && Sparse.wf (fun _ => Slice.init) s.slices && Sparse.wf (fun _ => CoreSt.init) s.cores && Sparse.wf (fun _ => Dom.init) s.doms
    && Sparse.wf (fun _ => Die.init) s.dies && Sparse.wf (fun _ => Link.init) s.links
    && Sparse.wf (fun _ => HostQueue.init) s.queues && Sparse.wf (fun _ => FnSt.init) s.fns && Sparse.wf (fun _ => Port.init) s.ports
    && Sparse.wf (fun _ => 0) s.linkFaultAt && Sparse.wf (fun _ => []) s.devRing && Sparse.wf (fun _ => []) s.devFatal
    && Sparse.wf (fun _ => none) s.dumps && Sparse.wf (fun _ => Chan.init) s.chans && Sparse.wf (fun _ => zeroDigest) s.measures
    && Sparse.wf (fun _ => 0) s.flips && Sparse.wf (fun _ => 0) s.tsFlips

theorem canonical_of (s : State) (h : canonical s = true) : s.Canonical := by
  simp only [canonical, Bool.and_eq_true, and_assoc] at h
  obtain ⟨h1, h2, h3, h4, h5, h6, h7, h8, h9, h10, h11, h12, h13, h14, h15, h16, h17, h18, h19, h20, h21, h22, h23, h24, h25, h26,
    h27, h28, h29, h30⟩ := h
  exact ⟨h1, h2, h3, h4, h5, h6, h7, h8, h9, h10, h11, h12, h13, h14, h15, h16, h17, h18, h19, h20, h21, h22, h23, h24, h25, h26,
    h27, h28, h29, h30⟩

/-! ### States -/

/-- Fields set one after another. -/
def fields (s : State) (fs : List (Nat × Fld × Nat)) : State := fs.foldl (fun t x => t.setFld x.1 x.2.1 x.2.2) s

/-- A word from its fields. -/
def word (fs : List (Fld × Nat)) : Word := fs.foldl (fun w x => x.1.set w x.2) 0

/-- A domain that is on. -/
def lit : Dom := { Dom.init with on := true }

/-- A link in service, with a bundle of each of its roles. -/
def laid (l : Nat) : Link :=
  { Link.init with up := true, bundles := if l < 6 then [(0, 0), (1, 1), (2, 2)] else [(0, 3)] }

/-- A device in service at L2: every domain on, every die synchronised, every link up, every partition joined, 192 slots licensed, keys
at the indices of the device and at the first and the last context. -/
def device : State :=
  fields { State.reset with
    mg := { Mgmt.init with phase := 2, keyNext := 60, dumpKey := true }
    pins := { State.reset.pins with pwrGood := true }
    parts := (List.range 24).map (fun p => (p, { Part.init with joined := true }))
    doms := (List.range 124).map (fun i => (i, lit))
    dies := (List.range 9).map (fun d => (d, { Die.init with synced := true }))
    links := (List.range 16).map (fun l => (l, laid l))
    keys := [(0, 50), (6079, 51), (6144, 44), (6145, 45), (6146, 46)] }
    [(a_MG_PARTEN, MG_PARTEN_ENABLED, 0xFFFFFF), (a_MG_LICENCE, MG_LICENCE_CTX, 192), (a_MG_BOOTSTAT, MG_BOOTSTAT_LEVEL, 2)]

theorem device_canonical : device.Canonical := canonical_of _ (by decide +kernel)

/-- The reset value of HS_CORE_CEIL never has CEIL_MV 0 (R224). -/
theorem ceil_reset (c : Nat) (h : c < 96) : HS_CORE_CEIL_CEIL_MV.get (regReset (a_HS_CORE_CEIL c)) ≠ 0 := by
  have find : ∀ c, c < 96 → regFind (a_HS_CORE_CEIL c) =
      some (⟨.hsCoreCeil, 0x1F1000100000, [(0x8, 96)], .fixed 110, false,
        [⟨⟨39, 32⟩, .ro, 0, true⟩, ⟨⟨9, 0⟩, .ro, 0, true⟩]⟩, [c]) := by
    intro c h
    interval_cases c <;> rfl
  rw [regReset, find c h]
  simp only [resetWord, List.foldl, if_true]
  rw [show HS_CORE_CEIL_CEIL_MV = (⟨9, 0⟩ : Fld) from rfl, get_set _ _ _ (by decide) (by decide)]
  simp only [fusedValue, Fld.width]
  omega

/-- Registers of a device whose core c is physical core c; a CEIL_MV of 0 is no fuse's, so that no entry is a reset value. -/
def ceilings : Sparse Word := (List.range 96).map (fun c => (a_HS_CORE_CEIL c, HS_CORE_CEIL_PHYS.set 0 c))

/-- A state with its cores placed. -/
def placed (s : State) : State :=
  { s with regs := s.regs.filter (fun e => decide (e.1 < a_HS_CORE_CEIL 0)) ++ (ceilings ++
      s.regs.filter (fun e => decide (a_HS_CORE_CEIL 95 < e.1))) }

theorem canonical_placed (s : State) (h : canonical s = true) (hs : Sparse.sorted (placed s).regs = true) : (placed s).Canonical := by
  have c := canonical_of _ h
  refine { c with regs := ?_ }
  have hr : s.regs.all (fun e => decide (e.2 ≠ regReset e.1)) = true := by
    have := c.regs; simp only [Sparse.wf, Bool.and_eq_true] at this; exact this.2
  have z : ∀ k, k < 96 → HS_CORE_CEIL_CEIL_MV.get (HS_CORE_CEIL_PHYS.set 0 k) = 0 := by decide +kernel
  simp only [Sparse.wf, Bool.and_eq_true]
  refine ⟨hs, ?_⟩
  simp only [List.all_eq_true, decide_eq_true_eq] at hr ⊢
  intro x hx
  simp only [placed, List.mem_append, List.mem_filter] at hx
  obtain hx | hx | hx := hx
  · exact hr x hx.1
  · simp only [ceilings, List.mem_map, List.mem_range] at hx
    obtain ⟨k, hk, rfl⟩ := hx
    intro q
    have := ceil_reset k hk
    rw [← q, z k hk] at this
    exact this rfl
  · exact hr x hx.1

/-- The device in service with its cores placed. -/
def cored : State := placed device

theorem cored_canonical : cored.Canonical := canonical_placed _ (by decide +kernel) (by decide +kernel)

/-! ### Registers -/

theorem row_of (a : Nat) (f : RegRow → Bool) (h : (regFind a).any (fun x => f x.1) = true) :
    ∃ r ix, regFind a = some (r, ix) ∧ f r = true := by
  cases e : regFind a with
  | none => rw [e] at h; cases h
  | some x => rw [e] at h; exact ⟨x.1, x.2, rfl, h⟩

theorem witness_RegisterWriteByAccessCodes :
    device.Canonical ∧
      (let a : BitVec 45 := BitVec.ofNat 45 (a_PT_TMCFG 23)
       Requester.banjo ≠ .host ∧ inMailbox a.toNat = false ∧ a.toNat % 8 = 0 ∧ device.gate .banjo a.toNat true = none ∧
         ∃ r ix, regFind a.toNat = some (r, ix) ∧ plainClass r.cls = true) :=
  ⟨device_canonical, by decide, by decide +kernel, by decide, by decide +kernel, row_of _ (fun r => plainClass r.cls) (by decide +kernel)⟩

theorem witness_ReadReturnsAndClearsCounters :
    device.Canonical ∧
      (let a : BitVec 45 := BitVec.ofNat 45 (a_TS_ERRCNT 23)
       Requester.banjo ≠ .host ∧ inMailbox a.toNat = false ∧ a.toNat % 8 = 0 ∧ device.gate .banjo a.toNat false = none ∧
         ∃ r ix, regFind a.toNat = some (r, ix) ∧ r.cls ≠ .ptRecstat) :=
  ⟨device_canonical, by decide, by decide +kernel, by decide, by decide +kernel, by
    obtain ⟨r, ix, h, c⟩ := row_of (BitVec.ofNat 45 (a_TS_ERRCNT 23)).toNat (fun r => decide (r.cls ≠ .ptRecstat)) (by decide +kernel)
    exact ⟨r, ix, h, of_decide_eq_true c⟩⟩

/-- An access of 4 bytes at an odd word, one of 8 bytes at a half word, one from the word before, and one of slot 192. -/
theorem witness_OddAccessReadsZero :
    ∀ x ∈ [(a_PT_TMCFG 23 + 2, 4), (a_PT_TMCFG 23 + 4, 8), (a_PT_TMCFG 0 - 4, 8), (a_PT_CTXCFG 23 192, 8)],
      let a : BitVec 45 := BitVec.ofNat 45 x.1
      Requester.banjo ≠ .host ∧ inMailbox a.toNat = false ∧ (a.toNat < devQueueBase ∨ devQueueBase + 272 * 64 ≤ a.toNat) ∧
        device.present .banjo = true ∧ device.waits .banjo a.toNat = false ∧
        (regOver a.toNat x.2).any (fun y => badAccess y.1 y.2 a.toNat x.2) = true := by decide +kernel

/-! ### Contexts, rings, semaphores and barriers -/

/-- The last context of the last partition, its ring of 64 entries at 0x100000 and its completion ring at 0x200000. -/
def lastId : Nat := cid 23 191

/-- The ring of that context is live, and the context is FREE. -/
def ringed : State :=
  fields device [(a_SQ_RINGCFG 23 191, SQ_RINGCFG_LOG2SIZE, 6), (a_SQ_RINGCFG 23 191, SQ_RINGCFG_ENABLE, 1),
    (a_SQ_RINGBASE 23 191, SQ_RINGBASE_BASE, 0x100000 / 64), (a_SQ_CPLBASE 23 191, SQ_CPLBASE_BASE, 0x200000 / 16)]

/-- The context is ACTIVE in the last address space, whose table of two entries stands at 0x300000. -/
def active : State :=
  fields ringed [(a_PT_CTXCFG 23 191, PT_CTXCFG_ENABLE, 1), (a_PT_CTXCFG 23 191, PT_CTXCFG_ASID, 4095),
    (a_PT_CTXCFG 23 191, PT_CTXCFG_TENANT, 7), (a_PT_CTXCFG 23 191, PT_CTXCFG_WAIT_TO, 10),
    (a_PT_CTXQUOTA 23 191, PT_CTXQUOTA_T0_Q, 1024), (a_PT_CTXSTAT 23 191, PT_CTXSTAT_STATE, 1),
    (a_XL_ASCFG 4095, XL_ASCFG_VALID, 1), (a_XL_ASCFG 4095, XL_ASCFG_TBASE, 0x300000 / 4096),
    (a_XL_ASCOUNT 4095, XL_ASCOUNT_COUNT, 2), (a_BD_SEMGRP 23 63, BD_SEMGRP_VALID, 1), (a_BD_SEMGRP 23 63, BD_SEMGRP_TENANT, 7)]

theorem active_canonical : active.Canonical := canonical_of _ (by decide +kernel)

/-- The staged configuration that creates the context. -/
def staged : State :=
  ringed.stage (a_PT_CTXCFG 23 191) (word [(PT_CTXCFG_ENABLE, 1), (PT_CTXCFG_WAIT_TO, 1)])

/-- A staged ring of the largest size. -/
def stagedRing : State :=
  (((device.stage (a_SQ_RINGCFG 23 191) (word [(SQ_RINGCFG_LOG2SIZE, 16), (SQ_RINGCFG_ENABLE, 1)])).stage (a_SQ_RINGBASE 23 191)
    (word [(SQ_RINGBASE_BASE, 2 ^ 22 / 64)])).stage (a_SQ_CPLBASE 23 191) (word [(SQ_CPLBASE_BASE, 2 ^ 20 / 16)]))

/-- Half a ring is accepted. -/
def half : State := active.modCtx lastId (fun c => { c with head := 100, fetch := 110, tail := 132 })

theorem half_canonical : half.Canonical := canonical_of _ (by decide +kernel)

theorem witness_ContextsRingsAndDoorbells :
    (staged.Canonical ∧ staged.gate .banjo (a_PT_COMMIT 23) true = none ∧ staged.slotOk (191#8).toNat = true ∧
      staged.commitOk lastId = true ∧ staged.cfg lastId PT_CTXCFG_ENABLE = 0 ∧
      staged.stagedFld (a_PT_CTXCFG 23 191) PT_CTXCFG_ENABLE = 1) ∧
    (let s := active.setCstate lastId 2
     s.Canonical ∧ s.gate .banjo (a_PT_COMMIT 23) true = none ∧ s.slotOk (191#8).toNat = true ∧ s.cstate lastId = 2) ∧
    (stagedRing.Canonical ∧ stagedRing.gate .banjo (a_SQ_COMMIT 23) true = none ∧ stagedRing.slotOk (191#8).toNat = true ∧
      stagedRing.ringOk lastId = true ∧ stagedRing.stagedFld (a_SQ_RINGCFG 23 191) SQ_RINGCFG_ENABLE = 1) ∧
    (half.Canonical ∧ half.gate .banjo (a_SQ_DB 23 191) true = none ∧ half.cfg lastId PT_CTXCFG_HOST_OWNED ≠ 1 ∧
      half.flag (a_SQ_RINGCFG 23 191) SQ_RINGCFG_ENABLE = true ∧ half.cstate lastId = 1 ∧ half.inReset 23 = false ∧ (191#8).toNat < 192 ∧
      (let c := half.ctx lastId
       let size := half.ringSize lastId
       let far (n : Nat) : Nat := (n + size - c.head % size) % size
       far c.tail ≤ far (35#16).toNat ∧ far c.tail ≤ far (4#16).toNat ∧ far (3#16).toNat < far c.tail)) :=
  ⟨⟨canonical_of _ (by decide +kernel), by decide +kernel⟩, ⟨canonical_of _ (by decide +kernel), by decide +kernel⟩,
    ⟨canonical_of _ (by decide +kernel), by decide +kernel⟩, half_canonical, by decide +kernel⟩

/-- Three arrivals of 4704 are counted at the last barrier. -/
def counted : State :=
  fields device [(a_BD_BARGEN 255, BD_BARGEN_ARRIVED, 3), (a_BD_BARGEN 255, BD_BARGEN_GEN, 2 ^ 32 - 1),
    (a_BD_BARCFG 255, BD_BARCFG_COUNT, 4704), (a_BD_BARCFG 255, BD_BARCFG_VALID, 1)]

theorem witness_BeadRegisterWrites :
    device.Canonical ∧ device.gate .banjo (a_BD_SEM 23 4095) true = none ∧ device.gate .banjo (a_BD_SEMADD 23 4095) true = none ∧
      device.gate .banjo (a_BD_BARGEN 255) true = none ∧ device.gate .banjo (a_BD_BARCFG 255) true = none ∧
      device.fld (a_BD_BARGEN 255) BD_BARGEN_ARRIVED = 0 ∧
      (∀ n ∈ [1, 4704], BD_BARCFG_SCOPE.get (word [(BD_BARCFG_SCOPE, 2), (BD_BARCFG_COUNT, n)]) ≠ 3 ∧
        0 < BD_BARCFG_COUNT.get (word [(BD_BARCFG_SCOPE, 2), (BD_BARCFG_COUNT, n)]) ∧
        BD_BARCFG_COUNT.get (word [(BD_BARCFG_SCOPE, 2), (BD_BARCFG_COUNT, n)]) ≤ 4704) ∧
      counted.gate .banjo (a_BD_BARCFG 255) true = none ∧ counted.fld (a_BD_BARGEN 255) BD_BARGEN_ARRIVED ≠ 0 ∧
      device.gate .banjo (a_PT_PRED 23 3) true = none :=
  ⟨device_canonical, by decide +kernel⟩

/-- A descriptor with these words at a stage, with nothing else noted about it. -/
def entry (index : Nat) (ws : List Nat) (stage : DStage) : Desc :=
  { index := index, words := ws.map (BitVec.ofNat 64), stage := stage, epoch := 0, marked := false, retranslated := false,
    opnds := [], cands := [], xlate := none, status := 0, detail := 0, condFalse := false, poisoned := false, lenClamped := false,
    len := 0, len2 := 0, started := 0, until_ := 0, order := 0, cfgw := 0, seed := 0, ended := 0, rmode := 0, eccSeq := none }

/-- The context holds these descriptors. -/
def holding (s : State) (ds : List Desc) : State :=
  s.modCtx lastId (fun c => { c with fetch := ds.length, tail := 40, descs := ds })

/-- QW0 of a kind. -/
def q0 (kind : Nat) : Nat := kind * 2 ^ 60

/-- A WAIT on the last semaphore for at least 5, blocked. -/
def blockedWait : Desc := { entry 0 [q0 kWAIT, 23 * 2 ^ 43 + 4095 * 2 ^ 31, 5] .running with until_ := 1000 }

/-- The semaphore holds 5, the WAIT travels, and a core's update comes behind it. -/
def waiting5 : State :=
  { (holding active [blockedWait]).setFld (a_BD_SEM 23 4095) BD_SEM_VALUE 5 with
    bead := [.waitArrive 23 ⟨191, 0⟩ 23 4095 0 5 false, .waitArrive 23 ⟨191, 0⟩ 23 4095 0 6 false, .update 23 4095 (.add 0xFFFFFFFF) .core,
      .waitArrive 23 ⟨191, 0⟩ 23 4095 4 5 false] }

/-- WAITs are held at the semaphore: one that the update satisfies and one that GE_CONSUME does. -/
def held5 : State :=
  { waiting5 with semWaits := [⟨23, ⟨191, 1⟩, 23, 4095, 1, 5⟩, ⟨23, ⟨191, 2⟩, 23, 4095, 2, 4⟩] }

theorem witness_SemaphoresWaitsAndBarriers :
    waiting5.Canonical ∧ held5.Canonical ∧ waiting5.endpointHeld 23 = false ∧ held5.endpointHeld 23 = false ∧
      (waiting5.bead[2]? = some (.update 23 4095 (.add 0xFFFFFFFF) .core) ∧ waiting5.inReset 23 = false ∧ waiting5.semWaits = []) ∧
      (held5.bead[2]? = some (.update 23 4095 (.add 0xFFFFFFFF) .core) ∧ held5.semWaits ≠ [] ∧ held5.blocked 23 ⟨191, 0⟩ = true ∧
        held5.bead[3]? = some (.waitArrive 23 ⟨191, 0⟩ 23 4095 4 5 false) ∧ condHolds 4 (held5.sem 23 4095) 5 = true) ∧
      (waiting5.blocked 23 ⟨191, 0⟩ = true ∧
        waiting5.bead[0]? = some (.waitArrive 23 ⟨191, 0⟩ 23 4095 0 5 false) ∧ condHolds 0 (waiting5.sem 23 4095) 5 = true ∧
        waiting5.bead[3]? = some (.waitArrive 23 ⟨191, 0⟩ 23 4095 4 5 false) ∧ condHolds 4 (waiting5.sem 23 4095) 5 = true ∧
        waiting5.bead[1]? = some (.waitArrive 23 ⟨191, 0⟩ 23 4095 0 6 false) ∧ condHolds 0 (waiting5.sem 23 4095) 6 = false) ∧
      (∀ n ∈ [0, 4702, 4703], let s := { counted.setFld (a_BD_BARGEN 255) BD_BARGEN_ARRIVED n with bead := [.barArrive 255 none] }
        canonical s = true ∧ s.bead[0]? = some (.barArrive 255 none) ∧
          (if n = 4703 then s.fld (a_BD_BARCFG 255) BD_BARCFG_COUNT ≤ n + 1 else n + 1 < s.fld (a_BD_BARCFG 255) BD_BARCFG_COUNT)) :=
  ⟨canonical_of _ (by decide +kernel), canonical_of _ (by decide +kernel), by decide +kernel⟩

/-- Staged settings of the last address space, with the largest table, and with a reserved RMODE. -/
def stagedSpace (rmode : Nat) : State :=
  (device.stage (a_XL_ASCFG 4095) (word [(XL_ASCFG_VALID, 1), (XL_ASCFG_RMODE, rmode), (XL_ASCFG_TBASE, 1)])).stage
    (a_XL_ASCOUNT 4095) (word [(XL_ASCOUNT_COUNT, 16384)])

/-- An increment of the last address space waits, and its last epoch is the current one. -/
def lastEpoch (ds : List Desc) : State :=
  { (holding active ds).setFld (a_XL_ASSTAT 4095) XL_ASSTAT_EPOCH 65535 with epochs := [(4095, .write)] }

theorem witness_AddressSpacesAndEpochs :
    ((stagedSpace 2).Canonical ∧ (stagedSpace 2).gate .banjo a_XL_COMMIT true = none ∧ (stagedSpace 2).ascfgOk 4095 = true) ∧
    ((stagedSpace 3).gate .banjo a_XL_COMMIT true = none ∧ (stagedSpace 3).ascfgOk 4095 = false) ∧
    device.gate .banjo (a_XL_FENCE 4095) true = none ∧
    (∀ x ∈ [([{ blockedWait with epoch := 65535 }], true), ([blockedWait], false)],
      let s := lastEpoch x.1
      let new := (s.fld (a_XL_ASSTAT 4095) XL_ASSTAT_EPOCH + 1) % 65536
      canonical s = true ∧ s.epochs.find? (fun e => e.1 == 4095) = some (4095, .write) ∧
        (if x.2 then ∀ id ∈ s.idsOf 4095, ∀ d ∈ (s.ctx id).descs, d.stage ≠ .recorded → s.fencePending id d.index = false → d.epoch ≠ new
         else ∃ id ∈ s.idsOf 4095, ∃ d ∈ (s.ctx id).descs, d.stage ≠ .recorded ∧ s.fencePending id d.index = false ∧ d.epoch = new)) :=
  ⟨⟨canonical_of _ (by decide +kernel), by decide +kernel⟩, by decide +kernel, by decide +kernel, by decide +kernel⟩

/-! ### Fetch, submission, translation -/

/-- One entry of the ring is accepted and not fetched. -/
def rung : State := active.modCtx lastId (fun c => { c with head := 63, fetch := 63, tail := 64 })

theorem witness_FetchReadsNextEntry :
    rung.Canonical ∧ rung.fetchable lastId = true ∧ rung.storeUsed 23 < 2048 ∧
      rung.turn 23 (rung.part 23).lastFetch 191 rung.fetchable = true ∧
      (let at_ := rung.fld (a_SQ_RINGBASE 23 191) SQ_RINGBASE_BASE * 64 + (rung.ctx lastId).fetch % rung.ringSize lastId * 64
       rung.fare roleCOH (burlOf 23) at_ = .served ∧ rung.Admitted (naPart 23) at_ 64) ∧
      device.fetchable lastId = false :=
  ⟨canonical_of _ (by decide +kernel), by decide +kernel⟩

/-- A MARK; a MARK with reserved bit 29 of QW1 set; a WAIT on a flag with a reserved condition; a reserved
kind. -/
def fetched (ws : List Nat) : State := holding active [entry 0 ws .fetching]

/-- A search with two probes left, at the table's first and last candidates. -/
def searching (cur pos : Nat) : Desc :=
  { entry 0 [q0 kMOVE, 0x10000000, 0, 0x10000 * 2 ^ 32 + 2 ^ 13] .translating with
    xlate := some { which := 0, todo := [], cur := cur, pos := pos, left := 2, best := [], inSeq := false, exts := [], cands := [],
                    tbase := 0x300000, count := 2, rmode := 0, begun := false, since := 0 } }

theorem witness_SubmissionAndTranslation :
    (∀ x ∈ [([q0 kMARK, 77 * 2 ^ 32], none), ([q0 kMARK, 2 ^ 29], some 64), ([q0 kWAIT, 2 ^ 62 + 3 * 2 ^ 60 + 4 * 2 ^ 57, 0, 4], some 121),
        ([13 * 2 ^ 60], some 60)],
      let s := fetched x.1
      let d := entry 0 x.1 .fetching
      canonical s = true ∧ s.mayRun lastId = true ∧ (s.ctx lastId).descs.find? (fun x => x.stage == .fetching) = some d ∧
        smallest (s.submissionBad lastId d).1 = x.2 ∧ (if x.2 = none then translated d = [] else (s.submissionBad lastId d).2 = false)) ∧
    (∀ pos ∈ [0, 1], let d := searching 0x10000000 pos
      let s := holding active [d]
      canonical s = true ∧ s.mayRun lastId = true ∧ (s.ctx lastId).descs.find? (fun y => y.stage == .translating) = some d ∧
        ∃ x, d.xlate = some x ∧
          (let y := s.latchTable lastId d x
           let at_ := y.tbase + (min (y.pos + 2 ^ (y.left - 1)) y.count - 1) * 32
           y.inSeq = false ∧ 2 ≤ y.left ∧ y.count ≠ 0 ∧ s.fare roleCOH (burlOf 23) at_ = .served ∧ s.Admitted (naPart 23) at_ 32 ∧
             (({ s with fresh := s.fresh + 1 } : State).readMem keySYS at_ 32).2 = false)) := by
  refine ⟨by decide +kernel, fun pos h => ?_⟩
  simp only [List.mem_cons, List.not_mem_nil, or_false] at h
  obtain rfl | rfl := h <;> exact ⟨by decide +kernel, by decide +kernel, by decide +kernel, _, rfl, by decide +kernel⟩

/-! ### WAITs and draining -/

/-- A WAIT on a flag, that a local word of memory at 0x400000 holds. -/
def flagWait (test value : Nat) : Desc :=
  { entry 0 [q0 kWAIT, 2 ^ 62 + 3 * 2 ^ 60 + test * 2 ^ 56 + 255 * 2 ^ 48, value, 0x10000000] .running with
    opnds := [⟨2, [⟨0x10000000, 0x400000, 4, 0, 3, 0⟩], 0⟩] }

/-- The word at 0x400000 holds 9. -/
def flag9 : State := active.writeMem lastId 0x400000 (9 :: List.replicate 63 0) false

theorem witness_WaitsEndAndFlagsArePolled :
    (let s := { holding active [blockedWait] with bead := [.waitRelease 23 ⟨191, 0⟩ true, .barRelease 255 [(23, ⟨191, 0⟩)]] }
     s.Canonical ∧ s.bead[0]? = some (.waitRelease 23 ⟨191, 0⟩ true) ∧ s.bead[1]? = some (.barRelease 255 [(23, ⟨191, 0⟩)]) ∧
       s.findDesc lastId 0 = some blockedWait ∧ blockedWait.stage = .running ∧ blockedWait.wtTest = false) ∧
    (∀ now ∈ [999, 1000], let s := { holding active [blockedWait] with now := now }
      canonical s = true ∧ (s.ctx lastId).descs.find? (fun x => x.kind == kWAIT && x.stage == .running) = some blockedWait ∧
        blockedWait.wtTest = false ∧ s.bead = [] ∧ (if now = 1000 then blockedWait.until_ ≤ s.now else s.now < blockedWait.until_)) ∧
    (∀ x ∈ [(0, 9, true), (0, 10, false), (1, 10, false)], let d := flagWait x.1 x.2.1
      let s := holding flag9 [d]
      canonical s = true ∧
        (s.ctx lastId).descs.find? (fun d => d.kind == kWAIT && d.wtSrc == 1 && d.stage == .running) = some d ∧
        s.findDesc lastId d.index = some d ∧ d.len2 ≤ s.now ∧ s.waiting 23 ⟨191, d.index⟩ = false ∧ s.inReset 23 = false ∧
        physical (d.operand 2).exts d.flagVa = some (⟨0x10000000, 0x400000, 4, 0, 3, 0⟩, 0x400000) ∧
        s.fare roleCOH (burlOf 23) 0x400000 = .served ∧ s.Admitted (naPart 23) 0x400000 4 ∧ s.flips = [] ∧ d.wtTest = (x.1 == 1) ∧
        condHolds d.wtCond (ofLeBytes (({ s with fresh := s.fresh + 1 } : State).readMem lastId 0x400000 4).1) d.wtValue = x.2.2) :=
  ⟨⟨canonical_of _ (by decide +kernel), by decide +kernel⟩, by decide +kernel, by decide +kernel⟩

theorem witness_DrainedContextBecomesFree :
    (let s := holding active [{ blockedWait with stage := .recorded }] |>.setCstate lastId 6
     s.Canonical ∧ s.cstate lastId = 6 ∧ s.drained lastId = true) :=
  ⟨canonical_of _ (by decide +kernel), by decide +kernel⟩

/-! ### Power -/

theorem witness_FairSharesFollowDemands : [40, 60].sum ≤ 100 ∧ 99 < [40, 60].sum := by decide

theorem witness_PowerRegisterCommands :
    (∀ x ∈ [(1800, 370, true), (1500, 120, true), (1801, 370, false)],
      let s := (device.stage a_PW_PKGCAP (word [(PW_PKGCAP_CAP_W, x.1)])).stage a_PW_SPLIT
        (word [(PW_SPLIT_HS_W, x.2.1), (PW_SPLIT_TAIL_W, 30), (PW_SPLIT_STACK_W, 12), (PW_SPLIT_LEAK_W, 20)])
      canonical s = true ∧ s.gate .banjo a_PW_COMMIT true = none ∧
        s.splitOk (s.stagedRd a_PW_PKGCAP) (s.stagedRd a_PW_SPLIT) = x.2.2) ∧
    ((let s := device.stage (a_PW_PHASECFG 23) (word [(PW_PHASECFG_HEAVY_MV, 850), (PW_PHASECFG_MEM_MV, 850),
        (PW_PHASECFG_LIGHT_MV, 600), (PW_PHASECFG_IDLE_MV, 600)])
      canonical s = true ∧ s.gate .banjo (a_PW_PHCOMMIT 23) true = none ∧ s.phcfgOk 23 = true) ∧
    (let s := (fields device [(a_PT_CTXSTAT 23 1, PT_CTXSTAT_STATE, 1), (a_PW_PHASECFG 23, PW_PHASECFG_AUTO, 1), (a_PW_PHTAG 23 3, PW_PHTAG_SET_MV, 600),
        (a_PW_PHTAG 23 3, PW_PHTAG_NEXT_VALID, 1), (a_PW_PHTAG 23 3, PW_PHTAG_NEXT_TAG, 63), (a_PW_PHTAG 23 63, PW_PHTAG_SET_MV, 850)]).modCtx
        (cid 23 1) (fun c => { c with phaseTag := 3 })
     canonical s = true ∧ s.domOn (domCtl 23) = true ∧ s.flag (a_PW_PHASECFG 23) PW_PHASECFG_AUTO = true ∧ (s.part 23).raises = [] ∧
       s.nextRise 23 1 = some (850, 0) ∧ 0 ≤ s.now ∧ (∀ k, k < 1 → s.nextRise 23 k = none))) ∧
    (device.gate .banjo (a_PW_DOMCTL 121) true = none ∧
      (∀ mv ∈ [600, 850], 600 ≤ (BitVec.ofNat 10 mv).toNat ∧ (BitVec.ofNat 10 mv).toNat ≤ device.maxMv 121) ∧
      device.gate .banjo a_PW_THERM true = none ∧ (∀ c ∈ [80, 95], 80 ≤ (BitVec.ofNat 8 c).toNat ∧ (BitVec.ofNat 8 c).toNat ≤ 95) ∧
      (∀ c ∈ [79, 96], (BitVec.ofNat 8 c).toNat < 80 ∨ 95 < (BitVec.ofNat 8 c).toNat)) ∧
    (let s := device.setDom 69 Dom.init
     canonical s = true ∧ s.gate .banjo (a_PW_DOMCTL 69) true = none ∧ s.flag (a_PW_DOMCTL 69) PW_DOMCTL_ON ≠ true ∧
       (s.dom 69).switchOn = false ∧ (s.dom 69).switchOff = false ∧ s.upRefused 69 = false) ∧
    (let s := device.setFld (a_PW_DOMCTL 110) PW_DOMCTL_ON 1
     canonical s = true ∧ s.gate .banjo (a_PW_DOMCTL 110) true = none ∧ s.flag (a_PW_DOMCTL 110) PW_DOMCTL_ON ≠ false ∧
       s.downRefused 110 = true) := by decide +kernel

/-- Grants are on their way to the last die since 0; the Headstock draws 100 W. -/
def budgeted : State :=
  ({ device with now := 300000, budgetAt := 300000, lowered := [25] }.setDie 8 { Die.init with synced := true, offer := some (0, 30000) }).setDie 6
    { Die.init with grant := 100000 }

theorem budgeted_canonical : budgeted.Canonical := canonical_of _ (by decide +kernel)

theorem witness_BudgetsAndGovernors :
    budgeted.Canonical ∧
      (budgeted.budgetAt ≤ budgeted.now ∧ budgeted.mg.restart ≤ budgeted.now ∧ (∀ d, d < 9 → (budgeted.die d).therm = none) ∧
        ∀ k, k < 408 → budgeted.tempOf k ≤ 16 * (budgeted.fld a_PW_THERM PW_THERM_THROTTLE_C : Int)) ∧
      ((budgeted.die 8).offer = some (0, 30000) ∧ (budgeted.die 8).inReset = false ∧ budgeted.now ≤ 0 + 300000) ∧
      ((budgeted.die 8).atFloor = false ∧ budgeted.keepsTime 8 = true ∧ (budgeted.die 8).lastMsg + 300000 ≤ budgeted.now) ∧
      (budgeted.domOn (domEng 23) = true ∧ 105 * (budgeted.part 23).grant < 1 * 100 ∧ (budgeted.part 23).overAt + 1000 ≤ budgeted.now) ∧
      ((budgeted.die 6).grant ≠ 0 ∧ budgeted.governedAt ≤ budgeted.now ∧ (budgeted.die 6).grant < 100001 ∧
        budgeted.domOn (domQuad 25) = true ∧ 600 < budgeted.targetMv (domQuad 25)) ∧
      (100000 ≤ (budgeted.die 6).grant ∧ budgeted.lowered = 25 :: []) :=
  ⟨budgeted_canonical, by decide +kernel⟩

theorem witness_SensorReportSetsTemperatures :
    device.Canonical ∧ device.sensedAt ≤ device.now ∧ (List.replicate 400 480).length = 400 ∧ (List.replicate 20 900).length = 20 :=
  ⟨device_canonical, by decide +kernel⟩

/-- A domain with an island whose freeze and hold have lasted 10,001 ns and whose chatter 10 ms. -/
def drooping : State :=
  { device with now := 10000000 }.setDom 119 { lit with frozen := some 9989999, held := some 9989999, damped := some 9000000, chatterAt := 0 }

theorem witness_SupplyHoldsAndChatter :
    drooping.Canonical ∧
      ((drooping.dom 121).on = true ∧ (drooping.dom 121).frozen = none ∧ 549 < 550) ∧
      ((drooping.dom 119).frozen.isSome = true ∧ 570 < 571) ∧
      ((drooping.dom 119).frozen = some 9989999 ∧ 9989999 + 10000 < drooping.now ∧ (drooping.dom 119).freezeLogged = false ∧
        drooping.keepsTime (dieOfDom 119) = true) ∧
      ((drooping.dom 121).on = true ∧ hasIsland 121 = true ∧ (drooping.dom 121).held = none) ∧
      (drooping.dom 119).held.isSome = true ∧
      ((drooping.dom 119).held = some 9989999 ∧ 9989999 + 10000 < drooping.now ∧ (drooping.dom 119).holdLogged = false) ∧
      ((drooping.dom 119).damped.isSome = true ∧ (drooping.dom 119).chatterAt + 10000000 ≤ drooping.now) ∧
      ((drooping.dom 119).damped = some 9000000 ∧ 9000000 + 1000000 ≤ drooping.now ∧ (drooping.dom 119).halved = false) :=
  ⟨canonical_of _ (by decide +kernel), by decide +kernel⟩

/-! ### The host link -/

/-- The host link is up, the last context is the host's, and the last queue is its queue, with rings of 64 KiB. -/
def hosted : State :=
  fields { active with hostLink := { active.hostLink with up := true }, fns := [(64, { FnSt.init with pending := [1023] })] }
    [(a_PT_CTXCFG 23 191, PT_CTXCFG_HOST_OWNED, 1), (a_MG_LICENCE, MG_LICENCE_VFS, 64), (a_HI_QCFG 255, HI_QCFG_ENABLE, 1),
     (a_HI_QCFG 255, HI_QCFG_FUNC, 64), (a_HI_QCFG 255, HI_QCFG_CTXID, 23 * 256 + 191), (a_HI_QCFG 255, HI_QCFG_LOG2DATA, 16),
     (a_HI_QCFG 255, HI_QCFG_LOG2EGR, 16), (a_HI_QDATA 255, HI_QDATA_BASE, 1), (a_HI_QEGR 255, HI_QEGR_BASE, 2)]

theorem hosted_canonical : hosted.Canonical := canonical_of _ (by decide +kernel)

theorem witness_HostQueuesAndSmallCommands :
    (let s := fields (hosted.stage (a_HI_QCFG 255) (hosted.rd (a_HI_QCFG 255))) [(a_HI_QCFG 255, HI_QCFG_ENABLE, 0)]
     s.Canonical ∧ s.gate .banjo a_HI_QCOMMIT true = none ∧ s.queueOk (255#8).toNat = true ∧ s.qEnabled (255#8).toNat = false ∧
       s.stagedFld (a_HI_QCFG (255#8).toNat) HI_QCFG_ENABLE = 1) ∧
    (hosted.Canonical ∧ hosted.gate .banjo a_HI_QCOMMIT true = none ∧ hosted.queueOk (254#8).toNat = false ∧ Requester.banjo ≠ .host ∧
      hosted.gate .banjo a_HI_LINK true = none ∧ hosted.fld a_HI_LINK HI_LINK_IDE_ACTIVE ≠ 1 ∧ hosted.hostLink.up = true ∧
      hosted.alive 121 = true ∧ (hosted.fn (fnNum (.vf 63))).pending.contains 1023 = true) :=
  ⟨⟨canonical_of _ (by decide +kernel), by decide +kernel⟩, hosted_canonical, by decide +kernel⟩

/-- The queue holds a doorbell, and 256 bytes on their way to the ring of the context; 4096 bytes are accepted. -/
def ringing (bytes : Nat) : State :=
  { (hosted.setFld (a_HI_QACC 255) HI_QACC_ACCEPTED 4096).setQueue 255
      { ingress := [(0x100000, List.replicate 64 7)], db := [(64, bytes, 0)], tenant := 7 } with now := 64000 }

theorem witness_HostWindowsAndDoorbells :
    (hosted.Canonical ∧ hosted.hostReach false = true ∧ hosted.qf 255 HI_QCFG_FUNC = fnNum (.vf 63) ∧ hosted.qDetached 255 = false ∧
      hosted.queueServes 255 = true ∧ hosted.flag (a_HI_QSTAT 255) HI_QSTAT_STALLED = false ∧ hosted.ownsQueue (.vf 63) 255 = true ∧
      hosted.keyAt (hosted.qf 255 HI_QCFG_CTXID) ≠ 0) ∧
    (∀ bytes ∈ [4096, 4097], canonical (ringing bytes) = true ∧ ((ringing bytes).queue 255).db = (64, bytes, 0) :: [] ∧
      (ringing bytes).alive 121 = true ∧ (ringing bytes).bytesIn 255 bytes = decide (bytes = 4096) ∧ 0 + 64000 ≤ (ringing bytes).now) ∧
    (let s := (ringing 4096).setQueue 255 { (ringing 4096).queue 255 with db := [(63, 4096, 0)] }
     s.Canonical ∧ (s.queue 255).db = (63, 4096, 0) :: [] ∧ s.alive 121 = true ∧ s.bytesIn 255 4096 = true ∧
       s.cfg (s.qf 255 HI_QCFG_CTXID) PT_CTXCFG_HOST_OWNED ≠ 0 ∧ s.tenantOf (s.qf 255 HI_QCFG_CTXID) = (s.queue 255).tenant ∧
       s.doorbellFate (s.qf 255 HI_QCFG_CTXID) 63 = .accepted ∧
       (s.queue 255).ingress = (0x100000, List.replicate 64 7) :: [] ∧ s.fare roleCOH 7 0x100000 = .served ∧ s.Admitted naHost 0x100000 64 ∧
       s.keyAt (s.qf 255 HI_QCFG_CTXID) ≠ 0 ∧ s.clearOfReserve 0x100000 64 = true) ∧
    (∀ x ∈ [(0, 65536), (65535, 1), (0x10000000 - 8, 8)],
      x.1 + x.2 ≤ 0x10000000 ∧ x.1 % 2 ^ hosted.qf 255 HI_QCFG_LOG2DATA + x.2 ≤ 2 ^ hosted.qf 255 HI_QCFG_LOG2DATA) ∧
    (∀ x ∈ [(egrWindow, 65536), (0x20000000 - 8, 8)], egrWindow ≤ x.1 ∧ x.1 + x.2 ≤ 0x20000000 ∧
      (x.1 - egrWindow) % 2 ^ hosted.qf 255 HI_QCFG_LOG2EGR + x.2 ≤ 2 ^ hosted.qf 255 HI_QCFG_LOG2EGR ∧
      (let at_ := hosted.fld (a_HI_QEGR 255) HI_QEGR_BASE * 65536 + (x.1 - egrWindow) % 2 ^ hosted.qf 255 HI_QCFG_LOG2EGR
       hosted.fare roleCOH 7 at_ = .served ∧ hosted.Admitted naHost at_ x.2)) :=
  ⟨⟨hosted_canonical, by decide +kernel⟩, by decide +kernel, ⟨canonical_of _ (by decide +kernel), by decide +kernel⟩, by decide +kernel⟩

theorem witness_HostLinkLossAndReturn :
    hosted.Canonical ∧ hosted.hostLink.up = true ∧ hosted.hostLink.perst = true ∧ 63 < hosted.fld a_MG_LICENCE MG_LICENCE_VFS ∧
      (let s := hosted.setFld a_MG_LICENCE MG_LICENCE_VFS 63
       canonical s = true ∧ s.hostLink.up = true ∧ s.fld a_MG_LICENCE MG_LICENCE_VFS ≤ 63) ∧
      device.Canonical ∧ device.hostLink.up = false ∧ device.hostLink.perst = true ∧ device.alive 121 = true ∧
      device.pins.refPcie = true ∧
      (∀ x ∈ [(4, 1), (6, 4), (5, 2)], 4 ≤ (BitVec.ofNat 4 x.1).toNat ∧ (BitVec.ofNat 4 x.1).toNat ≤ 6 ∧
        (BitVec.ofNat 5 x.2).toNat ∈ [1, 2, 4]) ∧
      (let s := { device with hostLink := { device.hostLink with perst := false } }
       canonical s = true ∧ s.hostLink.perst = false) :=
  ⟨hosted_canonical, by decide +kernel, by decide +kernel, by decide +kernel, by decide +kernel, device_canonical, by decide +kernel⟩

/-! ### The fabric -/

/-- This is device 1; device 4095 is reached by port 15, which is UP; the last context may be named by remote requests, and through
receive window 255, of one unit of 64 KiB at 0x400000. -/
def fabric : State :=
  fields active [(a_FB_DEVID, FB_DEVID_DEV, 1), (a_MG_LICENCE, MG_LICENCE_PORTS, 16), (a_FB_PORTCTL 15, FB_PORTCTL_ENABLE, 1),
    (a_FB_PORTSTAT 15, FB_PORTSTAT_STATE, 3), (a_FB_ROUTE 4095, FB_ROUTE_NPORTS, 1), (a_FB_ROUTE 4095, FB_ROUTE_PORT0, 15),
    (a_XL_RXCFG, XL_RXCFG_DIRECT_EN, 1), (a_XL_WINBASE 255, XL_WINBASE_BASE, 0x400000 / 65536), (a_XL_WINCFG 255, XL_WINCFG_VALID, 1),
    (a_XL_WINCFG 255, XL_WINCFG_READ, 1), (a_XL_WINCFG 255, XL_WINCFG_WRITE, 1), (a_XL_WINCFG 255, XL_WINCFG_LENGTH, 1),
    (a_XL_WINCFG 255, XL_WINCFG_CTXID, 23 * 256 + 191)]

theorem fabric_canonical : fabric.Canonical := canonical_of _ (by decide +kernel)

theorem witness_FabricConfiguration :
    (let s := (device.stage (a_XL_WINBASE 255) (word [(XL_WINBASE_BASE, 0)])).stage (a_XL_WINCFG 255)
        (word [(XL_WINCFG_VALID, 1), (XL_WINCFG_LENGTH, 2 ^ 21), (XL_WINCFG_CTXID, 23 * 256 + 191)])
     canonical s = true ∧ s.gate .banjo a_XL_WINCOMMIT true = none ∧ s.windowOk 255 = true) ∧
    (let s := (fabric.stage (a_FB_ROUTE 4094) (word [(FB_ROUTE_NPORTS, 4), (FB_ROUTE_PORT0, 15), (FB_ROUTE_PORT1, 14),
        (FB_ROUTE_PORT2, 13), (FB_ROUTE_PORT3, 12)]))
     canonical s = true ∧ s.gate .banjo a_FB_COMMIT true = none ∧ s.routesOk = true) ∧
    (device.gate .banjo a_FB_TIMEOUT true = none ∧
      (∀ v ∈ [10, 100000], 10 ≤ FB_TIMEOUT_TIMEOUT_US.get (BitVec.ofNat 64 v) ∧ FB_TIMEOUT_TIMEOUT_US.get (BitVec.ofNat 64 v) ≤ 100000) ∧
      (∀ v ∈ [9, 100001], FB_TIMEOUT_TIMEOUT_US.get (BitVec.ofNat 64 v) < 10 ∨
        100000 < FB_TIMEOUT_TIMEOUT_US.get (BitVec.ofNat 64 v))) := by decide +kernel

/-- Port 15 of the fabric device in a state. -/
def port15 (st : Nat) (x : Port) : State := { (fabric.setPortState 15 st).setPort 15 x with now := 100000000 }

theorem witness_PortsAndFlits :
    (canonical (port15 psDOWN Port.init) = true ∧ (port15 psDOWN Port.init).gate .banjo (a_FB_PORTCTL 15) true = none ∧
      (port15 psDOWN Port.init).portLicensed 15 = true ∧ (port15 psDOWN Port.init).portState 15 = psDOWN) ∧
    (∀ st ∈ [psTRAINING, psKEYING, psUP, psRETRAINING, psFAILED], let s := port15 st { Port.init with keySteps := 1 }
      canonical s = true ∧ s.gate .banjo (a_FB_PORTCTL 15) true = none ∧ s.portLicensed 15 = true ∧ s.portAlive 15 = true ∧
        s.portEnabled 15 = true ∧ s.portState 15 = st ∧ (s.port 15).since + 100000000 ≤ s.now) ∧
    (let s := port15 psUP { Port.init with flits := 2 ^ 31, rxSeq := 4095, refusals := 7, tagFails := [99000000, 99000000, 99000000] }
     canonical s = true ∧ s.portState 15 = psUP ∧ 2 ^ 31 ≤ (s.port 15).flits ∧ s.portAlive 15 = true ∧
       (4095#12).toNat = (s.port 15).rxSeq % 4096 ∧ (0#12).toNat ≠ (s.port 15).rxSeq % 4096 ∧ 7 ≤ (s.port 15).refusals ∧
       3 ≤ ((s.port 15).tagFails.filter (fun x => decide (s.now ≤ x + 1000000))).length) ∧
    (let s := port15 psUP { Port.init with rxSeq := 4095, refusals := 6, tagFails := [98999999, 99000000, 99000000] }
     canonical s = true ∧ s.portState 15 = psUP ∧ s.portAlive 15 = true ∧ (s.port 15).refusals < 7 ∧
       ((s.port 15).tagFails.filter (fun x => decide (s.now ≤ x + 1000000))).length < 3) ∧
    (let s := port15 psRETRAINING { Port.init with since := 1 }
     canonical s = true ∧ s.now < (s.port 15).since + 100000000) := by decide +kernel

/-- A request of tenant 7 from device 4095: type, LEN, RMODE, address. -/
def request (type len rmode addr : Nat) : Packet :=
  ⟨BitVec.ofNat 64 (type * 2 ^ 60 + 2 ^ 48 + 4095 * 2 ^ 36 + 65535 * 2 ^ 20 + len * 2 ^ 16 + rmode * 2 ^ 6),
    BitVec.ofNat 64 (7 * 2 ^ 48 + addr), BitVec.ofNat 64 ((23 * 256 + 191) * 2 ^ 16), 5⟩

/-- The one listed port that is UP is the port of every packet. -/
theorem route_one (s : State) (dev type p : Nat) (h : (s.fabricUp && decide ((s.listed dev).filter s.portUp = [p])) = true) :
    s.routeTo dev type = some p := by
  simp only [Bool.and_eq_true, decide_eq_true_eq] at h
  simp only [routeTo, h.1, if_true, h.2, List.foldl, List.find?, Nat.zero_max, beq_self_eq_true]

/-- The device with BURL0 in reset, and with the home in reset. -/
def burlOut : State := fabric.setDie 0 { Die.init with inReset := true }
def homeLess : State := fabric.setDom (domCtl 0) Dom.init
def readUnits : State := ((({ fabric with fresh := fabric.fresh + 1 } : State).readAs clsFabric lastId 0x40FE00 512).1)

theorem fabric_routes (ty : Nat) : fabric.routeTo 4095 ty = some 15 ∧ burlOut.routeTo 4095 ty = some 15 ∧
    homeLess.routeTo 4095 ty = some 15 ∧ readUnits.routeTo 4095 ty = some 15 :=
  ⟨route_one _ _ _ _ (by decide +kernel), route_one _ _ _ _ (by decide +kernel), route_one _ _ _ _ (by decide +kernel),
    route_one _ _ _ _ (by decide +kernel)⟩

/-- The last units of the window, DIRECT and WINDOWED requests of every kind; the first byte beyond it; a wrong tenant's DIRECT one. -/
theorem witness_RemoteRequests :
    (∀ ty, fabric.routeTo 4095 ty = some 15 ∧ burlOut.routeTo 4095 ty = some 15 ∧ homeLess.routeTo 4095 ty = some 15 ∧
      readUnits.routeTo 4095 ty = some 15) ∧
    fabric.portServes 15 = true ∧ fabric.fld a_FB_DEVID FB_DEVID_DEV = 1 ∧
      (∀ x ∈ [(1, 0x40FE00), (2, 255 * 2 ^ 37 + 0xFE00)], let k (t n : Nat) : Packet := request t n x.1 x.2
        (k tyWR 8).legal tyWR 512 = true ∧ (k tyRD 8).legal tyRD 0 = true ∧ (k tyWR4 0).legal tyWR4 0 = true ∧ (k tyWR 8).dest = 1 ∧
          (k tyRD 8).src = 4095 ∧
          fabric.admission (k tyWR 8) true (64 * (k tyWR 8).len) = .serve lastId 0x40FE00 ∧
          fabric.admission (k tyRD 8) false (64 * (k tyRD 8).len) = .serve lastId 0x40FE00 ∧
          fabric.admission (k tyWR4 0) true 4 = .serve lastId 0x40FE00 ∧ fabric.homeRefusal 1 0x40FE00 = 0 ∧
          fabric.fare roleTILE 8 0x40FE00 = .served ∧ fabric.Admitted (naTail 1) 0x40FE00 512 ∧ fabric.Admitted (naTail 1) 0x40FE00 4) ∧
      (∀ x ∈ [(burlOut, 2), (homeLess, 1)],
        let k := request tyRD 1 1 0x40FE00
        x.1.portServes 15 = true ∧ k.legal tyRD 0 = true ∧ k.dest = x.1.fld a_FB_DEVID FB_DEVID_DEV ∧ k.src = 4095 ∧
          x.1.admission k false (64 * k.len) = .serve lastId 0x40FE00 ∧ x.1.homeRefusal 1 0x40FE00 = x.2) ∧
      (let k := request tyRD 1 2 (255 * 2 ^ 37 + 0x10000)
       k.legal tyRD 0 = true ∧ k.dest = 1 ∧ fabric.admission k false (64 * k.len) = .window ∧ k.src = 4095) ∧
      (let k := { request tyRD 1 1 0x40FE00 with q1 := BitVec.ofNat 64 (8 * 2 ^ 48 + 0x40FE00) }
       k.legal tyRD 0 = true ∧ k.dest = 1 ∧ fabric.admission k false (64 * k.len) = .silent) :=
  ⟨fabric_routes, by decide +kernel⟩

/-- A core's own request to device 4095 that began at 0, to be sent again at 10,000. -/
def asked (type len : Nat) (index : Nat) : Remote :=
  { tag := 65535, dev := 4095, pp := coresPP, ref := ⟨95, index⟩, pa := 4095 * 2 ^ 45,
    hdr := [BitVec.ofNat 64 (type * 2 ^ 60 + 4095 * 2 ^ 48 + 2 ^ 36 + 65535 * 2 ^ 20 + len * 2 ^ 16), 0, 0, 0], data := [],
    first := 0, limit := 100000, resendAt := some 10000, code := 1 }

/-- An answer of device 4095 to it. -/
def reply (type len code : Nat) : Packet :=
  ⟨BitVec.ofNat 64 (type * 2 ^ 60 + 2 ^ 48 + 4095 * 2 ^ 36 + 65535 * 2 ^ 20 + len * 2 ^ 16 + code * 4), 0, 0, 0⟩

theorem fabric_noBarriers : fabric.noBarriers := fun _ => ⟨rfl, rfl, rfl⟩

theorem witness_RemoteAnswersAndRetries :
    fabric.noBarriers ∧
    (∀ now ∈ [10000, 99999], ({ fabric with remotes := [asked tyWR4 0 crSTORE], now := now } : State).routeTo 4095 tyWR4 = some 15) ∧
    (let x := asked tyWR4 0 crSTORE
     let s (now : Nat) : State := { fabric with remotes := [x], now := now }
     canonical (s 10000) = true ∧
       (s 10000).answered 15 (reply tyACK 0 0) (fun t => t == tyWR || t == tyWR4) = some x ∧ (reply tyACK 0 0).type = tyACK ∧
       x.pp = coresPP ∧ x.ref.index = crSTORE ∧
       (∀ c ∈ [1, 2], (s 10000).answered 15 (reply tyNAK 0 c) (fun _ => true) = some x ∧ (reply tyNAK 0 c).type = tyNAK ∧
         (reply tyNAK 0 c).nakcode = c) ∧
       (∀ now ∈ [10000, 99999], (s now).remotes.find? (fun y => y.tag == (65535#16).toNat && y.resendAt.isSome) = some x ∧
         x.resendAt = some 10000 ∧ 10000 ≤ (s now).now ∧ (s now).now < x.first + x.limit ∧
         x.dev = 4095 ∧ natBits (x.hdr.getD 0 0).toNat 63 60 = tyWR4) ∧
       (s 100000).remotes.find? (fun y => y.tag == (65535#16).toNat) = some x ∧ x.first + x.limit ≤ (s 100000).now ∧
       canonical (s 100000) = true) ∧
    (let x := asked tyRD 1 8
     let k := reply tyRDRSP 1 0
     { fabric with remotes := [x] }.answered 15 k (fun t => t == tyRD) = some x ∧ k.type = tyRDRSP ∧
       k.len = natBits (x.hdr.getD 0 0).toNat 19 16 ∧ (List.replicate 64 (1 : Byte)).length = 64 * k.len ∧ x.pp = coresPP ∧
       x.ref.index ≠ crFILL ∧ x.ref.index ≠ crSTORE) :=
  ⟨fabric_noBarriers, fun now h => by
    simp only [List.mem_cons, List.not_mem_nil, or_false] at h
    obtain rfl | rfl := h <;> exact route_one _ _ _ _ (by decide +kernel), by decide +kernel⟩

theorem witness_RequestWithoutPortTimesOut :
    active.Canonical ∧ (∀ q ∈ active.listed (4095 * 2 ^ 45 / 2 ^ 45), active.fld (a_FB_PORTSTAT q) FB_PORTSTAT_STATE ≠ 3) ∧
      (∀ x ∈ [(0, 0), (1, 1000000), (1, 999999)],
        let s := { active with linkFaultAt := if x.1 = 0 then [] else [(4095, x.1)], now := x.2 }
        let last := Sparse.get (fun _ => 0) s.linkFaultAt 4095
        canonical s = true ∧ (∀ q ∈ s.listed (4095 * 2 ^ 45 / 2 ^ 45), s.fld (a_FB_PORTSTAT q) FB_PORTSTAT_STATE ≠ 3) ∧
          (if x.2 = 999999 then last ≠ 0 ∧ s.now < last - 1 + 1000000 else last = 0 ∨ last - 1 + 1000000 ≤ s.now)) :=
  ⟨active_canonical, by decide +kernel, by decide +kernel⟩

/-! ### Control registers with commands of their own -/

theorem witness_CommitsApplyStagedGroups :
    (device.Canonical ∧ (5 : Fin 16).val < 6 ∧ device.gate .banjo (a_LK_COMMIT 5) true = none ∧
      device.gate .banjo (a_ME_COMMIT 23) true = none ∧ device.gate .banjo a_SC_COMMIT true = none ∧
      device.gate .banjo (a_FQ_COMMIT 23) true = none ∧ device.gate .banjo (a_PT_TMCOMMIT 23) true = none) ∧
    (∀ x ∈ [(24, 4, 4, true), (27, 4, 1, true), (4, 27, 1, true), (3, 28, 1, false), (24, 3, 5, false), (28, 4, 0, false)],
      let s := device.stage (a_LK_ROLE 5) (word [(LK_ROLE_COH_N, x.1), (LK_ROLE_TILE_N, x.2.1), (LK_ROLE_CTRL_N, x.2.2.1)])
      let c := s.stagedFld (a_LK_ROLE 5) LK_ROLE_COH_N
      let tl := s.stagedFld (a_LK_ROLE 5) LK_ROLE_TILE_N
      let k := s.stagedFld (a_LK_ROLE 5) LK_ROLE_CTRL_N
      canonical s = true ∧ s.gate .banjo (a_LK_COMMIT 5) true = none ∧
        decide (c + tl + k = 32 ∧ 4 ≤ c ∧ 4 ≤ tl ∧ 1 ≤ k ∧ k ≤ 4) = x.2.2.2) ∧
    (let s := (device.stage (a_PT_TMCFG 23) (word [(PT_TMCFG_ENABLE, 1), (PT_TMCFG_HI_PCT, 100), (PT_TMCFG_LO_PCT, 99),
        (PT_TMCFG_AGE_MS, 1), (PT_TMCFG_HOT_MIN, 1)])).stage (a_PT_TMTAB 23) (word [(PT_TMTAB_BASE, 23 * stackSize / 524288)])
     canonical s = true ∧ s.gate .banjo (a_PT_TMCOMMIT 23) true = none ∧ s.tmOk 23 = true ∧ s.tmOn 23 = false ∧
       s.stagedFld (a_PT_TMCFG 23) PT_TMCFG_ENABLE = 1) :=
  ⟨⟨device_canonical, by decide +kernel⟩, by decide +kernel, by decide +kernel⟩

theorem witness_RoutesKeysAndHold :
    device.Canonical ∧ device.gate .banjo (a_HS_IRQROUTE 1023) true = none ∧
      (∀ c ∈ [95, 96], decide (HS_IRQROUTE_CORE.get (word [(HS_IRQROUTE_CORE, c), (HS_IRQROUTE_ENABLE, 1)]) < 96) = (c == 95)) ∧
      device.gate .banjo (a_HS_COREKEY 95) true = none ∧ device.gate .banjo (a_PT_TMCTL 23) true = none :=
  ⟨device_canonical, by decide +kernel⟩

/-- Recovery state of the last partition, and its fault queue with 1024 records. -/
def queued (st : Nat) : State :=
  fields device [(a_FQ_TAIL 23, FQ_TAIL_TAIL, 1023), (a_FQ_HEAD 23, FQ_HEAD_HEAD, 65535), (a_FQ_DEVTAIL, FQ_TAIL_TAIL, 256),
    (a_PT_RECSTAT 23, PT_RECSTAT_STATE, st)]

theorem witness_FaultQueueAndRecoveryRegisters :
    (∀ q ∈ [FaultQueue.part 23, .device], canonical (queued 0) = true ∧ (queued 0).gate .banjo (fqHeadOf q) true = none ∧
      (queued 0).fld (fqOvfOf q) FQ_OVF_COUNT = 0 ∧ (queued 0).gate .banjo (fqFatalOf q) true = none) ∧
    ((queued 0).gate .banjo (a_PT_WATCHDOG 23) true = none ∧ (queued 0).gate .banjo (a_PT_RECCTL 23) true = none ∧
      (queued 0).recState 23 = 0 ∧ ((queued 0).part 23).episode = none) ∧
    (∀ st ∈ [1, 2, 3], (queued st).gate .banjo (a_PT_RECCTL 23) true = none ∧ (queued st).recState 23 ≠ 0) ∧
    (canonical (queued 3) = true ∧ (queued 3).gate .banjo (a_PT_RECCTL 23) true = none ∧ (queued 3).recState 23 = 3 ∧
      (queued 3).liveSlots 23 = []) := by decide +kernel

/-- T2 of 12 × 64 GiB is in service; a dump stands in the last slot. -/
def dimmed : State :=
  fields (device.setDump 3 (some { id := 9, time := 0, cause := [], level := 0, truncated := false, writing := false, len := 512 }))
    [(a_DD_TIER, DD_TIER_ACTIVE, 1), (a_DD_TIER, DD_TIER_POP, 0xFFF), (a_DD_TIER, DD_TIER_DIMM_GIB, 64)]

theorem dimmed_canonical : dimmed.Canonical := canonical_of _ (by decide +kernel)

theorem witness_ManagementRegisters :
    (dimmed.Canonical ∧ dimmed.gate .banjo a_MG_DUMPCTL true = none ∧ dimmed.t2Up = true ∧ dimmed.mg.dumpKey = true ∧
      dimmed.gate .banjo a_MG_IOCTL true = none ∧ Requester.banjo ≠ .host ∧ dimmed.alive domHome = true ∧ (dimmed.chan 2).busy = false ∧
      permitted (natBits (word [(⟨47, 40⟩, opKEY_CREATE)]).toNat 47 40) 2 = true) ∧
    (hosted.Canonical ∧ hosted.hostReach true = true ∧ hosted.alive domHome = true) ∧
    (cored.Canonical ∧ cored.alive domHome = true ∧ ∀ c : Fin 96, cored.domOn (domQuad (cored.quadOf c)) = true) :=
  ⟨⟨dimmed_canonical, by decide +kernel⟩, ⟨hosted_canonical, by decide +kernel⟩, cored_canonical, by decide +kernel⟩

/-! ### Requests to Banjo -/

/-- A request in hand on mailbox channel 2: opcode, arguments, bytes. -/
def asking (s : State) (op : Nat) (args : List Nat) (data : List Byte) : State :=
  { s.setChan 2 { busy := true, req := BitVec.ofNat 64 (op * 2 ^ 40 + data.length), args := [], data := [] } with
    sram := putBytes (putBytes [] (chanBase 2 + 8) (bytesOfWords (args.map (BitVec.ofNat 64)))) (chanBuffer 2) data }

/-- FLOOR_RAISE with one fuse word left and a floor of 0, whatever the fuses hold. -/
def flooring : State :=
  ((asking device opFLOOR_RAISE [] []).setFld a_MG_FLOOR MG_FLOOR_FW_RAISES 15).setFld a_MG_FLOOR MG_FLOOR_FW_FLOOR 0

/-- The inactive slot holds the header of an object of 160 bytes with the greatest version. -/
def slotted1 : State :=
  let header := leBytes 1 2 ++ leBytes 1 2 ++ leBytes 160 4 ++ leBytes 0 8 ++ leBytes 0xFFFFFFFF 4 ++ List.replicate 44 0
  { asking device opUPDATE_ACTIVATE [] [] with
    flash := (header.zipIdx).foldl (fun m x => Sparse.put (fun _ => (0xFF : Byte)) m (slotArea 1 + x.2) x.1) [] }

theorem slotted1_ok (sig : slotted1.signedBy (slotArea 1) (slotted1.objLen (slotArea 1)) Config.tagrimetKey = true)
    (parts : Config.componentsOk (slotted1.objBytes (slotArea 1)) = true) : slotted1.slotOkAt slotted1.inactive = true := by
  have i : slotted1.inactive = 1 := by decide +kernel
  have svn : slotted1.objSvn (slotArea 1) = 0xFFFFFFFF := by decide +kernel
  have fl : slotted1.fld a_MG_FLOOR MG_FLOOR_FW_FLOOR ≤ 0xFFFFFFFF :=
    Nat.le_of_lt_succ (natBits_lt (slotted1.rd a_MG_FLOOR).toNat 31 0)
  have ser : slotted1.flashNat (slotArea 1 + 8) 8 = 0 := by decide +kernel
  have a : slotted1.absent (slotArea 1) = false := by decide +kernel
  have k : slotted1.flashNat (slotArea 1) 2 = 1 := by decide +kernel
  have v : slotted1.flashNat (slotArea 1 + 2) 2 = 1 := by decide +kernel
  have l : slotted1.objLen (slotArea 1) = 160 := by decide +kernel
  have g : slotted1.flashNat (slotArea 1 + 20) 4 = 0 := by decide +kernel
  have z : slotted1.flashNat (slotArea 1 + 24) 40 = 0 := by decide +kernel
  simp [slotOkAt, objectOk, headerOk, i, svn, fl, parts, ser, a, k, v, l, g, z, tySLOT, tyLICENCE, tyREOPEN, slotBytes] at *
  exact sig

theorem witness_RequestsServed
    (sig : slotted1.signedBy (slotArea 1) (slotted1.objLen (slotArea 1)) Config.tagrimetKey = true)
    (parts : Config.componentsOk (slotted1.objBytes (slotArea 1)) = true) (operator : Config.operatorSession 0 = true) :
    (∀ x ∈ [(opSTATUS, []), (opSET_MODE, [15]), (opLOG_READ, [0, 0, 1]), (opLOG_READ, [1, 5, 16384]),
        (opDUMP_READ, [3, 2 ^ 29 - 2 ^ 20, 2 ^ 20]), (opDUMP_RELEASE, [8]), (opUPDATE_WRITE, [slotBytes - 1]), (opSPDM, [])],
      let s := asking device x.1 x.2 [1]
      canonical s = true ∧ s.serves (chanOf (.mailbox 2)) x.1 = true ∧ x.2.zipIdx.all (fun a => s.arg 2 a.2 == a.1) = true) ∧
    (15 ≤ 15 ∧ 1 ≤ 1 ∧ 0 < 1 ∧ 16384 ≤ 16384 ∧ 3 ≤ 3 ∧ 2 ^ 20 ≤ 2 ^ 20 ∧ 2 ^ 29 - 2 ^ 20 + 2 ^ 20 ≤ 2 ^ 29) ∧
    (let s := asking device opUPDATE_WRITE [slotBytes - 1] [1]
     s.updForeign 2 = false ∧ s.arg 2 0 + (s.reqBytes 2).length ≤ slotBytes) ∧
    (slotted1.Canonical ∧ slotted1.serves (chanOf (.mailbox 2)) opUPDATE_ACTIVATE = true ∧ slotted1.updForeign 2 = false ∧
      slotted1.slotOkAt slotted1.inactive = true) ∧
    (flooring.Canonical ∧ flooring.serves (chanOf (.mailbox 2)) opFLOOR_RAISE = true ∧
      flooring.flag a_MG_BOOTSTAT MG_BOOTSTAT_FALLBACK = false ∧ flooring.fld a_MG_FLOOR MG_FLOOR_FW_RAISES < 16 ∧
      flooring.fld a_MG_FLOOR MG_FLOOR_FW_FLOOR < flooring.objSvn (slotArea (flooring.fld a_MG_BOOTSTAT MG_BOOTSTAT_SLOT))) ∧
    (let s := { device with sessions := [(0, 2)] }
     s.Canonical ∧ (s.chan 3).busy = false ∧ s.mg.phase ≠ 0 ∧ s.sessions.contains (0, 2) = true ∧ Config.operatorSession 0 = true ∧
       permitted (BitVec.ofNat 8 opSTATUS).toNat 3 = true ∧ ([] : List Byte).length < 2 ^ 40) ∧
    (hosted.Canonical ∧ hosted.hostLink.up = true ∧ hosted.alive 121 = true ∧ hosted.mg.phase ≠ 0) := by
  have c0 : (asking device opFLOOR_RAISE [] []).Canonical := canonical_of _ (by decide +kernel)
  have c1 := setFld_canonical _ a_MG_FLOOR MG_FLOOR_FW_RAISES 15 c0
  have b : flooring.rd a_MG_BOOTSTAT = (asking device opFLOOR_RAISE [] []).rd a_MG_BOOTSTAT := by
    rw [flooring, rd_setFld_ne _ _ _ _ _ (by decide), rd_setFld_ne _ _ _ _ _ (by decide)]
  have f : flooring.fld a_MG_FLOOR MG_FLOOR_FW_FLOOR = 0 := by
    rw [flooring, fld_setFld _ _ _ _ c1 (by decide) (by decide)]; rfl
  have r : flooring.fld a_MG_FLOOR MG_FLOOR_FW_RAISES = 15 := by
    rw [flooring, fld_setFld_apart _ _ _ _ _ c1 (by decide) (by decide) (by decide) (by decide),
      fld_setFld _ _ _ _ c0 (by decide) (by decide)]; rfl
  refine ⟨by decide +kernel, by decide, by decide +kernel, ⟨canonical_of _ (by decide +kernel), by decide +kernel, by decide +kernel,
    slotted1_ok sig parts⟩, ⟨setFld_canonical _ _ _ _ c1, by decide +kernel, ?_, by rw [r]; decide, ?_⟩,
    ⟨canonical_of _ (by decide +kernel), by decide +kernel, by decide +kernel, by decide +kernel, operator, by decide, by decide⟩,
    hosted_canonical, by decide +kernel⟩
  · rw [flag, b]; decide +kernel
  · rw [f, fld, b]; decide +kernel

/-- T2 is in service, and holds 64 bytes of an image in the last unit below the crash dump reserve. -/
def imageAt : Nat := t2Base + 12 * 64 * 2 ^ 30 - 2 ^ 31 - 64
def image : List Byte := List.replicate 64 7
def imaged : State :=
  { fields device [(a_DD_TIER, DD_TIER_ACTIVE, 1), (a_DD_TIER, DD_TIER_DIMM_GIB, 64)] with
    mem := putBytes [] imageAt image, units := [(imageAt, ⟨46, false⟩)] }

/-- CELL_CREATE for a quad: its arguments in the mailbox, its digest in the buffer. -/
def cellAsk : Chan := ⟨true, BitVec.ofNat 64 (opCELL_CREATE * 2 ^ 40 + 48), [], []⟩
def celling : State :=
  placed { imaged with
    chans := [(2, cellAsk)]
    sram := putBytes [] (chanBase 2 + 8) (bytesOfWords ([23, 7, imageAt, 64, imageAt].map (BitVec.ofNat 64))) }

/-- CELL_DESTROY for a quad with a cell. -/
def celled : State := placed (asking { imaged with mg := { imaged.mg with cells := [(23, 7)] } } opCELL_DESTROY [23] [])

/-- Debugging is not open, whatever the fuses hold. -/
def shut (s : State) : State := s.setFld a_MG_CFG MG_CFG_DEBUG_OPEN 0

theorem shut_denied (s : State) (h : s.Canonical) (id : Nat) (b : Bool) (hd : s.keyDenied id false = false) :
    (shut s).keyDenied id b = false := by
  have f : (shut s).flag a_MG_CFG MG_CFG_DEBUG_OPEN = false := by
    have := fld_setFld s a_MG_CFG MG_CFG_DEBUG_OPEN 0 h (by decide) (by decide)
    simp only [fld] at this
    rw [flag, shut, this]; rfl
  have l : (shut s).licSlots = s.licSlots := fld_setFld_ne s _ _ _ _ _ (by decide)
  have c : (shut s).cstate id = s.cstate id :=
    fld_setFld_ne s _ _ _ _ _ (by simp only [a_PT_CTXSTAT, a_MG_CFG]; omega)
  have k : (shut s).keyAt id = s.keyAt id := rfl
  simp only [keyDenied, slotOk, f, l, c, k, Bool.and_false, Bool.false_and, Bool.or_false] at hd ⊢
  exact hd

def creating : State := shut (asking device opKEY_CREATE [6078, 1] [])
def importing : State := shut (asking { device with sessions := [(0, 1)] } opKEY_IMPORT [6078, 0] [1])

theorem creating_canonical : creating.Canonical := setFld_canonical _ _ _ _ (canonical_of _ (by decide +kernel))
theorem importing_canonical : importing.Canonical := setFld_canonical _ _ _ _ (canonical_of _ (by decide +kernel))
theorem creating_arg : creating.arg 2 0 = 6078 := by decide +kernel
theorem importing_arg : importing.arg 2 0 = 6078 := by decide +kernel
theorem importing_arg1 : importing.arg 2 1 = 0 := by decide +kernel
theorem creating_denied (b : Bool) : creating.keyDenied 6078 b = false :=
  shut_denied _ (canonical_of _ (by decide +kernel)) 6078 b (by decide +kernel)
theorem importing_denied (b : Bool) : importing.keyDenied 6078 b = false :=
  shut_denied _ (canonical_of _ (by decide +kernel)) 6078 b (by decide +kernel)

theorem celling_drains : (celling.quadDrained 23).isSome = true := by decide +kernel
theorem celling_reads : ((((celling.quadDrained 23).getD celling).quadOff 23).newKey 6175 |>.readMem keyOPERATOR imageAt 64).1 = image := by
  decide +kernel

theorem witness_KeysAndCells_keys (unwrap : Config.unwrapOk 0 (importing.reqBytes 2) = true) :
    (creating.Canonical ∧ creating.serves (chanOf (.mailbox 2)) opKEY_CREATE = true ∧ creating.arg 2 0 < 6144 ∧
      creating.keyDenied (creating.arg 2 0) (natBit (creating.arg 2 1) 0) = false) ∧
    (importing.Canonical ∧ importing.serves (chanOf (.mailbox 2)) opKEY_IMPORT = true ∧ importing.arg 2 0 < 6144 ∧
      importing.keyDenied (importing.arg 2 0) true = false ∧ importing.sessions.any (fun x => x.1 == importing.arg 2 1) = true ∧
      Config.unwrapOk (importing.arg 2 1) (importing.reqBytes 2) = true) := by
  rw [creating_arg, importing_arg, importing_arg1]
  exact ⟨⟨creating_canonical, by decide +kernel, by decide, creating_denied _⟩, importing_canonical, by decide +kernel, by decide,
    importing_denied _, by decide +kernel, unwrap⟩

/-- The buffer's 48 bytes stand for the digest of the image, which is opaque. -/
theorem witness_KeysAndCells_cells (digest : Config.sha384 image = celling.reqBytes 2) :
    (celling.Canonical ∧ celling.serves (chanOf (.mailbox 2)) opCELL_CREATE = true ∧ celling.coresOf 23 ≠ [] ∧
      celling.arg 2 0 = 23 ∧ celling.cellRange (celling.arg 2 2) (celling.arg 2 3) = true ∧
      celling.cellRange (celling.arg 2 4) (celling.arg 2 3) = true ∧
      celling.shutLine naBanjo [⟨celling.arg 2 2, celling.arg 2 3⟩, ⟨celling.arg 2 4, celling.arg 2 3⟩] = none ∧
      ∃ u, celling.quadDrained 23 = some u ∧
        Config.sha384 ((((u.quadOff 23).newKey 6175)).readMem keyOPERATOR imageAt 64).1 = (celling.reqBytes 2).take 48) ∧
    (celled.Canonical ∧ celled.serves (chanOf (.mailbox 2)) opCELL_DESTROY = true ∧ celled.arg 2 0 = 23 ∧
      celled.hasCell 23 = true ∧ (celled.quadDrained 23).isSome = true) := by
  refine ⟨⟨canonical_placed _ (by decide +kernel) (by decide +kernel), by decide +kernel, by decide +kernel, by decide +kernel,
    by decide +kernel, by decide +kernel, by decide +kernel, ?_⟩,
    canonical_placed _ (by decide +kernel) (by decide +kernel), by decide +kernel, by decide +kernel, by decide +kernel, by decide +kernel⟩
  obtain ⟨u, hu⟩ := Option.isSome_iff_exists.mp celling_drains
  have im := celling_reads
  rw [hu, Option.getD_some] at im
  refine ⟨u, hu, ?_⟩
  rw [im, digest, List.take_of_length_le (by simp only [reqBytes, sramBytes]; simp; decide +kernel)]

/-! ### Resets, power and bring-up -/

/-- Two management cores in lock step, whatever the fuses hold. -/
def lockstepped : State := device.setFld a_MG_CFG MG_CFG_LOCKSTEP 1

theorem lockstepped_flag : lockstepped.flag a_MG_CFG MG_CFG_LOCKSTEP = true := by
  have := fld_setFld device a_MG_CFG MG_CFG_LOCKSTEP 1 device_canonical (by decide) (by decide)
  simp only [fld] at this
  rw [flag, lockstepped, this]; rfl

theorem witness_DeviceResetsAndPower :
    (device.Canonical ∧ device.gate .banjo a_MG_RESETCTL true = none ∧ device.mg.phase = 2 ∧ device.pins.warmRstN = true ∧
      device.pins.pwrGood = true) ∧
    (let s := asking device opWARM_RESET [] []
     s.Canonical ∧ s.serves (chanOf (.mailbox 2)) opWARM_RESET = true) ∧
    (∀ held ∈ [false, true], let s := { device with
        pins := { device.pins with warmRstN := false }
        mg := { device.mg with warmHeld := held } }
      s.pins.warmRstN = false ∧ s.mg.warmHeld = held) ∧
    (∀ test ∈ [false, true], let s := { State.reset with pins := { State.reset.pins with boardTest := test } }
      s.pins.pwrGood = false ∧ s.pins.boardTest = test) ∧
    (1760 ≤ 1760 ∧ 1760 < 32768 ∧ 1760 ≤ 32767 ∧ 32767 < 32768 ∧ device.mg.phase ≠ 0) ∧
    (lockstepped.Canonical ∧ lockstepped.flag a_MG_CFG MG_CFG_LOCKSTEP = true ∧ lockstepped.mg.phase = 2) :=
  ⟨⟨device_canonical, by decide +kernel⟩, ⟨canonical_of _ (by decide +kernel), by decide +kernel⟩, by decide +kernel, by decide +kernel,
    by decide +kernel, setFld_canonical _ _ _ _ device_canonical, lockstepped_flag, by decide +kernel⟩

/-- The last partition has not joined, and the bring-up of its stack has brought the device to a level. -/
def late (imaged : Nat) (level : Nat) : State :=
  fields { device with
    parts := (List.range 23).map (fun p => (p, { Part.init with joined := true }))
    mg := { device.mg with imaged := imaged } }
    [(a_MG_BOOTSTAT, MG_BOOTSTAT_LEVEL, level)]

/-- Every partition has joined, at L1. -/
def levelled (retrained : Bool) : State :=
  fields { device with mg := { device.mg with retrained := retrained } } [(a_MG_BOOTSTAT, MG_BOOTSTAT_LEVEL, 1), (a_DD_TIER, DD_TIER_ACTIVE, 1)]

theorem witness_BringUpEvents :
    (∀ on ∈ [false, true], let s := device.setDom 23 { Dom.init with on := on, switchOn := true }
      canonical s = true ∧ s.upReady 23 = true ∧ s.railOk (railOf 23) = true ∧ (s.dom 23).cfgWrites = []) ∧
    (∀ i ∈ [0, 77, 104, 107, 121], let s := device.setDom i { lit with switchOff := true }
      canonical s = true ∧ (s.dom i).switchOff = true ∧ (s.dom i).inReset = false ∧ s.mg.phase ≠ 0 ∧ (i < 78 ∨ 104 ≤ i) ∧
        (104 ≤ i → i < 108 → ∀ k, k < 8 → s.agentQuiet (96 + 8 * (i - 104) + k) = true)) ∧
    (let s := placed (device.setDom 103 { lit with switchOff := true })
     s.Canonical ∧ (s.dom 103).switchOff = true ∧ (s.dom 103).inReset = false ∧ s.mg.phase ≠ 0 ∧ (s.quadDrained 25).isSome = true) ∧
    (let s := late 0 0
     s.Canonical ∧ s.bootRuns = true ∧ s.mg.broadcasts = 0 ∧ (∃ p ∈ s.unjoined, s.imageIn p = false) ∧
       (∀ p ∈ s.unjoined, s.imageIn p = false → s.domOn (domCtl p) = true)) ∧
    (let s := late (2 ^ 23) 0
     s.Canonical ∧ s.bootRuns = true ∧ s.imageIn 23 = true ∧ s.nextJoin (burlOf 23) = some 23 ∧ s.slotTaken 23 = false ∧
       s.domOn (domCtl 23) = true ∧ (s.die (burlOf 23)).inReset = false) ∧
    (let s := fields device [(a_MG_BOOTSTAT, MG_BOOTSTAT_LEVEL, 0)]
     s.Canonical ∧ s.bootRuns = true ∧ s.t2Up = false ∧ s.domOn 108 = true ∧ s.domOn 109 = true ∧ s.domOn domHome = true ∧
       s.pins.lostMem.contains 6 = false) ∧
    (∀ dimms ∈ [List.replicate 12 64, List.replicate 11 256 ++ [64]],
      ∀ k, k < 12 → 64 ≤ dimms.getD k 0 ∧ dimms.getD k 0 ≤ 256) ∧
    (∀ dimms ∈ [[], List.replicate 11 256], (∀ k, k < 12 → dimms.getD k 0 ≤ 256) ∧ ∃ k, k < 12 ∧ dimms.getD k 0 = 0) ∧
    (∀ b ∈ [false, true], let s := levelled b
      canonical s = true ∧ s.bootRuns = true ∧ s.fld a_MG_BOOTSTAT MG_BOOTSTAT_LEVEL = 1 ∧ s.mg.retrained = b ∧ s.unjoined = [] ∧
        s.portsSettled = true ∧ s.t2Up = true ∧ s.flag a_MG_BOOTSTAT MG_BOOTSTAT_SCRUBBED = false) := by
  refine ⟨by decide +kernel, by decide +kernel, ⟨canonical_placed _ (by decide +kernel) (by decide +kernel), by decide +kernel⟩,
    ⟨canonical_of _ (by decide +kernel), by decide +kernel, by decide +kernel, ⟨23, by decide +kernel⟩, by decide +kernel⟩,
    ⟨canonical_of _ (by decide +kernel), by decide +kernel⟩, ⟨canonical_of _ (by decide +kernel), by decide +kernel⟩, by decide +kernel,
    fun dimms h => ?_, by decide +kernel⟩
  simp only [List.mem_cons, List.not_mem_nil, or_false] at h
  obtain rfl | rfl := h <;> exact ⟨by decide, 11, by decide⟩

/-! ### Links, clocks and dies -/

/-- Link 5 carries on three bundles. -/
def linked (retries : List (Nat × Nat)) (words : List (Nat × List Nat)) : State :=
  device.setLink 5 { bundles := [(0, 0), (1, 0), (33, 1), (3, 2)], retries := retries, words := words, sent := 70, up := true }

/-- A link whose fuses take no bundle out. -/
def whole (l : Nat) : State := device.setFld (a_LK_REPAIR l) LK_REPAIR_OUT_MAP 0

theorem whole_trains (l : Nat) (h : l < 16) : (whole l).mayTrain l = true ∧
    ((whole l).logicalBundles l).filter (fun b => natBit (BitVec.allOnes 40).toNat b) = List.range (linkLogical l) ∧
    (((whole l).logicalBundles l).filter (fun b => natBit (255#40).toNat b)).length < 9 := by
  have out : (whole l).fld (a_LK_REPAIR l) LK_REPAIR_OUT_MAP = 0 :=
    fld_setFld device _ _ _ device_canonical (by decide) (by decide)
  have st : (whole l).fld (a_LK_STATUS l) LK_STATUS_STATE = device.fld (a_LK_STATUS l) LK_STATUS_STATE :=
    fld_setFld_ne device _ _ _ _ _ (by simp only [a_LK_STATUS, a_LK_REPAIR]; omega)
  have dm : ∀ i, (whole l).dom i = device.dom i := fun _ => rfl
  have un : (whole l).die l = device.die l := rfl
  have both : ∀ l, l < 16 → device.mayTrain l = true ∧
      (((List.range (linkPhysical l)).filter (fun b => !natBit 0 b)).take (linkLogical l)).filter
        (fun b => natBit (BitVec.allOnes 40).toNat b) = List.range (linkLogical l) ∧
      ((((List.range (linkPhysical l)).filter (fun b => !natBit 0 b)).take (linkLogical l)).filter
        (fun b => natBit (255#40).toNat b)).length < 9 := by decide +kernel
  obtain ⟨m, n, k⟩ := both l h
  refine ⟨?_, ?_, ?_⟩
  · simp only [mayTrain, domOn, st, dm, un] at m ⊢
    exact m
  · rw [logicalBundles, out]
    exact n
  · rw [logicalBundles, out]
    exact k

theorem witness_LinksTrainAndCarryWords :
    (∀ l, l < 16 → (whole l).Canonical ∧ (whole l).mayTrain l = true ∧ (l < 6 → (whole l).pins.lostMem.contains l = false) ∧
      (if l < 6 then 9 else linkLogical l) ≤
        (((whole l).logicalBundles l).filter (fun b => natBit (BitVec.allOnes 40).toNat b)).length) ∧
    (let c := device.fld (a_LK_ROLE 5) LK_ROLE_COH_N
     let tl := device.fld (a_LK_ROLE 5) LK_ROLE_TILE_N
     let k := device.fld (a_LK_ROLE 5) LK_ROLE_CTRL_N
     c + tl + k = 32 ∧ 4 ≤ c ∧ 4 ≤ tl ∧ 1 ≤ k) ∧
    (∀ l, l < 6 → (((whole l).logicalBundles l).filter (fun b => natBit (255#40).toNat b)).length < 9) ∧
    (∀ r ∈ [[], [(0, 3)]], ∀ ws ∈ [[], [(0, [61, 62]), (1, [63])]], let s := linked r ws
      canonical s = true ∧ (s.link 5).bundles.find? (fun x => x.1 == (0 : Fin 40).val) = some ((0 : Fin 40).val, 0) ∧
        (s.link 5).up = true ∧ s.domOn domHome = true ∧
        (s.link 5).retries.find? (fun r => r.1 == (0 : Fin 40).val) = (if r = [] then none else some ((0 : Fin 40).val, 3)) ∧
        decide (replay (s.link 5) 0 = []) = decide (ws = []) ∧
        (s.link 5).bundles.any (fun y => y.1 != (0 : Fin 40).val && y.2 == 0) = true) := by
  refine ⟨fun l h => ⟨setFld_canonical _ _ _ _ device_canonical, (whole_trains l h).1, fun _ => rfl, ?_⟩, by decide +kernel,
    fun l h => (whole_trains l (by omega)).2.2, by decide +kernel⟩
  rw [(whole_trains l h).2.1, List.length_range]
  revert l
  decide

theorem witness_ClocksAndDies :
    (∀ d ∈ [0, 5, 8], let s := { device.setDie d { Die.init with inReset := true, synced := true } with
        links := (List.range 6).map (fun l => (l, { Link.init with up := true })) }
      canonical s = true ∧ (s.die d).inReset = true ∧ (s.die d).synced = true ∧ (d < 6 → (s.link d).up = true)) ∧
    (canonical device = true ∧ device.firmware = true ∧ device.roundDue = true ∧
      (∀ x ∈ [(8, 200), (0, 201)], ([201, 0, 0, 0, 0, 0, 0, 0, 200] : List Nat)[x.1]? = some x.2 ∧
        natBit (BitVec.allOnes 9).toNat x.1 = true) ∧ device.pins.refMgmt = true) ∧
    (let s := { device with pins := { device.pins with refMgmt := false }, mg := { device.mg with refLostAt := 5 }, now := 10000005 }
     canonical s = true ∧ s.pins.refMgmt = false ∧ s.mg.refLostAt + 10000000 ≤ s.now) ∧
    ((1 : Fin 2).val ∉ device.pins.lostFab) := by decide +kernel

/-! ### Fault records and recovery -/

/-- A record of class CATCH, made at time 0. -/
def rec0 : FRec :=
  { kind := 0, cls := cCATCH, fatal := false, sub := 0, die := 5, unit := 3, part := 23, time := 0, tenant := 7, ctxValid := false,
    ctxid := 0, seqValid := false, seq := 0, addr := 0, length := 0, info0 := 0, info1 := 0, rseq := 0, count := 1 }

/-- Records are held for both queues; one waits for the stack of the ring of the last partition, which is at 0x400000. -/
def recording : State :=
  { (fields device [(a_FQ_CFG 23, FQ_CFG_BASE, 0x400000 / 65536), (a_FQ_CFG 23, FQ_CFG_ENABLE, 1), (a_FQ_TAIL 23, FQ_TAIL_TAIL, 65535)]) with
    now := 10000, held := [(.part 23, rec0), (.device, rec0)] }
def retrying : State := recording.modPart 23 (fun x => { x with hold := [rec0, { rec0 with time := 1 }] })

/-- A dump is being written since time 0. -/
def dumping : State :=
  { dimmed.setDump 3 (some { id := 9, time := 0, cause := [], level := 0, truncated := false, writing := true, len := 0 }) with
    now := 200000000 }

theorem witness_RecordsReachTheirQueues :
    (recording.Canonical ∧ recording.held.find? (fun h => h.1 == .device) = some (.device, rec0) ∧ rec0.time + 10000 ≤ recording.dieNow rec0.die ∧
      (let tail := recording.fld a_FQ_DEVTAIL FQ_DEVTAIL_TAIL
       (tail + 65536 - recording.fld a_FQ_DEVHEAD FQ_DEVHEAD_HEAD) % 65536 ≠ 256)) ∧
    (recording.held.find? (fun h => h.1 == .part 23) = some (.part 23, rec0) ∧ recording.ringOn 23 = true ∧
      recording.ringAway 23 = false ∧ (recording.part 23).hold = [] ∧ (recording.part 23).fatalHold = [] ∧
      (let tail := recording.fld (a_FQ_TAIL 23) FQ_TAIL_TAIL
       (tail + 65536 - recording.fld (a_FQ_HEAD 23) FQ_HEAD_HEAD) % 65536 ≠ 1024)) ∧
    (retrying.Canonical ∧ (retrying.part 23).hold = [rec0, { rec0 with time := 1 }] ∧ retrying.ringAway 23 = false ∧
      (retrying.part 23).lostDue = false ∧
      (let tail := retrying.fld (a_FQ_TAIL 23) FQ_TAIL_TAIL
       (tail + 65536 - retrying.fld (a_FQ_HEAD 23) FQ_HEAD_HEAD) % 65536 ≠ 1024)) ∧
    (recording.Canonical ∧ recording.ringAway 23 = false) ∧
    (∃ d, dumping.Canonical ∧ dumping.writingDump = some (3, d) ∧ d.time + 200000000 ≤ dumping.now ∧
      dumping.mg.dumpFor.find? (fun x => x.1 == d.id) = none) :=
  ⟨⟨canonical_of _ (by decide +kernel), by decide +kernel⟩, by decide +kernel, ⟨canonical_of _ (by decide +kernel), by decide +kernel⟩,
    ⟨canonical_of _ (by decide +kernel), by decide +kernel⟩,
    { id := 9, time := 0, cause := [], level := 0, truncated := false, writing := true, len := 0 },
    canonical_of _ (by decide +kernel), by decide +kernel⟩

/-- A unit of the last partition was silent for 10 ms; so was its heartbeat. -/
def silent (now : Nat) : State :=
  { (active.setFld (a_PT_WATCHDOG 23) PT_WATCHDOG_WD_ENGINE 10).modPart 23 (fun x => { x with wd := [(26, 10000001)] }) with now := now }

theorem witness_SilenceOpensAnEpisode :
    (let s := silent 10000000
     let w := Sparse.get (fun _ => 0) (s.part 23).wd (26 : Fin 27)
     s.Canonical ∧ w ≠ 0 ∧ w - 1 ≤ s.now ∧ s.inReset 23 = false ∧ s.retraining = false ∧ s.recState 23 = 0 ∧ s.recStep 23 = 0 ∧ (s.part 23).episode = none ∧
       s.enabled 23 = true ∧ s.domOn (domCtl 23) = true ∧
       (s.part 23).hbAt + s.fld (a_PT_WATCHDOG 23) PT_WATCHDOG_WD_ENGINE * 1000000 ≤ s.now) ∧
    (let s := silent 9999999
     s.Canonical ∧ s.now < (s.part 23).hbAt + s.fld (a_PT_WATCHDOG 23) PT_WATCHDOG_WD_ENGINE * 1000000) :=
  ⟨⟨canonical_of _ (by decide +kernel), by decide +kernel⟩, canonical_of _ (by decide +kernel), by decide +kernel⟩

/-- An episode of the last partition with its last context as suspect. -/
def episode0 : Episode :=
  { start := 0, cls := cCATCH, suspects := [lastId], slot := 0, entry := 0, since := 0, replaying := false, release := false }

/-- The last partition in that episode, in a state and at a step of it. -/
def recovering (s : State) (st step : Nat) : State :=
  fields (s.modPart 23 (fun x => { x with episode := some episode0, inReset := decide (2 < step ∧ step < 7) }))
    [(a_PT_RECSTAT 23, PT_RECSTAT_STATE, st), (a_PT_RECSTAT 23, PT_RECSTAT_STEP, step), (a_PT_RECSTAT 23, PT_RECSTAT_REPLAY_CTX, lastId)]

/-- The reload list of the last context has one entry, that sets the last semaphore to 77. -/
def listAt : Nat := t2Base + 64
def reloadWords : List Word := [BitVec.ofNat 64 (2 ^ 63 + 4095), 77, 0, 0]
def listed1 : State :=
  (active.setFld a_DD_TIER DD_TIER_ACTIVE 1).setFld a_DD_TIER DD_TIER_DIMM_GIB 64 |>.setCstate lastId 4
def listed : State :=
  { fields listed1 [(a_PT_RELOAD 23 191, PT_RELOAD_BASE, listAt / 32), (a_PT_RELOAD 23 191, PT_RELOAD_COUNT, 1)] with
    mem := putBytes [] listAt (bytesOfWords reloadWords), units := [(listAt, ⟨44, false⟩)] }

theorem witness_RecoverySteps :
    (let s := recovering (active.setFld (a_SQ_RINGBASE 23 191) SQ_RINGBASE_BASE 0 |>.setFld (a_SQ_CPLBASE 23 191) SQ_CPLBASE_BASE 0) 0 0
     s.Canonical ∧ (s.part 23).episode = some episode0 ∧ s.recState 23 = 0 ∧ s.cstate (cid 23 191) = 1 ∧
       s.ringIn (cid 23 191) 23 = false ∧ (s.ctx (cid 23 191)).tail ≤ (s.ctx (cid 23 191)).head) ∧
    (∀ step ∈ [1, 2], let s := recovering active 2 step
      canonical s = true ∧ s.recState 23 = 2 ∧ s.recStep 23 ≤ 2) ∧
    (let s := recovering active 1 3
     s.Canonical ∧ s.recState 23 = 1 ∧ s.slotTaken 23 = false ∧ s.bringUpsDue (burlOf 23) = false ∧
       s.nextForSlot (burlOf 23) = some 23 ∧ (s.die (burlOf 23)).inReset = false) ∧
    (∀ step ∈ [4, 5, 6], let s := { recovering active 2 step with mg := { active.mg with imageCopy := true } }
      canonical s = true ∧ s.recState 23 = 2 ∧ s.recStep 23 = step ∧ (s.part 23).episode = some episode0 ∧ episode0.release = false ∧
        s.mg.imageCopy = true) ∧
    (let s := recovering listed 2 7
     let at_ := s.fld (a_PT_RELOAD 23 191) PT_RELOAD_BASE * 32 + 32 * 0
     let ws := wordsOf (s.readMem keySYS at_ 32).1 4
     let q0 := (ws.getD 0 0).toNat
     s.Canonical ∧ (s.part 23).episode = some episode0 ∧ s.recStep 23 = 7 ∧ s.reloadNext 23 episode0 = some (191, 0) ∧
       t2Base ≤ at_ ∧ s.memRange at_ 32 = true ∧ s.clearOfReserve at_ 32 = true ∧ s.fare roleCOH (burlOf 23) at_ = .served ∧
       s.Admitted (naPart 23) at_ 32 ∧ (s.readMem keySYS at_ 32).2 = false ∧
       natBit q0 63 = true ∧ (ws.getD 2 0).toNat = 0 ∧ natBits (ws.getD 3 0).toNat 12 0 = 0 ∧
       s.semAllowed (s.tenantOf (cid 23 191)) 23 (natBits q0 11 0) = true ∧ s.semWaits = []) ∧
    (let s := { recovering (holding active [blockedWait]) 2 8 with now := 1000000 }
     s.Canonical ∧ s.recStep 23 = 8 ∧ (s.part 23).episode = some episode0 ∧ episode0.suspects = [lastId] ∧
       s.fld (a_PT_RECSTAT 23) PT_RECSTAT_REPLAY_CTX = lastId ∧
       (s.ctx lastId).descs.find? (fun d => d.kind == kWAIT && d.stage == .running) = some blockedWait ∧
       blockedWait.started + 1000000 ≤ s.now) :=
  ⟨⟨canonical_of _ (by decide +kernel), by decide +kernel⟩, by decide +kernel, ⟨canonical_of _ (by decide +kernel), by decide +kernel⟩,
    by decide +kernel, ⟨canonical_of _ (by decide +kernel), by decide +kernel⟩, canonical_of _ (by decide +kernel), by decide +kernel⟩

/-- The entry at the ring's last index, on its second lap, is complete. -/
def completed : Desc := { entry 127 [q0 kMARK, 77 * 2 ^ 32] .complete with status := stOK }

theorem witness_CompletionRecordIsWritten :
    (let s := holding active [completed]
     let id := lastId
     let size := s.ringSize id
     let at_ := s.fld (a_SQ_CPLBASE 23 191) SQ_CPLBASE_BASE * 16 + completed.index % size * 16
     s.Canonical ∧ (s.ctx id).descs.find? (fun d => d.stage == .complete && d.index % size == (63#16).toNat) = some completed ∧
       s.alive (domCtl 23) = true ∧ s.inReset 23 = false ∧ s.recStep 23 ≠ 8 ∧ s.fare roleCOH (burlOf 23) at_ = .served ∧
       s.Admitted (naPart 23) at_ 16) :=
  ⟨canonical_of _ (by decide +kernel), by decide +kernel⟩

/-! ### Dispatch -/

/-- The context has 16 MiB of tile store, 64 KiB of T1, the last eight predicate bits, the last barrier, and function tables. -/
def ready0 : State :=
  (fields active [(a_PT_PREDOWN 23 31, ⟨63, 0⟩, 0xBFBFBFBFBFBFBFBF), (a_VE_TABVALID 23, VE_TABVALID_VALID, 0xFFFFFFFF),
    (a_BD_BARCFG 255, BD_BARCFG_VALID, 1), (a_BD_BARCFG 255, BD_BARCFG_TENANT, 7), (a_BD_BARCFG 255, BD_BARCFG_SCOPE, 2)]).modCtx lastId
    (fun c => { c with claims := [⟨0, 0, 2 ^ 24⟩, ⟨1, 0x1000000, 65536⟩] })

/-- A descriptor is the next one, and may run. -/
def runs (s : State) (d : Desc) : Bool :=
  canonical s && decide (nextUndispatched (s.ctx (cid 23 191)) = some d) && s.mayRun (cid 23 191) && decide (d.stage = .ready) &&
    s.orderOk (cid 23 191) d && (predsNamed d).all (fun x => s.ownsPred (cid 23 191) x.1) && decide (s.roughBad d = []) &&
    s.turn 23 (s.part 23).lastDisp 191 s.dispatchable &&
    !(d.predEn && s.predBit 23 d.predIdx == d.predInv) && !d.marked && decide ((s.resolved (cid 23 191) d).len ≠ 0) &&
    decide ((s.resolved (cid 23 191) d).len2 ≠ 0)

theorem runs_of (s : State) (d : Desc) (h : runs s d = true) : s.Canonical ∧ s.Runs 23 191 d := by
  simp only [runs, Bool.and_eq_true, and_assoc, decide_eq_true_eq, List.all_eq_true, Bool.not_eq_true'] at h
  obtain ⟨h1, h2, h3, h4, h5, h6, g1, g2, h7, h8, h9, h10⟩ := h
  refine ⟨canonical_of _ h1, ⟨⟨h2, h3, h4, h5, h6, g1, g2⟩, ?_, h8, h9, h10⟩⟩
  rintro ⟨a, b⟩
  simp [a, b] at h7

/-- The context holds one ready descriptor. -/
def readied (d : Desc) : State := holding ready0 [d]
def rdy (ws : List Nat) : Desc := entry 0 ws .ready

/-- A FENCE whose predicate, the last bit, is to be 1 and is 0; a MOVE of a length of 0 in length register 63. -/
def notTaken : Desc := rdy [q0 kFENCE + 2 ^ 59 + 255 * 2 ^ 50]
def noLength : Desc := rdy [q0 kMOVE, 0x10000000, 0, 0x100 * 2 ^ 32 + 2 ^ 31 + 63 * 2 ^ 18 + 2 ^ 13]

/-- It is the turn of context 5 of the last partition, which has a MARK to dispatch. -/
def others (s : State) : State :=
  (fields s [(a_PT_CTXCFG 23 5, PT_CTXCFG_ENABLE, 1), (a_PT_CTXSTAT 23 5, PT_CTXSTAT_STATE, 1), (a_SQ_RINGCFG 23 5, SQ_RINGCFG_LOG2SIZE, 6),
    (a_SQ_RINGCFG 23 5, SQ_RINGCFG_ENABLE, 1)]).modCtx (cid 23 5) (fun c => { c with fetch := 1, tail := 1, descs := [rdy [q0 kMARK, 0]] })

theorem witness_DispatchHonoursPredicateAndLength :
    (canonical (readied notTaken) = true ∧ nextUndispatched ((readied notTaken).ctx (cid 23 191)) = some notTaken ∧
      (notTaken.kind == kMARK) = false) ∧
    ((others (readied notTaken)).Canonical ∧
      (others (readied notTaken)).turn 23 ((others (readied notTaken)).part 23).lastDisp 191 (others (readied notTaken)).dispatchable = false) ∧
    ((readied notTaken).Dispatchable 23 191 notTaken ∧ (notTaken.kind == kFENCE) = true ∧ notTaken.predEn = true ∧
      (readied notTaken).predBit 23 notTaken.predIdx = notTaken.predInv) ∧
    ((readied noLength).Canonical ∧ (readied noLength).Dispatchable 23 191 noLength ∧
      (noLength.kind == kMOVE && noLength.mvMode == 0) = true ∧
      ¬ (noLength.predEn = true ∧ (readied noLength).predBit 23 noLength.predIdx = noLength.predInv) ∧ noLength.marked = false ∧
      ((readied noLength).resolved (cid 23 191) noLength).len = 0) :=
  ⟨by decide +kernel, ⟨canonical_of _ (by decide +kernel), by decide +kernel⟩, ⟨⟨by decide +kernel, by decide +kernel, by decide +kernel, by decide +kernel, by decide +kernel,
      by decide +kernel, by decide +kernel⟩, by decide +kernel⟩,
    canonical_of _ (by decide +kernel), ⟨by decide +kernel, by decide +kernel, by decide +kernel, by decide +kernel, by decide +kernel,
      by decide +kernel, by decide +kernel⟩, by decide +kernel⟩

/-- A MOVE of 128 elements of a mode into the tile store, binding if asked. -/
def aMove (mode bind : Nat) : Desc :=
  rdy [q0 kMOVE, 0x10000000, 0, 128 * 2 ^ 32 + mode * 2 ^ 15 + 2 ^ 13 + bind * 2 ^ 12, 64 * 2 ^ 32 + 4096, 64, 64]

/-- REFRESH, FLUSH, EVICT of the first 4096 bytes, which one binding covers. -/
def aFlush (kind : Nat) : Desc := rdy [q0 kind, 0, 4096]
def bound (d : Desc) : State :=
  { (readied d).modPart 23 (fun x => { x with binds := [⟨191, 0, 4096, 0x10000000, [⟨0x10000000, 0x400000, 4096, 0, 3, 0⟩], 0, 0⟩] }) with
    tsDirty := [(tsKey 23 64 / 64, true)] }

/-- An MM of 32 × 64 × 32 in E4M3, its tiles of A and B not occupied, D at 0x4000. -/
def aMm : Desc :=
  rdy [q0 kMM, 0x2000 * 2 ^ 32 + 0x1000, 0x3000 * 2 ^ 32, 32 * 2 ^ 48 + 64 * 2 ^ 32 + 32,
    3 * 2 ^ 60 + 3 * 2 ^ 56 + 3 * 2 ^ 48 + 2 ^ 39 + 2 * 2 ^ 35 + 2 ^ 31, 2 ^ 19, 0]
def directory (op entry : Nat) : List Byte :=
  let g := mmGrid aMm op
  leBytes (g.2.2.2 * 2 ^ 36 + g.2.2.1 * 2 ^ 32 + g.2.1 * 2 ^ 16 + g.1) 8 ++ List.replicate 56 0 ++ leBytes entry 8
def tiled (s : State) : State :=
  let at_ (a op entry : Nat) (m : List Host.Cell) : List Host.Cell := putBytes m (tsKey 23 a) (directory op entry)
  { s with ts := at_ 0x3000 3 0x4000 (at_ 0x2000 1 (2 ^ 63) (at_ 0x1000 0 (2 ^ 63) [])) }

/-- Every accumulator slot of the partition is taken. -/
def full (s : State) : State :=
  let w : WorkUnit := { ref := ⟨0, 0⟩, row := 0, col := 0, pos := 0, acc := [], poison := false, bad := false }
  s.modPart 23 (fun x => { x with
    engines := List.replicate 20 { Engine.init with slots := [some w, some w] }
    ves := List.replicate 4 (some ⟨0, 0⟩, 0)
    du := some ⟨0, 0⟩ })

/-- A VEC of 64 FP32 elements on engine 3. -/
def aVec (op : Nat) : Desc :=
  rdy [q0 kVEC, 0x2000 * 2 ^ 32 + 0x1000, 0x3000 * 2 ^ 32 + 0x2800, 64 * 2 ^ 32 + 64 * 2 ^ 16, op * 2 ^ 56 + 2 ^ 32, 0, 0x4000 * 2 ^ 32]

/-- A DISPATCH of one token over two experts, that writes the last two predicate bits, the last two length registers, and semaphores
4094 and 4095. -/
def aDispatch : Desc :=
  rdy [q0 kDISPATCH, 0x2000 * 2 ^ 32 + 0x1000, 0x4000 * 2 ^ 32 + 0x3000, 0x5000 * 2 ^ 32 + 2 * 2 ^ 16 + 1, 2 ^ 56 + 0x40 * 2 ^ 36,
    2 * 2 ^ 43 + 254 * 2 ^ 35 + 2 ^ 34 + 62 * 2 ^ 28 + 2 ^ 27 + 23 * 2 ^ 22 + 4094 * 2 ^ 10]

theorem witness_EngineWorkIsHandedOver :
    (∀ m ∈ [0, 1, 2, 3, 4], ∀ b ∈ if m < 2 then [0, 1] else [0], let d := aMove m b
      runs (readied d) d = true ∧ d.kind = kMOVE ∧ d.mvMode = m ∧ d.mvBind = (b == 1) ∧
        (readied d).moveCheck (cid 23 191) ((readied d).resolved (cid 23 191) d) = none) ∧
    (∀ k ∈ [kREFRESH, kFLUSH, kEVICT], let d := aFlush k
      let s := bound d
      runs s d = true ∧ d.kind = k ∧ s.flushCheck (cid 23 191) d = none ∧ s.overlapping 23 191 d.rfOff d.rfBytes ≠ [] ∧
        s.flushFree (cid 23 191) d = true ∧ (s.part 23).binds.length ≤ 1024 ∧
        (∀ b ∈ s.worksOn 23 191 d, b.epoch = s.fld (a_XL_ASSTAT (s.asidOf (cid 23 191))) XL_ASSTAT_EPOCH) ∧
        s.dirtyUnits 23 (s.overlapping 23 191 d.rfOff d.rfBytes) ≠ []) ∧
    (∀ x ∈ [(tiled (readied aMm), true), (full (tiled (readied aMm)), false)],
      runs x.1 aMm = true ∧ aMm.kind = kMM ∧ x.1.mmCheck (cid 23 191) (x.1.resolved (cid 23 191) aMm) = none ∧
        x.1.mmFree (cid 23 191) (x.1.resolved (cid 23 191) aMm) = x.2) ∧
    (∀ op ∈ [0, 0xF, 0x10, 0x13, 0x18, 0x19, 0x1A, 0x20, 0x28, 0x29], let d := aVec op
      runs (readied d) d = true ∧ d.kind = kVEC ∧ d.vOp = op ∧ runs (full (readied d)) d = true ∧
        (readied d).vecCheck (cid 23 191) ((readied d).resolved (cid 23 191) d) = none ∧
        (full (readied d)).vecCheck (cid 23 191) ((full (readied d)).resolved (cid 23 191) d) = none ∧
        (readied d).vecEngine 23 ((readied d).resolved (cid 23 191) d) = some 3 ∧
        (full (readied d)).vecEngine 23 ((full (readied d)).resolved (cid 23 191) d) = none) ∧
    (∀ x ∈ [(readied aDispatch, none), (full (readied aDispatch), some (⟨0, 0⟩ : DRef))],
      runs x.1 aDispatch = true ∧ aDispatch.kind = kDISPATCH ∧
        x.1.dispatchCheck (cid 23 191) (x.1.resolved (cid 23 191) aDispatch) = none ∧ (x.1.part 23).du = x.2) := by decide +kernel

/-- A SIGNAL of an operation and a scope, to the last semaphore, or to the flag behind 0x10000000. -/
def aSignal (op scope : Nat) (es : List Extent) : Desc :=
  { rdy [q0 kSIGNAL, op * 2 ^ 60 + scope * 2 ^ 58 + 23 * 2 ^ 53 + 4095 * 2 ^ 41, 3 * 2 ^ 32 + 5, 0x10000000] with opnds := [⟨2, es, 0⟩] }
def here4 : Extent := ⟨0x10000000, 0x400000, 4, 0, 3, 0⟩
def there4 : Extent := ⟨0x10000000, 4095 * 2 ^ 45 + 60, 4, 2, 3, 0⟩

/-- The flag of a SIGNAL lies on device 4095. -/
def farSignal : State := fields (readied (aSignal 0 3 [there4])) [(a_MG_LICENCE, MG_LICENCE_PORTS, 16), (a_FB_PORTSTAT 15, FB_PORTSTAT_STATE, 3),
  (a_FB_ROUTE 4095, FB_ROUTE_NPORTS, 1), (a_FB_ROUTE 4095, FB_ROUTE_PORT0, 15)]

/-- A WAIT with TEST or without, for the last predicate bit. -/
def aWait (src test value : Nat) : Desc :=
  rdy [q0 kWAIT, src * 2 ^ 62 + (if src = 3 then 2 * 2 ^ 60 else 0) + test * 2 ^ 56 + 255 * 2 ^ 48 + 23 * 2 ^ 43 + (if src = 3 then 255 else 4095) * 2 ^ 31, value, 0x10000000]

/-- An earlier MOVE of index 0 runs. -/
def behind (d : Desc) : Desc := { d with index := 1 }
def queueing (d : Desc) : State := holding ready0 [entry 0 [q0 kMOVE, 0x10000000, 0, 128 * 2 ^ 32 + 2 ^ 13] .running, behind d]

theorem witness_SignalsAndWaitsDispatch :
    farSignal.routeTo 4095 tyWR4 = some 15 ∧
    (∀ op ∈ [0, 1, 2, 3], ∀ scope ∈ [0, 2], let d := aSignal op scope []
      runs (readied d) d = true ∧ d.kind = kSIGNAL ∧ d.sgScope ≠ 3 ∧ d.sgOp = op) ∧
    (let d := aSignal 0 3 [here4]
     runs (readied d) d = true ∧ d.kind = kSIGNAL ∧ d.sgScope = 3 ∧ here4.tier ≠ 2 ∧
       physical (d.operand 2).exts d.flagVa = some (here4, 0x400000)) ∧
    (let d := aSignal 0 3 [there4]
     runs farSignal d = true ∧ d.kind = kSIGNAL ∧ d.sgScope = 3 ∧ there4.tier = 2 ∧
       physical (d.operand 2).exts d.flagVa = some (there4, 4095 * 2 ^ 45 + 60) ∧
       (4095 * 2 ^ 45 + 60) / 2 ^ 45 = 4095) ∧
    (∀ src ∈ [0, 1, 2, 3], ∀ test ∈ if src = 3 then [0] else [0, 1], let d := aWait src test 0
      runs (readied d) d = true ∧ d.kind = kWAIT ∧ d.wtSrc = src ∧ d.wtTest = (test == 1) ∧
        (src = 3 → (readied d).barrierAdmits (cid 23 191) (d.wtSem % 256) = true ∧
          d.wtScope = (readied d).fld (a_BD_BARCFG (d.wtSem % 256)) BD_BARCFG_SCOPE) ∧
        (src = 2 → (readied d).seqPending (cid 23 191) d = false ∧ runs (queueing d) (behind d) = true ∧ (behind d).wtSrc = 2 ∧
          (queueing d).seqPending (cid 23 191) (behind d) = true)) :=
  ⟨route_one _ _ _ _ (by decide +kernel), by decide +kernel⟩

/-- ALLOC of 64 KiB of a tier. -/
def anAlloc (release tier addr : Nat) : Desc := rdy [q0 kALLOC, release * 2 ^ 63 + tier * 2 ^ 61, addr, 65536]

theorem witness_ClaimsPhasesMarksAndFences :
    (∀ x ∈ [(0, 0, 2 ^ 26 - 65536), (1, 0, 0), (1, 0, 2 ^ 24 - 65536), (1, 1, 0x1000000)], let d := anAlloc x.1 x.2.1 x.2.2
      runs (readied d) d = true ∧ d.kind = kALLOC ∧ d.alRelease = (x.1 == 1) ∧ d.alTier = x.2.1 ∧
        (readied d).allocCheck (cid 23 191) d = none) ∧
    (∀ x ∈ [(kPHASE, 63 * 2 ^ 58 + 3 * 2 ^ 56), (kMARK, 2 ^ 31 + 2 ^ 30), (kFENCE, 0)], let d := rdy [q0 x.1, x.2]
      runs (readied d) d = true ∧ d.kind = x.1) := by decide +kernel

/-! ### Engines and completions -/

def jobOf (index : Nat) : Job :=
  { pp := 23, ref := ⟨191, index⟩, reads := [], writes := [], racy := [], struck := [], alt := [], dirty := [], got := [], sent := [] }

/-- The MM runs, with one occupied block of A at 0x5000, whose first element is not zero; the tile of B has a bad header (R172). -/
def tileAt (off axis bc : Nat) (m : List Host.Cell) : List Host.Cell :=
  let h : TileHdr := { nocc := 1, s24 := false, axis := axis, bc := bc, br := 1, fmt := 3, bitmap := 1, bytes := 64 + 64 + 1024 }
  putBytes m (tsKey 23 off) (bytesOfWords (hdrWords h) ++ List.replicate 72 0 ++ [0x38])
def dirAt (a op entry : Nat) (m : List Host.Cell) : List Host.Cell := putBytes m (tsKey 23 a) (directory op entry)
def computing (acc : List Nat) : State :=
  let w : WorkUnit := { ref := ⟨191, 0⟩, row := 0, col := 0, pos := 0, acc := acc, poison := false, bad := false }
  let warm : Engine := { Engine.init with slots := [none, some w], cold := false }
  { (holding ready0 [{ aMm with stage := .running, len := 32, len2 := 64 }]).modPart 23 (fun x => { x with
      engines := List.replicate 19 Engine.init ++ [warm]
      mms := [{ ref := ⟨191, 0⟩, rows := 1, cols := 2, next := 1, done := 0, engMask := 2 ^ 19 }] }) with
    jobs := [jobOf 0]
    ts := tileAt 0x5000 0 1 (dirAt 0x3000 3 0x4000 (dirAt 0x2000 1 0x6000 (dirAt 0x1000 0 0x5000 []))) }

/-- Two movers are idle and one MOVE waits; engine 3 waits for a start token, engine 19 is warm and idle, no token is ready. -/
def idling (token : Bool) : State :=
  { (holding ready0 [{ aMove 0 0 with stage := .running }]).modPart 23 (fun x => { x with
      moverQ := [⟨191, 0⟩], token := token, engines := (List.replicate 19 Engine.init).set 3
          { Engine.init with slots := [none, some ⟨⟨191, 0⟩, 0, 0, 0, [], false, false⟩], waitFrom := some 5 } ++
        [{ Engine.init with cold := false }] }) with
    now := 1000000, jobs := [jobOf 0] }

theorem computing_fires : (let s := computing []
    let d : Desc := { aMm with stage := .running, len := 32, len2 := 64 }
    (s.unitBlocks 23 (jobOf 0) d 0 0).wavefronts d) = 1 := by decide +kernel

theorem witness_EnginesTakeFireAndCool :
    (let s := idling false
     s.Canonical ∧ (s.part 23).moverQ = ⟨191, 0⟩ :: [] ∧ (s.part 23).dms.getD 1 none = none ∧ s.alive (domCtl 23) = true ∧
       s.inReset 23 = false ∧ s.findDesc (cid 23 191) 0 = some { aMove 0 0 with stage := .running } ∧ (aMove 0 0).kind = kMOVE ∧
       (aMove 0 0).opnds = []) ∧
    (let s := computing []
     let m : MmJob := { ref := ⟨191, 0⟩, rows := 1, cols := 2, next := 1, done := 0, engMask := 2 ^ 19 }
     s.Canonical ∧ s.unitsRun 23 = true ∧
       (s.part 23).mms.find? (fun m => natBit m.engMask 19 && decide (m.next < m.rows * m.cols)) = some m ∧
       (s.engine 23 19).slots.findIdx? (fun x => x.isNone) = some 0) ∧
    (∀ acc ∈ [[], List.replicate 2048 0], let s := computing acc
      let w : WorkUnit := { ref := ⟨191, 0⟩, row := 0, col := 0, pos := 0, acc := acc, poison := false, bad := false }
      let d : Desc := { aMm with stage := .running, len := 32, len2 := 64 }
      canonical s = true ∧ s.unitsRun 23 = true ∧ (s.engine 23 19).slots.getD 1 none = some w ∧
        s.findDesc (cid 23 w.ref.slot) w.ref.index = some d ∧ s.findJob 23 w.ref = some (jobOf 0) ∧ (s.engine 23 19).cold = false) ∧
    (let s := idling false
     (s.part 23).token = false ∧ s.alive (domEng 23) = true ∧
       max (s.part 23).lastIssue (s.part 23).lastTake + s.fld (a_ME_RAMP 23) ME_RAMP_INTERVAL ≤ s.now) ∧
    (let s := idling true
     s.Canonical ∧ longestWaiting (s.part 23).engines = some 3 ∧ (s.part 23).token = true ∧ s.unitsRun 23 = true) ∧
    (let s := idling true
     (s.engine 23 19).cold = false ∧ holdsWork (s.engine 23 19) = false ∧
       (s.engine 23 19).lastWork + (s.part 23).rampIdle < s.now) ∧
    (let s := { computing [] with now := 1000000 }
     s.Canonical ∧ (s.engine 23 19).cold = false ∧ holdsWork (s.engine 23 19) = true ∧
       max (s.engine 23 19).lastWave (s.pacedUntil 23) + (s.part 23).rampIdle < s.now) :=
  ⟨⟨canonical_of _ (by decide +kernel), by decide +kernel⟩, ⟨canonical_of _ (by decide +kernel), by decide +kernel⟩, by decide +kernel,
    by decide +kernel, ⟨canonical_of _ (by decide +kernel), by decide +kernel⟩, by decide +kernel, canonical_of _ (by decide +kernel),
    by decide +kernel⟩

theorem witness_DispatchUnitCompletes :
    (let d : Desc := { aDispatch with stage := .running, len := 1, len2 := 1 }
     let s := { (holding ready0 [d]).modPart 23 (fun x => { x with du := some ⟨191, 0⟩ }) with jobs := [jobOf 0] }
     s.Canonical ∧ (s.part 23).du = some ⟨191, 0⟩ ∧ s.findDesc (cid 23 191) 0 = some d ∧ s.findJob 23 ⟨191, 0⟩ = some (jobOf 0) ∧
       s.unitsRun 23 = true ∧ s.tsFlips = [] ∧ 191 < 192 ∧ d.dPred + d.dWin ≤ 256 ∧ d.dLenEn = true ∧ d.dLen + d.dWin ≤ 64 ∧ d.dSemEn = true) :=
  ⟨canonical_of _ (by decide +kernel), by decide +kernel⟩

/-- A running descriptor with its job, on the first mover and the last vector engine. -/
def finishing (d : Desc) : State :=
  { (bound d).modPart 23 (fun x => { x with
      dms := [some ⟨191, 0⟩, none], ves := (List.replicate 3 (none, 0)) ++ [(some ⟨191, 0⟩, 0)]
      mms := [{ ref := ⟨191, 0⟩, rows := 1, cols := 1, next := 1, done := 1, engMask := 2 ^ 19 }] }) with
    jobs := [jobOf 0] }
def aMove0 : Desc :=
  { aMove 0 0 with stage := .running, len := 128, opnds := [⟨0, [⟨0x10000000, 0x400000, 4096, 0, 3, 0⟩], 0⟩] }

theorem witness_LastWritesComplete :
    (∀ d ∈ [{ aMm with stage := .running, status := stOK }, { aVec 0 with stage := .running }, aMove0,
        { aSignal 0 3 [here4] with stage := .running }, { aFlush kFLUSH with stage := .running }],
      let s := finishing d
      canonical s = true ∧ s.inReset 23 = false ∧ s.flips = [] ∧ s.tsFlips = [] ∧
        s.fld (a_SC_WAYMASK clsAccel) SC_WAYMASK_MASK = 0 ∧ (jobOf 0).struck = [] ∧
        (s.ctx (cid 23 191)).descs.find? (fun d => d.stage == .running && d.index % s.ringSize (cid 23 191) == (0#16).toNat) = some d ∧
        s.findJob 23 ⟨191, d.index⟩ = some (jobOf 0)) ∧
    (let s := finishing { aMm with stage := .running, status := stOK }
     let m : MmJob := { ref := ⟨191, 0⟩, rows := 1, cols := 1, next := 1, done := 1, engMask := 2 ^ 19 }
     aMm.kind = kMM ∧ (s.part 23).mms.find? (fun m => m.ref == ⟨191, 0⟩) = some m ∧ m.rows * m.cols ≤ m.done) ∧
    ((aVec 0).kind = kVEC ∧ (aVec 0).vOp ≠ 0x29 ∧ (finishing { aVec 0 with stage := .running }).unitsRun 23 = true) ∧
    (let s := finishing aMove0
     aMove0.kind = kMOVE ∧ aMove0.mvMode = 0 ∧ aMove0.mvBind = false ∧ (∀ o ∈ aMove0.opnds, ∀ e ∈ o.exts, e.tier ≠ 2) ∧
       (s.part 23).dms.contains (some ⟨191, 0⟩) = true ∧ s.waiting 23 ⟨191, 0⟩ = false ∧ s.jobFare (jobOf 0) = .served ∧
       s.shutLine (naPart 23) (((jobOf 0).reads ++ (jobOf 0).writes).filter (fun r => decide (r.addr < tsWindow))) = none ∧
       s.reaches (cid 23 191) aMove0 0 aMove0.mvSrc aMove0.len = true ∧ s.reaches (cid 23 191) aMove0 1 aMove0.mvDst aMove0.len = true) ∧
    (let d : Desc := { aSignal 0 3 [here4] with stage := .running }
     d.kind = kSIGNAL ∧ d.sgScope = 3 ∧ physical (d.operand 2).exts d.flagVa = some (here4, 0x400000) ∧
       (finishing d).fare roleCOH (burlOf 23) 0x400000 = .served ∧ (finishing d).Admitted (naPart 23) 0x400000 4) ∧
    (let d : Desc := { aFlush kFLUSH with stage := .running }
     let s := finishing d
     d.kind = kFLUSH ∧ s.jobBinds 23 191 d (jobOf 0) ≠ [] ∧ (∀ b ∈ s.jobBinds 23 191 d (jobOf 0), ∀ e ∈ b.exts, e.tier ≠ 2) ∧
       (s.part 23).dms.contains (some ⟨191, 0⟩) = true ∧ s.waiting 23 ⟨191, 0⟩ = false ∧ s.jobFare (jobOf 0) = .served ∧
       s.shutLine (naPart 23) (((jobOf 0).reads ++ (jobOf 0).writes).filter (fun r => decide (r.addr < tsWindow))) = none) :=
  ⟨by decide +kernel, by decide +kernel, by decide +kernel, by decide +kernel, by decide +kernel, by decide +kernel⟩

/-- The tier manager of the last partition is on, with one slot in each pool; a region of its last context in T2. The range table
has an entry for it. -/
def tm (m : Option Migration) : State :=
  let s := fields active [(a_PT_TMCFG 23, PT_TMCFG_ENABLE, 1), (a_PT_TMCFG 23, PT_TMCFG_AGE_MS, 1), (a_PT_TMPOOL1 23, PT_TMPOOL1_BASE, 3),
    (a_PT_TMPOOL1 23, PT_TMPOOL1_COUNT, 1), (a_PT_CTXUSE 23 191, PT_CTXUSE_T2_USED, 32)]
  { s.modPart 23 (fun x => { x with
      regions := [⟨191, 0x10000000, t2Base, 1, 9, m.isSome⟩], choices := [(191, 0x10000000, 0)], migration := m }) with
    now := 1000000
    mem := putBytes [] 0x300000 (bytesOfWords [0x10000000, BitVec.ofNat 64 (32 * 2 ^ 32 + 1), BitVec.ofNat 64 (2 ^ 62 + t2Base), 0])
    units := [(0x300000, ⟨44, false⟩)] }
def moving (step : Nat) : Migration :=
  { slot := 191, va := 0x10000000, dst := 0x600000, toTier := 0, step := step, epoch := 0, waitFrom := 0 }

theorem witness_TierManagerMigrates :
    (let s := tm none
     s.Canonical ∧ s.tmOn 23 = true ∧ s.inReset 23 = false ∧ (s.part 23).nextHalving ≤ s.now ∧ (s.part 23).migration = none ∧
       s.flag (a_PT_TMCTL 23) PT_TMCTL_HOLD = false ∧ (s.part 23).choices = (191, 0x10000000, 0) :: [] ∧
       (s.part 23).regions.find? (fun r => r.slot == 191 && r.va == 0x10000000) = some ⟨191, 0x10000000, t2Base, 1, 9, false⟩ ∧
       s.freeSlot 23 0 (s.part 23).used1 = some 0x600000) ∧
    (let s := tm (some (moving 3))
     s.Canonical ∧ (s.part 23).migration = some (moving 3) ∧ (moving 3).step = 3 ∧ s.olderDone 23 (moving 3) = true ∧
       (moving 3).waitFrom + 1000000 ≤ s.now) ∧
    (let s := tm (some (moving 4))
     s.Canonical ∧ (s.part 23).migration = some (moving 4) ∧ (moving 4).step = 4 ∧ (moving 4).slot < 192 ∧ (moving 4).toTier ≤ 1 ∧
       (s.part 23).regions.find? (fun r => r.slot == (moving 4).slot && r.va == (moving 4).va) =
         some ⟨191, 0x10000000, t2Base, 1, 9, true⟩ ∧
       s.entryOf (s.asidOf (cid 23 191)) (moving 4).va = some 0 ∧ s.flips = [] ∧ s.fld (a_SC_WAYMASK clsAccel) SC_WAYMASK_MASK = 0 ∧
       (let table := s.fld (a_XL_ASCFG (s.asidOf (cid 23 191))) XL_ASCFG_TBASE * 4096
        (∀ a ∈ [t2Base, (moving 4).dst, table], s.fare roleTILE (burlOf 23) a = .served) ∧
          s.shutLine (naPart 23) [⟨t2Base, 2097152⟩, ⟨(moving 4).dst, 2097152⟩, ⟨table, 524288⟩] = none) ∧ s.charge (cid 23 191) 1 + 32 < 2 ^ 32 ∧
       s.charge (cid 23 191) 2 + 32 < 2 ^ 32) :=
  ⟨⟨canonical_of _ (by decide +kernel), by decide +kernel⟩, ⟨canonical_of _ (by decide +kernel), by decide +kernel⟩,
    canonical_of _ (by decide +kernel), by decide +kernel⟩

/-! ### Coherence -/

/-- A line of the last stack, its requests under the key of the last context. -/
def lineAt : Nat := 23 * stackSize + 0x1000
def missing (code : Nat) : Miss :=
  { addr := lineAt, req := code, key := lastId, naks := 7, urgent := false, waiting := true, cls := 23, loads := [], l1 := true, queue := 95,
    held := false }
def lineIn (st : LineState) (key : Nat) : Line := { addr := lineAt, key := key, st := st, data := List.replicate 64 7, poison := false, l1 := false }

/-- Agent 95 has posed the home of the line, whose directory, transactions and sweep are given; agent 7 holds the line; messages travel. -/
def posed (code : Nat) (home : Home) (copies : List (Nat × Line)) (net : List CMsg) : State :=
  let s := copies.foldl (fun s x => s.setAgent x.1 { lines := [x.2], misses := [] }) device
  { (s.setHome 23 home).setAgent 95 { (s.agent 95) with misses := [missing code] } with net := net }
def dirs (d : List (Nat × DirState)) : Home := { Home.init with dir := d }
def txn (due : List (Nat × Nat)) : Txn :=
  { addr := lineAt, req := rqRdX, who := some 95, key := lastId, due := due, keep := [7], data := [], mask := 0 }
def requests : List CMsg := [.req 23 95 lineAt rqRdS false, .req 23 95 lineAt rqRdX false, .req 23 95 lineAt rqUpg false]

/-- The conditions of State.Asked and of State.Takes, as one evaluation. -/
def asks (s : State) (code : Nat) : Bool :=
  decide (.req 23 95 lineAt code false ∈ s.net) && s.homeNear 23 && !s.homeOut 23
def takes (s : State) (code : Nat) : Bool := asks s code && !s.mustNak 23 95 lineAt code && s.admits 95 23 lineAt
theorem takes_of (s : State) (code : Nat) (h : takes s code = true) : s.Takes 23 95 lineAt code := by
  simp only [takes, asks, Bool.and_eq_true, and_assoc, decide_eq_true_eq, Bool.not_eq_true'] at h
  exact ⟨⟨h.1, h.2.1, h.2.2.1⟩, h.2.2.2.1, h.2.2.2.2⟩

theorem witness_HomesServeRequests :
    (∀ code ∈ [rqRdS, rqRdX, rqUpg], ∀ home ∈ [{ Home.init with sweep := some (bucketOf lineAt, [3]) }, { Home.init with txns := [txn [(3, 0)]] },
        { Home.init with urgent := [(lineAt, 3)] }],
      let s := posed code home [] requests
      canonical s = true ∧ s.flips = [] ∧ asks s code = true ∧ (s.mustNak 23 95 lineAt code = true ∨ s.admits 95 23 lineAt = false)) ∧
    (∀ code ∈ [rqRdS, rqRdX], let s := posed code Home.init [] requests
      canonical s = true ∧ takes s code = true ∧ s.dirOf 23 lineAt = none ∧ s.bucketSet 23 lineAt = false ∧ (s.home 23).dir = []) ∧
    (let s := posed rqRdS (dirs [(lineAt, .shared [7])]) [(7, lineIn .s lastId)] requests
     canonical s = true ∧ takes s rqRdS = true ∧ s.dirOf 23 lineAt = some (.shared [7]) ∧ s.reqKey 95 lineAt = lastId ∧
       s.otherKey [7] lineAt lastId = []) ∧
    (∀ x ∈ [(rqRdX, [95], true), (rqUpg, [95], true), (rqRdX, [7], false), (rqUpg, [95, 7], false)],
      let s := posed x.1 (dirs [(lineAt, .shared x.2.1)]) [] requests
      canonical s = true ∧ takes s x.1 = true ∧ s.dirOf 23 lineAt = some (.shared x.2.1) ∧
        decide (x.2.1.filter (fun a => a != 95 && !s.isDead a) = []) = x.2.2) ∧
    (∀ code ∈ [rqRdS, rqRdX], let s := posed code (dirs [(lineAt, .owned 7)]) [(7, lineIn .m lastId)] requests
      canonical s = true ∧ takes s code = true ∧ s.dirOf 23 lineAt = some (.owned 7) ∧ s.otherKey [7] lineAt (s.reqKey 95 lineAt) = []) ∧
    (∀ s : State, (s.home 23).dir = [] → s.dirRoom 23 lineAt) :=
  ⟨by decide +kernel, by decide +kernel, by decide +kernel, by decide +kernel, by decide +kernel, fun s h => by simp [dirRoom, h]⟩

/-- A full set of the directory gives up its first entry. -/
theorem wayFor_full (s : State) (h u v : Nat) (d : DirState) (rest : List (Nat × DirState)) (hd : (s.home h).dir = (v, d) :: rest)
    (all : ∀ e ∈ (s.home h).dir, Config.dirSet (e.1 / 64) = Config.dirSet (u / 64)) (len : 16 ≤ (s.home h).dir.length)
    (none_ : s.dirOf h u = none) (tx : (s.home h).txns = []) :
    (∀ as, d = .shared as → s.wayFor h u = .evict v) ∧ (∀ a, d = .owned a → s.wayFor h u = .recall v a) := by
  have f : (s.home h).dir.filter (fun e => Config.dirSet (e.1 / 64) == Config.dirSet (u / 64)) = (s.home h).dir :=
    List.filter_eq_self.mpr (fun e he => by simp [all e he])
  have l : ¬ (s.home h).dir.length < 16 := Nat.not_lt.mpr len
  have b : s.busy h v = false := by simp [busy, tx]
  have g : (s.home h).dir.find? (fun e => !s.busy h e.1) = some (v, d) := by rw [hd]; simp [b]
  refine ⟨fun as q => ?_, fun a q => ?_⟩ <;> subst q <;> unfold wayFor <;>
    simp only [f, none_, Option.isSome_none, Bool.false_or, decide_eq_true_eq, l, if_false, tx, List.any_nil, g, Bool.false_eq_true]

/-- Sixteen entries of one set: Config.dirSet, the index of R245, is opaque. -/
def fullDir (d : DirState) : State :=
  posed rqRdX (dirs ((List.range 16).map (fun i => (lineAt + 64 * (i + 1), d)))) [] requests

theorem witness_HomesServeRequests_full (set : ∀ k, k < 17 → Config.dirSet ((lineAt + 64 * k) / 64) = Config.dirSet (lineAt / 64)) :
    ∀ x ∈ [(DirState.shared [7], DirWay.evict (lineAt + 64)), (DirState.owned 7, DirWay.recall (lineAt + 64) 7)], let s := fullDir x.1
      canonical s = true ∧ takes s rqRdX = true ∧ s.dirOf 23 lineAt = none ∧ s.bucketSet 23 lineAt = false ∧ s.wayFor 23 lineAt = x.2 := by
  have key (d : DirState) (h : (fullDir d).dirOf 23 lineAt = none) := wayFor_full (fullDir d) 23 lineAt (lineAt + 64) d
    ((List.range 15).map (fun i => (lineAt + 64 * (i + 2), d))) rfl (fun e he => by
      have he : e ∈ (List.range 16).map (fun i => (lineAt + 64 * (i + 1), d)) := he
      simp only [List.mem_map, List.mem_range] at he
      obtain ⟨i, hi, rfl⟩ := he
      exact set (i + 1) (by omega)) (show 16 ≤ ((List.range 16).map (fun i => (lineAt + 64 * (i + 1), d))).length by simp) h rfl
  intro x hx
  simp only [List.mem_cons, List.not_mem_nil, or_false] at hx
  obtain rfl | rfl := hx
  · exact ⟨by decide +kernel, by decide +kernel, by decide +kernel, by decide +kernel, (key _ (by decide +kernel)).1 _ rfl⟩
  · exact ⟨by decide +kernel, by decide +kernel, by decide +kernel, by decide +kernel, (key _ (by decide +kernel)).2 _ rfl⟩

/-- Agent 7 owns the line, in M. -/
def peeked : State := posed rqRdS (dirs [(lineAt, .owned 7)]) [(7, lineIn .m lastId)] []

theorem witness_EvictionsAndUncachedAccesses :
    (∀ st ∈ [LineState.s, .e, .m], ∀ home ∈ [dirs [(lineAt, .owned 7)], { dirs [(lineAt, .owned 7)] with txns := [txn [(3, 0)]] }],
      let s := posed rqRdS home [(7, lineIn st lastId)] []
      canonical s = true ∧ s.flips = [] ∧ homeOf lineAt = 23 ∧ s.homeNear 23 = true ∧ s.lineOf 7 lineAt = some (lineIn st lastId) ∧
        s.dirOf 23 lineAt = some (.owned 7) ∧ s.busy 23 lineAt = decide (home.txns ≠ [])) ∧
    (let s := posed rqRdS Home.init [] []
     canonical s = true ∧ s.homeOut 23 = false ∧ s.homeHeld 23 = false ∧ s.keyAt lastId ≠ 0 ∧ s.inReserve lineAt = false ∧
       s.admits naAny 23 lineAt = true ∧ s.dirOf 23 lineAt = none ∧ s.bucketSet 23 lineAt = false) ∧
    (peeked.admits naAny 23 lineAt = true ∧ peeked.dirOf 23 lineAt = some (.owned 7) ∧ peeked.otherKey [7] lineAt lastId = []) ∧
    (let s := posed rqRdS { Home.init with txns := [txn [(3, 0)]] } [] []
     canonical s = true ∧ s.homeOut 23 = false ∧ s.homeHeld 23 = false ∧ s.admits naAny 23 lineAt = false ∧
       (s.home 23).urgent.contains (lineAt, naAny) = false ∧ s.asks = []) ∧
    (let s := (posed rqRdS Home.init [] []).setDom (domCtl 23) Dom.init
     canonical s = true ∧ s.homeOut 23 = true) :=
  ⟨by decide +kernel, by decide +kernel, ⟨by decide +kernel, by decide +kernel, by decide +kernel⟩, by decide +kernel, by decide +kernel⟩

/-- A snoop of agent 127, a slice, has been sent. -/
def snooping (copies : List (Nat × Line)) : State :=
  posed rqRdX (dirs [(lineAt, .owned 127)]) copies
    ([snS, snI, snPeek, snBi].map (fun c => CMsg.snoop 23 127 lineAt c) ++ [.snoop 23 127 lineAt snSweep])

/-- What holds of every listed agent and of a fresh one holds of all. -/
theorem agents_all (s : State) (f : Agent → Bool) (g : f Agent.init = true) (h : s.agents.all (fun e => f e.2) = true) (a : Nat) :
    f (s.agent a) = true := by
  show f (Sparse.get (fun _ => Agent.init) s.agents a) = true
  generalize s.agents = m at h
  induction m with
  | nil => exact g
  | cons e m ih =>
    simp only [List.all_cons, Bool.and_eq_true] at h
    simp only [Sparse.get]
    split
    · exact h.1
    · exact ih h.2

/-- No request waits in a queue. -/
theorem none_held (s : State) (h : s.agents.all (fun e => e.2.misses.all (fun m => !m.held)) = true) (c : Nat) :
    ∀ x ∈ (s.agent c).misses, x.held = false := by
  have := agents_all s (fun e => e.misses.all (fun m => !m.held)) rfl h c
  simp only [List.all_eq_true, Bool.not_eq_true'] at this
  exact this

/-- No core waits at a barrier where none is listed. -/
theorem none_wait (s : State) (h : s.cores = []) : s.noBarriers := fun c => by
  have : s.core c = CoreSt.init := by
    show Sparse.get (fun _ => CoreSt.init) s.cores c = _
    rw [h]; rfl
  rw [this]; exact ⟨rfl, rfl, rfl⟩

/-- The conditions of State.Snooped, as one evaluation. -/
def canSnoop (s : State) (code : Nat) : Bool :=
  decide (.snoop 23 127 lineAt code ∈ s.net) && !s.isDead 127 && s.alive (s.agentDom 127) && s.linked roleCOH 6 (homeDie 23)
    && s.net.all (fun m => match m with | .grant _ _ _ _ _ _ => false | _ => true)
theorem snooped_of (s : State) (code : Nat) (h : canSnoop s code = true) : s.Snooped 23 127 lineAt code := by
  simp only [canSnoop, Bool.and_eq_true, and_assoc, decide_eq_true_eq, Bool.not_eq_true', List.all_eq_true] at h
  exact ⟨h.1, h.2.1, h.2.2.1, h.2.2.2.1, fun v c d p hm => absurd (h.2.2.2.2 _ hm) (by simp)⟩

/-- The last answer to a request for the line, a grant and a NAK travel. -/
def answered (code : Nat) (data : List Byte) : State :=
  posed rqRdX { Home.init with dir := [(lineAt, .owned 7)], txns := [txn [(7, 3)]] } []
    [.rsp 23 7 lineAt code lastId data false, .grant 23 95 lineAt grE (List.replicate 64 1) false, .nak 23 95 lineAt]

/-- The answer that grants the line, where the cores are placed. -/
def granting : State := placed (answered rsI [])

theorem witness_SnoopsAnswersAndGrants :
    (∀ x ∈ [([], none), ([(127, lineIn .s lastId)], some (lineIn .s lastId)), ([(127, lineIn .m lastId)], some (lineIn .m lastId))],
      let s := snooping x.1
      canonical s = true ∧ s.flips = [] ∧ s.lineOf 127 lineAt = x.2 ∧ ∀ code ∈ [snS, snI, snPeek, snBi, snSweep], canSnoop s code = true) ∧
    (∀ x ∈ [(rsI, []), (rsData, List.replicate 64 9)], let s := answered x.1 x.2
      canonical s = true ∧ s.flips = [] ∧
        s.net.find? (fun m => match m with | .rsp h b v _ _ _ _ => h == (23 : Fin 36).val && b == (7 : Fin 128).val && v == lineAt | _ => false) =
          some (.rsp 23 7 lineAt x.1 lastId x.2 false) ∧
        s.homeNear 23 = true ∧ s.isDead 7 = false ∧ x.1 ≠ rsSwept ∧
        (s.home 23).txns.find? (fun y => y.addr == lineAt) = some (txn [(7, 3)]) ∧
        (s.dirOf 23 lineAt).isSome = true ∧ (s.home 23).urgent = []) ∧
    (granting.Canonical ∧ granting.flips = [] ∧ granting.net.find? (fun m => match m with | .grant h b v _ _ _ => h == (23 : Fin 36).val && b == (95 : Fin 128).val && v == lineAt | _ => false) =
       some (.grant 23 95 lineAt grE (List.replicate 64 1) false) ∧ granting.alive (granting.agentDom 95) = true ∧
     granting.linked roleCOH 6 (homeDie 23) = true ∧ granting.missOf 95 lineAt = some (missing rqRdX) ∧ (missing rqRdX).loads = [] ∧
     (granting.core 95).buf = [] ∧
     ((granting.agent 95).lines.filter (fun k => l2Set k.addr == l2Set lineAt && k.addr != lineAt)).length < 16 ∧
     .nak 23 95 lineAt ∈ granting.net ∧ (missing rqRdX).waiting = true ∧ granting.lineOf 95 lineAt = none) ∧
    (∀ s ∈ [snooping [], snooping [(127, lineIn .s lastId)], snooping [(127, lineIn .m lastId)], answered rsI [], granting,
        answered rsData (List.replicate 64 9)],
      s.noBarriers ∧ ∀ c, ∀ x ∈ (s.agent c).misses, x.held = false) := by
  refine ⟨by decide +kernel, by decide +kernel, ⟨canonical_placed _ (by decide +kernel) (by decide +kernel), rfl, by decide +kernel, by decide +kernel, by decide +kernel, by decide +kernel, rfl,
    by decide +kernel, by decide +kernel, by decide +kernel, rfl, by decide +kernel⟩, fun s h => ?_⟩
  simp only [List.mem_cons, List.not_mem_nil, or_false] at h
  obtain rfl | rfl | rfl | rfl | rfl | rfl := h <;> exact ⟨none_wait _ rfl, none_held _ (by decide +kernel)⟩

/-- A slice waits to write its victim back; a store of the last core waits under a key index without a key; agent 7 has not answered
for 2 ms, or has been declared dead. -/
def stuck : State :=
  let s := posed rqRdX { Home.init with dir := [(lineAt, .owned 7)], txns := [txn [(7, 3)]] } [(127, lineIn .m lastId)] []
  { (s.setSlice 31 { lru := [(0, lineAt)], waits := [⟨lineAt, 0, { lineIn .e lastId with addr := lineAt + 2 ^ 24 }⟩] }).setCore 95
      { CoreSt.init with buf := [⟨lineAt, [1, 2], .normalWb, 5⟩] } with now := 2000003 }

theorem witness_WriteBacksDeadAgentsRefusedStores :
    (let s := stuck
     s.Canonical ∧ (∀ c, ∀ x ∈ (s.agent c).misses, x.held = false) ∧ (s.slice 31).waits.find? (fun w => w.addr == lineAt) =
         some ⟨lineAt, 0, { lineIn .e lastId with addr := lineAt + 2 ^ 24 }⟩ ∧
       s.lineOf (96 + 31) lineAt = some (lineIn .m lastId) ∧ s.homeNear (homeOf lineAt) = true ∧ s.homeOut (homeOf lineAt) = false ∧
       txn [(7, 3)] ∈ (s.home 23).txns ∧ (7, 3) ∈ (txn [(7, 3)]).due ∧ 3 + 2000000 ≤ s.now ∧ s.isDead 7 = false ∧ s.homeOut 23 = false ∧
       (s.core 95).buf.find? (fun b => overlap b.addr b.data.length (lineAt / 64 * 64) 64) = some ⟨lineAt, [1, 2], .normalWb, 5⟩ ∧
       s.storeRefusal 5 lineAt = some cSEC) ∧
    (let s := posed rqRdX { Home.init with dir := [(lineAt, .owned 7)], reclaim := [7] } [] []
     s.Canonical ∧ 7 ∈ (s.home 23).reclaim ∧ ∀ x ∈ (s.home 23).txns, ∀ e ∈ x.due, e.1 ≠ 7) :=
  ⟨⟨canonical_of _ (by decide +kernel), none_held _ (by decide +kernel), by decide +kernel⟩, canonical_of _ (by decide +kernel), by decide +kernel⟩

/-! ### Cores -/

/-- Core 95 with a key index, in a device whose last context has claims; its lines, its misses, its stores. -/
def coring (x : CoreSt) (a : Agent) : State :=
  placed (({ ready0 with mem := putBytes [] lineAt (List.replicate 64 3), units := [(lineAt, ⟨46, false⟩)] }.setAgent 95 a).setCore 95 x)
def aCore : CoreSt := { CoreSt.init with key := 6146 }
def empty : State := coring aCore Agent.init
def caching (st : LineState) : State := coring aCore { lines := [lineIn st 6146], misses := [] }

theorem coring_canonical : empty.Canonical ∧ ∀ st, (caching st).Canonical :=
  ⟨canonical_placed _ (by decide +kernel) (by decide +kernel), fun st => by
    cases st <;> exact canonical_placed _ (by decide +kernel) (by decide +kernel)⟩

theorem free_of (s : State) (c : Nat) (h : (s.coreUp c && !(s.core c).waitLd && !(s.core c).waitSt && !(s.core c).waitDev &&
    decide ((s.core c).buf = [])) = true) : s.CoreFree c := by
  simp only [Bool.and_eq_true, and_assoc, decide_eq_true_eq, Bool.not_eq_true'] at h
  exact ⟨h.1, h.2.1, h.2.2.1, h.2.2.2.1, h.2.2.2.2⟩

theorem cache_of (s : State) (c a n : Nat) (h : (decide (a < remoteBase) && s.coreMem a n && !s.meetsReserve a n &&
    decide (s.keyAt (s.core c).key ≠ 0) && s.homeNear (homeOf a) && !s.homeOut (homeOf a) && decide (1 ≤ n) && decide (n ≤ 8) && decide (a % 64 + n ≤ 64)) = true) :
    s.CacheOk c a n := by
  simp only [Bool.and_eq_true, and_assoc, decide_eq_true_eq, Bool.not_eq_true'] at h
  exact ⟨h.1, h.2.1, h.2.2.1, h.2.2.2.1, h.2.2.2.2.1, h.2.2.2.2.2.1, h.2.2.2.2.2.2.1, h.2.2.2.2.2.2.2.1, h.2.2.2.2.2.2.2.2⟩

theorem cores_free : empty.CoreFree 95 ∧ ∀ st, (caching st).CoreFree 95 :=
  ⟨free_of _ _ (by decide +kernel), fun st => by cases st <;> exact free_of _ _ (by decide +kernel)⟩

theorem cores_reach : empty.CacheOk 95 (lineAt + 56) 8 ∧ ∀ st, (caching st).CacheOk 95 (lineAt + 56) 8 ∧ (caching st).CacheOk 95 lineAt 4 :=
  ⟨cache_of _ _ _ _ (by decide +kernel), fun st => by
    cases st <;> exact ⟨cache_of _ _ _ _ (by decide +kernel), cache_of _ _ _ _ (by decide +kernel)⟩⟩

/-- The core's queue at the slice of the line is taken by a miss of another line of that slice. -/
def queuedMiss : State :=
  coring aCore { lines := [], misses := [{ missing rqRdS with addr := lineAt - 29 * 64, key := 6146, waiting := false }] }

theorem witness_LoadsAndStores :
    (empty.Canonical ∧ empty.flips = [] ∧ empty.CoreFree 95 ∧ empty.CacheOk 95 (lineAt + 56) 8 ∧ empty.loadsDone 95 = true ∧
      empty.lineOf 95 lineAt = none ∧ empty.sliceHit 95 6146 lineAt = none ∧ empty.missOf 95 lineAt = none ∧ empty.mustQueue 95 lineAt = false ∧
      empty.Admitted (naCore 95) (lineAt + 56) 8 ∧ (empty.readMem 6146 (lineAt + 56) 8).2 = false ∧
      empty.lineFree 95 (naCore 95) lineAt = true) ∧
    (queuedMiss.Canonical ∧ queuedMiss.flips = [] ∧ queuedMiss.CoreFree 95 ∧ queuedMiss.CacheOk 95 (lineAt + 56) 8 ∧ queuedMiss.lineOf 95 lineAt = none ∧
      queuedMiss.sliceHit 95 6146 lineAt = none ∧ queuedMiss.missOf 95 lineAt = none ∧ queuedMiss.mustQueue 95 lineAt = true) ∧
    (∀ st ∈ [LineState.s, .m], (caching st).Canonical ∧ (caching st).flips = [] ∧ (caching st).CoreFree 95 ∧
      (caching st).CacheOk 95 (lineAt + 56) 8 ∧ (caching st).loadsDone 95 = true ∧
      (caching st).loadBytes 95 6146 (lineAt + 56) 8 = some (List.replicate 8 (7, false)) ∧
      (caching st).lineOf 95 lineAt = some (lineIn st 6146) ∧ (caching st).missOf 95 lineAt = none ∧ (caching st).mustQueue 95 lineAt = false) :=
  ⟨⟨coring_canonical.1, rfl, cores_free.1, cores_reach.1, by decide +kernel⟩,
    ⟨canonical_placed _ (by decide +kernel) (by decide +kernel), rfl, free_of _ _ (by decide +kernel), cache_of _ _ _ _ (by decide +kernel),
      by decide +kernel⟩,
    fun st h => ⟨coring_canonical.2 st, rfl, cores_free.2 st, (cores_reach.2 st).1, by revert st; decide +kernel⟩⟩

theorem witness_AtomicsReturnOldValue :
    ∀ st ∈ [LineState.e, .m], (caching st).Canonical ∧ (caching st).CoreFree 95 ∧ (caching st).loadsDone 95 = true ∧ (caching st).CacheOk 95 (lineAt + 56) 8 ∧
      (lineAt + 56) % 8 = 0 ∧ (caching st).CacheOk 95 lineAt 4 ∧ lineAt % 4 = 0 ∧ (caching st).Holds 95 lineAt (lineIn st 6146) := by
  intro st h
  simp only [List.mem_cons, List.not_mem_nil, or_false] at h
  refine ⟨coring_canonical.2 st, cores_free.2 st, ?_, (cores_reach.2 st).1, by decide, (cores_reach.2 st).2, by decide, ?_⟩
  · obtain rfl | rfl := h <;> decide +kernel
  obtain rfl | rfl := h <;> exact ⟨by decide +kernel, by decide +kernel, by decide, by decide, by decide +kernel⟩

/-- A load waits; a store waits for a line that the core holds. -/
def waitingLoad : State := coring aCore { lines := [], misses := [{ missing rqRdS with key := 6146, loads := [(lineAt, 8)] }] }
def waitingStore : State := coring { aCore with buf := [⟨lineAt, [1, 2], .normalWb, 6146⟩] } { lines := [lineIn .m 6146], misses := [] }

/-- A store to another device is not acknowledged. -/
def unacked : State :=
  placed { (ready0.setCore 95 aCore) with remotes := [{ asked tyWR4 0 crSTORE with ref := ⟨95, crSTORE⟩ }] }

theorem witness_BarriersComplete :
    (unacked.Canonical ∧ unacked.coreUp 95 = true ∧ unacked.CoreFree 95 ∧ unacked.storesAcked 95 = false) ∧
    (empty.Canonical ∧ empty.coreUp 95 = true ∧ empty.CoreFree 95 ∧ empty.loadsDone 95 = true ∧ empty.storesAcked 95 = true) ∧
    (waitingLoad.Canonical ∧ waitingLoad.coreUp 95 = true ∧ waitingLoad.CoreFree 95 ∧ waitingLoad.loadsDone 95 = false) ∧
    (waitingStore.Canonical ∧ waitingStore.coreUp 95 = true ∧ (waitingStore.core 95).waitLd = false ∧ (waitingStore.core 95).waitDev = false ∧
      ((waitingStore.setCore 95 { waitingStore.core 95 with waitSt := true }).drainStores 95).any (fun d => d.storesAcked 95) = true) :=
  ⟨⟨canonical_placed _ (by decide +kernel) (by decide +kernel), by decide +kernel, free_of _ _ (by decide +kernel), by decide +kernel⟩,
    ⟨coring_canonical.1, by decide +kernel, cores_free.1, by decide +kernel⟩,
    ⟨canonical_placed _ (by decide +kernel) (by decide +kernel), by decide +kernel, free_of _ _ (by decide +kernel), by decide +kernel⟩,
    canonical_placed _ (by decide +kernel) (by decide +kernel), by decide +kernel⟩

theorem witness_HintsAndCacheMaintenance :
    (empty.Canonical ∧ empty.coreUp 95 = true ∧ lineAt < remoteBase ∧ empty.touchable 95 lineAt .normalWb = true ∧
      empty.queueBusy 95 lineAt = false ∧ empty.lineOf 95 lineAt = none ∧ empty.mayAllocate (empty.quadOf 95) lineAt = true ∧
      empty.lineOf (96 + sliceOf lineAt) lineAt = none ∧ empty.missOf (96 + sliceOf lineAt) lineAt = none ∧ empty.CoreFree 95 ∧
      (∀ scope ∈ [CmoScope.line, .range 256], (let r := cmoRange lineAt scope; empty.cmoBusy r.1 r.2 = false ∧ (caching .e).cmoBusy r.1 r.2 = false))) ∧
    ((caching .e).Canonical ∧ (caching .e).coreUp 95 = true ∧ (caching .e).touchable 95 lineAt .normalWb = true ∧
      (caching .e).queueBusy 95 lineAt = false ∧ (caching .e).lineOf 95 lineAt = some (lineIn .e 6146) ∧
      (lineIn .e 6146).key = ((caching .e).core 95).key ∧ (lineIn .e 6146).st ≠ .s ∧ (caching .e).CoreFree 95) :=
  ⟨⟨coring_canonical.1, by decide +kernel, by decide, by decide +kernel, by decide +kernel, by decide +kernel, by decide +kernel,
      by decide +kernel, by decide +kernel, cores_free.1, by decide +kernel⟩,
    coring_canonical.2 _, by decide +kernel, by decide +kernel, by decide +kernel, by decide +kernel, by decide +kernel, by decide,
    cores_free.2 _⟩

/-- The core runs under the key of the last context, whose claims are open to it. -/
def owning : State := coring { aCore with key := lastId } Agent.init
def windowAt : Nat := tsWindow + 23 * tsSize + 8

theorem witness_WindowAccessesAndRemoteAtomics :
    (empty.Canonical ∧ empty.CoreFree 95 ∧ remoteBase ≤ remoteBase ∧ inWindow windowAt 8 = true ∧ empty.windowUp windowAt = true ∧
      empty.loadsDone 95 = true ∧ empty.windowHeld windowAt = false ∧ empty.windowOpen 95 windowAt 8 = false) ∧
    (owning.Canonical ∧ owning.CoreFree 95 ∧ owning.loadsDone 95 = true ∧ owning.windowUp windowAt = true ∧ owning.windowHeld windowAt = false ∧
      owning.windowOpen 95 windowAt 8 = true ∧ owning.tsFlips = [] ∧
      (owning.readTsP (windowPart windowAt) (windowOff windowAt) 8).any (fun b => b.2) = false) :=
  ⟨⟨coring_canonical.1, cores_free.1, by decide +kernel⟩,
    canonical_placed _ (by decide +kernel) (by decide +kernel), free_of _ _ (by decide +kernel), by decide +kernel⟩

/-! ### The machine -/

/-- The first command of a queue of two runs from reset, whose state is canonical. -/
theorem witness_StepKeepsCanonical :
    canonical State.reset = true ∧ (∃ t, step { State.reset with pending := [.pwrGoodRise, .warmRstN] } = .next t) ∧
      State.reset.pending = [] :=
  ⟨by decide +kernel, ⟨_, rfl⟩, rfl⟩

/-! ### Ill-formed commands -/

/-- One ill-formed command for each check; none is well-formed. -/
def illFormed : List Instr :=
  [.registerWrite .banjo 0 0 0, .readClear .banjo 0 9, .hiQdb .pf 0 16 0 true, .doeSpdmRequest [1, 2, 3], .hostIngressWrite .pf 0 0 [] true,
   .hostEgressRead .pf 0 0 0 true, .msixSend (.vf 0) 64, .hostLinkUp 3 1, .hostLinkUp 4 3, .linkWordReceive 6 17 .good,
   .linkTraining 14 (2 ^ 5), .tsyncRound [] 0, .budgetInterval [1], .sensorReport [] (List.replicate 20 0),
   .sensorReport (List.replicate 400 0) [], .wrInv 0 0 0 [] 0, .flitReceive 0 true true ⟨0, 0, [0, 2]⟩, .load 0 0 0 ⟨.normalWb, .none⟩,
   .store 0 0 9 ⟨.normalWb, .none⟩ 0, .atomAdd 0 0 1 ⟨.normalWb, .none⟩ 0, .atomSwp 0 0 2 ⟨.normalWb, .none⟩ 0,
   .atomCas 0 0 3 ⟨.normalWb, .none⟩ 0 0, .atomMax 0 0 16 ⟨.normalWb, .none⟩ 0, .cmoClean 0 0 (.range 0) .normalWb,
   .cmoInv 0 0 (.range 0) .normalWb true, .cmoClinv 0 0 (.range 0) .normalWb, .t2InService (List.replicate 13 64) true]

theorem test_ill_formed_refused : illFormed.all (fun c => !c.wellFormed) = true := by decide +kernel

/-- Well-formed ones at the edges of the same checks. -/
theorem test_well_formed_accepted :
    ([.registerWrite .banjo 0 1 0, .readClear .banjo 0 8, .doeSpdmRequest [], .hostIngressWrite .pf 0 0 [1] true, .msixSend .pf 1023,
      .msixSend (.vf 63) 63, .hostLinkUp 6 4, .linkWordReceive 15 4 .good, .linkTraining 5 (2 ^ 34 - 1), .load 0 0 8 ⟨.device, .none⟩,
      .flitReceive 15 true true ⟨0, 0, [2, 3, 4]⟩, .flitReceive 15 true true ⟨0, 0, [0, 1, 5]⟩, .atomAdd 0 0 4 ⟨.normalWb, .none⟩ 0, .cmoClean 0 0 (.range 1) .normalWb] : List Instr).all (fun c => c.wellFormed) = true := by decide +kernel

theorem test_no_word_is_a_command : decodeTableWord 64 0 = none := by decide

/-! ### Worked examples of the manual -/

/-- "SQ_DB of slot 5 in P03 lies at … 0x1F00_0330_0158", "PW_DOMSTAT of PD_P03_TS … 0x1F30_0001_10A8" (file 19). -/
theorem test_register_addresses : a_SQ_DB 3 5 = 0x1F0003300158 ∧ a_PW_DOMSTAT (domTs 3) = 0x1F30000110A8 := by decide

/-- "DDR8_DQS_C[5] … the row is 53 … column" (file 18): land (53, 84) of channel 8, position 95; the last land of row 49 (R401). -/
theorem test_land : landAt 53 84 = .ddr 8 95 ∧ landNumber 49 115 = 5995 := by decide +kernel

/-- "96 st × 830 ps × 1.12 = 89,241.6 ps" (file 02). -/
theorem test_barrier_time : pathTime (stageTime 1120 650 95) 96 0 0 0 = 446208 / 5 := by decide +kernel

/-- "One block" of file 04: the exact sum is 2⁻¹⁶. -/
theorem test_block_dot :
    let v (a b c : Nat) : List Machine.Num := (((List.replicate 32 0).set 0 a).set 5 b |>.set 17 c).map (elem 3)
    toF32 (blockDot (v 0x7E 0x01 0xFE) (v 0x7E 0x01 0x7E) (scaleOf 3 0x7F) (scaleOf 3 0x81)) = 0x37800000 ∧
      toF32 (elem 3 0x7E) = 0x43E00000 := by decide +kernel

/-- "An E4M3 output vector" of file 04: RNE, RTZ, and STOCH on both sides of 39,321. -/
theorem test_e4m3_vector :
    let v (m : Rnd) : List (Machine.Num × Rnd) := [ofF32 0x3E99999A, ofF32 0x43960000, ofF32 0xC3FA0000].map (fun x => (x, m))
    convertVec 3 true (v .rne) = ([0x2A, 0x79, 0xFE], 0x7F) ∧ convertVec 3 true (v .rtz) = ([0x29, 0x79, 0xFE], 0x7F) ∧
      (convertVec 3 true (v (.stoch 39320))).1 = [0x2A, 0x79, 0xFE] ∧ (convertVec 3 true (v (.stoch 39321))).1 = [0x29, 0x79, 0xFE] := by
  decide +kernel

/-- "Four tokens, four experts, NEXT" of file 05: t2 rank 2 goes to E2, t3 rank 1 to E3 at position 1 with weight 0.95; under DROP
the counts end as 2/2/1/1. -/
theorem test_four_tokens :
    let d (over_ : Nat) : Desc :=
      { entry 0 [q0 kDISPATCH, 0, 0, 4 * 2 ^ 16 + 4, 2 * 2 ^ 56 + over_ * 2 ^ 52 + 0x100 * 2 ^ 36] .running with len := 4 }
    let scores : List (List Nat) := [[0x3F666666, 0x3F000000, 0x3F000000, 0x3DCCCCCD], [0x3F4CCCCD, 0x3E4CCCCD, 0x3F333333, 0x3E99999A],
      [0x3F19999A, 0x3DCCCCCD, 0x3E4CCCCD, 0x3F666666], [0x3F733333, 0x3ECCCCCD, 0x3DCCCCCD, 0x3E99999A]]
    let run (o : Nat) : List Choice := (scores.zipIdx).foldl (fun cs x => chooseToken (d o) cs x.2 (x.1.map ofF32)) []
    (run 1).map (fun c => (c.token, c.expert, c.status)) =
        [(0, 0, 0), (0, 1, 0), (1, 0, 0), (1, 2, 0), (2, 3, 0), (2, 2, 1), (3, 3, 1), (3, 1, 0)] ∧
      ((run 1)[6]?).map combineEntry = some (0x3F733333 * 2 ^ 32 + 1 * 2 ^ 28 + 3 * 2 ^ 16 + 1) ∧
      (List.range 4).map (acceptedOf (run 1)) = [2, 2, 2, 2] ∧ (List.range 4).map (acceptedOf (run 0)) = [2, 2, 1, 1] := by decide +kernel

/-- "Finding an element" of spec/07_memory_tiers_and_tiles.md: a tile of 16 E4M3 blocks, block (2, 1) is the ninth. -/
theorem test_finding_an_element :
    let h : TileHdr := { nocc := 16, s24 := false, axis := 0, bc := 8, br := 8, fmt := 3, bitmap := 0x0F0F0F0F, bytes := 0 }
    tileBytes h = 16960 ∧ scaleBytes h = 512 ∧ popcount h.bitmap 17 = 9 ∧ tileBytes { h with s24 := true } = 10816 := by decide +kernel

/-- P02 writes unit 0 and signals semaphore 0 of P03 at one scope; P03 waits at another and reads (R214's worked example). -/
def scopeHistory (r a : Scope) : List History.Ev :=
  [⟨.part 0 2, 4, 0, .write 0⟩, ⟨.part 0 2, 4, 1, .release (.signal r) (.sem 3 0) false 0⟩,
   ⟨.part 0 3, 9, 0, .acquire (.waitSem a) (.sem 3 0) 0 true⟩, ⟨.part 0 3, 9, 1, .read 0⟩]

/-- "Consume across partitions" (file 09): DIE and DIE, or PKG and DIE, order the data; DIE and PART do not. -/
theorem test_scopes :
    [(Scope.die, Scope.die), (.pkg, .die), (.die, .part)].map (fun x => History.synchronise (scopeHistory x.1 x.2) 1 2) = [true, true, false] ∧
      History.releaseCovers (scopeHistory .die .die) 1 0 = true ∧ History.acquireOrders (scopeHistory .die .die) 2 3 = true := by
  decide +kernel

/-- So P03's read never returns the old value of the unit, written before. -/
theorem test_scope_complete : ¬ History.MayReturn (scopeHistory .die .die) 0 none 3 := fun h =>
  h.2 0 (fun _ hv => by simp at hv) ⟨_, rfl, rfl⟩
    (.inl ⟨1, 2, by decide +kernel, .pair (by decide +kernel), by decide +kernel⟩)

/-- The waits of a requester after NAKs 1 to 7 (spec/11_coherence_and_core_ordering.md). -/
theorem test_backoff : [1, 2, 3, 4, 5, 6, 7].map backoffStages = [16, 32, 64, 128, 256, 256, 256] := by decide

/-- The sources of R320 add up to 144.4 A/µs, within its 150. -/
theorem test_current_steps : currentSteps.sum = 1444 ∧ currentSteps.sum ≤ currentBound := by decide

/-- A stack grant of 32 W allows the full bandwidth, one of 22 W half of it (R311). -/
theorem test_stack_bandwidth : stackBandwidth 32000 = 2048000000000 ∧ stackBandwidth 22000 = 1024000000000 := by decide

/-! ### One step -/

/-- The front command runs, and the rest of the queue waits. -/
theorem test_step_takes_the_front :
    (match step { device with pending := [.phase 23 191, .refLost] } with
      | .next t => t.pending == [.refLost]
      | _ => false) = true := by decide +kernel

/-- A write of 4 to PT_PRED sets predicate bit 2 (R122). -/
theorem test_pred_write :
    (match exec (.ptPredWrite .banjo 23 0 4) device with
      | .next t => t.predBit 23 2 && !t.predBit 23 3
      | _ => false) = true := by decide +kernel

/-- A write of BD_SEMADD sends one ADD message of its addend (R164, R167). -/
theorem test_semadd_sends_add :
    (match exec (.bdSemaddWrite .banjo 23 4095 0xFFFFFFFF) device with
      | .next t => t.bead == [.update 23 4095 (.add 0xFFFFFFFF) .core]
      | _ => false) = true := by decide +kernel

end Sys2Proof.Tests
end

section
/-! PROOFS. Reads and writes of registers by their access codes, and bad accesses (R12–R14, R133). -/

namespace Sys2Proof.Machine

open State

/-! ### The register table -/

/-- Two bit ranges share no bit. -/
def Fld.Apart (f g : Fld) : Prop := g.hi < f.lo ∨ f.hi < g.lo

/-- A bit range of a 64-bit word. -/
def Fld.Sound (f : Fld) : Prop := f.lo ≤ f.hi ∧ f.hi < 64

theorem Fld.Apart.symm {f g : Fld} (h : f.Apart g) : g.Apart f := Or.symm h

/-- The fields of a register are ranges of its word that share no bit. -/
structure SoundFields (fs : List FieldSpec) : Prop where
  sound : ∀ f ∈ fs, f.fld.Sound
  apart : fs.Pairwise (fun f g => f.fld.Apart g.fld)

/-- The register tables list the fields of every register from the top bit down. -/
theorem regRows_fields_descend : ∀ r ∈ regRows, (∀ f ∈ r.fields, f.fld.lo ≤ f.fld.hi ∧ f.fld.hi < 64) ∧
    r.fields.Pairwise (fun f g => g.fld.hi < f.fld.lo) := by decide +kernel

theorem regRows_soundFields {r : RegRow} (h : r ∈ regRows) : SoundFields r.fields :=
  ⟨(regRows_fields_descend r h).1, (regRows_fields_descend r h).2.imp Or.inl⟩

/-- A register found at an address is a row of the table that occupies the address. -/
theorem regFind_row {a : Nat} {r : RegRow} {ix : List Nat} (h : regFind a = some (r, ix)) : r ∈ regRows ∧ r.locate a = some ix := by
  obtain ⟨q, hq, e⟩ := List.exists_of_findSome?_eq_some h
  obtain ⟨jx, hj, e⟩ := Option.map_eq_some_iff.mp e
  obtain ⟨rfl, rfl⟩ := Prod.mk.inj e
  exact ⟨hq, hj⟩

theorem regFind_soundFields {a : Nat} {r : RegRow} {ix : List Nat} (h : regFind a = some (r, ix)) : SoundFields r.fields :=
  regRows_soundFields (regFind_row h).1

/-- The largest offset that indices below their counts reach. -/
def dimsReach : List (Nat × Nat) → Nat
  | [] => 0
  | (stride, n) :: ds => stride * (n - 1) + dimsReach ds

theorem splitDims_reach {ds : List (Nat × Nat)} {off : Nat} {ix : List Nat} (h : splitDims ds off = some ix) : off ≤ dimsReach ds := by
  induction ds generalizing off ix with
  | nil =>
    simp only [splitDims] at h
    split at h
    · simp [dimsReach, *]
    · cases h
  | cons e ds ih =>
    obtain ⟨stride, n⟩ := e
    simp only [splitDims] at h
    split at h
    · rename_i hlt
      obtain ⟨jx, hj, -⟩ := Option.map_eq_some_iff.mp h
      have hmul : stride * (off / stride) ≤ stride * (n - 1) := Nat.mul_le_mul_left _ (by omega)
      have := ih hj
      have := Nat.div_add_mod off stride
      simp only [dimsReach]
      omega
    · cases h

/-- No register lies in the device queue (R336). -/
theorem regFind_not_in_devQueue {a : Nat} {r : RegRow} {ix : List Nat} (h : regFind a = some (r, ix)) :
    ¬ (devQueueBase ≤ a ∧ a < devQueueBase + 272 * 64) := by
  have table : ∀ r ∈ regRows, devQueueBase + 272 * 64 ≤ r.base ∨ r.base + dimsReach r.dims < devQueueBase := by decide +kernel
  obtain ⟨hr, hl⟩ := regFind_row h
  simp only [RegRow.locate] at hl
  split at hl
  · have := splitDims_reach hl
    have := table r hr
    omega
  · cases hl

/-- The registers with slots above 191 are registers of a context slot of a partition (R133). -/
theorem badSlots_slotted {r : RegRow} (hr : r ∈ regRows) (hb : badSlots r.cls = true) : r.domain = .partCtl ∧ slotted r.cls = true :=
  have table : ∀ r ∈ regRows, badSlots r.cls = true → r.domain = .partCtl ∧ slotted r.cls = true := by decide +kernel
  table r hr hb

/-! ### What an aligned 64-bit access meets -/

theorem div_eight_mul_eight {a : Nat} (h : a % 8 = 0) : a / 8 * 8 = a := Nat.div_mul_cancel (Nat.dvd_of_mod_eq_zero h)

theorem regOver_aligned {a : Nat} {x : RegRow × List Nat} (h8 : a % 8 = 0) (h : regFind a = some x) : regOver a 8 = some x := by
  simp [regOver, regAt, h8, div_eight_mul_eight h8, h]

theorem touches_eight (a : Nat) : touches a 8 = fun _ => true := rfl

/-- A register access that the gate admits comes from a requester that is there, is not held, and names a licensed slot. -/
theorem gate_admits {s : State} {who : Requester} {a : Nat} {write : Bool} {r : RegRow} {ix : List Nat}
    (hf : regFind a = some (r, ix)) (hg : s.gate who a write = none) :
    s.present who = true ∧ s.accessHeld who (regDom r ix) = false ∧
      (r.domain = .partCtl → slotted r.cls = true → s.slotOk (ix.getD 1 0) = true) := by
  simp only [State.gate, hf] at hg
  split at hg
  · cases hg
  rename_i hadm
  simp only [Bool.or_eq_true, Bool.not_eq_true', not_or, Bool.not_eq_false, Bool.not_eq_true] at hadm
  obtain ⟨⟨hp, -⟩, hh⟩ := hadm
  refine ⟨hp, hh, fun hd hs => ?_⟩
  split at hg
  · split at hg <;> cases hg
  split at hg
  · cases hg
  rename_i hslot
  simpa [hd, hs] using hslot

theorem badAccess_admitted {s : State} {who : Requester} {a : Nat} {write : Bool} {r : RegRow} {ix : List Nat} (h8 : a % 8 = 0)
    (hf : regFind a = some (r, ix)) (hg : s.gate who a write = none) : badAccess r ix a 8 = false := by
  have hslot : badSlots r.cls = true → ix.getD 1 0 < 192 := fun hb => by
    obtain ⟨hd, hs⟩ := badSlots_slotted (regFind_row hf).1 hb
    have := (gate_admits hf hg).2.2 hd hs
    simp only [slotOk, Bool.and_eq_true, decide_eq_true_eq] at this
    exact this.1
  by_cases hb : badSlots r.cls = true
  · simpa [badAccess, accessOk, h8, hb] using hslot hb
  · simp [badAccess, accessOk, h8, hb]

theorem waits_admitted {s : State} {who : Requester} {a : Nat} {write : Bool} {r : RegRow} {ix : List Nat} (h8 : a % 8 = 0)
    (hm : inMailbox a = false) (hf : regFind a = some (r, ix)) (hg : s.gate who a write = none) : s.waits who a = false := by
  have hh := (gate_admits hf hg).2.1
  simp [State.waits, hm, div_eight_mul_eight h8, hf, hh]

/-! ### Fields by access code (R13, R14) -/

/-- What a field holds after a write of `new` over `old` by its access code (R13). -/
def Access.after : Access → Nat → Nat → Nat
  | .rw, _, new => new
  | .w1c, old, new => (BitVec.ofNat 64 old &&& ~~~BitVec.ofNat 64 new).toNat
  | .w1s, old, new => (BitVec.ofNat 64 old ||| BitVec.ofNat 64 new).toNat
  | _, old, _ => old

theorem Fld.get_lt (f : Fld) (w : Word) : f.get w < 2 ^ f.width := natBits_lt _ _ _

/-- A write never widens a field. -/
theorem Access.after_lt (c : Access) {old new n : Nat} (ho : old < 2 ^ n) (hn : new < 2 ^ n) : c.after old new < 2 ^ n := by
  have low (x : Nat) (h : x < 2 ^ n) : (BitVec.ofNat 64 x).toNat < 2 ^ n := by
    rw [BitVec.toNat_ofNat]; exact lt_of_le_of_lt (Nat.mod_le _ _) h
  cases c with
  | w1c => exact lt_of_le_of_lt (by rw [Access.after, BitVec.toNat_and]; exact Nat.and_le_left) (low _ ho)
  | w1s => rw [Access.after, BitVec.toNat_or]; exact Nat.or_lt_two_pow (low _ ho) (low _ hn)
  | rw => exact hn
  | ro | wo | rc | st => exact ho

namespace State

theorem stagedRd_stage (s : State) (a : Nat) (w : Word) (h : s.Canonical) : (s.stage a w).stagedRd a = w := by
  rw [stagedRd, stage, Sparse.get_put _ (Sparse.wf_sorted h.staged), Option.getD_some]

/-- A live write beside a field leaves the field's staged value. -/
theorem stagedFld_setFld_apart (s : State) (a : Nat) (f g : Fld) (v : Nat) (h : s.Canonical) (hf : f.Sound) (hg : g.Sound)
    (hd : f.Apart g) : (s.setFld a f v).stagedFld a g = s.stagedFld a g := by
  have hlive := fld_setFld_apart s a f g v h hf.2 hf.1 hg.1 hd
  simp only [fld] at hlive
  simp only [stagedFld, stagedRd, setFld, wr_frame] at hlive ⊢
  cases Sparse.get (fun _ => none) s.staged a with
  | none => exact hlive
  | some w => rfl

theorem writeField_canonical (s : State) (a : Nat) (v : Word) (f : FieldSpec) (h : s.Canonical) : (s.writeField a v f).Canonical := by
  unfold writeField
  split
  · exact setFld_canonical s a _ _ h
  · exact setFld_canonical s a _ _ h
  · exact setFld_canonical s a _ _ h
  · exact stage_canonical s a _ h
  all_goals exact h

theorem rd_writeField_ne (s : State) (a b : Nat) (v : Word) (f : FieldSpec) (hb : b ≠ a) : (s.writeField a v f).rd b = s.rd b := by
  unfold writeField
  split
  · exact rd_setFld_ne s a b _ _ hb
  · exact rd_setFld_ne s a b _ _ hb
  · exact rd_setFld_ne s a b _ _ hb
  all_goals rfl

theorem mem_writeField (s : State) (a : Nat) (v : Word) (f : FieldSpec) : (s.writeField a v f).mem = s.mem := by
  unfold writeField
  split <;> rfl

/-- A written field holds what its access code says. -/
theorem fld_writeField (s : State) (a : Nat) (v : Word) (f : FieldSpec) (h : s.Canonical) (hf : f.fld.Sound) :
    (s.writeField a v f).fld a f.fld = f.acc.after (s.fld a f.fld) (f.fld.get v) := by
  have live : (s.setFld a f.fld (f.acc.after (s.fld a f.fld) (f.fld.get v))).fld a f.fld
      = f.acc.after (s.fld a f.fld) (f.fld.get v) := by
    rw [fld_setFld s a _ _ h hf.2 hf.1]
    exact Nat.mod_eq_of_lt (Access.after_lt _ (Fld.get_lt _ _) (Fld.get_lt _ _))
  unfold writeField
  cases hc : f.acc <;> simp only [hc] at live ⊢
  case rw | w1c | w1s => exact live
  case ro | wo | rc | st => rfl

/-- A staged field's staged value is the written one. -/
theorem stagedFld_writeField (s : State) (a : Nat) (v : Word) (f : FieldSpec) (h : s.Canonical) (hf : f.fld.Sound)
    (hc : f.acc = .st) : (s.writeField a v f).stagedFld a f.fld = f.fld.get v := by
  simp only [writeField, hc, stagedFld]
  rw [stagedRd_stage s a _ h, get_set _ _ _ hf.2 hf.1, Nat.mod_eq_of_lt (Fld.get_lt _ _)]

/-- A field apart from the written one keeps its live and its staged value. -/
theorem writeField_apart (s : State) (a : Nat) (v : Word) (f : FieldSpec) (g : Fld) (h : s.Canonical) (hf : f.fld.Sound)
    (hg : g.Sound) (hd : f.fld.Apart g) :
    (s.writeField a v f).fld a g = s.fld a g ∧ (s.writeField a v f).stagedFld a g = s.stagedFld a g := by
  have live (n : Nat) := fld_setFld_apart s a f.fld g n h hf.2 hf.1 hg.1 hd
  have staged (n : Nat) := stagedFld_setFld_apart s a f.fld g n h hf hg hd
  unfold writeField
  split
  · exact ⟨live _, staged _⟩
  · exact ⟨live _, staged _⟩
  · exact ⟨live _, staged _⟩
  · refine ⟨rfl, ?_⟩
    rw [stagedFld, stagedRd_stage s a _ h, get_set_apart _ _ _ _ hf.2 hf.1 hg.1 hd, stagedFld]
  all_goals exact ⟨rfl, rfl⟩

theorem writeFields_frame (s : State) (fs : List FieldSpec) (a : Nat) (v : Word) :
    (∀ b, b ≠ a → (s.writeFields fs a v).rd b = s.rd b) ∧ (s.writeFields fs a v).mem = s.mem := by
  induction fs generalizing s with
  | nil => exact ⟨fun _ _ => rfl, rfl⟩
  | cons f fs ih =>
    obtain ⟨hrd, hmem⟩ := ih (s.writeField a v f)
    exact ⟨fun b hb => (hrd b hb).trans (rd_writeField_ne s a b v f hb), hmem.trans (mem_writeField s a v f)⟩

theorem writeFields_apart (s : State) (fs : List FieldSpec) (a : Nat) (v : Word) (g : Fld) (h : s.Canonical)
    (hs : ∀ f ∈ fs, f.fld.Sound) (hg : g.Sound) (hd : ∀ f ∈ fs, f.fld.Apart g) :
    (s.writeFields fs a v).fld a g = s.fld a g ∧ (s.writeFields fs a v).stagedFld a g = s.stagedFld a g := by
  induction fs generalizing s with
  | nil => exact ⟨rfl, rfl⟩
  | cons f fs ih =>
    simp only [List.forall_mem_cons] at hs hd
    obtain ⟨hl, hst⟩ := writeField_apart s a v f g h hs.1 hg hd.1
    obtain ⟨il, ist⟩ := ih (s.writeField a v f) (writeField_canonical s a v f h) hs.2 hd.2
    exact ⟨il.trans hl, ist.trans hst⟩

/-- A write of a register: each of its fields takes its value by its access code. -/
theorem writeFields_by_access (s : State) (fs : List FieldSpec) (a : Nat) (v : Word) (h : s.Canonical) (hs : SoundFields fs)
    (f : FieldSpec) (hf : f ∈ fs) :
    (s.writeFields fs a v).fld a f.fld = f.acc.after (s.fld a f.fld) (f.fld.get v) ∧
      (f.acc = .st → (s.writeFields fs a v).stagedFld a f.fld = f.fld.get v) := by
  induction fs generalizing s with
  | nil => cases hf
  | cons e fs ih =>
    obtain ⟨hsound, hpair⟩ := hs
    have he := hsound e List.mem_cons_self
    have hc := writeField_canonical s a v e h
    obtain ⟨hapart, hpair⟩ := List.pairwise_cons.mp hpair
    have hrest : ∀ g ∈ fs, g.fld.Sound := fun g hg => hsound g (List.mem_cons_of_mem _ hg)
    rcases List.mem_cons.mp hf with rfl | hmem
    · obtain ⟨hl, hst⟩ := writeFields_apart (s.writeField a v f) fs a v f.fld hc hrest he (fun g hg => (hapart g hg).symm)
      exact ⟨hl.trans (fld_writeField s a v f h he), fun hacc => hst.trans (stagedFld_writeField s a v f h he hacc)⟩
    · obtain ⟨hl, hst⟩ := ih (s.writeField a v e) hc ⟨hrest, hpair⟩ hmem
      rw [(writeField_apart s a v e f.fld h he (hrest f hmem) (hapart f hmem)).1] at hl
      exact ⟨hl, hst⟩

/-! ### Clearing on read (R13) -/

/-- Fields set to 0 one after another. -/
def clearFields (s : State) (fs : List FieldSpec) (a : Nat) : State := fs.foldl (fun t f => t.setFld a f.fld 0) s

theorem clearRc_aligned (s : State) (r : RegRow) {a : Nat} (h8 : a % 8 = 0) :
    s.clearRc r a 8 = s.clearFields (r.fields.filter (fun f => f.acc == .rc)) a := by
  simp [clearRc, clearFields, touches_eight, div_eight_mul_eight h8]

theorem clearFields_frame (s : State) (fs : List FieldSpec) (a : Nat) :
    (∀ b, b ≠ a → (s.clearFields fs a).rd b = s.rd b) ∧ (s.clearFields fs a).mem = s.mem ∧
      (s.clearFields fs a).staged = s.staged := by
  induction fs generalizing s with
  | nil => exact ⟨fun _ _ => rfl, rfl, rfl⟩
  | cons f fs ih =>
    obtain ⟨hrd, hmem, hst⟩ := ih (s.setFld a f.fld 0)
    exact ⟨fun b hb => (hrd b hb).trans (rd_setFld_ne s a b _ _ hb), hmem, hst⟩

theorem fld_clearFields_apart (s : State) (fs : List FieldSpec) (a : Nat) (g : Fld) (h : s.Canonical) (hs : ∀ f ∈ fs, f.fld.Sound)
    (hg : g.Sound) (hd : ∀ f ∈ fs, f.fld.Apart g) : (s.clearFields fs a).fld a g = s.fld a g := by
  induction fs generalizing s with
  | nil => rfl
  | cons f fs ih =>
    simp only [List.forall_mem_cons] at hs hd
    exact (ih (s.setFld a f.fld 0) (setFld_canonical s a _ _ h) hs.2 hd.2).trans
      (fld_setFld_apart s a f.fld g 0 h hs.1.2 hs.1.1 hg.1 hd.1)

theorem fld_clearFields (s : State) (fs : List FieldSpec) (a : Nat) (h : s.Canonical) (hs : SoundFields fs) (f : FieldSpec)
    (hf : f ∈ fs) : (s.clearFields fs a).fld a f.fld = 0 := by
  induction fs generalizing s with
  | nil => cases hf
  | cons e fs ih =>
    obtain ⟨hsound, hpair⟩ := hs
    have he := hsound e List.mem_cons_self
    have hc := setFld_canonical s a e.fld 0 h
    obtain ⟨hapart, hpair⟩ := List.pairwise_cons.mp hpair
    have hrest : ∀ g ∈ fs, g.fld.Sound := fun g hg => hsound g (List.mem_cons_of_mem _ hg)
    rcases List.mem_cons.mp hf with rfl | hmem
    · refine (fld_clearFields_apart (s.setFld a f.fld 0) fs a f.fld hc hrest he (fun g hg => (hapart g hg).symm)).trans ?_
      rw [fld_setFld s a f.fld 0 h he.2 he.1, Nat.zero_mod]
    · exact ih (s.setFld a e.fld 0) hc ⟨hrest, hpair⟩ hmem

/-- A read of a register clears its RC fields and leaves the others. -/
theorem fld_clearRc (s : State) (r : RegRow) {a : Nat} (h8 : a % 8 = 0) (h : s.Canonical) (hs : SoundFields r.fields)
    (f : FieldSpec) (hf : f ∈ r.fields) : (s.clearRc r a 8).fld a f.fld = if f.acc = .rc then 0 else s.fld a f.fld := by
  rw [clearRc_aligned s r h8]
  have hsub : ∀ g ∈ r.fields.filter (fun g => g.acc == .rc), g ∈ r.fields ∧ g.acc = .rc := by simp
  have hsound : ∀ g ∈ r.fields.filter (fun g => g.acc == .rc), g.fld.Sound := fun g hg => hs.sound g (hsub g hg).1
  split
  · rename_i hrc
    exact fld_clearFields s _ a h ⟨hsound, hs.apart.filter _⟩ f (by simp [hf, hrc])
  · rename_i hrc
    have : Std.Symm (fun f g : FieldSpec => f.fld.Apart g.fld) := ⟨fun _ _ h => h.symm⟩
    refine fld_clearFields_apart s _ a f.fld h hsound (hs.sound f hf) (fun g hg => ?_)
    exact hs.apart.forall (hsub g hg).1 hf (fun e => hrc (e ▸ (hsub g hg).2))

end State

/-! ### The obligations on register accesses -/

theorem seenBy_other (r : RegRow) {who : Requester} (h : who ≠ .host) : r.seenBy who = r := if_neg h

/-- A write of the whole of a register without a command of its own writes its fields. -/
theorem writeReg_plain (who : Requester) (r : RegRow) (ix : List Nat) (a : Nat) (v : Word) (s : State)
    (h : plainClass r.cls = true) : writeReg who r ix a 8 (touches a 8) v s = .next (s.writeFields r.fields a v) := by
  have hall : r.fields.filter (fun f => touches a 8 f.fld) = r.fields := by simp [touches_eight]
  unfold writeReg
  split
  case h_41 => rw [hall]
  all_goals (rename_i hc; rw [hc] at h; cases h)

/-- An admitted 64-bit write of a register without a command of its own. -/
theorem exec_registerWrite_plain {who : Requester} {addr : BitVec 45} {v : Word} {r : RegRow} {ix : List Nat} {s : State}
    (hw : who ≠ .host) (hm : inMailbox addr.toNat = false) (h8 : addr.toNat % 8 = 0) (hf : regFind addr.toNat = some (r, ix))
    (hc : plainClass r.cls = true) (hg : s.gate who addr.toNat true = none) :
    exec (.registerWrite who addr 8 v) s = .next (s.writeFields r.fields addr.toNat v) := by
  have hp := (gate_admits hf hg).1
  show execRegisterWrite who addr 8 v s = _
  simp only [execRegisterWrite, waits_admitted h8 hm hf hg, writeAt, hm, regOver_aligned h8 hf, hp, hw, div_eight_mul_eight h8, hg,
    badAccess_admitted h8 hf hg, seenBy_other r hw, mergeHalf]
  simpa using writeReg_plain who r ix addr.toNat v s hc

/-- Settles O6: the table's fields share no bit, so each takes its value whatever the others do. -/
theorem registerWriteByAccessCodes : Obligations.RegisterWriteByAccessCodes := by
  intro who addr v r ix s hs hw hm h8 hf hc hg
  refine ⟨_, exec_registerWrite_plain hw hm h8 hf hc hg, fun f hmem => ?_, s.writeFields_frame r.fields addr.toNat v⟩
  obtain ⟨hlive, hst⟩ := s.writeFields_by_access r.fields addr.toNat v hs (regFind_soundFields hf) f hmem
  refine ⟨hlive.trans ?_, hst⟩
  cases f.acc <;> rfl

/-- An admitted 64-bit read of a register other than PT_RECSTAT. -/
theorem exec_readClear_admitted {who : Requester} {addr : BitVec 45} {r : RegRow} {ix : List Nat} {s : State}
    (hw : who ≠ .host) (hm : inMailbox addr.toNat = false) (h8 : addr.toNat % 8 = 0) (hf : regFind addr.toNat = some (r, ix))
    (hc : r.cls ≠ .ptRecstat) (hg : s.gate who addr.toNat false = none) :
    exec (.readClear who addr 8) s = .next { s.clearRc r addr.toNat 8 with lastRead := s.readReg addr.toNat } := by
  have hp := (gate_admits hf hg).1
  have hq : (devQueueBase ≤ addr.toNat && addr.toNat < devQueueBase + 272 * 64) = false := by
    simpa using regFind_not_in_devQueue hf
  show execReadClear who addr 8 s = _
  simp [execReadClear, waits_admitted h8 hm hf hg, readAt, hm, hq, regOver_aligned h8 hf, hp, hw, hc, div_eight_mul_eight h8, hg,
    badAccess_admitted h8 hf hg, takeHalf]

/-- Settles O7: of a register's fields a read clears those with access code RC. -/
theorem readReturnsAndClearsCounters : Obligations.ReadReturnsAndClearsCounters := by
  intro who addr r ix s hs hw hm h8 hf hc hg
  refine ⟨_, exec_readClear_admitted hw hm h8 hf hc hg, rfl, fun f hmem => ?_, ?_⟩
  · exact s.fld_clearRc r h8 hs (regFind_soundFields hf) f hmem
  · rw [clearRc_aligned s r h8]
    exact s.clearFields_frame _ addr.toNat

/-! ### Fault records change no register -/

namespace State

theorem takeRseq_frame (s : State) (q : FaultQueue) :
    (s.takeRseq q).1.regs = s.regs ∧ (s.takeRseq q).1.staged = s.staged ∧ (s.takeRseq q).1.mem = s.mem := by
  cases q <;> exact ⟨rfl, rfl, rfl⟩

/-- A FAULT event that is held for merging changes no register and no memory (R424). -/
theorem report_frame (s : State) (q : FaultQueue) (r : FRec) :
    (s.report q r).1.regs = s.regs ∧ (s.report q r).1.staged = s.staged ∧ (s.report q r).1.mem = s.mem := by
  have htake := s.takeRseq_frame q
  unfold report
  simp only
  split
  · exact ⟨rfl, rfl, rfl⟩
  · cases q with
    | device => exact htake
    | part p =>
      simp only
      split
      · exact ⟨rfl, rfl, rfl⟩
      · exact htake

theorem faultDev_eq_report (s : State) (cls die unit : Nat) :
    ∃ r, s.faultDev cls die unit = (s.report .device r).1 := ⟨_, rfl⟩

theorem faultPart_eq_report (s : State) (p cls : Nat) : ∃ r, s.faultPart p cls = (s.report (pq p) r).1 := ⟨_, rfl⟩

theorem faultAccess_frame (s : State) (r : RegRow) (ix : List Nat) :
    (s.faultAccess r ix).regs = s.regs ∧ (s.faultAccess r ix).staged = s.staged ∧ (s.faultAccess r ix).mem = s.mem := by
  unfold faultAccess
  split
  · obtain ⟨x, hx⟩ := s.faultPart_eq_report (ix.headD 0) cPROTO
    rw [hx]; exact s.report_frame _ x
  · obtain ⟨x, hx⟩ := s.faultDev_eq_report cPROTO (dieOfDom (regDom r ix)) 255
    rw [hx]; exact s.report_frame _ x

end State

/-- Settles O8: the bad access is found before the register's own gate, and its record changes no register. -/
theorem oddAccessReadsZero : Obligations.OddAccessReadsZero := by
  intro who addr size v r ix s hw hm hq hf hp hwt hbad
  have hdq : (devQueueBase ≤ addr.toNat && addr.toNat < devQueueBase + 272 * 64) = false := by simp; omega
  refine ⟨?_, ?_, s.faultAccess_frame r ix⟩
  · show execRegisterWrite who addr size v s = _
    simp [execRegisterWrite, hwt, writeAt, hm, hf, hp, hw, hbad]
  · show execReadClear who addr size s = _
    simp [execReadClear, hwt, readAt, hm, hdq, hf, hp, hw, hbad]

end Sys2Proof.Machine
end

section
/-! PROOFS. The host link: what the loss of queues and the reset of the host interface leave (R6, R271, R283, R406). -/

namespace Sys2Proof.Machine

open State

namespace State

/-! ### Canonical form and frame of the operations on queues -/

theorem setQueue_canonical (s : State) (q : Nat) (x : HostQueue) (h : s.Canonical) : (s.setQueue q x).Canonical :=
  { h with queues := Sparse.wf_put _ h.queues }

theorem discard_canonical (s : State) (as : List Nat) (h : s.Canonical) : (s.discard as).Canonical := by
  have hst : Sparse.wf (fun _ => none) (as.foldl (fun m a => Sparse.put (fun _ => none) m a none) s.staged) = true := by
    have hs := h.staged
    generalize s.staged = m at hs ⊢
    induction as generalizing m with
    | nil => exact hs
    | cons a as ih => exact ih _ (Sparse.wf_put _ hs)
  exact { h with staged := hst }

theorem detach_canonical (s : State) (id : Nat) (h : s.Canonical) : (s.detach id).Canonical := by
  unfold detach
  split
  · exact setFld_canonical s _ _ _ h
  · split
    · exact setCtx_canonical s _ _ h
    · exact h

/-- Detaching a context changes no register but its own status. -/
theorem rd_detach_ne (s : State) {id b : Nat} (hb : b ≠ a_PT_CTXSTAT (id / 256) (id % 256)) : (s.detach id).rd b = s.rd b := by
  unfold detach
  split
  · exact rd_setFld_ne s _ _ _ _ hb
  · split <;> rfl

theorem detach_frame (s : State) (id : Nat) :
    (s.detach id).mem = s.mem ∧ (s.detach id).hostLink = s.hostLink := by
  unfold detach
  split
  · exact ⟨rfl, rfl⟩
  · split <;> exact ⟨rfl, rfl⟩

/-- A queue names its context in a field of 13 bits (R285). -/
theorem queueCtx_lt (s : State) (q : Nat) : s.qf q HI_QCFG_CTXID < 2 ^ 13 := natBits_lt _ _ _

/-! ### One queue is lost -/

/-- A queue's context is detached where the queue is enabled. -/
def detachOf (s : State) (q : Nat) : State := if s.qEnabled q then s.detach (s.qf q HI_QCFG_CTXID) else s

theorem loseQueue_eq (s : State) (q : Nat) :
    s.loseQueue q = ((((((s.detachOf q).discard (queueGroup q)).wr (a_HI_QDATA q) 0).wr (a_HI_QEGR q) 0)).clearQueue q).setFld
      (a_HI_QCFG q) HI_QCFG_ENABLE 0 := rfl

theorem detachOf_canonical (s : State) (q : Nat) (h : s.Canonical) : (s.detachOf q).Canonical := by
  unfold detachOf
  split
  · exact detach_canonical s _ h
  · exact h

theorem rd_detachOf_config (s : State) (q k : Nat) : (s.detachOf q).rd (a_HI_QCFG k) = s.rd (a_HI_QCFG k) := by
  unfold detachOf
  split
  · have := queueCtx_lt s q
    exact rd_detach_ne s (by simp only [a_HI_QCFG, a_PT_CTXSTAT]; omega)
  · rfl

theorem clearQueue_canonical (s : State) (q : Nat) (h : s.Canonical) : (s.clearQueue q).Canonical := by
  unfold clearQueue
  exact setQueue_canonical _ _ _ (wr_canonical _ _ _ (wr_canonical _ _ _ (wr_canonical _ _ _ (wr_canonical _ _ _ h))))

theorem rd_clearQueue_config (s : State) (q k : Nat) : (s.clearQueue q).rd (a_HI_QCFG k) = s.rd (a_HI_QCFG k) := by
  have := rd_foldl_wr_ne [a_HI_QSTAT q, a_HI_QACC q, a_HI_QEGPROD q, a_HI_QEGCONS q] (fun _ => 0) s (a_HI_QCFG k)
    (by
      simp only [List.mem_cons, List.not_mem_nil, or_false, not_or, a_HI_QCFG, a_HI_QSTAT, a_HI_QACC, a_HI_QEGPROD, a_HI_QEGCONS]
      omega)
  exact this

theorem loseQueue_canonical (s : State) (q : Nat) (h : s.Canonical) : (s.loseQueue q).Canonical := by
  rw [loseQueue_eq]
  exact setFld_canonical _ _ _ _ (clearQueue_canonical _ _ (wr_canonical _ _ _ (wr_canonical _ _ _
    (discard_canonical _ _ (detachOf_canonical s q h)))))

theorem detachOf_frame (s : State) (q : Nat) :
    (s.detachOf q).mem = s.mem ∧ (s.detachOf q).hostLink = s.hostLink := by
  unfold detachOf
  split
  · exact detach_frame s _
  · exact ⟨rfl, rfl⟩

theorem clearQueue_frame (s : State) (q : Nat) :
    (s.clearQueue q).mem = s.mem ∧ (s.clearQueue q).hostLink = s.hostLink := ⟨rfl, rfl⟩

theorem discard_frame (s : State) (as : List Nat) :
    (s.discard as).mem = s.mem ∧ (s.discard as).hostLink = s.hostLink := ⟨rfl, rfl⟩

theorem loseQueue_frame (s : State) (q : Nat) :
    (s.loseQueue q).mem = s.mem ∧ (s.loseQueue q).hostLink = s.hostLink := by
  simp only [loseQueue_eq, setFld, wr_frame, clearQueue_frame, discard_frame, detachOf_frame, and_self]

/-- A lost queue is disabled, and every other queue is enabled as before. -/
theorem qEnabled_loseQueue (s : State) (q k : Nat) (h : s.Canonical) :
    (s.loseQueue q).qEnabled k = (decide (k ≠ q) && s.qEnabled k) := by
  rw [loseQueue_eq]
  generalize hu : ((((s.detachOf q).discard (queueGroup q)).wr (a_HI_QDATA q) 0).wr (a_HI_QEGR q) 0).clearQueue q = u
  have hc : u.Canonical := hu ▸ clearQueue_canonical _ _ (wr_canonical _ _ _ (wr_canonical _ _ _
    (discard_canonical _ _ (detachOf_canonical s q h))))
  by_cases hk : k = q
  · subst hk
    have hoff := fld_setFld u (a_HI_QCFG k) HI_QCFG_ENABLE 0 hc (by decide) (by decide)
    simp [qEnabled, qf, hoff]
  · have hcfg : (u.setFld (a_HI_QCFG q) HI_QCFG_ENABLE 0).rd (a_HI_QCFG k) = s.rd (a_HI_QCFG k) := by
      rw [rd_setFld_ne _ _ _ _ _ (by simp only [a_HI_QCFG]; omega), ← hu, rd_clearQueue_config,
        rd_wr_ne _ _ _ _ (by simp only [a_HI_QCFG, a_HI_QEGR]; omega), rd_wr_ne _ _ _ _ (by simp only [a_HI_QCFG, a_HI_QDATA]; omega)]
      exact rd_detachOf_config s q k
    simp [qEnabled, qf, fld, hcfg, hk]

/-! ### Some queues are lost -/

/-- Queues lost one after another. -/
def loseQueues (s : State) (qs : List Nat) : State := qs.foldl (fun t q => t.loseQueue q) s

theorem loseQueues_canonical (s : State) (qs : List Nat) (h : s.Canonical) : (s.loseQueues qs).Canonical := by
  induction qs generalizing s with
  | nil => exact h
  | cons q qs ih => exact ih _ (loseQueue_canonical s q h)

theorem loseQueues_frame (s : State) (qs : List Nat) :
    (s.loseQueues qs).mem = s.mem ∧ (s.loseQueues qs).hostLink = s.hostLink := by
  induction qs generalizing s with
  | nil => exact ⟨rfl, rfl⟩
  | cons q qs ih =>
    obtain ⟨hmem, hlink⟩ := ih (s.loseQueue q)
    obtain ⟨qmem, qlink⟩ := loseQueue_frame s q
    exact ⟨hmem.trans qmem, hlink.trans qlink⟩

/-- The lost queues are disabled, and every other queue is enabled as before. -/
theorem qEnabled_loseQueues (s : State) (qs : List Nat) (k : Nat) (h : s.Canonical) :
    (s.loseQueues qs).qEnabled k = (decide (k ∉ qs) && s.qEnabled k) := by
  induction qs generalizing s with
  | nil => simp [loseQueues]
  | cons q qs ih =>
    have hrec := ih (s.loseQueue q) (loseQueue_canonical s q h)
    rw [qEnabled_loseQueue s q k h] at hrec
    refine hrec.trans ?_
    by_cases hq : k = q <;> simp [hq]

/-! ### The reset of the host interface (R283) -/

/-- The host interface without its MSI-X tables, its staged registers, its sessions and its link. -/
def hostCleared (t : State) : State :=
  { t with
    fns := []
    staged := Sparse.drop (fun a => (domOfAddr a).any (fun d => d == 121)) t.staged
    sessions := t.sessions.filter (fun x => x.2 != 0)
    hostLink := { t.hostLink with up := false, reply := [] } }

/-- HI_LINK shows a link that is down and counts the loss. -/
def linkLost (t : State) : State :=
  (((t.setFld a_HI_LINK HI_LINK_IDE_ACTIVE 0).setFld a_HI_LINK HI_LINK_GEN 0).setFld a_HI_LINK HI_LINK_WIDTH 0).bump a_HI_LINK
    HI_LINK_LOSSES 1

theorem hostReset_eq (s : State) : s.hostReset = (s.loseQueues (List.range 256)).hostCleared.linkLost := rfl

theorem hostCleared_canonical (t : State) (h : t.Canonical) : t.hostCleared.Canonical := by
  unfold hostCleared
  exact { h with fns := rfl, staged := Sparse.wf_drop (fun a => (domOfAddr a).any (fun d => d == 121)) h.staged }

theorem hostCleared_frame (t : State) :
    t.hostCleared.mem = t.mem ∧ t.hostCleared.fns = [] ∧ t.hostCleared.hostLink = { t.hostLink with up := false, reply := [] } ∧
      ∀ a, t.hostCleared.rd a = t.rd a := ⟨rfl, rfl, rfl, fun _ => rfl⟩

theorem linkLost_canonical (t : State) (h : t.Canonical) : t.linkLost.Canonical :=
  setFld_canonical _ _ _ _ (setFld_canonical _ _ _ _ (setFld_canonical _ _ _ _ (setFld_canonical _ _ _ _ h)))

theorem linkLost_frame (t : State) :
    t.linkLost.mem = t.mem ∧ t.linkLost.fns = t.fns ∧ t.linkLost.hostLink = t.hostLink := ⟨rfl, rfl, rfl⟩

theorem rd_linkLost_ne (t : State) {b : Nat} (hb : b ≠ a_HI_LINK) : t.linkLost.rd b = t.rd b := by
  rw [linkLost, bump, rd_setFld_ne _ _ _ _ _ hb, rd_setFld_ne _ _ _ _ _ hb, rd_setFld_ne _ _ _ _ _ hb, rd_setFld_ne _ _ _ _ _ hb]

theorem hostReset_canonical (s : State) (h : s.Canonical) : s.hostReset.Canonical := by
  rw [hostReset_eq]
  exact linkLost_canonical _ (hostCleared_canonical _ (loseQueues_canonical s _ h))

theorem hostReset_frame (s : State) :
    s.hostReset.mem = s.mem ∧ s.hostReset.fns = [] ∧ s.hostReset.hostLink = { s.hostLink with up := false, reply := [] } := by
  obtain ⟨hmem, hlink⟩ := loseQueues_frame s (List.range 256)
  simp only [hostReset_eq, linkLost_frame, hostCleared_frame, hmem, hlink, and_self]

/-- A reset of the host interface disables every queue. -/
theorem qEnabled_hostReset (s : State) {q : Nat} (h : s.Canonical) (hq : q < 256) : s.hostReset.qEnabled q = false := by
  have hlost := qEnabled_loseQueues s (List.range 256) q h
  have hcfg := rd_linkLost_ne (s.loseQueues (List.range 256)).hostCleared (b := a_HI_QCFG q)
    (by simp only [a_HI_QCFG, a_HI_LINK]; omega)
  rw [← hostReset_eq] at hcfg
  calc s.hostReset.qEnabled q = (s.loseQueues (List.range 256)).qEnabled q := by
        simp only [qEnabled, qf, fld, hcfg, hostCleared_frame]
    _ = false := by rw [hlost]; simp [hq]

/-- An FLR of a VF loses the four queues of the VF. -/
theorem vfQueues (s : State) (n : Nat) :
    [0, 1, 2, 3].foldl (fun t k => t.loseQueue (4 * n + k)) s = s.loseQueues ([0, 1, 2, 3].map (fun k => 4 * n + k)) := by
  rw [loseQueues, List.foldl_map]

theorem mem_vfQueues (n q : Nat) : q ∈ [0, 1, 2, 3].map (fun k => 4 * n + k) ↔ q / 4 = n := by
  simp only [List.map_cons, List.map_nil, List.mem_cons, List.not_mem_nil, or_false]
  omega

end State

/-! ### The events of the link -/

theorem exec_hostLinkDown_up {s : State} (hup : s.hostLink.up = true) : exec .hostLinkDown s = .next s.hostReset := by
  show execHostLinkDown s = _
  rw [execHostLinkDown, if_pos hup]

theorem exec_flr_pf {s : State} (hup : s.hostLink.up = true) : exec (.flr .pf) s = .next s.hostReset := by
  show execFlr .pf s = _
  simp [execFlr, hup]

theorem exec_flr_vf {n : Fin 64} {s : State} (hup : s.hostLink.up = true) :
    exec (.flr (.vf n)) s = .next (if s.fld a_MG_LICENCE MG_LICENCE_VFS ≤ n.val then s
      else (s.loseQueues ([0, 1, 2, 3].map (fun k => 4 * n.val + k))).setFn (1 + n.val) FnSt.init) := by
  show execFlr (.vf n) s = _
  simp only [execFlr, hup, Bool.not_true, Bool.false_eq_true, if_false, vfQueues]

/-- The host interface with PERST_N at a level; its domain is in reset while the level is low (R406). -/
def State.perstAt (t : State) (level : Bool) : State :=
  ({ t with hostLink := { t.hostLink with perst := level } } : State).setDom 121 { t.dom 121 with inReset := !level }

theorem perstAt_frame (t : State) (level : Bool) :
    (t.perstAt level).hostLink = { t.hostLink with perst := level } ∧ (t.perstAt level).mem = t.mem ∧
      (t.perstAt level).regs = t.regs ∧ ∀ q, (t.perstAt level).qEnabled q = t.qEnabled q := ⟨rfl, rfl, rfl, fun _ => rfl⟩

theorem perstAt_inReset (t : State) (level : Bool) (h : t.Canonical) : ((t.perstAt level).dom 121).inReset = !level :=
  congrArg Dom.inReset (dom_setDom _ 121 _ h)

theorem setPerst_change {level : Bool} {s : State} (hl : s.hostLink.perst = !level) :
    s.setPerst level = (if level then s else s.hostReset).perstAt level := by
  have hne : (s.hostLink.perst == level) = false := by rw [hl]; cases level <;> rfl
  rw [setPerst, hne]
  rfl

theorem exec_perstN_low {s : State} (hl : s.hostLink.perst = true) : exec (.perstN false) s = .next (s.hostReset.perstAt false) :=
  congrArg Host.Outcome.next ((setPerst_change hl).trans (by rw [if_neg (by decide)]))

theorem exec_perstN_high {s : State} (hl : s.hostLink.perst = false) : exec (.perstN true) s = .next (s.perstAt true) :=
  congrArg Host.Outcome.next ((setPerst_change hl).trans (by rw [if_pos rfl]))

/-- The link with a trained speed and width. -/
def State.linkTrained (s : State) (gen width : Nat) : State :=
  (({ s with hostLink := { s.hostLink with up := true } } : State).setFld a_HI_LINK HI_LINK_GEN gen).setFld a_HI_LINK HI_LINK_WIDTH width

theorem exec_hostLinkUp_trained {gen : BitVec 4} {width : BitVec 5} {s : State} (hup : s.hostLink.up = false)
    (hp : s.hostLink.perst = true) (ha : s.alive 121 = true) (href : s.pins.refPcie = true) (h4 : 4 ≤ gen.toNat)
    (h6 : gen.toNat ≤ 6) (hw : width.toNat ∈ [1, 2, 4]) :
    exec (.hostLinkUp gen width) s = .next (s.linkTrained gen.toNat width.toNat) := by
  have hw' : [1, 2, 4].contains width.toNat = true := by simpa using hw
  show execHostLinkUp gen width s = _
  rw [execHostLinkUp, if_neg (by simp only [hup, hp, ha, href, hw']; simp; omega)]
  rfl

theorem linkTrained_fields (s : State) (h : s.Canonical) {gen width : Nat} (hg : gen < 2 ^ 4) (hw : width < 2 ^ 4) :
    (s.linkTrained gen width).fld a_HI_LINK HI_LINK_GEN = gen ∧ (s.linkTrained gen width).fld a_HI_LINK HI_LINK_WIDTH = width := by
  have hc : ({ s with hostLink := { s.hostLink with up := true } } : State).Canonical := h
  have hc' := setFld_canonical _ a_HI_LINK HI_LINK_GEN gen hc
  constructor
  · rw [State.linkTrained, fld_setFld_apart _ _ _ _ _ hc' (by decide) (by decide) (by decide) (by decide),
      fld_setFld _ _ _ _ hc (by decide) (by decide)]
    exact Nat.mod_eq_of_lt hg
  · rw [State.linkTrained, fld_setFld _ _ _ _ hc' (by decide) (by decide)]
    exact Nat.mod_eq_of_lt hw

/-- Settles O24: a reset of the host interface is the loss of all 256 queues, an FLR of a VF that of its four. -/
theorem hostLinkLossAndReturn : Obligations.HostLinkLossAndReturn := by
  refine ⟨fun s h hup => ?linkDown, fun s h hup => ?flrPf, fun n s h hup => ⟨fun hn => ?flrVf, fun hn => ?flrAbsent⟩,
    fun s h hp => ?perstLow, fun s h hp => ?perstHigh, fun gen width s h hup hp ha href h4 h6 hw => ?linkUp⟩
  case linkDown =>
    obtain ⟨hmem, hfns, hlink⟩ := hostReset_frame s
    exact ⟨_, exec_hostLinkDown_up hup, by rw [hlink], fun q hq => qEnabled_hostReset s h hq, hfns, hmem⟩
  case flrPf =>
    obtain ⟨hmem, -, hlink⟩ := hostReset_frame s
    exact ⟨_, exec_flr_pf hup, by rw [hlink], fun q hq => qEnabled_hostReset s h hq, hmem⟩
  case flrVf =>
    obtain ⟨hmem, hlink⟩ := loseQueues_frame s ([0, 1, 2, 3].map (fun k => 4 * n.val + k))
    have hqueues := fun q => qEnabled_loseQueues s ([0, 1, 2, 3].map (fun k => 4 * n.val + k)) q h
    simp only [mem_vfQueues] at hqueues
    rw [exec_flr_vf hup, if_neg (by omega)]
    generalize s.loseQueues ([0, 1, 2, 3].map (fun k => 4 * n.val + k)) = t at hmem hlink hqueues ⊢
    exact ⟨t.setFn (1 + n.val) FnSt.init, rfl, hlink, fun q _ => hqueues q, hmem⟩
  case flrAbsent => rw [exec_flr_vf hup, if_pos hn]
  case perstLow =>
    obtain ⟨hmem, -, hlink⟩ := hostReset_frame s
    obtain ⟨plink, pmem, -, pqueues⟩ := perstAt_frame s.hostReset false
    exact ⟨_, exec_perstN_low hp, by rw [plink, hlink], by rw [plink], perstAt_inReset _ false (hostReset_canonical s h),
      fun q hq => (pqueues q).trans (qEnabled_hostReset s h hq), pmem.trans hmem⟩
  case perstHigh =>
    obtain ⟨plink, -, pregs, -⟩ := perstAt_frame s true
    exact ⟨_, exec_perstN_high hp, by rw [plink], perstAt_inReset s true h, pregs⟩
  case linkUp =>
    have hw4 : width.toNat < 2 ^ 4 := by
      simp only [List.mem_cons, List.not_mem_nil, or_false] at hw
      omega
    obtain ⟨hgen, hwidth⟩ := linkTrained_fields s h gen.isLt hw4
    exact ⟨_, exec_hostLinkUp_trained hup hp ha href h4 h6 hw, rfl, hgen, hwidth, rfl⟩

end Sys2Proof.Machine
end

section
/-! PROOFS. Dispatch and completion: the state in which the body of a dispatched descriptor runs (R81, R123–R126, R131), and what the
end of a descriptor leaves (R138–R140, R198, R199). -/

namespace Sys2Proof.Machine

open State

theorem cid_div {slot : Nat} (p : Nat) (h : slot < 192) : cid p slot / 256 = p := by simp only [cid]; omega

theorem cid_mod {slot : Nat} (p : Nat) (h : slot < 192) : cid p slot % 256 = slot := by simp only [cid]; omega

namespace State

/-! ### Entries of a context and the inside of a partition -/

/-- The entries with an index after a change of them. -/
def endsWith (index : Nat) (f : Desc → Desc) (ds : List Desc) : List Desc := ds.map (fun e => if e.index = index then f e else e)

theorem modDesc_canonical (s : State) (id index : Nat) (f : Desc → Desc) (h : s.Canonical) : (s.modDesc id index f).Canonical :=
  setCtx_canonical s id _ h

theorem modPart_canonical (s : State) (p : Nat) (f : Part → Part) (h : s.Canonical) : (s.modPart p f).Canonical :=
  setPart_canonical s p _ h

theorem descs_modDesc (s : State) (id index : Nat) (f : Desc → Desc) (h : s.Canonical) :
    ((s.modDesc id index f).ctx id).descs = endsWith index f (s.ctx id).descs := by
  rw [modDesc, modCtx, ctx_setCtx s id _ h]
  rfl

theorem ctx_modCtx (s : State) (id : Nat) (f : Ctx → Ctx) (h : s.Canonical) : (s.modCtx id f).ctx id = f (s.ctx id) :=
  ctx_setCtx s id _ h

theorem ctx_modCtx_ne (s : State) {id k : Nat} (f : Ctx → Ctx) (hk : k ≠ id) : (s.modCtx id f).ctx k = s.ctx k :=
  ctx_setCtx_ne s id k _ hk

theorem part_modDesc (s : State) (id index q : Nat) (f : Desc → Desc) : (s.modDesc id index f).part q = s.part q := rfl

theorem part_modPart (s : State) (p : Nat) (f : Part → Part) (h : s.Canonical) : (s.modPart p f).part p = f (s.part p) :=
  part_setPart s p _ h

theorem part_modPart_ne (s : State) {p q : Nat} (f : Part → Part) (hq : q ≠ p) : (s.modPart p f).part q = s.part q :=
  part_setPart_ne s p q _ hq

theorem endsWith_endsWith (index : Nat) (f g : Desc → Desc) (ds : List Desc) (hf : ∀ e, e.index = index → (f e).index = index) :
    endsWith index g (endsWith index f ds) = endsWith index (fun e => g (f e)) ds := by
  simp only [endsWith, List.map_map]
  refine List.map_congr_left (fun e _ => ?_)
  by_cases he : e.index = index
  · simp [he, hf e he]
  · simp [he]

/-- The last of two entries put in one place stays. -/
theorem endsWith_const {index : Nat} {b : Desc} (g : Desc → Desc) (ds : List Desc) (hb : b.index = index) :
    endsWith index g (endsWith index (fun _ => b) ds) = endsWith index (fun _ => g b) ds :=
  endsWith_endsWith index (fun _ => b) g ds (fun _ _ => hb)

theorem descsWith_eq (s : State) (id : Nat) (d : Desc) : s.descsWith id d = endsWith d.index (fun _ => d) (s.ctx id).descs := rfl

theorem getElem?_endsWith (index : Nat) (f : Desc → Desc) (ds : List Desc) {k : Nat} {e : Desc} (h : ds[k]? = some e) :
    (endsWith index f ds)[k]? = some (if e.index = index then f e else e) := by
  rw [endsWith, List.getElem?_map, h, Option.map_some]

/-! ### The state in which a body runs -/

/-- The dispatcher has chosen the next descriptor of a slot, which has taken its configuration (R81, R131). -/
def taken (s : State) (p slot : Nat) (d : Desc) : State :=
  (s.modDesc (cid p slot) d.index (fun _ => s.configured p slot d)).modPart p (fun x => { x with lastDisp := slot })

/-- The chosen descriptor with its configuration and its lengths. -/
def shapedDesc (s : State) (p slot : Nat) (d : Desc) : Desc := s.configured p slot (s.resolved (cid p slot) d)

/-- The chosen descriptor has resolved its lengths (R125, R126): the state that the checks of dispatch look at. -/
def shaped (s : State) (p slot : Nat) (d : Desc) : State :=
  (s.taken p slot d).modDesc (cid p slot) d.index (fun _ => s.shapedDesc p slot d)

/-- The descriptor runs and is counted: the state in which its body runs. -/
def launched (s : State) (p slot : Nat) (d : Desc) : State :=
  ((s.shaped p slot d).modDesc (cid p slot) d.index (fun _ => s.begun p slot d)).modPart p
    (fun x => { x with dispatchSeq := (s.part p).dispatchSeq + 1 })

/-- Up to its body a dispatch changes contexts and partitions alone. -/
theorem shaped_eq (s : State) (p slot : Nat) (d : Desc) : ∃ cs ps, s.shaped p slot d = { s with ctxs := cs, parts := ps } :=
  ⟨_, _, rfl⟩

theorem launched_eq (s : State) (p slot : Nat) (d : Desc) : ∃ cs ps, s.launched p slot d = { s with ctxs := cs, parts := ps } := by
  obtain ⟨cs, ps, e⟩ := shaped_eq s p slot d
  rw [launched, e]
  exact ⟨_, _, rfl⟩

theorem taken_canonical (s : State) (p slot : Nat) (d : Desc) (h : s.Canonical) : (s.taken p slot d).Canonical :=
  modPart_canonical _ _ _ (modDesc_canonical _ _ _ _ h)

theorem shaped_canonical (s : State) (p slot : Nat) (d : Desc) (h : s.Canonical) : (s.shaped p slot d).Canonical :=
  modDesc_canonical _ _ _ _ (taken_canonical s p slot d h)

theorem launched_canonical (s : State) (p slot : Nat) (d : Desc) (h : s.Canonical) : (s.launched p slot d).Canonical :=
  modPart_canonical _ _ _ (modDesc_canonical _ _ _ _ (shaped_canonical s p slot d h))

theorem shaped_part (s : State) (p slot : Nat) (d : Desc) (h : s.Canonical) :
    (s.shaped p slot d).part p = { s.part p with lastDisp := slot } := by
  rw [shaped, part_modDesc, taken, part_modPart _ _ _ (modDesc_canonical s _ _ _ h), part_modDesc]

theorem shaped_part_ne (s : State) {p q : Nat} (slot : Nat) (d : Desc) (hq : q ≠ p) : (s.shaped p slot d).part q = s.part q := by
  rw [shaped, part_modDesc, taken, part_modPart_ne _ _ hq, part_modDesc]

theorem launched_part (s : State) (p slot : Nat) (d : Desc) (h : s.Canonical) :
    (s.launched p slot d).part p = { s.part p with lastDisp := slot, dispatchSeq := (s.part p).dispatchSeq + 1 } := by
  rw [launched, part_modPart _ _ _ (modDesc_canonical _ _ _ _ (shaped_canonical s p slot d h)), part_modDesc,
    shaped_part s p slot d h]

theorem launched_part_ne (s : State) {p q : Nat} (slot : Nat) (d : Desc) (hq : q ≠ p) : (s.launched p slot d).part q = s.part q := by
  rw [launched, part_modPart_ne _ _ hq, part_modDesc, shaped_part_ne s slot d hq]

/-- The context holds the running descriptor in the place of the chosen one. -/
theorem launched_descs (s : State) (p slot : Nat) (d : Desc) (h : s.Canonical) :
    ((s.launched p slot d).ctx (cid p slot)).descs = s.descsWith (cid p slot) (s.begun p slot d) := by
  have hc := taken_canonical s p slot d h
  calc ((s.launched p slot d).ctx (cid p slot)).descs
      = endsWith d.index (fun _ => s.begun p slot d) ((s.shaped p slot d).ctx (cid p slot)).descs :=
        descs_modDesc (s.shaped p slot d) _ _ _ (shaped_canonical s p slot d h)
    _ = endsWith d.index (fun _ => s.begun p slot d)
          (endsWith d.index (fun _ => s.shapedDesc p slot d) ((s.taken p slot d).ctx (cid p slot)).descs) := by
        rw [shaped, descs_modDesc _ _ _ _ hc]
    _ = endsWith d.index (fun _ => s.begun p slot d) (endsWith d.index (fun _ => s.shapedDesc p slot d)
          (endsWith d.index (fun _ => s.configured p slot d) (s.ctx (cid p slot)).descs)) := by
        rw [← descs_modDesc s (cid p slot) d.index (fun _ => s.configured p slot d) h]
        rfl
    _ = endsWith d.index (fun _ => s.begun p slot d) (s.ctx (cid p slot)).descs := by
        rw [endsWith_const (index := d.index) (b := s.configured p slot d) _ _ rfl,
          endsWith_const (index := d.index) (b := s.shapedDesc p slot d) _ _ rfl]

theorem launched_dispatched (s : State) (p slot : Nat) (d : Desc) (h : s.Canonical) : s.dispatched (s.launched p slot d) p slot := by
  have hp := launched_part s p slot d h
  exact ⟨by rw [hp], by rw [hp], fun q hq => launched_part_ne s slot d hq⟩

/-! ### Dispatch of a descriptor that runs -/

theorem Runs.mem {s : State} {p slot : Nat} {d : Desc} (r : s.Runs p slot d) : d ∈ (s.ctx (cid p slot)).descs :=
  List.mem_of_find?_eq_some r.can.next

/-- Nothing that R146 reports by a position stops the descriptor before its predicate is read. -/
theorem Runs.noPosition {s : State} {p slot : Nat} {d : Desc} (r : s.Runs p slot d) :
    smallest (((predsNamed d).filter (fun x => !s.ownsPred (cid p slot) x.1)).map (fun x => x.2) ++ s.roughBad d) = none := by
  have : (predsNamed d).filter (fun x => !s.ownsPred (cid p slot) x.1) = [] := by
    simpa [List.filter_eq_nil_iff] using r.can.owned
  rw [this, r.can.formats]
  rfl

/-- A descriptor that runs and passes the checks of its command is launched and runs its body. -/
theorem dispatchNext_runs {s : State} {p slot : Nat} {d : Desc} (h : s.Canonical) (r : s.Runs p slot d) {is : Desc → Bool}
    {check : State → Nat → Desc → Option DispatchFail} {free : State → Nat → Desc → Bool} (body : State → Nat → Desc → State)
    (hk : is d = true) (hcheck : check (s.shaped p slot d) (cid p slot) (s.shapedDesc p slot d) = none)
    (hfree : free (s.shaped p slot d) (cid p slot) (s.shapedDesc p slot d) = true) :
    dispatchNext p slot is check free body s = body (s.launched p slot d) (cid p slot) (s.begun p slot d) := by
  have hseq : ((s.shaped p slot d).part p).dispatchSeq = (s.part p).dispatchSeq := by rw [shaped_part s p slot d h]
  unfold dispatchNext
  simp only [r.can.next]
  split
  · rename_i hguard
    simp [r.can.run, r.can.ready, hk, r.can.order, r.can.turn] at hguard
  split
  · rename_i pos hpos
    exact absurd (r.noPosition.symm.trans hpos) (by simp)
  split
  · rename_i hpred
    simp only [Bool.and_eq_true, beq_iff_eq] at hpred
    exact absurd hpred r.pred
  split
  · rename_i hmarked
    exact absurd (r.current.symm.trans hmarked) (by simp)
  split
  · rename_i hwork
    simp only [Bool.or_eq_true, decide_eq_true_eq] at hwork
    exact absurd hwork (not_or.mpr ⟨r.work, r.work2⟩)
  split
  · rename_i f hf
    exact absurd (hcheck.symm.trans hf) (by simp)
  split
  · rename_i hbusy
    exact absurd hbusy (by rw [Bool.not_eq_true, Bool.not_eq_false']; exact hfree)
  · rw [launched, begun, ← hseq]
    rfl

/-! ### The end of a descriptor -/

/-- A change of one context after another. -/
def modCtxs (s : State) (ids : List Nat) (f : Nat → Ctx → Ctx) : State := ids.foldl (fun t id => t.modCtx id (f id)) s

theorem modCtxs_eq (s : State) (ids : List Nat) (f : Nat → Ctx → Ctx) : ∃ cs, s.modCtxs ids f = { s with ctxs := cs } := by
  induction ids generalizing s with
  | nil => exact ⟨_, rfl⟩
  | cons id ids ih =>
    obtain ⟨cs, e⟩ := ih (s.modCtx id (f id))
    exact ⟨cs, e⟩

theorem modCtxs_canonical (s : State) (ids : List Nat) (f : Nat → Ctx → Ctx) (h : s.Canonical) : (s.modCtxs ids f).Canonical := by
  induction ids generalizing s with
  | nil => exact h
  | cons id ids ih => exact ih _ (setCtx_canonical s id _ h)

/-- What every step of the changes keeps of a context, all of them keep. -/
theorem modCtxs_keeps (s : State) (ids : List Nat) (f : Nat → Ctx → Ctx) (P : Ctx → Prop) (hf : ∀ id c, P c → P (f id c)) (k : Nat)
    (h : s.Canonical) (hk : P (s.ctx k)) : P ((s.modCtxs ids f).ctx k) := by
  induction ids generalizing s with
  | nil => exact hk
  | cons id ids ih =>
    refine ih _ (setCtx_canonical s id _ h) ?_
    show P ((s.modCtx id (f id)).ctx k)
    by_cases hid : k = id
    · subst hid
      rw [ctx_modCtx s k _ h]
      exact hf k _ hk
    · rw [ctx_modCtx_ne s _ hid]
      exact hk

/-- A FENCE of an address space whose epoch has been reached completes; any other entry stays (R163, R198). -/
def fenceEnd (s : State) (a id : Nat) (d : Desc) : Desc :=
  if d.kind = kFENCE ∧ d.stage = .running ∧ s.fencePending id d.index = false ∧
      epochAge (s.fld (a_XL_ASSTAT a) XL_ASSTAT_EPOCH) (s.fld (a_XL_ASSTAT a) XL_ASSTAT_DONE_EPOCH)
        ≤ epochAge (s.fld (a_XL_ASSTAT a) XL_ASSTAT_EPOCH) d.epoch then
    { d with stage := .complete, ended := s.dieNow (burlOf (id / 256)) } else d

theorem completeFences_eq (s : State) (a : Nat) :
    s.completeFences a = s.modCtxs (s.idsOf a) (fun id c => { c with descs := c.descs.map (s.fenceEnd a id) }) := rfl

theorem fenceEnd_other {s : State} {a id : Nat} {d : Desc} (h : d.kind ≠ kFENCE ∨ d.stage ≠ .running) : s.fenceEnd a id d = d :=
  if_neg (fun ⟨hk, hst, _⟩ => h.elim (fun n => n hk) (fun n => n hst))

/-- An entry that is no running FENCE stays when fences complete. -/
theorem completeFences_keeps (s : State) (a id k : Nat) {e : Desc} (h : s.Canonical) (he : e.kind ≠ kFENCE ∨ e.stage ≠ .running)
    (hk : (s.ctx id).descs[k]? = some e) : ((s.completeFences a).ctx id).descs[k]? = some e := by
  rw [completeFences_eq]
  refine modCtxs_keeps s _ _ (fun c => c.descs[k]? = some e) (fun j c hc => ?_) id h hk
  rw [List.getElem?_map, hc, Option.map_some, fenceEnd_other he]

theorem advanceDone_eq (s : State) (a : Nat) :
    ∃ n, s.advanceDone a = (s.setFld (a_XL_ASSTAT a) XL_ASSTAT_DONE_EPOCH n).completeFences a := ⟨_, rfl⟩

theorem advanceDone_frame (s : State) (a : Nat) :
    ∃ cs rs, s.advanceDone a = { s with ctxs := cs, regs := rs } ∧ ∀ b, b ≠ a_XL_ASSTAT a → (s.advanceDone a).rd b = s.rd b := by
  obtain ⟨n, hn⟩ := advanceDone_eq s a
  rw [hn, completeFences_eq]
  generalize hu : s.setFld (a_XL_ASSTAT a) XL_ASSTAT_DONE_EPOCH n = u
  obtain ⟨cs, e⟩ := modCtxs_eq u (u.idsOf a) (fun id c => { c with descs := c.descs.map (u.fenceEnd a id) })
  rw [e]
  refine ⟨cs, u.regs, by rw [← hu]; rfl, fun b hb => ?_⟩
  show u.rd b = s.rd b
  rw [← hu, rd_setFld_ne _ _ _ _ _ hb]

theorem advanceDone_canonical (s : State) (a : Nat) (h : s.Canonical) : (s.advanceDone a).Canonical := by
  obtain ⟨n, hn⟩ := advanceDone_eq s a
  rw [hn, completeFences_eq]
  exact modCtxs_canonical _ _ _ (setFld_canonical s _ _ _ h)

theorem advanceDone_keeps (s : State) (a id k : Nat) {e : Desc} (h : s.Canonical) (he : e.kind ≠ kFENCE ∨ e.stage ≠ .running)
    (hk : (s.ctx id).descs[k]? = some e) : ((s.advanceDone a).ctx id).descs[k]? = some e := by
  obtain ⟨n, hn⟩ := advanceDone_eq s a
  rw [hn]
  exact completeFences_keeps _ a id k (setFld_canonical s _ _ _ h) he hk

/-- The first entry of a context with an index reaches another device. -/
def remoteFound (s : State) (id index : Nat) : Bool := (s.findDesc id index).any usesRemote

/-- The entries with an index have completed. -/
def ended (s : State) (id index status detail : Nat) : State :=
  s.modDesc id index (fun d => s.completed (id / 256) d status detail)

theorem finish_eq (s : State) (id index status detail : Nat) :
    s.finish id index status detail = if s.remoteFound id index = true then (s.ended id index status detail).advanceDone (s.asidOf id)
      else s.ended id index status detail := rfl

/-- The end of a descriptor changes contexts and registers alone, and of the registers only the epoch status of its address space,
where it reached another device (R199). -/
theorem finish_frame (s : State) (id index status detail : Nat) :
    ∃ cs rs, s.finish id index status detail = { s with ctxs := cs, regs := rs } ∧
      ∀ a, (s.remoteFound id index = true → a ≠ a_XL_ASSTAT (s.asidOf id)) → (s.finish id index status detail).rd a = s.rd a := by
  rw [finish_eq]
  split
  · rename_i hr
    obtain ⟨cs, rs, e, hrd⟩ := advanceDone_frame (s.ended id index status detail) (s.asidOf id)
    exact ⟨cs, rs, e, fun a ha => hrd a (ha hr)⟩
  · exact ⟨_, _, rfl, fun _ _ => rfl⟩

theorem finish_canonical (s : State) (id index status detail : Nat) (h : s.Canonical) :
    (s.finish id index status detail).Canonical := by
  have he : (s.ended id index status detail).Canonical := modDesc_canonical s _ _ _ h
  rw [finish_eq]
  split
  · exact advanceDone_canonical _ _ he
  · exact he

theorem ended_descs (s : State) (id index status detail : Nat) (h : s.Canonical) :
    ((s.ended id index status detail).ctx id).descs
      = endsWith index (fun d => s.completed (id / 256) d status detail) (s.ctx id).descs := descs_modDesc s id index _ h

/-- The end of a descriptor that reaches no other device completes its entries and leaves the others. -/
theorem finish_descs_local (s : State) (id index status detail : Nat) (h : s.Canonical) (hr : s.remoteFound id index = false) :
    ((s.finish id index status detail).ctx id).descs
      = endsWith index (fun d => s.completed (id / 256) d status detail) (s.ctx id).descs := by
  rw [finish_eq, hr]
  exact ended_descs s id index status detail h

/-- The end of a descriptor completes its entries and leaves every other that is no FENCE. -/
theorem finish_keeps (s : State) (id index status detail : Nat) (h : s.Canonical) {k : Nat} {e : Desc}
    (hk : (s.ctx id).descs[k]? = some e) (he : e.index = index ∨ e.kind ≠ kFENCE) :
    ((s.finish id index status detail).ctx id).descs[k]?
      = some (if e.index = index then s.completed (id / 256) e status detail else e) := by
  have hended := getElem?_endsWith index (fun d => s.completed (id / 256) d status detail) _ hk
  rw [← ended_descs s id index status detail h] at hended
  rw [finish_eq]
  split
  · refine advanceDone_keeps _ _ id k (modDesc_canonical s _ _ _ h) ?_ hended
    by_cases hi : e.index = index
    · rw [if_pos hi]
      exact Or.inr (by simp [completed])
    · rw [if_neg hi]
      exact Or.inl (he.resolve_left hi)
  · exact hended

/-! ### The end of a descriptor that has been launched -/

/-- A state in which a descriptor of a slot stands in the place of its own entry, at the time and with the address spaces of s. -/
structure Placed (s u : State) (id : Nat) (d b : Desc) : Prop where
  canonical : u.Canonical
  mem : d ∈ (s.ctx id).descs
  index : b.index = d.index
  remote : usesRemote b = usesRemote d
  descs : (u.ctx id).descs = s.descsWith id b
  now : u.now = s.now
  dies : u.dies = s.dies
  asid : u.asidOf id = s.asidOf id

theorem launched_placed {s : State} {p slot : Nat} {d : Desc} (h : s.Canonical) (r : s.Runs p slot d) :
    s.Placed (s.launched p slot d) (cid p slot) d (s.begun p slot d) := by
  have hc := launched_canonical s p slot d h
  have hd := launched_descs s p slot d h
  obtain ⟨cs, ps, e⟩ := launched_eq s p slot d
  rw [e] at hc hd ⊢
  exact { canonical := hc, mem := r.mem, index := rfl, remote := rfl, descs := hd, now := rfl, dies := rfl, asid := rfl }

/-- The first entry found at the descriptor's index is the descriptor. -/
theorem Placed.find {s u : State} {id : Nat} {d b : Desc} (h : s.Placed u id d b) : u.findDesc id d.index = some b := by
  have hmem : b ∈ (u.ctx id).descs := by
    rw [h.descs, descsWith_eq, endsWith]
    exact List.mem_map.mpr ⟨d, h.mem, if_pos h.index.symm⟩
  have only : ∀ e ∈ (u.ctx id).descs, e.index = d.index → e = b := by
    rw [h.descs, descsWith_eq, endsWith]
    intro e he hi
    obtain ⟨x, -, rfl⟩ := List.mem_map.mp he
    split
    · rfl
    · rename_i hne
      rw [if_neg hne] at hi
      exact absurd (hi.trans h.index.symm) hne
  cases hf : (u.ctx id).descs.find? (fun e => e.index == d.index) with
  | none => exact absurd h.index (by simpa using List.find?_eq_none.mp hf b hmem)
  | some e =>
    rw [findDesc, hf, only e (List.mem_of_find?_eq_some hf) (by simpa using List.find?_some hf)]

theorem Placed.remoteFound {s u : State} {id : Nat} {d b : Desc} (h : s.Placed u id d b) : u.remoteFound id d.index = usesRemote d := by
  rw [State.remoteFound, h.find, Option.any_some, h.remote]

/-- A descriptor that reaches another device is an entry that does. -/
theorem Placed.remoteAt {s u : State} {id : Nat} {d b : Desc} (h : s.Placed u id d b) (hr : usesRemote d = true) :
    s.remoteAt id d.index := ⟨d, h.mem, rfl, hr⟩

theorem dieNow_congr {s u : State} {die : Nat} (hn : u.now = s.now) (hd : u.dies = s.dies) : u.dieNow die = s.dieNow die := by
  unfold dieNow State.die
  rw [hn, hd]

theorem Placed.completed {s u : State} {id : Nat} {d b : Desc} (h : s.Placed u id d b) (p : Nat) (e : Desc) (status detail : Nat) :
    u.completed p e status detail = s.completed p e status detail := by
  rw [State.completed, State.completed, dieNow_congr h.now h.dies]

theorem Placed.getElem? {s u : State} {id : Nat} {d b : Desc} (h : s.Placed u id d b) {k : Nat} {e : Desc}
    (hk : (s.ctx id).descs[k]? = some e) : (u.ctx id).descs[k]? = some (if e.index = d.index then b else e) := by
  rw [h.descs, descsWith_eq, getElem?_endsWith _ _ _ hk, h.index]

/-- When the descriptor ends, its entry becomes the completed one. -/
theorem Placed.becomes {s u : State} {id : Nat} {d b : Desc} (h : s.Placed u id d b) (status detail : Nat) :
    s.becomes (u.finish id d.index status detail) id d.index (fun _ => s.completed (id / 256) b status detail) := by
  refine ⟨fun hlocal => ?_, fun k e hk => ?_⟩
  · have hr : u.remoteFound id d.index = false := by
      rw [h.remoteFound]
      exact Bool.eq_false_iff.mpr (fun hr => hlocal (h.remoteAt hr))
    rw [finish_descs_local u id d.index status detail h.canonical hr, h.descs, descsWith_eq, h.index,
      endsWith_endsWith _ _ _ _ (fun _ _ => h.index), h.completed]
    rfl
  · have hu := h.getElem? hk
    constructor
    · intro hi
      rw [if_pos hi] at hu
      have := finish_keeps u id d.index status detail h.canonical hu (Or.inl h.index)
      rwa [if_pos h.index, h.completed] at this
    · intro hi hfence
      rw [if_neg hi] at hu
      have := finish_keeps u id d.index status detail h.canonical hu (Or.inr hfence)
      rwa [if_neg hi] at this

theorem Placed.rd_finish {s u : State} {id : Nat} {d b : Desc} (h : s.Placed u id d b) (status detail : Nat) {a : Nat}
    (ha : s.remoteAt id d.index → a ≠ a_XL_ASSTAT (s.asidOf id)) : (u.finish id d.index status detail).rd a = u.rd a := by
  obtain ⟨_, _, -, hrd⟩ := finish_frame u id d.index status detail
  refine hrd a (fun hr => ?_)
  rw [h.asid]
  exact ha (h.remoteAt (h.remoteFound.symm.trans hr))

/-- What the end of a launched descriptor leaves, when it ends at its dispatch. -/
theorem launched_finish {s : State} {p slot : Nat} {d : Desc} (h : s.Canonical) (r : s.Runs p slot d) (hs : slot < 192)
    (status detail : Nat) :
    let t := (s.launched p slot d).finish (cid p slot) d.index status detail
    s.becomes t (cid p slot) d.index (fun _ => s.completed p (s.begun p slot d) status detail) ∧
      s.sameRegs t (cid p slot) d.index ∧ s.dispatched t p slot ∧ t.mem = s.mem ∧ t.ts = s.ts ∧ t.bead = s.bead := by
  intro t
  have hb := (launched_placed h r).becomes status detail
  have hrd := fun a => (launched_placed h r).rd_finish status detail (a := a)
  obtain ⟨cs, rs, e, -⟩ := finish_frame (s.launched p slot d) (cid p slot) d.index status detail
  have hp := launched_dispatched s p slot d h
  obtain ⟨cs', ps, e'⟩ := launched_eq s p slot d
  rw [cid_div p hs] at hb
  refine ⟨hb, fun a ha => (hrd a ha).trans (by rw [e']; rfl), ?_⟩
  show s.dispatched ((s.launched p slot d).finish (cid p slot) d.index status detail) p slot ∧ _
  simp only [t, e]
  rw [e'] at hp ⊢
  exact ⟨hp, rfl, rfl, rfl⟩

/-- A later change of the entry changes what it becomes. -/
theorem becomes_modDesc {s t : State} {id index : Nat} {f : Desc → Desc} (g : Desc → Desc) (ht : t.Canonical)
    (hf : ∀ e, (f e).index = index) (h : s.becomes t id index f) :
    s.becomes (t.modDesc id index g) id index (fun e => g (f e)) := by
  obtain ⟨hlocal, hall⟩ := h
  refine ⟨fun hr => ?_, fun k e hk => ⟨fun hi => ?_, fun hi hfence => ?_⟩⟩
  · rw [descs_modDesc t id index g ht, hlocal hr]
    exact endsWith_endsWith index f g _ (fun e _ => hf e)
  · rw [descs_modDesc t id index g ht, getElem?_endsWith _ _ _ ((hall k e hk).1 hi), if_pos (hf e)]
  · rw [descs_modDesc t id index g ht, getElem?_endsWith _ _ _ ((hall k e hk).2 hi hfence), if_neg hi]

end State
end Sys2Proof.Machine
end

section
/-! PROOFS. Dispatch of SIGNAL and WAIT (R39, R154, R156, R167, R200, R217). -/

namespace Sys2Proof.Machine

open State

namespace State

/-! ### Predicate bits (R122) -/

theorem natBit_natSetBit (w b : Nat) (v : Bool) : natBit (natSetBit w b v) b = v := by
  have hpos : 0 < 2 ^ b := Nat.two_pow_pos b
  cases hw : natBit w b with
  | false =>
    cases v with
    | false => simp [natSetBit, hw]
    | true =>
      simp only [natSetBit, hw]
      simp only [natBit, Nat.add_div_right w hpos, beq_iff_eq, beq_eq_false_iff_ne] at hw ⊢
      omega
  | true =>
    cases v with
    | true => simp [natSetBit, hw]
    | false =>
      have hle : 2 ^ b ≤ w := by
        by_contra hlt
        simp [natBit, Nat.div_eq_of_lt (Nat.lt_of_not_le hlt)] at hw
      simp only [natSetBit, hw]
      obtain ⟨x, rfl⟩ := Nat.exists_eq_add_of_le' hle
      simp only [natBit, Nat.add_div_right x hpos, Nat.add_sub_cancel, beq_iff_eq, beq_eq_false_iff_ne] at hw ⊢
      omega

/-- A 64-bit word keeps its width when one of its bits is set. -/
theorem natSetBit_lt {w b : Nat} (v : Bool) (hw : w < 2 ^ 64) (hb : b < 64) : natSetBit w b v < 2 ^ 64 := by
  unfold natSetBit
  split
  · exact lt_of_le_of_lt (Nat.sub_le _ _) hw
  · rename_i hbit
    have hpos : 0 < 2 ^ b := Nat.two_pow_pos b
    have e64 : (2 : Nat) ^ 64 = 2 * 2 ^ (63 - b) * 2 ^ b := by rw [← pow_succ', ← pow_add]; congr 1; omega
    rw [e64] at hw ⊢
    have hq := (Nat.div_lt_iff_lt_mul hpos).mpr hw
    simp only [natBit, beq_eq_false_iff_ne] at hbit
    rw [← Nat.div_lt_iff_lt_mul hpos, Nat.add_div_right w hpos]
    omega
  · exact hw

theorem predBit_setPred (s : State) (p i : Nat) (v : Bool) (h : s.Canonical) : (s.setPred p i v).predBit p i = v := by
  have hlt := natSetBit_lt (b := i % 64) v (s.rd (a_PT_PRED p (i / 64))).isLt (Nat.mod_lt _ (by decide))
  rw [predBit, setPred, rd_wr s _ _ h, BitVec.toNat_ofNat, Nat.mod_eq_of_lt hlt, natBit_natSetBit]

/-! ### A started descriptor -/

/-- From s to t the entry e of a slot has been dispatched and has started; registers and memories are the same. -/
structure Started (s t : State) (p slot : Nat) (e : Desc) : Prop where
  descs : (t.ctx (cid p slot)).descs = s.descsWith (cid p slot) e
  dispatched : s.dispatched t p slot
  sameData : s.sameData t

theorem launched_started {s : State} {p slot : Nat} {d : Desc} (h : s.Canonical) :
    s.Started (s.launched p slot d) p slot (s.begun p slot d) := by
  have hd := launched_descs s p slot d h
  have hp := launched_dispatched s p slot d h
  obtain ⟨cs, ps, e⟩ := launched_eq s p slot d
  rw [e] at hd hp ⊢
  exact ⟨hd, hp, rfl, rfl, rfl, rfl⟩

/-- A change of the started entry. -/
theorem Started.modDesc {s u : State} {p slot : Nat} {e : Desc} (hu : u.Canonical) (h : s.Started u p slot e) {f : Desc → Desc}
    {e' : Desc} (he : f e = e') (hi : e'.index = e.index) :
    s.Started (u.modDesc (cid p slot) e.index f) p slot e' := by
  refine ⟨?_, h.dispatched, h.sameData⟩
  rw [descs_modDesc _ _ _ _ hu, h.descs, descsWith_eq, endsWith_const f _ rfl, he, descsWith_eq, hi]

/-- Which earlier descriptors are pending does not depend on the entry itself (R156). -/
theorem seqPending_launched {s : State} {p slot : Nat} {d : Desc} (h : s.Canonical) :
    (s.launched p slot d).seqPending (cid p slot) (s.begun p slot d) = s.seqPending (cid p slot) d := by
  have hd := launched_descs s p slot d h
  obtain ⟨cs, ps, e⟩ := launched_eq s p slot d
  have hr : (s.launched p slot d).ringSize (cid p slot) = s.ringSize (cid p slot) := by rw [e]; rfl
  rw [seqPending, hd, hr, seqPending, descsWith_eq, endsWith, List.any_map]
  congr 1
  funext x
  have hb : (s.begun p slot d).index = d.index := rfl
  have hv : (s.begun p slot d).wtValue = d.wtValue := rfl
  simp only [Function.comp, hb, hv]
  split
  · rename_i hx
    simp [hb, hx]
  · rfl

/-- A message joins the Bead network (R39). -/
def send (s : State) (m : Bead) : State := { s with bead := s.bead ++ [m] }

theorem Started.send {s t : State} {p slot : Nat} {e : Desc} (h : s.Started t p slot e) (m : Bead) : s.Started (t.send m) p slot e :=
  ⟨h.descs, h.dispatched, h.sameData⟩

theorem bead_send {s t : State} (h : t.bead = s.bead) (m : Bead) : (t.send m).bead = s.bead ++ [m] := by rw [State.send, h]

/-! ### The bodies -/

theorem signalBody_launched {s : State} {p slot : Nat} {d : Desc} (op : Desc → SemOp) (hs : slot < 192) :
    signalBody op (s.launched p slot d) (cid p slot) (s.begun p slot d)
      = (s.launched p slot d).send (.update d.sgPart d.sgSem (op (s.begun p slot d)) (.desc p ⟨slot, d.index⟩)) := by
  simp only [signalBody, cid_div p hs, cid_mod p hs]
  rfl

/-- The flag of this device: a job of one 4-byte write begins. -/
theorem fabFlagBody_local {s : State} {p slot : Nat} {d : Desc} {x : Extent} {pa : Nat} (h : s.Canonical) (hs : slot < 192)
    (hx : physical (d.operand 2).exts d.flagVa = some (x, pa)) (ht : x.tier ≠ 2) :
    let t := fabFlagBody (s.launched p slot d) (cid p slot) (s.begun p slot d)
    (∃ j ∈ t.jobs, j.pp = p ∧ j.ref = ⟨slot, d.index⟩ ∧ j.writes = [⟨pa, 4⟩] ∧ j.alt = [⟨pa, leBytes d.sgValue 4, false⟩]) ∧
      s.Started t p slot (s.begun p slot d) ∧ t.bead = s.bead := by
  obtain ⟨hd, hp, hdata⟩ := launched_started (p := p) (slot := slot) (d := d) h
  obtain ⟨cs, ps, e⟩ := launched_eq s p slot d
  have hx' : physical ((s.begun p slot d).operand 2).exts (s.begun p slot d).flagVa = some (x, pa) := hx
  rw [e] at hd hp hdata ⊢
  simp only [fabFlagBody, hx', ht, if_false, cid_div p hs, cid_mod p hs]
  refine ⟨?_, ⟨hd, hp, hdata⟩, rfl⟩
  simp only [modJob, addJob, List.map_append, List.map_cons, List.map_nil, List.mem_append, List.mem_singleton]
  exact ⟨_, Or.inr rfl, by simp [begun, configured, resolved, Desc.sgValue, Desc.f, Desc.qw]⟩

/-- The flag of another device: a WR4 packet leaves by the port of its route. -/
theorem fabFlagBody_remote {s : State} {p slot : Nat} {d : Desc} {x : Extent} {pa port : Nat} (h : s.Canonical) (hs : slot < 192)
    (hx : physical (d.operand 2).exts d.flagVa = some (x, pa)) (ht : x.tier = 2) (hr : s.routeTo (pa / 2 ^ 45) tyWR4 = some port) :
    let t := fabFlagBody (s.launched p slot d) (cid p slot) (s.begun p slot d)
    t.outbox = s.outbox ++ [.packet port (s.reqHeader tyWR4 pa 0 0 d.rmode (s.tenantOf (cid p slot))
        (if d.rmode = 1 then x.rctx else 0) d.sgValue s.nextTag) []] ∧
      t.nextTag = (s.nextTag + 1) % 65536 ∧
      (∃ y ∈ t.remotes, y.tag = s.nextTag ∧ y.pp = p ∧ y.ref = ⟨slot, d.index⟩ ∧ y.pa = pa) ∧
      s.Started t p slot (s.begun p slot d) ∧ t.bead = s.bead := by
  obtain ⟨hd, hp, hdata⟩ := launched_started (p := p) (slot := slot) (d := d) h
  obtain ⟨cs, ps, e⟩ := launched_eq s p slot d
  have hx' : physical ((s.begun p slot d).operand 2).exts (s.begun p slot d).flagVa = some (x, pa) := hx
  have hr' : (s.launched p slot d).routeTo (pa / 2 ^ 45) 5 = some port := by rw [e]; exact hr
  rw [e] at hd hp hdata hr' ⊢
  simp only [fabFlagBody, hx', ht, if_true, cid_div p hs, cid_mod p hs, sendRemote, hr']
  refine ⟨rfl, trivial, ?_, ⟨hd, hp, hdata⟩, trivial⟩
  exact ⟨_, List.mem_append_right _ (List.mem_singleton_self _), rfl, rfl, rfl, rfl⟩

/-- The descriptor as it stands while it blocks until its timeout. -/
def blockedDesc (s : State) (p slot : Nat) (d : Desc) : Desc :=
  { s.begun p slot d with until_ := s.waitUntil (cid p slot) d }

/-- The WAIT blocks until its timeout, and nothing is sent. -/
theorem waitFlagBody_launched {s : State} {p slot : Nat} {d : Desc} (h : s.Canonical) :
    let t := waitFlagBody (s.launched p slot d) (cid p slot) (s.begun p slot d)
    s.Started t p slot (s.blockedDesc p slot d) ∧ t.bead = s.bead := by
  have hc := launched_canonical s p slot d h
  have hstart := launched_started (p := p) (slot := slot) (d := d) h
  obtain ⟨cs, ps, e⟩ := launched_eq s p slot d
  rw [e] at hc hstart ⊢
  exact ⟨hstart.modDesc hc rfl rfl, rfl⟩

theorem waitSemBody_eq {s : State} {p slot : Nat} (d : Desc) (hs : slot < 192) :
    s.waitSemBody (cid p slot) d = (s.waitFlagBody (cid p slot) d).send
      (.waitArrive p ⟨slot, d.index⟩ d.wtPart d.wtSem d.wtCond d.wtValue d.wtTest) := by
  simp only [waitSemBody, cid_div p hs, cid_mod p hs]
  rfl

theorem waitBarrierBody_eq {s : State} {p slot : Nat} (d : Desc) (hs : slot < 192) :
    s.waitBarrierBody (cid p slot) d = (s.waitFlagBody (cid p slot) d).send
      (.barArrive (d.wtSem % 256) (some (p, ⟨slot, d.index⟩))) := by
  simp only [waitBarrierBody, cid_div p hs, cid_mod p hs]
  rfl

theorem waitSeqBody_pending {s : State} {id : Nat} {d : Desc} (ht : d.wtTest = false) (hp : s.seqPending id d = true) :
    s.waitSeqBody id d = s.waitFlagBody id d := by
  simp only [waitSeqBody, ht, hp, Bool.false_eq_true, if_false, if_true]
  rfl

theorem waitSeqBody_passed {s : State} {id : Nat} {d : Desc} (ht : d.wtTest = false) (hp : s.seqPending id d = false) :
    s.waitSeqBody id d = s.finish id d.index stOK 0 := by
  simp only [waitSeqBody, ht, hp, Bool.false_eq_true, if_false]
  rfl

theorem waitSeqBody_test {s : State} {p slot : Nat} {d : Desc} (ht : d.wtTest = true) (hs : slot < 192) :
    s.waitSeqBody (cid p slot) d = s.endWait p ⟨slot, d.index⟩ (!s.seqPending (cid p slot) d) := by
  simp only [waitSeqBody, ht, if_true, cid_div p hs, cid_mod p hs]

/-- A predicate bit is written beside everything that the end of a descriptor looks at. -/
theorem Placed.setPred {s u : State} {p slot : Nat} {d b : Desc} (h : s.Placed u (cid p slot) d b) (hs : slot < 192)
    {i : Nat} (hi : i < 256) (v : Bool) : s.Placed (u.setPred p i v) (cid p slot) d b where
  canonical := wr_canonical _ _ _ h.canonical
  mem := h.mem
  index := h.index
  remote := h.remote
  descs := h.descs
  now := h.now
  dies := h.dies
  asid := by
    rw [← h.asid]
    simp only [asidOf, cfg, fld, State.setPred]
    rw [rd_wr_ne _ _ _ _ (by simp only [cfgAddr, cid_div p hs, cid_mod p hs, a_PT_CTXCFG, a_PT_PRED]; omega)]

/-- A descriptor completes with OK, and its record says whether its condition was false. -/
def endTest (u : State) (id index : Nat) (c : Bool) : State :=
  (u.finish id index stOK 0).modDesc id index (fun x => { x with condFalse := c })

theorem Placed.endTest_becomes {s u : State} {id : Nat} {d b : Desc} (h : s.Placed u id d b) (c : Bool) :
    s.becomes (u.endTest id d.index c) id d.index (fun _ => { s.completed (id / 256) b stOK 0 with condFalse := c }) :=
  becomes_modDesc (f := fun _ => s.completed (id / 256) b stOK 0) (fun x => { x with condFalse := c })
    (finish_canonical u _ _ _ _ h.canonical) (fun _ => h.index) (h.becomes stOK 0)

theorem endTest_frame (u : State) (id index : Nat) (c : Bool) :
    (u.endTest id index c).parts = u.parts ∧ (u.endTest id index c).mem = u.mem ∧ (u.endTest id index c).ts = u.ts ∧
      (u.endTest id index c).bead = u.bead := by
  obtain ⟨cs, rs, e, -⟩ := finish_frame u id index stOK 0
  rw [endTest, e]
  exact ⟨rfl, rfl, rfl, rfl⟩

/-- A WAIT with TEST that ends writes its outcome to its predicate bit and completes (R156). -/
theorem endWait_test {s : State} {p slot : Nat} {d : Desc} {ok : Bool} (hf : s.findDesc (cid p slot) d.index = some d)
    (hr : d.stage = .running) (ht : d.wtTest = true) :
    s.endWait p ⟨slot, d.index⟩ ok = (s.setPred p d.wtPredOut ok).endTest (cid p slot) d.index (!ok) := by
  simp only [endWait, hf, hr, ht, ne_eq, not_true_eq_false, if_false, if_true, Bool.true_and]
  rfl

theorem predOut_lt (d : Desc) : d.wtPredOut < 256 := natBits_lt _ _ _

/-- What a WAIT with TEST leaves that ends at its dispatch with an outcome. -/
theorem endTest_launched {s : State} {p slot : Nat} {d : Desc} (h : s.Canonical) (r : s.Runs p slot d) (hp : p < 24)
    (hs : slot < 192) (ok : Bool) :
    let t := ((s.launched p slot d).setPred p d.wtPredOut ok).endTest (cid p slot) d.index (!ok)
    t.predBit p d.wtPredOut = ok ∧
      (∀ a, a ≠ a_PT_PRED p (d.wtPredOut / 64) → (s.remoteAt (cid p slot) d.index → a ≠ a_XL_ASSTAT (s.asidOf (cid p slot))) →
        t.rd a = s.rd a) ∧
      s.dispatched t p slot ∧ t.mem = s.mem ∧ t.ts = s.ts ∧ t.bead = s.bead ∧
      s.becomes t (cid p slot) d.index (fun _ => { s.completed p (s.begun p slot d) stOK 0 with condFalse := !ok }) := by
  have hi := predOut_lt d
  have hplaced := (launched_placed h r).setPred hs hi ok
  have hbecomes := hplaced.endTest_becomes (!ok)
  have hrd := fun a => hplaced.rd_finish stOK 0 (a := a)
  have hdisp := launched_dispatched s p slot d h
  have hbit := predBit_setPred (s.launched p slot d) p d.wtPredOut ok (launched_canonical s p slot d h)
  have hframe := endTest_frame ((s.launched p slot d).setPred p d.wtPredOut ok) (cid p slot) d.index (!ok)
  obtain ⟨hparts, hmem, hts, hbead⟩ := hframe
  rw [cid_div p hs] at hbecomes
  have hfar : a_PT_PRED p (d.wtPredOut / 64) ≠ a_XL_ASSTAT (s.asidOf (cid p slot)) := by
    simp only [a_PT_PRED, a_XL_ASSTAT]; omega
  have hpart : ∀ q, (((s.launched p slot d).setPred p d.wtPredOut ok).endTest (cid p slot) d.index (!ok)).part q
      = (s.launched p slot d).part q := fun q => by rw [part, hparts]; rfl
  obtain ⟨cs, ps, e⟩ := launched_eq s p slot d
  intro t
  refine ⟨?_, fun a hne ha => ?_, ?_, hmem.trans (by rw [e]; rfl), hts.trans (by rw [e]; rfl), hbead.trans (by rw [e]; rfl), hbecomes⟩
  · rw [← hbit, predBit, predBit]
    exact congrArg (fun w : Word => natBit w.toNat (d.wtPredOut % 64)) (hrd _ (fun _ => hfar))
  · refine (hrd a ha).trans ((rd_wr_ne _ _ _ _ hne).trans ?_)
    rw [e]
    rfl
  · obtain ⟨hlast, hseq, hother⟩ := hdisp
    exact ⟨(congrArg Part.lastDisp (hpart p)).trans hlast, (congrArg Part.dispatchSeq (hpart p)).trans hseq,
      fun q hq => (hpart q).trans (hother q hq)⟩

/-- A WAIT on a sequence number with TEST ends at its dispatch. -/
theorem waitSeqBody_tested {s : State} {p slot : Nat} {d : Desc} (h : s.Canonical) (r : s.Runs p slot d) (hs : slot < 192)
    (ht : d.wtTest = true) {ok : Bool} (hok : s.seqPending (cid p slot) d = !ok) :
    (s.launched p slot d).waitSeqBody (cid p slot) (s.begun p slot d)
      = ((s.launched p slot d).setPred p d.wtPredOut ok).endTest (cid p slot) d.index (!ok) := by
  have hend := endWait_test (ok := ok) (d := s.begun p slot d) (launched_placed h r).find rfl ht
  have hbody := waitSeqBody_test (s := s.launched p slot d) (p := p) (d := s.begun p slot d) ht hs
  rw [seqPending_launched h, hok, Bool.not_not] at hbody
  exact hbody.trans hend

/-! ### The commands -/

theorem waitBarrierCheck_none {s : State} {p slot : Nat} {d : Desc} (ha : s.barrierAdmits (cid p slot) (d.wtSem % 256) = true)
    (hc : d.wtScope = s.fld (a_BD_BARCFG (d.wtSem % 256)) BD_BARCFG_SCOPE) :
    waitBarrierCheck (s.shaped p slot d) (cid p slot) (s.shapedDesc p slot d) = none := by
  obtain ⟨cs, ps, e⟩ := shaped_eq s p slot d
  rw [e]
  show waitBarrierCheck s (cid p slot) d = none
  simp only [waitBarrierCheck, ha, hc, Bool.not_true, Bool.false_eq_true, if_false, ne_eq, not_true_eq_false]

/-- A SIGNAL below FAB scope sends its update. -/
theorem dispatchSignal_sends {s : State} {p slot : Nat} {d : Desc} (h : s.Canonical) (r : s.Runs p slot d) (hs : slot < 192)
    (op : Desc → SemOp) {code : Nat} (hk : d.kind = kSIGNAL) (hf : d.sgScope ≠ 3) (hop : d.sgOp = code) :
    dispatchSignal p slot code op s
      = (s.launched p slot d).send (.update d.sgPart d.sgSem (op (s.begun p slot d)) (.desc p ⟨slot, d.index⟩)) := by
  rw [dispatchSignal, dispatchNext_runs h r _ (by simp [hk, hf, hop]) rfl rfl, signalBody_launched op hs]

/-- A WAIT of a source that the checks of dispatch let pass runs its body. -/
theorem dispatchWait_runs {s : State} {p slot src : Nat} {d : Desc} (h : s.Canonical) (r : s.Runs p slot d)
    {check : State → Nat → Desc → Option DispatchFail} (body : State → Nat → Desc → State) (hk : d.kind = kWAIT) (hsrc : d.wtSrc = src)
    (hcheck : check (s.shaped p slot d) (cid p slot) (s.shapedDesc p slot d) = none) :
    dispatchWait p slot src check body s = body (s.launched p slot d) (cid p slot) (s.begun p slot d) :=
  dispatchNext_runs h r body (by simp [hk, hsrc]) hcheck rfl

end State

/-- Settles O45: each command launches its descriptor, and its body sends, blocks or ends it. -/
theorem signalsAndWaitsDispatch : Obligations.SignalsAndWaitsDispatch := by
  intro pp slot d s h r id ref b untilD started
  have hs : slot.val < 192 := slot.isLt
  have hstart := launched_started (p := pp) (slot := slot) (d := d) h
  have hbead : (s.launched pp slot d).bead = s.bead ∧ (s.launched pp slot d).jobs = s.jobs := by
    obtain ⟨cs, ps, e⟩ := launched_eq s pp slot d
    rw [e]
    exact ⟨rfl, rfl⟩
  have hblock := waitFlagBody_launched (p := pp) (slot := slot) (d := d) h
  have asStarted : ∀ {t : State} {e : Desc}, s.Started t pp slot e → started t e := fun x => ⟨x.descs, x.dispatched, x.sameData⟩
  refine ⟨fun co hco hk hf hop => ?signal, fun x pa hk hsc hx => ⟨fun ht => ?fabHere, fun port ht hr => ?fabAway⟩,
    fun hk hsrc => ?sem, fun hk hsrc => ?flag, fun hk hsrc ha hc => ?barrier,
    fun hk hsrc ht => ⟨fun hp => ?seqBlocks, fun hp => ?seqPasses⟩, fun hk hsrc ht => ?seqTest⟩
  case signal =>
    have sent (c : Instr) (m : Bead) (hm : exec c s = .next ((s.launched pp slot d).send m)) :
        ∃ t, exec c s = .next t ∧ t.bead = s.bead ++ [m] ∧ started t b ∧ t.jobs = s.jobs :=
      ⟨_, hm, bead_send hbead.1 m, asStarted (hstart.send m), hbead.2⟩
    simp only [List.mem_cons, List.not_mem_nil, or_false] at hco
    obtain rfl | rfl | rfl | rfl := hco
    · exact sent _ _ (congrArg Host.Outcome.next (dispatchSignal_sends h r hs (fun d => .add d.sgValue) hk hf hop))
    · exact sent _ _ (congrArg Host.Outcome.next (dispatchSignal_sends h r hs (fun d => .set d.sgValue) hk hf hop))
    · exact sent _ _ (congrArg Host.Outcome.next (dispatchSignal_sends h r hs (fun d => .max d.sgValue) hk hf hop))
    · exact sent _ _ (congrArg Host.Outcome.next (dispatchSignal_sends h r hs (fun d => .cas d.sgCmp d.sgValue) hk hf hop))
  case fabHere =>
    obtain ⟨hjob, hst, hb⟩ := fabFlagBody_local h hs hx ht
    exact ⟨_, congrArg Host.Outcome.next (dispatchNext_runs h r fabFlagBody (by simp [hk, hsc]) rfl rfl), hjob, asStarted hst, hb⟩
  case fabAway =>
    obtain ⟨hout, htag, hrem, hst, hb⟩ := fabFlagBody_remote h hs hx ht hr
    exact ⟨_, congrArg Host.Outcome.next (dispatchNext_runs h r fabFlagBody (by simp [hk, hsc]) rfl rfl), hout, htag, hrem,
      asStarted hst, hb⟩
  case sem =>
    refine ⟨_, congrArg Host.Outcome.next ((dispatchWait_runs h r waitSemBody hk hsrc rfl).trans (waitSemBody_eq _ hs)), ?_, ?_⟩
    · exact bead_send hblock.2 _
    · exact asStarted (hblock.1.send _)
  case flag => exact ⟨_, congrArg Host.Outcome.next (dispatchWait_runs h r waitFlagBody hk hsrc rfl), hblock.2, asStarted hblock.1⟩
  case barrier =>
    refine ⟨_, congrArg Host.Outcome.next ((dispatchWait_runs h r waitBarrierBody hk hsrc (waitBarrierCheck_none ha hc)).trans
      (waitBarrierBody_eq _ hs)), ?_, ?_⟩
    · exact bead_send hblock.2 _
    · exact asStarted (hblock.1.send _)
  case seqBlocks =>
    have hbody := waitSeqBody_pending (d := s.begun pp slot d) ht ((seqPending_launched h).trans hp)
    exact ⟨_, congrArg Host.Outcome.next ((dispatchWait_runs h r waitSeqBody hk hsrc rfl).trans hbody), asStarted hblock.1, hblock.2⟩
  case seqPasses =>
    have hbody := waitSeqBody_passed (d := s.begun pp slot d) ht ((seqPending_launched h).trans hp)
    exact ⟨_, congrArg Host.Outcome.next ((dispatchWait_runs h r waitSeqBody hk hsrc rfl).trans hbody), launched_finish h r hs stOK 0⟩
  case seqTest =>
    obtain ⟨ok, hok⟩ : ∃ ok, s.seqPending id d = !ok := ⟨!s.seqPending id d, (Bool.not_not _).symm⟩
    rw [hok, Bool.not_not]
    exact ⟨_, congrArg Host.Outcome.next ((dispatchWait_runs h r waitSeqBody hk hsrc rfl).trans (waitSeqBody_tested h r hs ht hok)),
      endTest_launched h r pp.isLt hs ok⟩

end Sys2Proof.Machine
end

section
/-! PROOFS. Commits of staged register groups: link roles, matrix ramp, way masks, fault ring and tier manager (R14, R22, R71, R189,
R233, R332). -/

namespace Sys2Proof.Machine

open State

namespace State

/-! ### A commit of a group -/

theorem foldl_wr_canonical (as : List Nat) (f : Nat → Word) (s : State) (h : s.Canonical) :
    (as.foldl (fun t a => t.wr a (f a)) s).Canonical := by
  induction as generalizing s with
  | nil => exact h
  | cons a as ih => exact ih _ (wr_canonical s a _ h)

/-- Writing registers one by one leaves in each register of the list its word. -/
theorem rd_foldl_wr_mem {as : List Nat} {b : Nat} (f : Nat → Word) (s : State) (h : s.Canonical) (hb : b ∈ as) :
    (as.foldl (fun t a => t.wr a (f a)) s).rd b = f b := by
  induction as generalizing s with
  | nil => cases hb
  | cons a as ih =>
    rw [List.foldl_cons]
    by_cases hlater : b ∈ as
    · exact ih _ (wr_canonical s a _ h) hlater
    · obtain rfl := (List.mem_cons.mp hb).resolve_right hlater
      rw [rd_foldl_wr_ne as f _ b hlater, rd_wr s b _ h]

theorem foldl_wr_eq (as : List Nat) (f : Nat → Word) (s : State) :
    ∃ rs, as.foldl (fun t a => t.wr a (f a)) s = { s with regs := rs } := by
  induction as generalizing s with
  | nil => exact ⟨_, rfl⟩
  | cons a as ih =>
    obtain ⟨rs, e⟩ := ih (s.wr a (f a))
    exact ⟨rs, e⟩

/-- A commit changes live and staged registers alone. -/
theorem commit_eq (s : State) (as : List Nat) : ∃ rs st, s.commit as = { s with regs := rs, staged := st } := by
  obtain ⟨rs, e⟩ := foldl_wr_eq as s.stagedRd s
  rw [commit, e]
  exact ⟨rs, _, rfl⟩

theorem commit_canonical (s : State) (as : List Nat) (h : s.Canonical) : (s.commit as).Canonical :=
  discard_canonical _ as (foldl_wr_canonical as _ s h)

/-- What a commit leaves of a group of registers: it makes them live where its settings are legal, and changes no other register. -/
structure Committed (s t : State) (as : List Nat) (legal : Prop) [Decidable legal] : Prop where
  group : ∀ a ∈ as, t.rd a = if legal then s.stagedRd a else s.rd a
  others : ∀ a, a ∉ as → t.rd a = s.rd a
  mem : t.mem = s.mem

theorem commit_committed {s : State} (as : List Nat) {legal : Prop} [Decidable legal] (h : s.Canonical) (hl : legal) :
    s.Committed (s.commit as) as legal where
  group a ha := (rd_foldl_wr_mem s.stagedRd s h ha).trans (if_pos hl).symm
  others a ha := rd_foldl_wr_ne as s.stagedRd s a ha
  mem := by
    obtain ⟨rs, st, e⟩ := s.commit_eq as
    rw [e]

/-- A refusal that writes no register leaves the group as it is. -/
theorem refused_committed {s t : State} (as : List Nat) {legal : Prop} [Decidable legal] (hl : ¬legal) (hregs : t.regs = s.regs)
    (hmem : t.mem = s.mem) : s.Committed t as legal where
  group a _ := by rw [if_neg hl, rd, hregs, rd]
  others a _ := by rw [rd, hregs, rd]
  mem := hmem

/-- What a commit of one register leaves in it. -/
theorem Committed.register {s t : State} {a : Nat} {legal : Prop} [Decidable legal] (c : s.Committed t [a] legal) :
    t.rd a = if legal then s.stagedRd a else s.rd a := c.group a (List.mem_singleton.mpr rfl)

theorem Committed.otherRegister {s t : State} {a : Nat} {legal : Prop} [Decidable legal] (c : s.Committed t [a] legal) {b : Nat}
    (hb : b ≠ a) : t.rd b = s.rd b := c.others b (mt List.mem_singleton.mp hb)

/-- What happens inside partitions does not matter to a commit. -/
theorem Committed.withParts {s t : State} {as : List Nat} {legal : Prop} [Decidable legal] (c : s.Committed t as legal)
    (ps : Sparse Part) : s.Committed { t with parts := ps } as legal := ⟨c.group, c.others, c.mem⟩

/-! ### Records of refused commits -/

/-- A non-fatal FAULT event of the device is held for merging, and its number may be taken (R423, R424). -/
theorem fault_device_event (s : State) {r : FRec} (hf : r.fatal = false) (hk : r.kind = 0) :
    ∃ held mg, s.fault .device r = { s with held := held, mg := mg } := by
  have e : s.fault .device r = (s.report .device { r with time := s.dieNow r.die }).1 := by simp [fault, raise, hf, hk]
  rw [e, report]
  simp only
  split <;> exact ⟨_, _, rfl⟩

theorem faultPart_frame (s : State) (p cls : Nat) : (s.faultPart p cls).regs = s.regs ∧ (s.faultPart p cls).mem = s.mem := by
  obtain ⟨r, e⟩ := s.faultPart_eq_report p cls
  obtain ⟨hregs, -, hmem⟩ := s.report_frame (pq p) r
  rw [e]
  exact ⟨hregs, hmem⟩

/-- A refused commit of a partition's registers drops what is staged and logs a record. -/
theorem refusedPart_frame (s : State) (as : List Nat) (p cls : Nat) :
    ((s.discard as).faultPart p cls).regs = s.regs ∧ ((s.discard as).faultPart p cls).mem = s.mem :=
  faultPart_frame (s.discard as) p cls

/-! ### Link roles (R22) -/

/-- The staged split of a link's bundles keeps to the limits of R22. -/
abbrev RolesLegal (s : State) (l : Nat) : Prop :=
  let c := s.stagedFld (a_LK_ROLE l) LK_ROLE_COH_N
  let t := s.stagedFld (a_LK_ROLE l) LK_ROLE_TILE_N
  let k := s.stagedFld (a_LK_ROLE l) LK_ROLE_CTRL_N
  c + t + k = 32 ∧ 4 ≤ c ∧ 4 ≤ t ∧ 1 ≤ k ∧ k ≤ 4

/-- A commit of link roles but for its result field: the group applied, or dropped with a record. -/
theorem roleCommit_eq (s : State) (l : Nat) (h : s.Canonical) :
    ∃ u : State, s.roleCommit l = u.setFld (a_LK_STATUS l) LK_STATUS_COMMIT_RESULT (if s.RolesLegal l then 1 else 2) ∧
      u.Canonical ∧ u.links = s.links ∧ s.Committed u [a_LK_ROLE l] (s.RolesLegal l) := by
  by_cases hl : s.RolesLegal l
  · refine ⟨s.commit [a_LK_ROLE l], ?_, commit_canonical s _ h, rfl, commit_committed _ h hl⟩
    rw [if_pos hl]
    exact if_pos hl
  · obtain ⟨held, mg, e⟩ := (s.discard [a_LK_ROLE l]).fault_device_event
      (r := { s.record cCONFIG with die := 6, unit := 64 + l }) rfl rfl
    refine ⟨{ s.discard [a_LK_ROLE l] with held := held, mg := mg }, ?_, discard_canonical s [a_LK_ROLE l] h, rfl,
      refused_committed _ hl rfl rfl⟩
    rw [if_neg hl]
    exact (if_neg hl).trans (congrArg (fun u => u.setFld (a_LK_STATUS l) LK_STATUS_COMMIT_RESULT 2) e)

theorem a_LK_STATUS_ne_role (l : Nat) : a_LK_STATUS l ≠ a_LK_ROLE l := by simp only [a_LK_STATUS, a_LK_ROLE]; omega

/-- A commit of link roles shows its result and keeps to the registers of the link. -/
theorem roleCommit_result (s : State) (l : Nat) (h : s.Canonical) :
    (s.roleCommit l).rd (a_LK_ROLE l) = (if s.RolesLegal l then s.stagedRd (a_LK_ROLE l) else s.rd (a_LK_ROLE l)) ∧
      (s.roleCommit l).fld (a_LK_STATUS l) LK_STATUS_COMMIT_RESULT = (if s.RolesLegal l then 1 else 2) ∧
      (∀ a, a ≠ a_LK_ROLE l → a ≠ a_LK_STATUS l → (s.roleCommit l).rd a = s.rd a) ∧ (s.roleCommit l).mem = s.mem ∧
      (s.roleCommit l).links = s.links := by
  obtain ⟨u, e, hc, hlinks, hu⟩ := roleCommit_eq s l h
  rw [e]
  refine ⟨?_, ?_, fun a hr hst => ?_, hu.mem, hlinks⟩
  · rw [rd_setFld_ne _ _ _ _ _ (a_LK_STATUS_ne_role l).symm, hu.register]
  · rw [fld_setFld _ _ _ _ hc (by decide) (by decide)]
    split <;> rfl
  · rw [rd_setFld_ne _ _ _ _ _ hst, hu.otherRegister hr]

/-! ### The tier manager (R189) -/

/-- Staged settings that enable the tier manager. -/
theorem tmOn_of_rd {s t : State} {p : Nat} (hrd : t.rd (a_PT_TMCFG p) = s.stagedRd (a_PT_TMCFG p))
    (hen : s.stagedFld (a_PT_TMCFG p) PT_TMCFG_ENABLE = 1) : t.tmOn p = true := by
  rw [stagedFld] at hen
  rw [tmOn, flag, hrd, hen]
  rfl

/-- What a legal commit of the tier manager makes of its partition's tables, in the state t that the group's new settings leave. -/
def tmTables (s t : State) (p : Nat) : State :=
  if !s.tmOn p && t.tmOn p then
    t.modPart p (fun x => { x with regions := [], choices := [], used1 := [], used2 := []
                                   nextHalving := t.now + t.fld (a_PT_TMCFG p) PT_TMCFG_AGE_MS * 1000000 })
  else if !t.tmOn p then t.modPart p (fun x => { x with choices := [] })
  else t

theorem tmTables_eq (s t : State) (p : Nat) : ∃ ps, s.tmTables t p = { t with parts := ps } := by
  rw [tmTables]
  split
  · exact ⟨_, rfl⟩
  · split <;> exact ⟨_, rfl⟩

/-- Enabling the tier manager clears its region table and frees every pool slot. -/
theorem tmTables_enabling {s t : State} {p : Nat} (h : t.Canonical) (hoff : s.tmOn p = false) (hon : t.tmOn p = true) :
    ((s.tmTables t p).part p).regions = [] ∧ ((s.tmTables t p).part p).used1 = [] ∧ ((s.tmTables t p).part p).used2 = [] := by
  rw [tmTables, if_pos (by rw [hoff, hon]; rfl), part_modPart t p _ h]
  exact ⟨rfl, rfl, rfl⟩

theorem tmCommit_legal {s : State} {p : Nat} (hok : s.tmOk p = true) :
    s.tmCommit p = s.tmTables (s.commit (tmGroup p)) p := if_pos hok

theorem tmCommit_refused {s : State} {p : Nat} (hok : ¬s.tmOk p = true) :
    s.tmCommit p = (s.discard (tmGroup p)).faultPart p cCONFIG := by
  rw [tmCommit, if_neg hok]

theorem tmCommit_committed (s : State) (p : Nat) (h : s.Canonical) :
    s.Committed (s.tmCommit p) (tmGroup p) (s.tmOk p = true) := by
  by_cases hok : s.tmOk p = true
  · obtain ⟨ps, e⟩ := s.tmTables_eq (s.commit (tmGroup p)) p
    rw [tmCommit_legal hok, e]
    exact (commit_committed (tmGroup p) h hok).withParts ps
  · obtain ⟨hregs, hmem⟩ := s.refusedPart_frame (tmGroup p) p cCONFIG
    rw [tmCommit_refused hok]
    exact refused_committed _ hok hregs hmem

theorem tmCommit_enabling {s : State} {p : Nat} (h : s.Canonical) (hok : s.tmOk p = true) (hoff : s.tmOn p = false)
    (hen : s.stagedFld (a_PT_TMCFG p) PT_TMCFG_ENABLE = 1) :
    ((s.tmCommit p).part p).regions = [] ∧ ((s.tmCommit p).part p).used1 = [] ∧ ((s.tmCommit p).part p).used2 = [] := by
  have hcfg := (commit_committed (tmGroup p) h hok).group (a_PT_TMCFG p) List.mem_cons_self
  rw [if_pos hok] at hcfg
  rw [tmCommit_legal hok]
  exact tmTables_enabling (commit_canonical s _ h) hoff (tmOn_of_rd hcfg hen)

end State

/-! ### The commands -/

theorem exec_lkCommitGo_admitted {who : Requester} {l : Fin 16} {s : State} (hl : l.val < 6)
    (hg : s.gate who (a_LK_COMMIT l) true = none) : exec (.lkCommitGo who l) s = .next (s.roleCommit l) := by
  show execLkCommitGo who l s = _
  rw [execLkCommitGo, if_neg (by omega), gated_admitted _ _ _ _ hg]

/-- The staged idle and ramp times of a partition's matrix engines keep to the limits of R71. -/
abbrev State.RampLegal (s : State) (p : Nat) : Prop :=
  160 ≤ s.stagedFld (a_ME_RAMP p) ME_RAMP_INTERVAL ∧ s.stagedFld (a_ME_RAMP p) ME_RAMP_INTERVAL ≤ 10000 ∧
    100 ≤ s.stagedFld (a_ME_RAMP p) ME_RAMP_IDLE

theorem exec_meCommitGo_admitted {who : Requester} {pp : Fin 24} {s : State} (h : s.Canonical)
    (hg : s.gate who (a_ME_COMMIT pp) true = none) :
    ∃ t, exec (.meCommitGo who pp) s = .next t ∧ s.Committed t [a_ME_RAMP pp] (s.RampLegal pp) := by
  refine ⟨if s.RampLegal pp then s.commit [a_ME_RAMP pp] else (s.discard [a_ME_RAMP pp]).faultPart pp cCONFIG,
    congrArg Host.Outcome.next (gated_admitted _ _ _ _ hg), ?_⟩
  by_cases hl : s.RampLegal pp
  · rw [if_pos hl]
    exact commit_committed _ h hl
  · obtain ⟨hregs, hmem⟩ := s.refusedPart_frame [a_ME_RAMP pp] pp cCONFIG
    rw [if_neg hl]
    exact refused_committed _ hl hregs hmem

theorem exec_scCommit_admitted {who : Requester} {s : State} (hg : s.gate who a_SC_COMMIT true = none) :
    exec (.scCommit who) s = .next (s.commit ((List.range 32).map a_SC_WAYMASK)) :=
  congrArg Host.Outcome.next (gated_admitted _ _ _ _ hg)

theorem exec_fqCommit_admitted {who : Requester} {pp : Fin 24} {s : State} (h : s.Canonical)
    (hg : s.gate who (a_FQ_COMMIT pp) true = none) :
    ∃ t, exec (.fqCommit who pp) s = .next t ∧ s.Committed t [a_FQ_CFG pp] (s.fqOk pp = true) := by
  refine ⟨if s.fqOk pp = true then s.commit [a_FQ_CFG pp] else s.fault .device (s.recordP cCONFIG pp 255),
    congrArg Host.Outcome.next (gated_admitted _ _ _ _ hg), ?_⟩
  by_cases hl : s.fqOk pp = true
  · rw [if_pos hl]
    exact commit_committed _ h hl
  · obtain ⟨held, mg, e⟩ := s.fault_device_event (r := s.recordP cCONFIG pp 255) rfl rfl
    rw [if_neg hl, e]
    exact refused_committed _ hl rfl rfl

theorem exec_ptTmcommit_admitted {who : Requester} {pp : Fin 24} {s : State} (hg : s.gate who (a_PT_TMCOMMIT pp) true = none) :
    exec (.ptTmcommit who pp) s = .next (s.tmCommit pp) := congrArg Host.Outcome.next (gated_admitted _ _ _ _ hg)

/-- Settles O29: each command leaves its group committed where its settings are legal and as it was where they are not. -/
theorem commitsApplyStagedGroups : Obligations.CommitsApplyStagedGroups := by
  refine ⟨fun who l s h hl hg => ?roles, fun who pp s h hg => ?ramp, fun who s h hg => ?wayMasks,
    fun who pp s h hg => ?faultRing, fun who pp s h hg => ?tierManager⟩
  case roles =>
    obtain ⟨hrole, hresult, hothers, hmem, hlinks⟩ := roleCommit_result s l h
    refine ⟨_, exec_lkCommitGo_admitted hl hg, fun hlegal => ?_, fun hillegal => ?_, hothers, hmem, hlinks⟩
    · exact ⟨hrole.trans (if_pos hlegal), hresult.trans (if_pos hlegal)⟩
    · exact ⟨hrole.trans (if_neg hillegal), hresult.trans (if_neg hillegal)⟩
  case ramp =>
    obtain ⟨t, ht, hc⟩ := exec_meCommitGo_admitted h hg
    exact ⟨t, ht, hc.register, fun a => hc.otherRegister, hc.mem⟩
  case wayMasks =>
    obtain ⟨hgroup, hothers, hmem⟩ := commit_committed ((List.range 32).map a_SC_WAYMASK) h trivial
    simp only [List.mem_map, List.mem_range, if_true] at hgroup hothers
    obtain ⟨rs, st, e⟩ := s.commit_eq ((List.range 32).map a_SC_WAYMASK)
    refine ⟨_, exec_scCommit_admitted hg, fun k hk => hgroup _ ⟨k, hk, rfl⟩, fun a ha => hothers a ?_, hmem, by rw [e]⟩
    rintro ⟨k, hk, rfl⟩
    exact ha k hk rfl
  case faultRing =>
    obtain ⟨t, ht, hc⟩ := exec_fqCommit_admitted h hg
    exact ⟨t, ht, hc.register, fun a => hc.otherRegister, hc.mem⟩
  case tierManager =>
    obtain ⟨hgroup, hothers, hmem⟩ := tmCommit_committed s pp h
    exact ⟨_, exec_ptTmcommit_admitted hg, hgroup, hothers, hmem, tmCommit_enabling h⟩

end Sys2Proof.Machine
end

section
/-! PROOFS. On-package links: training, words and their replay buffers, retired bundles (R21–R27, log entry 32). -/

namespace Sys2Proof.Machine

open State

/-! ### Replay buffers (R25) -/

/-- A replay buffer just set holds the words. -/
theorem replay_setReplay (x : Link) (b : Nat) (ws : List Nat) : replay (setReplay x b ws) b = ws := by
  have hgone : (x.words.filter (fun w => w.1 != b)).find? (fun w => w.1 == b) = none := by simp [List.find?_filter]
  by_cases hws : ws = []
  · simp [replay, setReplay, hws, hgone]
  · simp [replay, setReplay, hws, hgone, List.find?_append]

/-- The replay buffer of every other bundle holds what it held. -/
theorem replay_setReplay_ne (x : Link) {b k : Nat} (ws : List Nat) (hk : k ≠ b) : replay (setReplay x b ws) k = replay x k := by
  have hkept : (x.words.filter (fun w => w.1 != b)).find? (fun w => w.1 == k) = x.words.find? (fun w => w.1 == k) := by
    rw [List.find?_filter]
    congr 1
    funext w
    by_cases hw : w.1 = k
    · simp [hw, hk]
    · simp [hw]
  by_cases hws : ws = []
  · simp [replay, setReplay, hws, hkept]
  · simp [replay, setReplay, hws, hkept, List.find?_append, Ne.symm hk]

/-! ### The split of the bundles (R24) -/

/-- The reduced shares of a legal split add up to the working bundles, and none grows. -/
theorem reduceSplit_sum {c t k w : Nat} (hsum : c + t + k = 32) (hc : 4 ≤ c) (ht : 4 ≤ t) (hk : 1 ≤ k) (hw : 9 ≤ w)
    (h32 : w ≤ 32) :
    (reduceSplit c t k w).1 + (reduceSplit c t k w).2.1 + (reduceSplit c t k w).2.2 = w := by
  simp only [reduceSplit]
  omega

theorem reduceSplit_le (c t k w : Nat) :
    (reduceSplit c t k w).1 ≤ c ∧ (reduceSplit c t k w).2.1 ≤ t ∧ (reduceSplit c t k w).2.2 ≤ k := by
  simp only [reduceSplit]
  omega

/-- A link that has just trained: its bundles with their roles, nothing on its way. -/
def servingLink (bundles : List (Nat × Nat)) : Link := { bundles := bundles, retries := [], words := [], sent := 0, up := true }

/-- How often in a row the word in hand on a bundle has failed. -/
def failures (x : Link) (b : Nat) : Nat := ((x.retries.find? (fun r => r.1 == b)).map (fun r => r.2)).getD 0

theorem failures_none {x : Link} {b : Nat} (h : x.retries.find? (fun r => r.1 == b) = none) : failures x b = 0 := by
  rw [failures, h]
  rfl

theorem failures_some {x : Link} {b n : Nat} (h : x.retries.find? (fun r => r.1 == b) = some (b, n)) : failures x b = n := by
  rw [failures, h]
  rfl

/-- A link whose word in hand on a bundle arrived: the word has left the replay buffer, and its retries end. -/
def arrived (x : Link) (b : Nat) : Link :=
  setReplay { x with retries := x.retries.filter (fun r => r.1 != b) } b ((replay x b).drop 1)

/-- A link whose word in hand on a bundle has failed n times. -/
def failedWord (x : Link) (b n : Nat) : Link := { x with retries := x.retries.filter (fun r => r.1 != b) ++ [(b, n)] }

theorem replay_failedWord (x : Link) (b n k : Nat) : replay (failedWord x b n) k = replay x k := rfl

/-- A link without one of its bundles, whose words follow those of another bundle of the role (R25). -/
def retiredLink (x : Link) (b role : Nat) : Link :=
  let rest := x.bundles.filter (fun y => y.1 != b)
  let y := setReplay { x with bundles := rest, retries := x.retries.filter (fun r => r.1 != b) } b []
  match rest.find? (fun y => y.2 == role) with
  | some e => setReplay y e.1 (replay y e.1 ++ replay x b)
  | none => y

theorem retiredLink_frame (x : Link) (b role : Nat) :
    (retiredLink x b role).bundles = x.bundles.filter (fun y => y.1 != b) ∧ (retiredLink x b role).up = x.up := by
  simp only [retiredLink]
  split <;> exact ⟨rfl, rfl⟩

/-- The words of a retired bundle follow those of the first other bundle of its role. -/
theorem replay_retiredLink {x : Link} {b role : Nat} {y : Nat × Nat}
    (hy : (x.bundles.filter (fun y => y.1 != b)).find? (fun y => y.2 == role) = some y) :
    replay (retiredLink x b role) y.1 = replay x y.1 ++ replay x b ∧ replay (retiredLink x b role) b = [] := by
  have hne : y.1 ≠ b := by simpa using (List.mem_filter.mp (List.mem_of_find?_eq_some hy)).2
  simp only [retiredLink, hy]
  rw [replay_setReplay, replay_setReplay_ne _ _ hne, replay_setReplay_ne _ _ hne.symm, replay_setReplay]
  exact ⟨rfl, rfl⟩

namespace State

/-! ### Links and dies by number -/

theorem setLink_canonical (s : State) (l : Nat) (x : Link) (h : s.Canonical) : (s.setLink l x).Canonical :=
  { h with links := Sparse.wf_put _ h.links }

theorem setDie_canonical (s : State) (d : Nat) (x : Die) (h : s.Canonical) : (s.setDie d x).Canonical :=
  { h with dies := Sparse.wf_put _ h.dies }

theorem link_setLink (s : State) (l : Nat) (x : Link) (h : s.Canonical) : (s.setLink l x).link l = x :=
  Sparse.get_put x (Sparse.wf_sorted h.links)

theorem link_setLink_ne (s : State) {l k : Nat} (x : Link) (hk : k ≠ l) : (s.setLink l x).link k = s.link k :=
  Sparse.get_put_ne s.links x hk

theorem die_setDie (s : State) (d : Nat) (x : Die) (h : s.Canonical) : (s.setDie d x).die d = x :=
  Sparse.get_put x (Sparse.wf_sorted h.dies)

theorem die_setDie_ne (s : State) {d k : Nat} (x : Die) (hk : k ≠ d) : (s.setDie d x).die k = s.die k :=
  Sparse.get_put_ne s.dies x hk

/-! ### Several fields of one register -/

/-- A counting field counts up to its greatest value. -/
theorem fld_bump (s : State) (a : Nat) (f : Fld) (n : Nat) (h : s.Canonical) (hf : f.Sound) :
    (s.bump a f n).fld a f = satAdd (s.fld a f) n (2 ^ f.width - 1) := by
  have hpos := Nat.two_pow_pos f.width
  rw [bump, fld_setFld s a f _ h hf.2 hf.1]
  refine Nat.mod_eq_of_lt ?_
  rw [satAdd]
  split <;> omega

theorem rd_bump_ne (s : State) {a b : Nat} (f : Fld) (n : Nat) (hb : b ≠ a) : (s.bump a f n).rd b = s.rd b :=
  rd_setFld_ne s a b f _ hb

/-- Fields of one register set one after another. -/
def setFlds (s : State) (a : Nat) (xs : List (Fld × Nat)) : State := xs.foldl (fun t x => t.setFld a x.1 x.2) s

theorem setFlds_eq (s : State) (a : Nat) (xs : List (Fld × Nat)) : ∃ rs, s.setFlds a xs = { s with regs := rs } := by
  induction xs generalizing s with
  | nil => exact ⟨_, rfl⟩
  | cons x xs ih =>
    obtain ⟨rs, e⟩ := ih (s.setFld a x.1 x.2)
    exact ⟨rs, e⟩

theorem setFlds_canonical (s : State) (a : Nat) (xs : List (Fld × Nat)) (h : s.Canonical) : (s.setFlds a xs).Canonical := by
  induction xs generalizing s with
  | nil => exact h
  | cons x xs ih => exact ih _ (setFld_canonical s a _ _ h)

theorem rd_setFlds_ne (s : State) {a b : Nat} (xs : List (Fld × Nat)) (hb : b ≠ a) : (s.setFlds a xs).rd b = s.rd b := by
  induction xs generalizing s with
  | nil => rfl
  | cons x xs ih => exact (ih _).trans (rd_setFld_ne s a b _ _ hb)

theorem fld_setFlds_apart (s : State) (a : Nat) (xs : List (Fld × Nat)) (g : Fld) (h : s.Canonical) (hs : ∀ x ∈ xs, x.1.Sound)
    (hg : g.Sound) (hd : ∀ x ∈ xs, x.1.Apart g) : (s.setFlds a xs).fld a g = s.fld a g := by
  induction xs generalizing s with
  | nil => rfl
  | cons x xs ih =>
    simp only [List.forall_mem_cons] at hs hd
    exact (ih _ (setFld_canonical s a _ _ h) hs.2 hd.2).trans (fld_setFld_apart s a x.1 g x.2 h hs.1.2 hs.1.1 hg.1 hd.1)

/-- Fields with their values: ranges of a word that share no bit. -/
structure ApartFields (xs : List (Fld × Nat)) : Prop where
  sound : ∀ x ∈ xs, x.1.Sound
  apart : xs.Pairwise (fun x y => x.1.Apart y.1)

/-- Of fields that share no bit, each reads as its value, cut to its width. -/
theorem fld_setFlds (s : State) (a : Nat) (xs : List (Fld × Nat)) (h : s.Canonical) (hf : ApartFields xs)
    {x : Fld × Nat} (hx : x ∈ xs) : (s.setFlds a xs).fld a x.1 = x.2 % 2 ^ x.1.width := by
  induction xs generalizing s with
  | nil => cases hx
  | cons y ys ih =>
    obtain ⟨hs, hp⟩ := hf
    simp only [List.forall_mem_cons] at hs
    obtain ⟨hapart, hp⟩ := List.pairwise_cons.mp hp
    have hc := setFld_canonical s a y.1 y.2 h
    rcases List.mem_cons.mp hx with rfl | hmem
    · exact (fld_setFlds_apart _ a ys x.1 hc hs.2 hs.1 (fun y hy => (hapart y hy).symm)).trans
        (fld_setFld s a x.1 x.2 h hs.1.2 hs.1.1)
    · exact ih _ hc ⟨hs.2, hp⟩ hmem

/-! ### A link that trains (R24) -/

/-- The bundles that work, of those that a link's fuses leave it. -/
def workingBundles (s : State) (l working : Nat) : List Nat := (s.logicalBundles l).filter (fun b => natBit working b)

/-- A link of a Headstock and a Burl has at most 32 bundles (R19). -/
theorem workingBundles_le (s : State) {l : Nat} (working : Nat) (hl : l < 6) : (s.workingBundles l working).length ≤ 32 := by
  have hlogical : (s.logicalBundles l).length ≤ linkLogical l := List.length_take_le _ _
  rw [linkLogical, if_pos hl] at hlogical
  exact (List.length_filter_le _ _).trans hlogical

/-- LK_REPAIR shows that a bundle is missing among those in service. -/
def fieldRepaired (s : State) (l w : Nat) : State :=
  if w < (s.logicalBundles l).length then s.setFld (a_LK_REPAIR l) LK_REPAIR_FIELD 1 else s

theorem fieldRepaired_canonical (s : State) (l w : Nat) (h : s.Canonical) : (s.fieldRepaired l w).Canonical := by
  rw [fieldRepaired]
  split
  · exact setFld_canonical s _ _ _ h
  · exact h

theorem fieldRepaired_mem (s : State) (l w : Nat) : (s.fieldRepaired l w).mem = s.mem := by
  rw [fieldRepaired]
  split <;> rfl

theorem fld_fieldRepaired_role (s : State) (l w : Nat) (f : Fld) :
    (s.fieldRepaired l w).fld (a_LK_ROLE l) f = s.fld (a_LK_ROLE l) f := by
  rw [fieldRepaired]
  split
  · exact fld_setFld_ne s _ _ _ _ _ (by simp only [a_LK_ROLE, a_LK_REPAIR]; omega)
  · rfl

/-- The shares of the roles in the working bundles of a link of a Headstock and a Burl. -/
def roleShares (s : State) (l w : Nat) : Nat × Nat × Nat :=
  reduceSplit (s.fld (a_LK_ROLE l) LK_ROLE_COH_N) (s.fld (a_LK_ROLE l) LK_ROLE_TILE_N) (s.fld (a_LK_ROLE l) LK_ROLE_CTRL_N) w

/-- A link in service: its status fields and its bundles. -/
def inService (s : State) (l w : Nat) (status : List (Fld × Nat)) (bundles : List (Nat × Nat)) : State :=
  ((s.fieldRepaired l w).setFlds (a_LK_STATUS l) status).setLink l (servingLink bundles)

/-- The status fields of a link in service that has roles. -/
def roleStatus (shares : Nat × Nat × Nat) (w : Nat) : List (Fld × Nat) :=
  [(LK_STATUS_COH_USE, shares.1), (LK_STATUS_TILE_USE, shares.2.1), (LK_STATUS_CTRL_USE, shares.2.2), (LK_STATUS_BUNDLES_OK, w),
    (LK_STATUS_STATE, lsACTIVE)]

theorem roleStatus_fields (shares : Nat × Nat × Nat) (w : Nat) : ApartFields (roleStatus shares w) := by
  constructor <;> simp [roleStatus, Fld.Sound, Fld.Apart, LK_STATUS_COH_USE, LK_STATUS_TILE_USE, LK_STATUS_CTRL_USE,
    LK_STATUS_BUNDLES_OK, LK_STATUS_STATE]

/-- The status fields of a link in service without roles. -/
def plainStatus (w : Nat) : List (Fld × Nat) := [(LK_STATUS_BUNDLES_OK, w), (LK_STATUS_STATE, lsACTIVE)]

theorem plainStatus_fields (w : Nat) : ApartFields (plainStatus w) := by
  constructor <;> simp [plainStatus, Fld.Sound, Fld.Apart, LK_STATUS_BUNDLES_OK, LK_STATUS_STATE]

/-- Working bundles with their roles, in ascending order. -/
def withRoles (shares : Nat × Nat × Nat) (working : List Nat) : List (Nat × Nat) :=
  working.zipIdx.map (fun x => (x.1, if x.2 < shares.1 then 0 else if x.2 < shares.1 + shares.2.1 then 1 else 2))

theorem withRoles_bundles (shares : Nat × Nat × Nat) (working : List Nat) :
    (withRoles shares working).map (fun b => b.1) = working := by
  rw [withRoles, List.map_map]
  exact List.zipIdx_map_fst 0 working

theorem withoutRoles_bundles (working : List Nat) : (working.map (fun b => (b, 3))).map (fun b => b.1) = working := by
  rw [List.map_map]
  exact List.map_id _

/-- Training puts a link of the Headstock and a Burl with 9 bundles or more into service. -/
theorem train_burl {s : State} {l working : Nat} (hm : s.mayTrain l = true) (hl : l < 6) (hlost : s.pins.lostMem.contains l = false)
    (hw : 9 ≤ (s.workingBundles l working).length) :
    s.train l working = s.inService l (s.workingBundles l working).length
      (roleStatus (s.roleShares l (s.workingBundles l working).length) (s.workingBundles l working).length)
      (withRoles (s.roleShares l (s.workingBundles l working).length) (s.workingBundles l working)) := by
  have hshares (w : Nat) : s.roleShares l w = (s.fieldRepaired l w).roleShares l w := by
    simp only [roleShares, fld_fieldRepaired_role]
  have hw' := Nat.not_lt.mpr hw
  rw [hshares]
  rw [workingBundles] at hw' ⊢
  simp only [train, hm, hl, hlost, hw', Bool.not_true, Bool.false_eq_true, decide_true, Bool.and_false, if_false, if_true]
  rfl

/-- Training puts any other link into service whose bundles all work. -/
theorem train_other {s : State} {l working : Nat} (hm : s.mayTrain l = true) (hl : ¬l < 6)
    (hw : linkLogical l ≤ (s.workingBundles l working).length) :
    s.train l working = s.inService l (s.workingBundles l working).length (plainStatus (s.workingBundles l working).length)
      ((s.workingBundles l working).map (fun b => (b, 3))) := by
  have hw' := Nat.not_lt.mpr hw
  rw [workingBundles] at hw' ⊢
  simp only [train, hm, hl, hw', Bool.not_true, Bool.false_eq_true, decide_false, Bool.false_and, if_false]
  rfl

theorem link_inService (s : State) (l w : Nat) (status : List (Fld × Nat)) (bundles : List (Nat × Nat)) (h : s.Canonical) :
    (s.inService l w status bundles).link l = servingLink bundles :=
  link_setLink _ l _ (setFlds_canonical _ _ _ (fieldRepaired_canonical s l w h))

theorem inService_mem (s : State) (l w : Nat) (status : List (Fld × Nat)) (bundles : List (Nat × Nat)) :
    (s.inService l w status bundles).mem = s.mem := by
  obtain ⟨rs, e⟩ := (s.fieldRepaired l w).setFlds_eq (a_LK_STATUS l) status
  rw [inService, e]
  exact fieldRepaired_mem s l w

/-- The status of a link in service shows its fields. -/
theorem fld_inService (s : State) (l w : Nat) {status : List (Fld × Nat)} (bundles : List (Nat × Nat)) (h : s.Canonical)
    (hf : ApartFields status) {f : Fld} {v : Nat} (hx : (f, v) ∈ status) :
    (s.inService l w status bundles).fld (a_LK_STATUS l) f = v % 2 ^ f.width :=
  fld_setFlds _ _ status (fieldRepaired_canonical s l w h) hf hx

/-- A link in service is active and carries its bundles. -/
theorem inService_serves (s : State) (l w : Nat) {status : List (Fld × Nat)} (bundles : List (Nat × Nat)) (h : s.Canonical)
    (hf : ApartFields status) (hx : (LK_STATUS_STATE, lsACTIVE) ∈ status) :
    (s.inService l w status bundles).fld (a_LK_STATUS l) LK_STATUS_STATE = lsACTIVE ∧
      ((s.inService l w status bundles).link l).up = true ∧ ((s.inService l w status bundles).link l).bundles = bundles := by
  rw [link_inService s l w status bundles h]
  exact ⟨fld_inService s l w bundles h hf hx, rfl, rfl⟩

/-- The shares of the roles that a link in service shows add up to its bundles. -/
theorem roleUse_sum {s : State} {l w : Nat} (bundles : List (Nat × Nat)) (h : s.Canonical)
    (hsum : s.fld (a_LK_ROLE l) LK_ROLE_COH_N + s.fld (a_LK_ROLE l) LK_ROLE_TILE_N + s.fld (a_LK_ROLE l) LK_ROLE_CTRL_N = 32)
    (hc : 4 ≤ s.fld (a_LK_ROLE l) LK_ROLE_COH_N) (ht : 4 ≤ s.fld (a_LK_ROLE l) LK_ROLE_TILE_N)
    (hk : 1 ≤ s.fld (a_LK_ROLE l) LK_ROLE_CTRL_N) (hw : 9 ≤ w) (h32 : w ≤ 32) :
    let t := s.inService l w (roleStatus (s.roleShares l w) w) bundles
    t.fld (a_LK_STATUS l) LK_STATUS_COH_USE + t.fld (a_LK_STATUS l) LK_STATUS_TILE_USE + t.fld (a_LK_STATUS l) LK_STATUS_CTRL_USE
      = w := by
  have hshares : (s.roleShares l w).1 + (s.roleShares l w).2.1 + (s.roleShares l w).2.2 = w := reduceSplit_sum hsum hc ht hk hw h32
  obtain ⟨hcoh, htile, hctrl⟩ : _ ∧ _ ∧ (s.roleShares l w).2.2 ≤ _ := reduceSplit_le (s.fld (a_LK_ROLE l) LK_ROLE_COH_N)
    (s.fld (a_LK_ROLE l) LK_ROLE_TILE_N) (s.fld (a_LK_ROLE l) LK_ROLE_CTRL_N) w
  have lt (f : Fld) : s.fld (a_LK_ROLE l) f < 2 ^ f.width := Fld.get_lt f _
  have shown {f : Fld} {v : Nat} := fld_inService s l w bundles h (roleStatus_fields (s.roleShares l w) w) (f := f) (v := v)
  intro t
  have e1 : t.fld (a_LK_STATUS l) LK_STATUS_COH_USE = (s.roleShares l w).1 := (shown (by simp [roleStatus])).trans
    (Nat.mod_eq_of_lt (lt_of_le_of_lt hcoh (lt LK_ROLE_COH_N)))
  have e2 : t.fld (a_LK_STATUS l) LK_STATUS_TILE_USE = (s.roleShares l w).2.1 := (shown (by simp [roleStatus])).trans
    (Nat.mod_eq_of_lt (lt_of_le_of_lt htile (lt LK_ROLE_TILE_N)))
  have e3 : t.fld (a_LK_STATUS l) LK_STATUS_CTRL_USE = (s.roleShares l w).2.2 := (shown (by simp [roleStatus])).trans
    (Nat.mod_eq_of_lt (lt_of_le_of_lt hctrl (lt LK_ROLE_CTRL_N)))
  rw [e1, e2, e3, hshares]

/-! ### A Burl whose link does not train (R24) -/

theorem takeFatal_eq (s : State) (reg : Nat) : ∃ rs, (s.takeFatal reg).1 = { s with regs := rs } := by
  simp only [takeFatal]
  split <;> exact ⟨_, rfl⟩

theorem rd_takeFatal_ne (s : State) {reg b : Nat} (hb : b ≠ reg) : (s.takeFatal reg).1.rd b = s.rd b := by
  simp only [takeFatal]
  rw [rd_setFld_ne _ _ _ _ _ hb]
  split
  · exact rd_bump_ne s _ _ hb
  · rfl

theorem takeFatal_canonical (s : State) (reg : Nat) (h : s.Canonical) : (s.takeFatal reg).1.Canonical := by
  simp only [takeFatal]
  refine setFld_canonical _ _ _ _ ?_
  split
  · exact setFld_canonical s _ _ _ h
  · exact h

/-- What a step leaves alone that concerns a link and one die: memory, partitions and the other dies. -/
structure Beside (s t : State) (d : Nat) : Prop where
  mem : t.mem = s.mem
  parts : t.parts = s.parts
  dies : ∀ k, k ≠ d → t.die k = s.die k
  recovery : ∀ p, t.recState p = s.recState p
  enabled : ∀ p, t.enabled p = s.enabled p

theorem Beside.refl (s : State) (d : Nat) : Beside s s d := ⟨rfl, rfl, fun _ _ => rfl, fun _ => rfl, fun _ => rfl⟩

theorem Beside.trans {s t u : State} {d : Nat} (a : Beside s t d) (b : Beside t u d) : Beside s u d where
  mem := b.mem.trans a.mem
  parts := b.parts.trans a.parts
  dies k hk := (b.dies k hk).trans (a.dies k hk)
  recovery p := (b.recovery p).trans (a.recovery p)
  enabled p := (b.enabled p).trans (a.enabled p)

/-- A register that says neither which partitions are enabled nor how their recovery stands. -/
def NoPartition (a : Nat) : Prop := (∀ p, a_PT_RECSTAT p ≠ a) ∧ a_MG_PARTEN ≠ a

/-- A step that writes such registers alone. -/
theorem beside_of_rd {s t : State} (d : Nat) {a : Nat} (ha : NoPartition a) (hrd : ∀ b, b ≠ a → t.rd b = s.rd b)
    (hmem : t.mem = s.mem) (hparts : t.parts = s.parts) (hdies : t.dies = s.dies) : Beside s t d where
  mem := hmem
  parts := hparts
  dies k _ := by rw [die, hdies, die]
  recovery p := by rw [recState, fld, hrd _ (ha.1 p), recState, fld]
  enabled p := by rw [State.enabled, fld, hrd _ ha.2, State.enabled, fld]

theorem beside_setDie (s : State) (d : Nat) (x : Die) : Beside s (s.setDie d x) d :=
  ⟨rfl, rfl, fun _ hk => die_setDie_ne s x hk, fun _ => rfl, fun _ => rfl⟩

theorem beside_holdDom (s : State) (i d : Nat) : Beside s (s.holdDom i) d :=
  ⟨rfl, rfl, fun _ _ => rfl, fun _ => rfl, fun _ => rfl⟩

theorem beside_setFld (s : State) (d : Nat) {a : Nat} (f : Fld) (v : Nat) (ha : NoPartition a) : Beside s (s.setFld a f v) d :=
  beside_of_rd d ha (fun b hb => rd_setFld_ne s a b f v hb) rfl rfl rfl

theorem noPartition_status (l : Nat) : NoPartition (a_LK_STATUS l) :=
  ⟨fun p => by simp only [a_PT_RECSTAT, a_LK_STATUS]; omega, by simp only [a_MG_PARTEN, a_LK_STATUS]; omega⟩

theorem noPartition_repair {l : Nat} (hl : l < 16) : NoPartition (a_LK_REPAIR l) :=
  ⟨fun p => by simp only [a_PT_RECSTAT, a_LK_REPAIR]; omega, by simp only [a_MG_PARTEN, a_LK_REPAIR]; omega⟩

theorem noPartition_tsync : NoPartition a_MG_TSYNC :=
  ⟨fun p => by simp only [a_PT_RECSTAT, a_MG_TSYNC]; omega, by decide⟩

theorem noPartition_devFatal : NoPartition a_FQ_DEVFATAL :=
  ⟨fun p => by simp only [a_PT_RECSTAT, a_FQ_DEVFATAL]; omega, by decide⟩

theorem fieldRepaired_beside (s : State) (d w : Nat) {l : Nat} (hl : l < 16) : Beside s (s.fieldRepaired l w) d := by
  rw [fieldRepaired]
  split
  · exact beside_setFld s d _ _ (noPartition_repair hl)
  · exact .refl s d

theorem raiseFatal_device_eq (s : State) (r : FRec) : ∃ k ws per vol, s.raiseFatal .device r =
    { (s.takeFatal a_FQ_DEVFATAL).1 with
      devFatal := Sparse.put (fun _ => []) (s.takeFatal a_FQ_DEVFATAL).1.devFatal k ws, perLog := per, volLog := vol } :=
  ⟨_, _, _, _, rfl⟩

/-- A fatal record of the device takes a fatal slot and is logged (R335). -/
theorem raiseFatal_device (s : State) (r : FRec) (d : Nat) (h : s.Canonical) :
    (s.raiseFatal .device r).Canonical ∧ Beside s (s.raiseFatal .device r) d := by
  obtain ⟨k, ws, per, vol, e⟩ := s.raiseFatal_device_eq r
  obtain ⟨rs, hrs⟩ := s.takeFatal_eq a_FQ_DEVFATAL
  have hc := takeFatal_canonical s a_FQ_DEVFATAL h
  have hrd (b : Nat) (hb : b ≠ a_FQ_DEVFATAL) := rd_takeFatal_ne s hb
  rw [e]
  rw [hrs] at hc hrd ⊢
  exact ⟨{ hc with devFatal := Sparse.wf_put _ h.devFatal }, beside_of_rd d noPartition_devFatal hrd rfl rfl rfl⟩

theorem fault_device_fatal (s : State) {r : FRec} (hf : r.fatal = true) (d : Nat) (h : s.Canonical) :
    (s.fault .device r).Canonical ∧ Beside s (s.fault .device r) d := by
  obtain ⟨mg, q, e⟩ : ∃ mg q, s.fault .device r = ({ s with mg := mg } : State).raiseFatal .device q := by
    rw [fault, raise]
    simp only [hf, if_true]
    exact ⟨_, _, rfl⟩
  have hnumber : Beside s { s with mg := mg } d := ⟨rfl, rfl, fun _ _ => rfl, fun _ => rfl, fun _ => rfl⟩
  obtain ⟨hc, hraised⟩ := raiseFatal_device { s with mg := mg } q d h
  rw [e]
  exact ⟨hc, hnumber.trans hraised⟩

/-- A fatal record about a link (R25, R335). -/
theorem faultLink_fatal (s : State) (l d : Nat) (h : s.Canonical) :
    (s.faultLink l true).Canonical ∧ Beside s (s.faultLink l true) d :=
  fault_device_fatal s rfl d h

theorem dropLink_canonical (s : State) (l st : Nat) (h : s.Canonical) : (s.dropLink l st).Canonical :=
  setLink_canonical _ _ _ (wr_canonical _ _ _ h)

theorem dropLink_beside (s : State) (l st d : Nat) : Beside s (s.dropLink l st) d :=
  beside_of_rd d (noPartition_status l) (fun b hb => rd_wr_ne s _ b _ hb) rfl rfl rfl

/-- Links that go down one after another. -/
def dropLinks (s : State) (ls : List Nat) (st : Nat) : State := ls.foldl (fun t l => t.dropLink l st) s

theorem dropLinks_canonical (s : State) (ls : List Nat) (st : Nat) (h : s.Canonical) : (s.dropLinks ls st).Canonical := by
  induction ls generalizing s with
  | nil => exact h
  | cons l ls ih => exact ih _ (dropLink_canonical s l st h)

theorem dropLinks_beside (s : State) (ls : List Nat) (st d : Nat) : Beside s (s.dropLinks ls st) d := by
  induction ls generalizing s with
  | nil => exact .refl s d
  | cons l ls ih => exact (dropLink_beside s l st d).trans (ih _)

theorem link_dropLinks (s : State) (ls : List Nat) (st k : Nat) (h : s.Canonical) :
    (s.dropLinks ls st).link k = if k ∈ ls then Link.init else s.link k := by
  induction ls generalizing s with
  | nil => rfl
  | cons l ls ih =>
    refine (ih _ (dropLink_canonical s l st h)).trans ?_
    by_cases hk : k = l
    · subst hk
      simp [dropLink, link_setLink _ _ _ (wr_canonical _ _ _ h)]
    · have hother : (s.dropLink l st).link k = s.link k := link_setLink_ne _ _ hk
      simp [hother, hk]

theorem enterDie_eq (s : State) (d : Nat) :
    ∃ v, s.enterDie d = (((s.dropLinks (linksOf d) lsIN_RESET).setFld a_MG_TSYNC MG_TSYNC_SYNC_OK v).setDie d
      { Die.init with inReset := true }) := ⟨_, rfl⟩

theorem enterDie_canonical (s : State) (d : Nat) (h : s.Canonical) : (s.enterDie d).Canonical := by
  obtain ⟨v, e⟩ := s.enterDie_eq d
  rw [e]
  exact setDie_canonical _ _ _ (setFld_canonical _ _ _ _ (dropLinks_canonical s _ _ h))

theorem enterDie_beside (s : State) (d : Nat) : Beside s (s.enterDie d) d := by
  obtain ⟨v, e⟩ := s.enterDie_eq d
  rw [e]
  exact ((dropLinks_beside s _ _ d).trans (beside_setFld _ d _ _ noPartition_tsync)).trans (beside_setDie _ d _)

/-- A die's reset takes its links down, and the die is held in its reset. -/
theorem enterDie_die (s : State) (d : Nat) (h : s.Canonical) :
    (s.enterDie d).die d = { Die.init with inReset := true } ∧ ∀ l ∈ linksOf d, (s.enterDie d).link l = Link.init := by
  obtain ⟨v, e⟩ := s.enterDie_eq d
  have hlinks := fun k => link_dropLinks s (linksOf d) lsIN_RESET k h
  have hc := dropLinks_canonical s (linksOf d) lsIN_RESET h
  rw [e]
  generalize s.dropLinks (linksOf d) lsIN_RESET = u at hlinks hc
  exact ⟨die_setDie _ d _ (setFld_canonical u _ _ _ hc), fun l hl => (hlinks l).trans (if_pos hl)⟩

/-- A Burl is held in its die reset after a training of its link that failed. -/
def heldBack (s : State) (l : Nat) : State :=
  ((s.enterDie l).setDie l { (s.enterDie l).die l with untrained := true }).holdDom (domNet l)

theorem train_fails {s : State} {l working : Nat} (hm : s.mayTrain l = true) (hl : l < 6)
    (hw : (s.workingBundles l working).length < 9) :
    ∃ w, s.train l working = ((s.fieldRepaired l w).faultLink l true).heldBack l := by
  by_cases hlost : s.pins.lostMem.contains l = true
  · refine ⟨0, ?_⟩
    simp only [train, hm, hl, hlost, Bool.not_true, Bool.false_eq_true, decide_true, Bool.and_true, if_false, if_true,
      List.length_nil, Nat.zero_lt_succ]
    rfl
  · refine ⟨(s.workingBundles l working).length, ?_⟩
    rw [workingBundles] at hw ⊢
    simp only [train, hm, hl, hlost, hw, Bool.not_true, Bool.false_eq_true, decide_true, Bool.and_false, if_false, if_true]
    rfl

theorem heldBack_beside (s : State) (l : Nat) : Beside s (s.heldBack l) l :=
  ((s.enterDie_beside l).trans (beside_setDie _ l _)).trans (beside_holdDom _ _ l)

theorem heldBack_die (s : State) {l : Nat} (h : s.Canonical) (hl : l ∈ linksOf l) :
    ((s.heldBack l).die l).inReset = true ∧ (s.heldBack l).heldBurl l = true ∧ ((s.heldBack l).link l).up = false := by
  have hc := enterDie_canonical s l h
  obtain ⟨hdie, hlink⟩ := enterDie_die s l h
  have hheld : (s.heldBack l).die l = { (s.enterDie l).die l with untrained := true } := die_setDie (s.enterDie l) l _ hc
  have hdown : (s.heldBack l).link l = (s.enterDie l).link l := rfl
  refine ⟨?_, ?_, ?_⟩
  · rw [hheld, hdie]
  · rw [heldBurl, hheld]
  · rw [hdown, hlink l hl]
    rfl

/-- Partitions wait for their bring-up as before, but for those of a Burl that is held. -/
theorem mem_unjoined_beside {s t : State} {d : Nat} (b : Beside s t d) {p : Nat} (hp : burlOf p ≠ d) :
    p ∈ t.unjoined ↔ p ∈ s.unjoined := by
  have hpart : t.part p = s.part p := by rw [part, b.parts, part]
  simp only [unjoined, List.mem_filter, failedJoin, heldBurl, b.enabled, b.recovery, b.dies _ hp, hpart]

theorem not_mem_unjoined_held {t : State} {p d : Nat} (hd : t.heldBurl d = true) (hp : p ∈ t.unjoined) : burlOf p ≠ d := by
  rintro rfl
  simp [unjoined, hd] at hp

/-! ### A word that arrives (R25) -/

/-- The numbers of the words that stand behind a refused one, where none is known to stand there. -/
def freeWords (s : State) (x : Link) : List Nat := (List.range (1 + Config.freeNat s.fresh % 16)).map (fun i => x.sent + i)

/-- A link at a refused word: its replay buffer holds the word. -/
def refusedLink (s : State) (x : Link) (b : Nat) : Link :=
  if replay x b = [] then { setReplay x b (s.freeWords x) with sent := x.sent + (1 + Config.freeNat s.fresh % 16) } else x

theorem refusedLink_frame (s : State) (x : Link) (b : Nat) :
    (s.refusedLink x b).bundles = x.bundles ∧ (s.refusedLink x b).retries = x.retries ∧ (s.refusedLink x b).up = x.up := by
  rw [refusedLink]
  split <;> exact ⟨rfl, rfl, rfl⟩

theorem refusedLink_known {s : State} {x : Link} {b : Nat} (h : replay x b ≠ []) : s.refusedLink x b = x := if_neg h

theorem replay_refusedLink_free {s : State} {x : Link} {b : Nat} (h : replay x b = []) :
    replay (s.refusedLink x b) b = s.freeWords x := by
  rw [refusedLink, if_pos h]
  exact replay_setReplay x b (s.freeWords x)

/-- A refused word stands in its replay buffer, which holds at most 16 words (R25). -/
theorem replay_refusedLink (s : State) (x : Link) (b : Nat) :
    replay (s.refusedLink x b) b ≠ [] ∧ (replay x b = [] → (replay (s.refusedLink x b) b).length ≤ 16) := by
  have hlen : (s.freeWords x).length = 1 + Config.freeNat s.fresh % 16 := by rw [freeWords, List.length_map, List.length_range]
  by_cases h : replay x b = []
  · rw [replay_refusedLink_free h]
    refine ⟨fun hnil => ?_, fun _ => by omega⟩
    rw [hnil, List.length_nil] at hlen
    omega
  · rw [refusedLink_known h]
    exact ⟨h, fun hnil => absurd hnil h⟩

/-- The state at a refused word. -/
def atRefusal (s : State) (l b : Nat) : State := ({ s with fresh := s.fresh + 1 } : State).setLink l (s.refusedLink (s.link l) b)

theorem atRefusal_canonical (s : State) (l b : Nat) (h : s.Canonical) : (s.atRefusal l b).Canonical :=
  setLink_canonical ({ s with fresh := s.fresh + 1 } : State) l _ h

theorem link_atRefusal (s : State) (l b : Nat) (h : s.Canonical) : (s.atRefusal l b).link l = s.refusedLink (s.link l) b :=
  link_setLink ({ s with fresh := s.fresh + 1 } : State) l _ h

/-- A link carries words on a bundle of a role. -/
structure Carrying (s : State) (l b role : Nat) : Prop where
  bundle : (s.link l).bundles.find? (fun y => y.1 == b) = some (b, role)
  up : (s.link l).up = true
  home : s.domOn domHome = true

theorem Carrying.taken {s : State} {l b role : Nat} (c : s.Carrying l b role) : (!(s.link l).up || !s.domOn domHome) = false := by
  rw [c.up, c.home]
  rfl

theorem takeWord_good {s : State} {l b role : Nat} (c : s.Carrying l b role) :
    s.takeWord l b .good = s.setLink l (arrived (s.link l) b) := by
  simp only [takeWord, c.bundle, c.taken, Bool.false_eq_true, if_false]
  rfl

theorem takeWord_corrected {s : State} {l b role : Nat} (c : s.Carrying l b role) :
    s.takeWord l b .corrected = (s.setLink l (arrived (s.link l) b)).bump (a_LK_ERRCNT l) LK_ERRCNT_CORRECTED 1 := by
  simp only [takeWord, c.bundle, c.taken, Bool.false_eq_true, if_false]
  rfl

theorem takeWord_refused {s : State} {l b role : Nat} (c : s.Carrying l b role) :
    s.takeWord l b .refused = if failures (s.link l) b + 1 < 4 then
      ((s.atRefusal l b).setLink l { s.refusedLink (s.link l) b with
        retries := (s.link l).retries.filter (fun r => r.1 != b) ++ [(b, failures (s.link l) b + 1)] }).bump (a_LK_ERRCNT l)
        LK_ERRCNT_RESENDS 1
      else (s.atRefusal l b).retire l b role := by
  simp only [takeWord, c.bundle, c.taken, Bool.false_eq_true, if_false]
  rfl

/-- A refused word that has failed less than four times is resent. -/
theorem takeWord_resent {s : State} {l b role : Nat} (c : s.Carrying l b role) (hn : failures (s.link l) b + 1 < 4) :
    s.takeWord l b .refused = ((s.atRefusal l b).setLink l
      (failedWord (s.refusedLink (s.link l) b) b (failures (s.link l) b + 1))).bump (a_LK_ERRCNT l) LK_ERRCNT_RESENDS 1 := by
  rw [takeWord_refused c, if_pos hn, failedWord, (refusedLink_frame s (s.link l) b).2.1]

/-- The first failure of a word is noted at its bundle and counted. -/
theorem takeWord_firstFailure {s : State} {l b role : Nat} (h : s.Canonical) (c : s.Carrying l b role)
    (hn : failures (s.link l) b = 0) :
    (s.takeWord l b .refused).link l = failedWord (s.refusedLink (s.link l) b) b 1 ∧
      (s.takeWord l b .refused).fld (a_LK_ERRCNT l) LK_ERRCNT_RESENDS =
        satAdd (s.fld (a_LK_ERRCNT l) LK_ERRCNT_RESENDS) 1 (2 ^ LK_ERRCNT_RESENDS.width - 1) ∧
      ∀ a, a ≠ a_LK_ERRCNT l → (s.takeWord l b .refused).rd a = s.rd a := by
  have hc := atRefusal_canonical s l b h
  rw [takeWord_resent c (by omega), hn]
  exact ⟨link_setLink _ l _ hc, fld_bump _ _ _ 1 (setLink_canonical _ l _ hc) (by unfold Fld.Sound; decide),
    fun a ha => rd_bump_ne _ _ 1 ha⟩

/-- The fourth failure of a word retires its bundle. -/
theorem takeWord_retired {s : State} {l b role : Nat} (c : s.Carrying l b role) (hn : failures (s.link l) b = 3) :
    s.takeWord l b .refused = (s.atRefusal l b).retire l b role := by
  rw [takeWord_refused c, if_neg (by omega)]

/-! ### A bundle that is retired (R25, R26) -/

/-- The bundles that the status of a link counts after one has been retired. -/
def retiredStatus (x : Link) (b role : Nat) : List (Fld × Nat) :=
  let rest := x.bundles.filter (fun y => y.1 != b)
  [(LK_STATUS_BUNDLES_OK, rest.length), (roleField role, (rest.filter (fun y => y.2 == role)).length)]

/-- A link that goes on in a degraded state, as LK_STATUS and LK_REPAIR show. -/
def degraded (s : State) (l : Nat) (x : Link) (counts : List (Fld × Nat)) : State :=
  (((s.setLink l x).setFld (a_LK_REPAIR l) LK_REPAIR_FIELD 1).setFlds (a_LK_STATUS l) counts).setFld (a_LK_STATUS l) LK_STATUS_STATE
    lsDEGRADED

theorem a_LK_REPAIR_ne_status (l : Nat) : a_LK_REPAIR l ≠ a_LK_STATUS l := by simp only [a_LK_REPAIR, a_LK_STATUS]; omega

theorem degraded_frame (s : State) (l : Nat) (x : Link) (counts : List (Fld × Nat)) (h : s.Canonical) :
    (s.degraded l x counts).link l = x ∧ (s.degraded l x counts).mem = s.mem := by
  obtain ⟨rs, e⟩ := ((s.setLink l x).setFld (a_LK_REPAIR l) LK_REPAIR_FIELD 1).setFlds_eq (a_LK_STATUS l) counts
  rw [degraded, e]
  exact ⟨link_setLink s l x h, rfl⟩

theorem degraded_shows (s : State) (l : Nat) (x : Link) (counts : List (Fld × Nat)) (h : s.Canonical) :
    (s.degraded l x counts).fld (a_LK_STATUS l) LK_STATUS_STATE = lsDEGRADED ∧
      (s.degraded l x counts).fld (a_LK_REPAIR l) LK_REPAIR_FIELD = 1 := by
  have hc := setLink_canonical s l x h
  have hne := a_LK_REPAIR_ne_status l
  refine ⟨fld_setFld _ _ _ _ (setFlds_canonical _ _ _ (setFld_canonical _ _ _ _ hc)) (by decide) (by decide), ?_⟩
  rw [degraded, fld_setFld_ne _ _ _ _ _ _ hne, fld, rd_setFlds_ne _ _ hne]
  exact fld_setFld _ _ _ _ hc (by decide) (by decide)

/-- The link of a retired bundle stays in service, degraded, where its role has another bundle. -/
theorem retire_degrades (s : State) {l b role : Nat} (hl : l < 6)
    (hany : ((s.link l).bundles.filter (fun y => y.1 != b)).any (fun y => y.2 == role) = true) :
    s.retire l b role = (s.degraded l (retiredLink (s.link l) b role) (retiredStatus (s.link l) b role)).faultLink l false := by
  have h6 : ¬6 ≤ l := by omega
  simp only [retire, hl, h6, hany, decide_false, Bool.not_true, Bool.or_self, Bool.false_eq_true, if_false, if_true]
  rfl

/-- A non-fatal record about a link changes no link, no register and no memory. -/
theorem faultLink_warning (s : State) (l : Nat) :
    (s.faultLink l false).links = s.links ∧ (s.faultLink l false).regs = s.regs ∧ (s.faultLink l false).mem = s.mem := by
  obtain ⟨held, mg, e⟩ := s.fault_device_event
    (r := { s.record cLINK with fatal := false, die := (linkEnds l).1, unit := 64 + l }) rfl rfl
  rw [faultLink, e]
  exact ⟨rfl, rfl, rfl⟩

theorem retire_shows (s : State) {l b role : Nat} (h : s.Canonical) (hl : l < 6)
    (hany : ((s.link l).bundles.filter (fun y => y.1 != b)).any (fun y => y.2 == role) = true) :
    (s.retire l b role).link l = retiredLink (s.link l) b role ∧
      (s.retire l b role).fld (a_LK_STATUS l) LK_STATUS_STATE = lsDEGRADED ∧
      (s.retire l b role).fld (a_LK_REPAIR l) LK_REPAIR_FIELD = 1 ∧ (s.retire l b role).mem = s.mem := by
  obtain ⟨hlink, hmem⟩ := degraded_frame s l (retiredLink (s.link l) b role) (retiredStatus (s.link l) b role) h
  obtain ⟨hstate, hrepair⟩ := degraded_shows s l (retiredLink (s.link l) b role) (retiredStatus (s.link l) b role) h
  rw [retire_degrades s hl hany]
  generalize s.degraded l (retiredLink (s.link l) b role) (retiredStatus (s.link l) b role) = u at hlink hmem hstate hrepair ⊢
  obtain ⟨flinks, fregs, fmem⟩ := u.faultLink_warning l
  refine ⟨?_, ?_, ?_, fmem.trans hmem⟩
  · rw [link, flinks]
    exact hlink
  · rw [fld, rd, fregs]
    exact hstate
  · rw [fld, rd, fregs]
    exact hrepair

end State

/-! ### The commands -/

theorem linksOf_burl {l : Nat} (hl : l < 6) : l ∈ linksOf l := by
  have table : ∀ k : Fin 6, k.val ∈ linksOf k.val := by decide
  exact table ⟨l, hl⟩

/-- Settles O37: a link in service shows its bundles and shares, a Burl whose link fails is held back with nothing else changed, and
each fate of a word leaves its own state of the link. -/
theorem linksTrainAndCarryWords : Obligations.LinksTrainAndCarryWords := by
  refine ⟨fun l working s h hm hlost => ?trains, fun l working s h hm hw => ?fails, fun l b role s h hb hup hhome => ?words⟩
  case trains =>
    intro ok c tl k hw
    by_cases hl : l.val < 6
    · rw [if_pos hl] at hw
      obtain ⟨hactive, hup, hbundles⟩ := inService_serves s l ok.length (withRoles (s.roleShares l ok.length) ok) h
        (roleStatus_fields (s.roleShares l ok.length) ok.length) (by simp [roleStatus])
      exact ⟨_, congrArg Host.Outcome.next (train_burl hm hl (hlost hl) hw), hactive, hup,
        (congrArg _ hbundles).trans (withRoles_bundles _ ok),
        fun _ hsum hc ht hk => roleUse_sum _ h hsum hc ht hk hw (workingBundles_le s _ hl), inService_mem s l _ _ _⟩
    · rw [if_neg hl] at hw
      obtain ⟨hactive, hup, hbundles⟩ := inService_serves s l ok.length (ok.map (fun b => (b, 3))) h
        (plainStatus_fields ok.length) (by simp [plainStatus])
      exact ⟨_, congrArg Host.Outcome.next (train_other hm hl hw), hactive, hup,
        (congrArg _ hbundles).trans (withoutRoles_bundles ok), fun hl' => absurd hl' hl, inService_mem s l _ _ _⟩
  case fails =>
    obtain ⟨w, e⟩ := train_fails hm l.isLt hw
    have hcr := fieldRepaired_canonical s l.val w h
    obtain ⟨hc, hfault⟩ := faultLink_fatal _ l.val l.val hcr
    obtain ⟨hreset, hheld, hdown⟩ := heldBack_die _ hc (linksOf_burl l.isLt)
    have hbeside := ((fieldRepaired_beside s l.val w (by omega)).trans hfault).trans (heldBack_beside _ l.val)
    exact ⟨_, congrArg Host.Outcome.next e, hreset, hheld, hdown, fun k _ hk => hbeside.dies k hk,
      fun p hp hne => (mem_unjoined_beside hbeside hne).mpr hp, fun p hp => not_mem_unjoined_held hheld hp, hbeside.mem⟩
  case words =>
    have c : s.Carrying l.val b.val role := ⟨hb, hup, hhome⟩
    refine ⟨congrArg Host.Outcome.next (takeWord_good c), ?corrected, fun hnone => ?resent, fun hthird hl hany => ?retired⟩
    case corrected =>
      exact ⟨_, congrArg Host.Outcome.next (takeWord_corrected c), link_setLink s l _ h,
        fld_bump _ _ _ 1 (setLink_canonical s l _ h) (by unfold Fld.Sound; decide), fun a ha => rd_bump_ne _ _ 1 ha⟩
    case resent =>
      obtain ⟨hlink, hcount, hothers⟩ := takeWord_firstFailure h c (failures_none hnone)
      obtain ⟨hbundles, -, -⟩ := refusedLink_frame s (s.link l) b
      obtain ⟨hheld, h16⟩ := replay_refusedLink s (s.link l) b
      refine ⟨_, rfl, ?_, ?_, ?_, ?_, ?_, hcount, hothers⟩ <;> rw [hlink]
      · exact List.mem_append_right _ List.mem_cons_self
      · exact hbundles
      · exact hheld
      · exact fun hne => by rw [replay_failedWord, refusedLink_known hne]
      · exact h16
    case retired =>
      obtain ⟨hbundles, -, hup'⟩ := refusedLink_frame s (s.link l) b
      have hrest : ((s.link l).bundles.filter (fun y => y.1 != b.val)).any (fun y => y.2 == role) = true := by
        rw [List.any_filter]
        exact hany
      have hlink := link_atRefusal s l b h
      rw [← hbundles, ← hlink] at hrest
      obtain ⟨hafter, hstate, hrepair, hmem⟩ := retire_shows (atRefusal s l b) (atRefusal_canonical s l b h) hl hrest
      obtain ⟨rbundles, rup⟩ := retiredLink_frame (s.refusedLink (s.link l) b) b role
      rw [hlink] at hafter
      refine ⟨_, congrArg Host.Outcome.next (takeWord_retired c (failures_some hthird)), ?_, ?_, fun y hy hne => ?_, hstate,
        hrepair, hmem⟩
      · rw [hafter, rbundles, hbundles]
      · rw [hafter, rup, hup', hup]
      · rw [hafter, refusedLink_known hne]
        exact replay_retiredLink hy

end Sys2Proof.Machine
end

section
/-! PROOFS. Dispatch commands that wait, or that complete a descriptor without work (R81, R124, R126, R143). -/

namespace Sys2Proof.Machine

open State

namespace State

/-! ### What every dispatch command shares -/

theorem dispatchNext_otherKind {s : State} {p slot : Nat} {d : Desc} {is : Desc → Bool}
    (check : State → Nat → Desc → Option DispatchFail) (free : State → Nat → Desc → Bool) (body : State → Nat → Desc → State)
    (hd : nextUndispatched (s.ctx (cid p slot)) = some d) (hk : is d = false) : dispatchNext p slot is check free body s = s := by
  simp only [dispatchNext, hd, hk, Bool.not_false, Bool.or_true, Bool.true_or, if_true]

theorem dispatchNext_otherTurn {s : State} {p slot : Nat} {is : Desc → Bool}
    (check : State → Nat → Desc → Option DispatchFail) (free : State → Nat → Desc → Bool) (body : State → Nat → Desc → State)
    (ht : s.turn p (s.part p).lastDisp slot s.dispatchable = false) : dispatchNext p slot is check free body s = s := by
  simp only [dispatchNext, ht, Bool.not_false, Bool.or_true, if_true]
  split <;> rfl

/-- No condition of R81 and R143 holds a descriptor back that may dispatch. -/
theorem Dispatchable.notHeld {s : State} {p slot : Nat} {d : Desc} (c : s.Dispatchable p slot d) {is : Desc → Bool}
    (hk : is d = true) :
    (!s.mayRun (cid p slot) || d.stage != .ready || !is d || !s.orderOk (cid p slot) d
      || !s.turn p (s.part p).lastDisp slot s.dispatchable) = false := by
  simp [c.run, c.ready, hk, c.order, c.turn]

/-- Nothing that R146 reports by a position stops a descriptor that may dispatch. -/
theorem Dispatchable.noPosition {s : State} {p slot : Nat} {d : Desc} (c : s.Dispatchable p slot d) :
    smallest (((predsNamed d).filter (fun x => !s.ownsPred (cid p slot) x.1)).map (fun x => x.2) ++ s.roughBad d) = none := by
  have howned : (predsNamed d).filter (fun x => !s.ownsPred (cid p slot) x.1) = [] := by
    simpa [List.filter_eq_nil_iff] using c.owned
  rw [howned, c.formats]
  rfl

/-- A descriptor whose predicate is false completes as soon as it is chosen (R124). -/
theorem dispatchNext_predFalse {s : State} {p slot : Nat} {d : Desc} (c : s.Dispatchable p slot d) {is : Desc → Bool}
    (check : State → Nat → Desc → Option DispatchFail) (free : State → Nat → Desc → Bool) (body : State → Nat → Desc → State)
    (hk : is d = true) (hen : d.predEn = true) (hp : s.predBit p d.predIdx = d.predInv) :
    dispatchNext p slot is check free body s = (s.taken p slot d).finish (cid p slot) d.index stPRED_FALSE 0 := by
  unfold dispatchNext
  simp only [c.next, c.notHeld hk, Bool.false_eq_true, if_false]
  split
  · rename_i pos hpos
    exact absurd (c.noPosition.symm.trans hpos) (by simp)
  split
  · rfl
  · rename_i hpred
    exact absurd (show (d.predEn && s.predBit p d.predIdx == d.predInv) = true by simp [hen, hp]) hpred

/-- A descriptor with a length of 0 completes once its lengths are resolved (R126). -/
theorem dispatchNext_noWork {s : State} {p slot : Nat} {d : Desc} (c : s.Dispatchable p slot d) {is : Desc → Bool}
    (check : State → Nat → Desc → Option DispatchFail) (free : State → Nat → Desc → Bool) (body : State → Nat → Desc → State)
    (hk : is d = true) (hp : ¬ (d.predEn = true ∧ s.predBit p d.predIdx = d.predInv)) (hm : d.marked = false)
    (h0 : (s.resolved (cid p slot) d).len = 0 ∨ (s.resolved (cid p slot) d).len2 = 0) :
    dispatchNext p slot is check free body s = (s.shaped p slot d).finish (cid p slot) d.index stOK 0 := by
  unfold dispatchNext
  simp only [c.next, c.notHeld hk, Bool.false_eq_true, if_false]
  split
  · rename_i pos hpos
    exact absurd (c.noPosition.symm.trans hpos) (by simp)
  split
  · rename_i hpred
    simp only [Bool.and_eq_true, beq_iff_eq] at hpred
    exact absurd hpred hp
  split
  · rename_i hmarked
    exact absurd (hm.symm.trans hmarked) (by simp)
  split
  · rfl
  · rename_i hwork
    simp only [Bool.or_eq_true, decide_eq_true_eq] at hwork
    exact absurd h0 hwork

/-! ### A descriptor that ends where it was chosen -/

theorem taken_descs (s : State) (p slot : Nat) (d : Desc) (h : s.Canonical) :
    ((s.taken p slot d).ctx (cid p slot)).descs = s.descsWith (cid p slot) (s.configured p slot d) :=
  descs_modDesc s (cid p slot) d.index (fun _ => s.configured p slot d) h

theorem shaped_descs (s : State) (p slot : Nat) (d : Desc) (h : s.Canonical) :
    ((s.shaped p slot d).ctx (cid p slot)).descs = s.descsWith (cid p slot) (s.shapedDesc p slot d) := by
  rw [shaped, descs_modDesc _ _ _ _ (taken_canonical s p slot d h), taken_descs s p slot d h]
  exact endsWith_const (index := d.index) (b := s.configured p slot d) (fun _ => s.shapedDesc p slot d) _ rfl

theorem taken_placed {s : State} {p slot : Nat} {d : Desc} (h : s.Canonical) (c : s.Dispatchable p slot d) :
    s.Placed (s.taken p slot d) (cid p slot) d (s.configured p slot d) where
  canonical := taken_canonical s p slot d h
  mem := List.mem_of_find?_eq_some c.next
  index := rfl
  remote := rfl
  descs := taken_descs s p slot d h
  now := rfl
  dies := rfl
  asid := rfl

theorem shaped_placed {s : State} {p slot : Nat} {d : Desc} (h : s.Canonical) (c : s.Dispatchable p slot d) :
    s.Placed (s.shaped p slot d) (cid p slot) d (s.shapedDesc p slot d) where
  canonical := shaped_canonical s p slot d h
  mem := List.mem_of_find?_eq_some c.next
  index := rfl
  remote := rfl
  descs := shaped_descs s p slot d h
  now := rfl
  dies := rfl
  asid := rfl

/-- The end of a descriptor that reaches no other device changes no other context. -/
theorem ctx_finish_ne (s : State) {id k : Nat} (index status detail : Nat) (hk : k ≠ id) (hr : s.remoteFound id index = false) :
    (s.finish id index status detail).ctx k = s.ctx k := by
  rw [finish_eq, hr]
  exact ctx_setCtx_ne s id k _ hk

/-- In every other context the end of a descriptor keeps every entry that is no FENCE. -/
theorem finish_keeps_ne (s : State) {id k : Nat} (index status detail : Nat) (h : s.Canonical) (hk : k ≠ id) {e : Desc}
    (he : e ∈ (s.ctx k).descs) (hf : e.kind ≠ kFENCE) : e ∈ ((s.finish id index status detail).ctx k).descs := by
  obtain ⟨i, hi⟩ := List.mem_iff_getElem?.mp he
  have hended : ((s.ended id index status detail).ctx k).descs[i]? = some e := by
    rw [ended, modDesc, ctx_modCtx_ne s _ hk]
    exact hi
  rw [finish_eq]
  split
  · exact List.mem_of_getElem? (advanceDone_keeps _ _ k i (modDesc_canonical s _ _ _ h) (Or.inl hf) hended)
  · exact List.mem_of_getElem? hended

theorem Placed.otherContexts {s u : State} {id : Nat} {d b : Desc} (h : s.Placed u id d b)
    (hne : ∀ k, k ≠ id → u.ctx k = s.ctx k) (status detail : Nat) :
    s.otherContexts (u.finish id d.index status detail) id d.index := by
  refine fun k hk => ⟨fun hlocal => ?_, fun e he hf => ?_⟩
  · have hr : u.remoteFound id d.index = false := by
      rw [h.remoteFound]
      exact Bool.eq_false_iff.mpr (fun hr => hlocal (h.remoteAt hr))
    rw [ctx_finish_ne u _ _ _ hk hr, hne k hk]
  · rw [← hne k hk] at he
    exact finish_keeps_ne u _ _ _ h.canonical hk he hf

/-- From s to t the descriptor d of a slot has been chosen and its entry has become e; nothing else of the device changes. -/
structure EndedAlone (s t : State) (p slot : Nat) (d e : Desc) : Prop where
  becomes : s.becomes t (cid p slot) d.index (fun _ => e)
  others : s.otherContexts t (cid p slot) d.index
  regs : s.sameRegs t (cid p slot) d.index
  served : s.servedSlot t p slot 0
  rest : t.mem = s.mem ∧ t.units = s.units ∧ t.ts = s.ts ∧ t.jobs = s.jobs ∧ t.bead = s.bead ∧ t.held = s.held ∧ t.outbox = s.outbox

/-- A chosen descriptor that ends in a state where only contexts and partitions have changed. -/
theorem Placed.endedAlone {s u : State} {p slot : Nat} {d b : Desc} (h : s.Placed u (cid p slot) d b) (hs : slot < 192)
    (hu : ∃ cs ps, u = { s with ctxs := cs, parts := ps }) (hne : ∀ k, k ≠ cid p slot → u.ctx k = s.ctx k)
    (hp : u.part p = { s.part p with lastDisp := slot }) (hq : ∀ q, q ≠ p → u.part q = s.part q) (status detail : Nat) :
    s.EndedAlone (u.finish (cid p slot) d.index status detail) p slot d (s.completed p b status detail) := by
  have hbecomes := h.becomes status detail
  rw [cid_div p hs] at hbecomes
  have hrd := fun a => h.rd_finish status detail (a := a)
  have hothers := h.otherContexts hne status detail
  obtain ⟨cs, rs, e, -⟩ := finish_frame u (cid p slot) d.index status detail
  have hserved : s.servedSlot (u.finish (cid p slot) d.index status detail) p slot 0 := by
    intro q
    rw [e]
    show u.part q = _
    split
    · rename_i hqp
      rw [hqp, hp]
      rfl
    · rename_i hqp
      exact hq q hqp
  obtain ⟨cs', ps, rfl⟩ := hu
  exact ⟨hbecomes, hothers, fun a ha => hrd a ha, hserved, by rw [e]; exact ⟨rfl, rfl, rfl, rfl, rfl, rfl, rfl⟩⟩

theorem taken_ctx_ne (s : State) {p slot k : Nat} (d : Desc) (hk : k ≠ cid p slot) : (s.taken p slot d).ctx k = s.ctx k :=
  ctx_setCtx_ne s (cid p slot) k _ hk

theorem shaped_ctx_ne (s : State) {p slot k : Nat} (d : Desc) (hk : k ≠ cid p slot) : (s.shaped p slot d).ctx k = s.ctx k :=
  (ctx_setCtx_ne (s.taken p slot d) (cid p slot) k _ hk).trans (taken_ctx_ne s d hk)

theorem taken_endedAlone {s : State} {p slot : Nat} {d : Desc} (h : s.Canonical) (c : s.Dispatchable p slot d) (hs : slot < 192)
    (status detail : Nat) :
    s.EndedAlone ((s.taken p slot d).finish (cid p slot) d.index status detail) p slot d
      (s.completed p (s.configured p slot d) status detail) :=
  (taken_placed h c).endedAlone hs ⟨_, _, rfl⟩ (fun _ hk => taken_ctx_ne s d hk)
    (part_modPart _ p _ (modDesc_canonical s _ _ _ h)) (fun _ hq => part_modPart_ne _ _ hq) status detail

theorem shaped_endedAlone {s : State} {p slot : Nat} {d : Desc} (h : s.Canonical) (c : s.Dispatchable p slot d) (hs : slot < 192)
    (status detail : Nat) :
    s.EndedAlone ((s.shaped p slot d).finish (cid p slot) d.index status detail) p slot d
      (s.completed p (s.shapedDesc p slot d) status detail) :=
  (shaped_placed h c).endedAlone hs (shaped_eq s p slot d) (fun _ hk => shaped_ctx_ne s d hk)
    (shaped_part s p slot d h) (fun _ hq => shaped_part_ne s slot d hq) status detail

end State

/-- Every dispatch command is the shared dispatch of the descriptors it names, with checks and a body of its own. -/
theorem exec_dispatchTable (pp : Fin 24) (slot : Fin 192) :
    ∀ x ∈ dispatchTable pp slot, ∃ check free body, ∀ s, exec x.1 s = .next (dispatchNext pp slot x.2 check free body s) := by
  simp only [dispatchTable, dispatchEngines, dispatchOthers, List.forall_mem_append, List.forall_mem_cons, List.not_mem_nil,
    false_imp_iff, forall_true_iff, and_true]
  and_intros <;> exact ⟨_, _, _, fun _ => rfl⟩

/-- Settles O43: every dispatch command is one shared dispatch, which reads the predicate and the lengths before any check of its own. -/
theorem dispatchHonoursPredicateAndLength : Obligations.DispatchHonoursPredicateAndLength := by
  intro pp slot c is d s hc h id alone
  obtain ⟨check, free, body, hexec⟩ := exec_dispatchTable pp slot (c, is) hc
  have hexec : exec c s = .next (dispatchNext pp slot is check free body s) := hexec s
  have asAlone {t : State} {e : Desc} (x : s.EndedAlone t pp slot d e) : alone t e := ⟨x.becomes, x.others, x.regs, x.served, x.rest⟩
  refine ⟨fun hd hk => ?otherKind, fun ht => ?otherTurn, fun hdis hk hen hp => ?predFalse, fun hdis hk hp hm h0 => ?noWork⟩
  case otherKind => rw [hexec, dispatchNext_otherKind check free body hd hk]
  case otherTurn => rw [hexec, dispatchNext_otherTurn check free body ht]
  case predFalse =>
    exact ⟨_, hexec.trans (congrArg Host.Outcome.next (dispatchNext_predFalse hdis check free body hk hen hp)),
      asAlone (taken_endedAlone h hdis slot.isLt _ _)⟩
  case noWork =>
    exact ⟨_, hexec.trans (congrArg Host.Outcome.next (dispatchNext_noWork hdis check free body hk hp hm h0)),
      asAlone (shaped_endedAlone h hdis slot.isLt _ _)⟩

end Sys2Proof.Machine
end

section
/-! PROOFS. Semaphores and barriers: updates at the endpoint, WAITs held there and released, barrier generations (R39, R156, R164,
R167). -/

namespace Sys2Proof.Machine

open State

namespace State

/-! ### The value of a semaphore (R164) -/

theorem sem_lt (s : State) (p i : Nat) : s.sem p i < 2 ^ 32 := Fld.get_lt BD_SEM_VALUE _

theorem sem_setSem (s : State) (p i v : Nat) (h : s.Canonical) : (s.setSem p i v).sem p i = v % 2 ^ 32 :=
  fld_setFld s _ BD_SEM_VALUE v h (by decide) (by decide)

theorem rd_setSem_ne (s : State) {p i a : Nat} (v : Nat) (ha : a ≠ a_BD_SEM p i) : (s.setSem p i v).rd a = s.rd a :=
  rd_setFld_ne s _ a _ v ha

/-! ### The tests of held WAITs (R39, R156) -/

/-- The endpoint has no held WAIT that its semaphore satisfies. -/
theorem satisfied_eq_none {s : State} {p i : Nat} :
    s.satisfied p i = none ↔ ∀ w ∈ s.semWaits, w.part = p → w.sem = i → condHolds w.cond (s.sem p i) w.value = false := by
  simp only [satisfied, List.find?_eq_none, Bool.and_eq_true, beq_iff_eq, not_and, Bool.not_eq_true, and_imp]

theorem satisfied_some {s : State} {p i : Nat} {w : SemWait} (h : s.satisfied p i = some w) :
    w ∈ s.semWaits ∧ w.part = p ∧ w.sem = i := by
  have hw := List.find?_some h
  simp only [Bool.and_eq_true, beq_iff_eq] at hw
  exact ⟨List.mem_of_find?_eq_some h, hw.1.1, hw.1.2⟩

/-- A held WAIT has been released; GE_CONSUME has subtracted its value. -/
def semReleased (s : State) (p i : Nat) (w : SemWait) : State :=
  let t := if w.cond = 4 then s.setSem p i (s.sem p i - w.value) else s
  { t with semWaits := t.semWaits.erase w, bead := t.bead ++ [.waitRelease w.pp w.ref true] }

theorem retest_succ (s : State) (p i n : Nat) :
    s.retest p i (n + 1) = match s.satisfied p i with
      | none => s
      | some w => (s.semReleased p i w).retest p i n := rfl

theorem retest_none {s : State} {p i : Nat} (h : s.satisfied p i = none) (n : Nat) : s.retest p i n = s := by
  cases n with
  | zero => rfl
  | succ n => rw [retest_succ, h]

/-- From s to t WAITs held at the endpoints may have been released, those of one semaphore alone; nothing but its register, the
held WAITs and the Bead network has changed. -/
structure SemReleases (s t : State) (p i : Nat) : Prop where
  left : ∀ w ∈ t.semWaits, w ∈ s.semWaits
  released : ∀ w ∈ s.semWaits, w ∈ t.semWaits ∨ w.part = p ∧ w.sem = i ∧ .waitRelease w.pp w.ref true ∈ t.bead
  sent : ∀ m ∈ s.bead, m ∈ t.bead
  others : ∀ a, a ≠ a_BD_SEM p i → t.rd a = s.rd a
  rest : t.mem = s.mem ∧ t.ctxs = s.ctxs

theorem SemReleases.refl (s : State) (p i : Nat) : s.SemReleases s p i :=
  ⟨fun _ h => h, fun _ h => Or.inl h, fun _ h => h, fun _ _ => rfl, rfl, rfl⟩

theorem SemReleases.trans {s t u : State} {p i : Nat} (a : s.SemReleases t p i) (b : t.SemReleases u p i) : s.SemReleases u p i where
  left w hw := a.left w (b.left w hw)
  released w hw := (a.released w hw).elim (b.released w) (fun ⟨hp, hi, hm⟩ => Or.inr ⟨hp, hi, b.sent _ hm⟩)
  sent m hm := b.sent m (a.sent m hm)
  others x hx := (b.others x hx).trans (a.others x hx)
  rest := ⟨b.rest.1.trans a.rest.1, b.rest.2.trans a.rest.2⟩

theorem setSem_releases (s : State) (p i v : Nat) : s.SemReleases (s.setSem p i v) p i :=
  ⟨fun _ h => h, fun _ h => Or.inl h, fun _ h => h, fun _ ha => rd_setSem_ne s v ha, rfl, rfl⟩

theorem semReleased_releases {s : State} {p i : Nat} {w : SemWait} (hp : w.part = p) (hi : w.sem = i) :
    s.SemReleases (s.semReleased p i w) p i := by
  have hconsume : s.SemReleases (if w.cond = 4 then s.setSem p i (s.sem p i - w.value) else s) p i := by
    split
    · exact setSem_releases s p i _
    · exact .refl s p i
  refine hconsume.trans ⟨fun x hx => List.mem_of_mem_erase hx, fun x hx => ?_, fun m hm => List.mem_append_left _ hm,
    fun _ _ => rfl, rfl, rfl⟩
  by_cases hxw : x = w
  · subst hxw
    exact Or.inr ⟨hp, hi, List.mem_append_right _ List.mem_cons_self⟩
  · exact Or.inl ((List.mem_erase_of_ne hxw).mpr hx)

theorem length_semReleased {s : State} {p i : Nat} {w : SemWait} (hw : w ∈ s.semWaits) :
    (s.semReleased p i w).semWaits.length = s.semWaits.length - 1 := by
  rw [semReleased]
  split <;> exact List.length_erase_of_mem hw

/-- The tests release only satisfied WAITs, and with as many tests as WAITs none that is satisfied is left. -/
theorem retest_releases (s : State) (p i n : Nat) :
    s.SemReleases (s.retest p i n) p i ∧ (s.semWaits.length ≤ n → (s.retest p i n).satisfied p i = none) := by
  induction n generalizing s with
  | zero =>
    refine ⟨.refl s p i, fun h0 => ?_⟩
    have hempty : s.semWaits = [] := List.length_eq_zero_iff.mp (Nat.le_zero.mp h0)
    rw [retest, satisfied_eq_none, hempty]
    exact fun w hw => absurd hw List.not_mem_nil
  | succ n ih =>
    cases hsat : s.satisfied p i with
    | none => rw [retest_none hsat]; exact ⟨.refl s p i, fun _ => hsat⟩
    | some w =>
      obtain ⟨hmem, hp, hi⟩ := satisfied_some hsat
      obtain ⟨hrel, hnone⟩ := ih (s.semReleased p i w)
      rw [retest_succ, hsat]
      refine ⟨(semReleased_releases hp hi).trans hrel, fun hlen => hnone ?_⟩
      rw [length_semReleased hmem]
      omega

/-! ### An update at the endpoint -/

theorem updateSem_releases (s : State) (p i v : Nat) : s.SemReleases (s.updateSem p i v) p i :=
  (setSem_releases s p i v).trans (retest_releases (s.setSem p i v) p i s.semWaits.length).1

/-- No WAIT is left after an update that its semaphore satisfies. -/
theorem updateSem_satisfied (s : State) (p i v : Nat) : (s.updateSem p i v).satisfied p i = none :=
  (retest_releases (s.setSem p i v) p i s.semWaits.length).2 (Nat.le_refl _)

/-- Where no WAIT is held at the semaphore, an update sets it and does nothing else. -/
theorem updateSem_noWaits {s : State} {p i : Nat} (v : Nat) (hno : ∀ w ∈ s.semWaits, w.part = p → w.sem ≠ i) :
    s.updateSem p i v = s.setSem p i v := by
  have hnone : (s.setSem p i v).satisfied p i = none := satisfied_eq_none.mpr (fun w hw hp hi => absurd hi (hno w hw hp))
  exact retest_none hnone _

/-- The value that a core's update leaves in its semaphore (R164). -/
theorem apply_mod (op : SemOp) {x : Nat} (hx : x < 2 ^ 32) :
    (op.apply x).1 % 2 ^ 32 = match op with
      | .add v => (x + v) % 2 ^ 32
      | .set v => v % 2 ^ 32
      | .max v => Nat.max x v % 2 ^ 32
      | .cas c v => if x = c then v % 2 ^ 32 else x := by
  cases op with
  | add v => exact Nat.mod_mod _ _
  | set v => rfl
  | max v => rfl
  | cas c v =>
    simp only [SemOp.apply]
    split
    · rfl
    · exact Nat.mod_eq_of_lt hx

end State

/-! ### The commands -/

theorem exec_semaphoreUpdate_core {k p i : Nat} {op : SemOp} {s : State} (hk : s.bead[k]? = some (.update p i op .core))
    (hr : s.inReset p = false) (he : s.endpointHeld p = false) :
    exec (.semaphoreUpdate k) s = .next ((s.dropBead k).updateSem p i (op.apply (s.sem p i)).1) := by
  have hr' : (s.dropBead k).inReset p = false := hr
  show execSemaphoreUpdate k s = _
  simp only [execSemaphoreUpdate, hk, he, applySem, hr', Bool.false_eq_true, if_false]
  rfl

/-- A WAIT that blocks reaches a semaphore that satisfies it: it is released, and GE_CONSUME updates the semaphore first. -/
theorem exec_semWaitArrive_holds {k p part i cond v : Nat} {r : DRef} {test : Bool} {s : State}
    (hk : s.bead[k]? = some (.waitArrive p r part i cond v test)) (hb : s.blocked p r = true) (hr : s.inReset part = false)
    (he : s.endpointHeld part = false) (hc : condHolds cond (s.sem part i) v = true) :
    exec (.semWaitArrive k) s = .next
      ((if cond = 4 then (s.dropBead k).updateSem part i (s.sem part i - v) else s.dropBead k).send (.waitRelease p r true)) := by
  have hb' : (s.dropBead k).blocked p r = true := hb
  have hr' : (s.dropBead k).inReset part = false := hr
  have hc' : condHolds cond ((s.dropBead k).sem part i) v = true := hc
  show execSemWaitArrive k s = _
  simp only [execSemWaitArrive, hk, he, hb', hr', hc', Bool.not_true, Bool.false_eq_true, if_false, if_true]
  rfl

theorem exec_semWaitArrive_held {k p part i cond v : Nat} {r : DRef} {s : State}
    (hk : s.bead[k]? = some (.waitArrive p r part i cond v false)) (hb : s.blocked p r = true) (hr : s.inReset part = false)
    (he : s.endpointHeld part = false) (hc : condHolds cond (s.sem part i) v = false) :
    exec (.semWaitArrive k) s = .next { s with bead := s.bead.eraseIdx k
                                               semWaits := s.semWaits ++ [⟨p, r, part, i, cond, v⟩] } := by
  have hb' : (s.dropBead k).blocked p r = true := hb
  have hr' : (s.dropBead k).inReset part = false := hr
  have hc' : condHolds cond ((s.dropBead k).sem part i) v = false := hc
  show execSemWaitArrive k s = _
  simp only [execSemWaitArrive, hk, he, hb', hr', hc', Bool.not_true, Bool.false_eq_true, if_false]
  rfl

namespace State

/-- The count of a barrier whose generation closes: its arrivals start anew. -/
def nextGeneration (s : State) (b : Nat) : State :=
  (s.setFld (a_BD_BARGEN b) BD_BARGEN_ARRIVED 0).setFld (a_BD_BARGEN b) BD_BARGEN_GEN (s.fld (a_BD_BARGEN b) BD_BARGEN_GEN + 1)

/-- The release of a closed generation leaves for the participants that wait (R167). -/
def releaseGeneration (s : State) (b : Nat) : State :=
  { s with barWaits := s.barWaits.filter (fun w => w.1 != b)
           bead := s.bead ++ [.barRelease b ((s.barWaits.filter (fun w => w.1 == b)).map (fun w => w.2))] }

theorem rd_releaseGeneration (s : State) (b a : Nat) : (s.releaseGeneration b).rd a = s.rd a := rfl

theorem fld_releaseGeneration (s : State) (b a : Nat) (f : Fld) : (s.releaseGeneration b).fld a f = s.fld a f := rfl

theorem nextGeneration_bargen (s : State) (b : Nat) (h : s.Canonical) :
    (s.nextGeneration b).fld (a_BD_BARGEN b) BD_BARGEN_ARRIVED = 0 ∧
      (s.nextGeneration b).fld (a_BD_BARGEN b) BD_BARGEN_GEN = (s.fld (a_BD_BARGEN b) BD_BARGEN_GEN + 1) % 2 ^ 32 ∧
      ∀ a, a ≠ a_BD_BARGEN b → (s.nextGeneration b).rd a = s.rd a := by
  have hc := setFld_canonical s (a_BD_BARGEN b) BD_BARGEN_ARRIVED 0 h
  refine ⟨?_, ?_, fun a ha => ?_⟩
  · rw [nextGeneration, fld_setFld_apart _ _ BD_BARGEN_GEN BD_BARGEN_ARRIVED _ hc (by decide) (by decide) (by decide) (by decide),
      fld_setFld s _ _ 0 h (by decide) (by decide), Nat.zero_mod]
  · rw [nextGeneration, fld_setFld _ _ BD_BARGEN_GEN _ hc (by decide) (by decide)]
    rfl
  · rw [nextGeneration, rd_setFld_ne _ _ a _ _ ha, rd_setFld_ne s _ a _ _ ha]

end State

theorem exec_barrierArrival_core {k b : Nat} {s : State} (hk : s.bead[k]? = some (.barArrive b none)) :
    exec (.barrierArrival k) s = .next
      (if s.fld (a_BD_BARGEN b) BD_BARGEN_ARRIVED + 1 < s.fld (a_BD_BARCFG b) BD_BARCFG_COUNT then
        (s.dropBead k).setFld (a_BD_BARGEN b) BD_BARGEN_ARRIVED (s.fld (a_BD_BARGEN b) BD_BARGEN_ARRIVED + 1)
      else ((s.dropBead k).nextGeneration b).releaseGeneration b) := by
  show execBarrierArrival k s = _
  simp only [execBarrierArrival, hk]
  rfl

/-- Settles O11: each update releases the WAITs that it satisfies, one after another, and stops where none is left. -/
theorem semaphoresWaitsAndBarriers : Obligations.SemaphoresWaitsAndBarriers := by
  refine ⟨fun k p i op s h hk hr he => ?update, fun k p part r i cond v s h hk hb hr he => ⟨fun hc h4 => ?consumes,
    fun hc hno => ?released, exec_semWaitArrive_held hk hb hr he⟩, fun k b s h hk => ⟨fun hlast => ?closes, fun hearly => ?counts⟩⟩
  case update =>
    have hd : (s.dropBead k).Canonical := h
    obtain ⟨hleft, hreleased, -, hothers, hmem, hctxs⟩ := (s.dropBead k).updateSem_releases p i (op.apply (s.sem p i)).1
    have hnone := satisfied_eq_none.mp ((s.dropBead k).updateSem_satisfied p i (op.apply (s.sem p i)).1)
    refine ⟨_, exec_semaphoreUpdate_core hk hr he, fun w hw => ⟨hleft w hw, hnone w hw⟩, hreleased, fun hno => ?_, hothers, hmem,
      hctxs⟩
    rw [updateSem_noWaits (s := s.dropBead k) _ hno]
    exact ⟨(sem_setSem _ _ _ _ hd).trans (apply_mod op (sem_lt s p i)), rfl⟩
  case consumes =>
    obtain ⟨hleft, -, -, hothers, -⟩ := (s.dropBead k).updateSem_releases part i (s.sem part i - v)
    have hnone := satisfied_eq_none.mp ((s.dropBead k).updateSem_satisfied part i (s.sem part i - v))
    rw [exec_semWaitArrive_holds hk hb hr he hc, if_pos h4]
    exact ⟨_, rfl, List.mem_append_right _ List.mem_cons_self, fun w hw => ⟨hleft w hw, hnone w hw⟩, hothers⟩
  case released =>
    rw [exec_semWaitArrive_holds hk hb hr he hc]
    by_cases h4 : cond = 4
    · rw [if_pos h4, if_pos h4, updateSem_noWaits (s := s.dropBead k) _ (hno h4)]
      have hlt := sem_lt s part i
      exact ⟨_, rfl, rfl, (sem_setSem (s.dropBead k) part i _ h).trans (Nat.mod_eq_of_lt (by omega)), rfl,
        fun a ha => rd_setSem_ne (s.dropBead k) _ ha⟩
    · rw [if_neg h4, if_neg h4]
      exact ⟨_, rfl, rfl, rfl, rfl, fun _ _ => rfl⟩
  case closes =>
    obtain ⟨harrived, hgen, hothers⟩ := (s.dropBead k).nextGeneration_bargen b h
    rw [exec_barrierArrival_core hk, if_neg (Nat.not_lt.mpr hlast)]
    refine ⟨_, rfl, ?_, ?_, rfl, rfl, fun a ha => ?_⟩
    · rw [fld_releaseGeneration, harrived]
    · rw [fld_releaseGeneration, hgen]
      rfl
    · rw [rd_releaseGeneration, hothers a ha]
      rfl
  case counts =>
    have hcount : s.fld (a_BD_BARCFG b) BD_BARCFG_COUNT < 2 ^ 13 := Fld.get_lt BD_BARCFG_COUNT _
    rw [exec_barrierArrival_core hk, if_pos hearly]
    refine ⟨_, rfl, ?_, ?_, rfl⟩
    · exact (fld_setFld (s.dropBead k) _ BD_BARGEN_ARRIVED _ h (by decide) (by decide)).trans (Nat.mod_eq_of_lt (by
        show _ + 1 < 2 ^ 13
        omega))
    · exact fld_setFld_apart (s.dropBead k) _ BD_BARGEN_ARRIVED BD_BARGEN_GEN _ h (by decide) (by decide) (by decide) (by decide)

end Sys2Proof.Machine
end

section
/-! PROOFS. Budget messages and governors: grants, floors, PACE of a partition and set points of quads (R306–R310, R319, R323). -/

namespace Sys2Proof.Machine

open State

theorem length_fairShares (total : Nat) (ds : List Nat) : (fairShares total ds).length = ds.length := by
  rw [fairShares]
  split
  · rfl
  · exact List.length_map ..

/-- The sensors that throttle a die have numbers below 408 (R322, R375). -/
theorem sensorsOf_lt {d k : Nat} (hd : d < 9) (hk : k ∈ sensorsOf d) : k < 408 := by
  unfold sensorsOf at hk
  split at hk
  · obtain ⟨j, hj, rfl⟩ := List.mem_map.mp hk
    have := List.mem_range.mp hj
    omega
  · split at hk
    · obtain ⟨j, hj, rfl⟩ := List.mem_map.mp hk
      have := List.mem_range.mp hj
      omega
    · obtain ⟨j, hj, rfl⟩ := List.mem_map.mp hk
      have := List.mem_range.mp hj
      omega

namespace State

/-! ### The messages that Banjo sends (R307, R308, R323) -/

/-- The six Burls come first in the list of grants, then the Headstock and the two Tailstocks. -/
theorem rawGrants_fixed (s : State) :
    s.rawGrants.getD 6 0 = s.fld a_PW_SPLIT PW_SPLIT_HS_W * 1000 ∧
      s.rawGrants.getD 7 0 = s.fld a_PW_SPLIT PW_SPLIT_TAIL_W * 1000 ∧
      s.rawGrants.getD 8 0 = s.fld a_PW_SPLIT PW_SPLIT_TAIL_W * 1000 := by
  have hlen : (fairShares s.dynamicBudget ((List.range 6).map (fun b => s.burlDemand b))).length = 6 := by
    rw [length_fairShares, List.length_map, List.length_range]
  rw [rawGrants]
  generalize fairShares s.dynamicBudget ((List.range 6).map (fun b => s.burlDemand b)) = gs at hlen
  refine ⟨?_, ?_, ?_⟩ <;> rw [List.getD_append_right _ _ _ _ (by omega), hlen] <;> rfl

/-- Banjo has taken over the demands that the partitions state. -/
def demandsStated (s : State) (demand : List Nat) : State :=
  (List.range 24).foldl (fun t p => t.modPart p (fun x => { x with demand := s.demandOf p (demand.getD p 0) })) s

theorem foldl_modPart_eq {α : Type} (xs : List α) (p : α → Nat) (f : α → Part → Part) (s : State) :
    ∃ ps, xs.foldl (fun t x => t.modPart (p x) (f x)) s = { s with parts := ps } := by
  induction xs generalizing s with
  | nil => exact ⟨_, rfl⟩
  | cons x xs ih =>
    obtain ⟨ps, e⟩ := ih (s.modPart (p x) (f x))
    exact ⟨ps, e⟩

theorem foldl_modPart_canonical {α : Type} (xs : List α) (p : α → Nat) (f : α → Part → Part) (s : State) (h : s.Canonical) :
    (xs.foldl (fun t x => t.modPart (p x) (f x)) s).Canonical := by
  induction xs generalizing s with
  | nil => exact h
  | cons x xs ih => exact ih _ (modPart_canonical s (p x) _ h)

theorem demandsStated_eq (s : State) (demand : List Nat) : ∃ ps, s.demandsStated demand = { s with parts := ps } :=
  foldl_modPart_eq (List.range 24) (fun p => p) (fun p x => { x with demand := s.demandOf p (demand.getD p 0) }) s

/-- A die that is neither throttled nor hot keeps its thermal grant as it is (R323). -/
theorem thermStep_cool {s : State} {d : Nat} (g : Nat) (hd : d < 9) (hnone : (s.die d).therm = none)
    (hcool : ∀ k, k < 408 → s.tempOf k ≤ 16 * (s.fld a_PW_THERM PW_THERM_THROTTLE_C : Int)) : s.thermStep d g = s := by
  have hhot : (sensorsOf d).any (fun k => decide (16 * (s.fld a_PW_THERM PW_THERM_THROTTLE_C : Int) < s.tempOf k)) = false := by
    simp only [List.any_eq_false, decide_eq_true_eq, not_lt]
    exact fun k hk => hcool k (sensorsOf_lt hd hk)
  simp only [thermStep, hnone, hhot, Bool.false_eq_true, if_false]

theorem thermSteps_cool {s : State} {ds : List Nat} (g : Nat → Nat) (hds : ∀ d ∈ ds, d < 9 ∧ (s.die d).therm = none)
    (hcool : ∀ k, k < 408 → s.tempOf k ≤ 16 * (s.fld a_PW_THERM PW_THERM_THROTTLE_C : Int)) :
    ds.foldl (fun t d => t.thermStep d (g d)) s = s := by
  induction ds with
  | nil => rfl
  | cons d ds ih =>
    obtain ⟨⟨hd, hnone⟩, hrest⟩ := List.forall_mem_cons.mp hds
    rw [List.foldl_cons, thermStep_cool (g d) hd hnone hcool]
    exact ih hrest

/-- A die with the message that Banjo sends it: its grant, or its thermal grant where that is lower. -/
def offeredDie (s : State) (g d : Nat) : Die :=
  { s.die d with offer := some (s.now, ((s.die d).therm.map (fun h => min h g)).getD g) }

/-- Messages sent to dies one after another. -/
def offers (s : State) (g : Nat → Nat) (ds : List Nat) : State := ds.foldl (fun t d => t.setDie d (t.offeredDie (g d) d)) s

theorem offers_eq (s : State) (g : Nat → Nat) (ds : List Nat) : ∃ xs, s.offers g ds = { s with dies := xs } := by
  induction ds generalizing s with
  | nil => exact ⟨_, rfl⟩
  | cons d ds ih =>
    obtain ⟨xs, e⟩ := ih (s.setDie d (s.offeredDie (g d) d))
    exact ⟨xs, e⟩

theorem die_offers_ne (s : State) (g : Nat → Nat) {ds : List Nat} {d : Nat} (hd : d ∉ ds) : (s.offers g ds).die d = s.die d := by
  induction ds generalizing s with
  | nil => rfl
  | cons e ds ih =>
    simp only [List.mem_cons, not_or] at hd
    exact (ih _ hd.2).trans (die_setDie_ne s _ hd.1)

theorem die_offers (s : State) (g : Nat → Nat) {ds : List Nat} {d : Nat} (h : s.Canonical) (hnodup : ds.Nodup) (hd : d ∈ ds) :
    (s.offers g ds).die d = s.offeredDie (g d) d := by
  induction ds generalizing s with
  | nil => cases hd
  | cons e ds ih =>
    obtain ⟨he, hnodup⟩ := List.nodup_cons.mp hnodup
    rcases List.mem_cons.mp hd with rfl | hmem
    · exact (die_offers_ne _ g he).trans (die_setDie s d _ h)
    · have hne : d ≠ e := by
        rintro rfl
        exact he hmem
      refine (ih _ (setDie_canonical s e _ h) hnodup hmem).trans ?_
      rw [offeredDie, die_setDie_ne s _ hne]
      rfl

/-- What Banjo notes after its messages: throttling, the package power and the time of the next messages. -/
def budgetNoted (s : State) : State :=
  let t := s.setFld a_PW_PKGSTAT PW_PKGSTAT_THROTTLING (b2n ((List.range 9).any (fun d => (s.die d).therm.isSome)))
  { t with budgetAt := t.now + 100000, fresh := t.fresh + 1 }.setFld a_PW_PKGSTAT PW_PKGSTAT_POWER (Config.freeNat t.fresh)

theorem budgetNoted_frame (s : State) :
    s.budgetNoted.budgetAt = s.now + 100000 ∧ (∀ d, s.budgetNoted.die d = s.die d) ∧ s.budgetNoted.mem = s.mem :=
  ⟨rfl, fun _ => rfl, rfl⟩

/-- With no die throttled and no sensor hot, every die is sent its grant as the cap divides it. -/
theorem budgetRun_cool {s : State} (demand : List Nat) (hnone : ∀ d, d < 9 → (s.die d).therm = none)
    (hcool : ∀ k, k < 408 → s.tempOf k ≤ 16 * (s.fld a_PW_THERM PW_THERM_THROTTLE_C : Int)) :
    s.budgetRun demand =
      ((s.demandsStated demand).offers (fun d => (s.demandsStated demand).rawGrants.getD d 0) (List.range 9)).budgetNoted := by
  have hsteps : (List.range 9).foldl (fun t d => t.thermStep d ((s.demandsStated demand).rawGrants.getD d 0)) (s.demandsStated demand)
      = s.demandsStated demand := by
    obtain ⟨ps, e⟩ := s.demandsStated_eq demand
    rw [e]
    exact thermSteps_cool _ (fun d hd => ⟨List.mem_range.mp hd, hnone d (List.mem_range.mp hd)⟩) hcool
  calc s.budgetRun demand
      = (((List.range 9).foldl (fun t d => t.thermStep d ((s.demandsStated demand).rawGrants.getD d 0)) (s.demandsStated demand)).offers
          (fun d => (s.demandsStated demand).rawGrants.getD d 0) (List.range 9)).budgetNoted := rfl
    _ = _ := by rw [hsteps]

theorem demandsStated_canonical (s : State) (demand : List Nat) (h : s.Canonical) : (s.demandsStated demand).Canonical :=
  foldl_modPart_canonical (List.range 24) (fun p => p) (fun p x => { x with demand := s.demandOf p (demand.getD p 0) }) s h

/-- What the messages of a cool device leave. -/
theorem budgetRun_offers {s : State} (demand : List Nat) (h : s.Canonical) (hnone : ∀ d, d < 9 → (s.die d).therm = none)
    (hcool : ∀ k, k < 408 → s.tempOf k ≤ 16 * (s.fld a_PW_THERM PW_THERM_THROTTLE_C : Int)) :
    (s.budgetRun demand).budgetAt = s.now + 100000 ∧
      (∀ d, d < 9 → ((s.budgetRun demand).die d).offer = some (s.now, (s.demandsStated demand).rawGrants.getD d 0)) ∧
      (s.budgetRun demand).mem = s.mem := by
  have hdie := fun d (hd : d ∈ List.range 9) => die_offers (s.demandsStated demand)
    (fun d => (s.demandsStated demand).rawGrants.getD d 0) (demandsStated_canonical s demand h) List.nodup_range hd
  rw [budgetRun_cool demand hnone hcool]
  generalize hgs : (s.demandsStated demand).rawGrants = gs at hdie ⊢
  obtain ⟨ps, e⟩ := s.demandsStated_eq demand
  rw [e] at hdie ⊢
  obtain ⟨xs, eo⟩ := offers_eq { s with parts := ps } (fun d => gs.getD d 0) (List.range 9)
  rw [eo] at hdie ⊢
  obtain ⟨hat, hdies, hmem⟩ := budgetNoted_frame { s with parts := ps, dies := xs }
  refine ⟨hat, fun d hd => ?_, hmem⟩
  have hoffer : (s.die d).therm = none := hnone d hd
  rw [hdies, hdie d (List.mem_range.mpr hd), offeredDie]
  show some (s.now, ((s.die d).therm.map (fun h => min h (gs.getD d 0))).getD (gs.getD d 0)) = _
  rw [hoffer]
  rfl

/-! ### A message that arrives (R307, R309) -/

/-- What happens inside partitions does not show at a die: a division of a Burl's grant changes the insides of its partitions alone. -/
theorem paceBurl_eq (s : State) (b g : Nat) : ∃ n ps, s.paceBurl b g = { s with fresh := n, parts := ps } := by
  rw [paceBurl]
  generalize s.shareOut b g = xs
  induction xs generalizing s with
  | nil => exact ⟨_, _, rfl⟩
  | cons x xs ih =>
    rw [List.foldl_cons]
    obtain ⟨n, ps, e⟩ := ih _
    exact ⟨n, ps, e⟩

theorem paceBurl_frame (s : State) (b g : Nat) :
    (∀ d, (s.paceBurl b g).die d = s.die d) ∧ (∀ a f, (s.paceBurl b g).fld a f = s.fld a f) ∧ (s.paceBurl b g).mem = s.mem := by
  obtain ⟨n, ps, e⟩ := s.paceBurl_eq b g
  rw [e]
  exact ⟨fun _ => rfl, fun _ _ => rfl, rfl⟩

/-- A die with the message it has taken. -/
def messagedDie (s : State) (d energy g : Nat) : Die :=
  { s.die d with offer := none, lastMsg := s.now, grant := g, used := energy * 10, atFloor := false }

theorem die_setFld (s : State) (a : Nat) (f : Fld) (v d : Nat) : (s.setFld a f v).die d = s.die d := rfl

/-- PW_DIE shows the grant and the power of a die that has taken a message. -/
def messageShown (s : State) (d energy g : Nat) : State :=
  ((s.setDie d (s.messagedDie d energy g)).setFld (a_PW_DIE d) PW_DIE_GRANT (min 65535 (g / 250))).setFld (a_PW_DIE d) PW_DIE_USED
    (min 65535 (energy * 10 / 250))

theorem takeMessage_inTime {s : State} {d energy at_ g : Nat} (ho : (s.die d).offer = some (at_, g)) (hr : (s.die d).inReset = false)
    (ht : s.now ≤ at_ + 300000) :
    s.takeMessage d energy = if d < 6 then (s.messageShown d energy g).paceBurl d g else s.messageShown d energy g := by
  have hlate : ((s.die d).inReset || decide (at_ + 300000 < s.now)) = false := by simp [hr, ht]
  simp only [takeMessage, ho, hlate, Bool.false_eq_true, if_false]
  rfl

theorem messageShown_shows (s : State) (d energy g : Nat) (h : s.Canonical) :
    (s.messageShown d energy g).die d = s.messagedDie d energy g ∧
      (s.messageShown d energy g).fld (a_PW_DIE d) PW_DIE_GRANT = min 65535 (g / 250) ∧ (s.messageShown d energy g).mem = s.mem := by
  have hd := setDie_canonical s d (s.messagedDie d energy g) h
  have hcut : min 65535 (g / 250) % 2 ^ PW_DIE_GRANT.width = min 65535 (g / 250) := by
    rw [show PW_DIE_GRANT.width = 16 from rfl]
    omega
  refine ⟨by rw [messageShown, die_setFld, die_setFld, die_setDie s d _ h], ?_, rfl⟩
  rw [messageShown, fld_setFld_apart _ _ PW_DIE_USED PW_DIE_GRANT _ (setFld_canonical _ _ _ _ hd) (by decide) (by decide) (by decide)
    (by decide), fld_setFld _ _ PW_DIE_GRANT _ hd (by decide) (by decide), hcut]

theorem takeMessage_shows {s : State} {d energy at_ g : Nat} (h : s.Canonical) (ho : (s.die d).offer = some (at_, g))
    (hr : (s.die d).inReset = false) (ht : s.now ≤ at_ + 300000) :
    (s.takeMessage d energy).die d = s.messagedDie d energy g ∧
      (s.takeMessage d energy).fld (a_PW_DIE d) PW_DIE_GRANT = min 65535 (g / 250) ∧ (s.takeMessage d energy).mem = s.mem := by
  have hshown := messageShown_shows s d energy g h
  rw [takeMessage_inTime ho hr ht]
  split
  · obtain ⟨hdie, hfld, hmem⟩ := (s.messageShown d energy g).paceBurl_frame d g
    rw [hdie, hfld, hmem]
    exact hshown
  · exact hshown

/-! ### A message that is missed (R307) -/

/-- A die at its floor; the Headstock keeps its grant. -/
def flooredDie (s : State) (d : Nat) : Die :=
  { s.die d with atFloor := true, grant := if d = 6 then (s.die d).grant else floorGrant d }

/-- PW_DIE shows the floor of a die other than the Headstock. -/
def floorShown (s : State) (d : Nat) : State :=
  let t := s.setDie d (s.flooredDie d)
  if d = 6 then t else t.setFld (a_PW_DIE d) PW_DIE_GRANT (floorGrant d / 250)

/-- Partitions take the shares of their Burl's grant. -/
def sharesTaken (s : State) (xs : List (Nat × Nat)) : State := xs.foldl (fun t x => t.modPart x.1 (fun y => { y with grant := x.2 })) s

theorem sharesTaken_eq (s : State) (xs : List (Nat × Nat)) : ∃ ps, s.sharesTaken xs = { s with parts := ps } :=
  foldl_modPart_eq xs (fun x : Nat × Nat => x.1) (fun (x : Nat × Nat) y => { y with grant := x.2 }) s

theorem sharesTaken_canonical (s : State) (xs : List (Nat × Nat)) (h : s.Canonical) : (s.sharesTaken xs).Canonical :=
  foldl_modPart_canonical xs (fun x : Nat × Nat => x.1) (fun (x : Nat × Nat) y => { y with grant := x.2 }) s h

/-- The partitions that share in the floor of a die: those of a Burl. -/
def floorShares (s : State) (d : Nat) : List (Nat × Nat) := if d < 6 then s.shareOut d (floorGrant d) else []

theorem missMessage_late {s : State} {d : Nat} (hr : (s.die d).inReset = false) (hf : (s.die d).atFloor = false)
    (hk : s.keepsTime d = true) (ht : (s.die d).lastMsg + 300000 ≤ s.now) :
    s.missMessage d
      = (((s.floorShown d).sharesTaken (s.floorShares d)).bump (a_PW_DIE d) PW_DIE_MISSED 1).faultDev cPOWER d 255 := by
  have hlate : ((s.die d).inReset || (s.die d).atFloor || !s.keepsTime d || decide (s.now < (s.die d).lastMsg + 300000)) = false := by
    simp [hr, hf, hk, ht]
  simp only [missMessage, hlate, Bool.false_eq_true, if_false]
  by_cases h6 : d < 6
  · rw [floorShares, if_pos h6, if_pos h6]
    rfl
  · rw [floorShares, if_neg h6, if_neg h6]
    rfl

theorem floorShown_shows (s : State) (d : Nat) (h : s.Canonical) :
    (s.floorShown d).Canonical ∧ (s.floorShown d).die d = s.flooredDie d ∧
      (s.floorShown d).fld (a_PW_DIE d) PW_DIE_MISSED = s.fld (a_PW_DIE d) PW_DIE_MISSED ∧ (s.floorShown d).mem = s.mem := by
  have hd := setDie_canonical s d (s.flooredDie d) h
  have hdie := die_setDie s d (s.flooredDie d) h
  rw [floorShown]
  split
  · exact ⟨hd, hdie, rfl, rfl⟩
  · exact ⟨setFld_canonical _ _ _ _ hd, (die_setFld _ _ _ _ d).trans hdie,
      fld_setFld_apart _ _ PW_DIE_GRANT PW_DIE_MISSED _ hd (by decide) (by decide) (by decide) (by decide), rfl⟩

/-- A record of the device changes no register, no die and no memory. -/
theorem faultDev_frame (s : State) (cls die unit : Nat) :
    (∀ d, (s.faultDev cls die unit).die d = s.die d) ∧ (∀ a f, (s.faultDev cls die unit).fld a f = s.fld a f) ∧
      (s.faultDev cls die unit).mem = s.mem := by
  obtain ⟨held, mg, e⟩ : ∃ held mg, s.faultDev cls die unit = { s with held := held, mg := mg } :=
    s.fault_device_event (r := { s.record cls with die := die, unit := unit }) rfl rfl
  rw [e]
  exact ⟨fun _ => rfl, fun _ _ => rfl, rfl⟩

theorem missMessage_shows {s : State} {d : Nat} (h : s.Canonical) (hr : (s.die d).inReset = false) (hf : (s.die d).atFloor = false)
    (hk : s.keepsTime d = true) (ht : (s.die d).lastMsg + 300000 ≤ s.now) :
    (s.missMessage d).die d = s.flooredDie d ∧
      (s.missMessage d).fld (a_PW_DIE d) PW_DIE_MISSED = satAdd (s.fld (a_PW_DIE d) PW_DIE_MISSED) 1 255 ∧
      (s.missMessage d).mem = s.mem := by
  obtain ⟨hc, hdie, hfld, hmem⟩ := floorShown_shows s d h
  rw [missMessage_late hr hf hk ht]
  generalize s.floorShown d = u at hc hdie hfld hmem
  generalize s.floorShares d = xs
  have hbump := fld_bump (u.sharesTaken xs) (a_PW_DIE d) PW_DIE_MISSED 1 (sharesTaken_canonical u xs hc) (by unfold Fld.Sound; decide)
  obtain ⟨ps, e⟩ := u.sharesTaken_eq xs
  rw [e] at hbump ⊢
  obtain ⟨fdie, ffld, fmem⟩ := faultDev_frame (({ u with parts := ps } : State).bump (a_PW_DIE d) PW_DIE_MISSED 1) cPOWER d 255
  rw [fdie, ffld, fmem, hbump, bump, die_setFld]
  exact ⟨hdie, congrArg (fun n => satAdd n 1 255) hfld, hmem⟩

/-! ### Governors (R310, R319) -/

/-- A partition over its power: 4 less PACE, which no goal exceeds. -/
def overloadedPart (s : State) (p : Nat) : Part :=
  { s.part p with
    pace := max 1 (s.livePace p - 4), paceGoal := min (s.part p).paceGoal (max 1 (s.livePace p - 4)), paceAt := s.now
    pacedAt := s.pacedUntil p, overAt := s.now }

theorem overload_over {s : State} {p power : Nat} (hd : s.domOn (domEng p) = true) (hp : 105 * (s.part p).grant < power * 100)
    (ht : (s.part p).overAt + 1000 ≤ s.now) : s.overload p power = s.setPart p (s.overloadedPart p) := by
  have hpower : ¬power * 100 ≤ 105 * (s.part p).grant := Nat.not_le.mpr hp
  have htime : ¬s.now < (s.part p).overAt + 1000 := Nat.not_lt.mpr ht
  simp only [overload, hd, hpower, htime, Bool.not_true, decide_false, Bool.or_self, Bool.false_eq_true, if_false]
  rfl

/-- A quad has been lowered by 10 mV. -/
def quadLowered (s : State) (q : Nat) : State :=
  { s.setDom (domQuad q) { s.dom (domQuad q) with lowered := (s.dom (domQuad q)).lowered + 10 } with
    lowered := q :: s.lowered, governedAt := s.now + 10000 }

/-- The quad lowered last has got 10 mV back. -/
def quadRaised (s : State) (q : Nat) (rest : List Nat) : State :=
  { (s.paceIssue false).setDom (domQuad q) { s.dom (domQuad q) with lowered := (s.dom (domQuad q)).lowered - 10 } with
    lowered := rest, governedAt := s.now + 10000 }

theorem governorStep_over {s : State} {q power : Nat} (hg : (s.die 6).grant ≠ 0) (ht : s.governedAt ≤ s.now)
    (hp : (s.die 6).grant < power) (hd : s.domOn (domQuad q) = true) (hmv : 600 < s.targetMv (domQuad q)) :
    s.governorStep q power = s.quadLowered q := by
  have htime : ¬s.now < s.governedAt := Nat.not_lt.mpr ht
  simp only [governorStep, hg, htime, hp, hd, hmv, decide_true, decide_false, Bool.or_self, Bool.and_self, Bool.false_eq_true,
    if_false, if_true]
  rfl

theorem governorStep_room {s : State} {q power k : Nat} {ks : List Nat} (hg : (s.die 6).grant ≠ 0) (ht : s.governedAt ≤ s.now)
    (hp : power ≤ (s.die 6).grant) (hl : s.lowered = k :: ks) : s.governorStep q power = s.quadRaised k ks := by
  have htime : ¬s.now < s.governedAt := Nat.not_lt.mpr ht
  have hover : ¬(s.die 6).grant < power := Nat.not_lt.mpr hp
  simp only [governorStep, hg, htime, hover, hl, decide_false, Bool.or_self, Bool.false_eq_true, if_false]
  rfl

theorem dom_setDom_ne (s : State) {i j : Nat} (x : Dom) (hj : j ≠ i) : (s.setDom i x).dom j = s.dom j :=
  Sparse.get_put_ne s.doms x hj

end State

theorem exec_budgetInterval_due {demand : List Nat} {s : State} (ht : s.budgetAt ≤ s.now) (hr : s.mg.restart ≤ s.now) :
    exec (.budgetInterval demand) s = .next (s.budgetRun demand) := by
  have h1 : ¬s.now < s.budgetAt := Nat.not_lt.mpr ht
  have h2 : ¬s.now < s.mg.restart := Nat.not_lt.mpr hr
  show execBudgetInterval demand s = _
  simp only [execBudgetInterval, h1, h2, decide_false, Bool.or_self, Bool.false_eq_true, if_false]

/-- Settles O19: a message carries the grant, its absence brings the floor, and each governor takes one step. -/
theorem budgetsAndGovernors : Obligations.BudgetsAndGovernors := by
  refine ⟨⟨fun demand s h ht hr hnone hcool => ?interval, fun d energy at_ g s h ho hr ht => ?message,
    fun d s h hr hf hk ht => ?missed⟩, fun pp power s h hd hp ht => ?pace, fun q power s h hg ht hp hd hmv => ?lowers,
    fun q power k ks s h hg ht hp hl => ?raises⟩
  case interval =>
    obtain ⟨hat, hoffer, hmem⟩ := budgetRun_offers demand h hnone hcool
    obtain ⟨h6, h7, h8⟩ := (s.demandsStated demand).rawGrants_fixed
    have hsplit : ∀ f, (s.demandsStated demand).fld a_PW_SPLIT f = s.fld a_PW_SPLIT f := fun f => by
      obtain ⟨ps, e⟩ := s.demandsStated_eq demand
      rw [e]
      rfl
    rw [hsplit] at h6 h7 h8
    refine ⟨_, exec_budgetInterval_due ht hr, hat, ?_, ?_, ?_, fun b hb => ⟨_, hoffer b (by omega)⟩, hmem⟩
    · rw [hoffer 6 (by decide), h6]
    · rw [hoffer 7 (by decide), h7]
    · rw [hoffer 8 (by decide), h8]
  case message =>
    obtain ⟨hdie, hfld, hmem⟩ := takeMessage_shows (energy := energy) h ho hr ht
    exact ⟨_, rfl, by rw [hdie]; rfl, by rw [hdie]; rfl, by rw [hdie]; rfl, by rw [hdie]; rfl, by rw [hdie]; rfl, hfld, hmem⟩
  case missed =>
    obtain ⟨hdie, hfld, hmem⟩ := missMessage_shows h hr hf hk ht
    refine ⟨_, rfl, by rw [hdie]; rfl, fun hd => ?_, hfld, hmem⟩
    rw [hdie]
    exact if_neg hd
  case pace =>
    refine ⟨_, congrArg Host.Outcome.next (overload_over hd hp ht), ?_, ?_, ?_, fun q hq => part_setPart_ne s pp q _ hq, rfl, rfl⟩ <;>
      rw [part_setPart s pp _ h]
    · rfl
    · exact Nat.min_le_right _ _
    · rfl
  case lowers =>
    exact ⟨_, congrArg Host.Outcome.next (governorStep_over hg ht hp hd hmv), congrArg Dom.lowered (dom_setDom s _ _ h), rfl, rfl,
      fun j hj => dom_setDom_ne s _ hj, rfl⟩
  case raises =>
    exact ⟨_, congrArg Host.Outcome.next (governorStep_room hg ht hp hl),
      congrArg Dom.lowered (dom_setDom (s.paceIssue false) _ _ (setDie_canonical s 6 _ h)), rfl, rfl, rfl⟩

end Sys2Proof.Machine
end

section
/-! PROOFS. What leaves the pins of the package alone: records, memory, partition resets, device resets and bring-up. Only the
commands that bring an event of a pin change one. -/

namespace Sys2Proof.Machine

namespace State

/-! ### Registers, blocks and loops -/

@[simp] theorem pins_setFld (s : State) (a : Nat) (f : Fld) (v : Nat) : (s.setFld a f v).pins = s.pins := rfl

@[simp] theorem pins_bump (s : State) (a : Nat) (f : Fld) (n : Nat) : (s.bump a f n).pins = s.pins := rfl

@[simp] theorem pins_modPart (s : State) (p : Nat) (f : Part → Part) : (s.modPart p f).pins = s.pins := rfl

@[simp] theorem pins_modCtx (s : State) (id : Nat) (f : Ctx → Ctx) : (s.modCtx id f).pins = s.pins := rfl

@[simp] theorem pins_modDesc (s : State) (id index : Nat) (f : Desc → Desc) : (s.modDesc id index f).pins = s.pins := rfl

@[simp] theorem pins_setCstate (s : State) (id st : Nat) : (s.setCstate id st).pins = s.pins := rfl

@[simp] theorem pins_commit (s : State) (as : List Nat) : (s.commit as).pins = s.pins := by
  obtain ⟨rs, st, e⟩ := s.commit_eq as
  rw [e]

@[simp] theorem pins_discard (s : State) (as : List Nat) : (s.discard as).pins = s.pins := rfl

/-- A loop whose every step leaves the pins alone leaves them alone. -/
@[simp] theorem pins_foldl {α : Type} (xs : List α) (f : State → α → State) (s : State) (hf : ∀ t x, (f t x).pins = t.pins) :
    (xs.foldl f s).pins = s.pins := by
  induction xs generalizing s with
  | nil => rfl
  | cons x xs ih => exact (ih (f s x)).trans (hf s x)

@[simp] theorem pins_ite (c : Prop) [Decidable c] (s t : State) : (if c then s else t).pins = if c then s.pins else t.pins :=
  apply_ite State.pins c s t

@[simp] theorem pins_setCharge (s : State) (id tier n : Nat) : (s.setCharge id tier n).pins = s.pins := by
  unfold setCharge
  split <;> rfl

/-! ### Records (R331–R336, R376, R377, R423, R424) -/

@[simp] theorem pins_logVolatile (s : State) (ws : List Word) : (s.logVolatile ws).pins = s.pins := by rw [logVolatile]

@[simp] theorem pins_logPersistent (s : State) (ws : List Word) : (s.logPersistent ws).pins = s.pins := by rw [logPersistent]

@[simp] theorem pins_logEvent (s : State) (code : Nat) : (s.logEvent code).pins = s.pins :=
  (pins_logVolatile _ _).trans (pins_logPersistent s _)

@[simp] theorem pins_takeRseq (s : State) (q : FaultQueue) : (s.takeRseq q).1.pins = s.pins := by cases q <;> rfl

@[simp] theorem pins_report (s : State) (q : FaultQueue) (r : FRec) : (s.report q r).1.pins = s.pins := by
  unfold report
  simp only
  split
  · rfl
  · cases q with
    | device => rfl
    | part p =>
      simp only
      split <;> rfl

@[simp] theorem pins_reportSec (s : State) (a n : Nat) : (s.reportSec a n).pins = s.pins := by
  unfold reportSec reportHome
  split <;> exact pins_report _ _ _

/-! ### Memory (R179, R180, R249) -/

@[simp] theorem pins_putUnit (s : State) (key u : Nat) (bs : List Byte) (poison : Bool) : (s.putUnit key u bs poison).pins = s.pins := rfl

@[simp] theorem pins_pullBack (s : State) (u : Nat) : (s.pullBack u).pins = s.pins := by
  unfold pullBack
  split
  · rfl
  · unfold flushLine
    split
    · exact pins_reportSec _ _ _
    · rfl

@[simp] theorem pins_writeUnit (s : State) (k a : Nat) (bs : List Byte) (poison : Bool) : (s.writeUnit k a bs poison).pins = s.pins := by
  have hprepared (u : Nat) : (((s.strike a bs.length).pullBack u).dropCopies u).pins = s.pins := pins_pullBack (s.strike a bs.length) u
  unfold writeUnit
  simp only
  split
  · exact pins_reportSec _ _ _
  · split <;> exact hprepared _

@[simp] theorem pins_writeMem (s : State) (k a : Nat) (bs : List Byte) (poison : Bool) : (s.writeMem k a bs poison).pins = s.pins :=
  pins_foldl _ _ s (fun t x => pins_writeUnit t k x.1 x.2 _)

/-! ### Records that are written -/

@[simp] theorem pins_loseRecord (s : State) (ovf : Nat) (r : FRec) : (s.loseRecord ovf r).pins = s.pins := rfl

@[simp] theorem pins_toDevice (s : State) (r : FRec) : (s.toDevice r).pins = s.pins := by
  unfold toDevice
  simp only
  split <;> rfl

@[simp] theorem pins_ringWrite (s : State) (p : Nat) (r : FRec) : (s.ringWrite p r).pins = s.pins := by
  unfold ringWrite
  simp only
  split
  · rfl
  · exact pins_writeMem s _ _ _ _

@[simp] theorem pins_toPart (s : State) (p : Nat) (r : FRec) : (s.toPart p r).pins = s.pins := by
  unfold toPart
  split
  · exact pins_toDevice s r
  · split
    · split <;> rfl
    · exact pins_ringWrite s p r

@[simp] theorem pins_takeFatal (s : State) (reg : Nat) : (s.takeFatal reg).1.pins = s.pins := by
  obtain ⟨rs, e⟩ := s.takeFatal_eq reg
  rw [e]

@[simp] theorem pins_fatalToRing (s : State) (p : Nat) (r : FRec) : (s.fatalToRing p r).pins = s.pins :=
  (pins_writeMem _ _ _ _ _).trans (pins_takeFatal s _)

@[simp] theorem pins_raiseFatal (s : State) (q : FaultQueue) (r : FRec) : (s.raiseFatal q r).pins = s.pins := by
  have htaken := pins_takeFatal s a_FQ_DEVFATAL
  unfold raiseFatal
  simp only
  generalize (s.takeFatal a_FQ_DEVFATAL).1 = t at htaken ⊢
  cases q with
  | device => exact htaken
  | part p => simp only [pins_ite, pins_modPart, pins_bump, pins_fatalToRing, pins_logVolatile, pins_logPersistent, htaken, ite_self]

@[simp] theorem pins_raise (s : State) (q : FaultQueue) (r : FRec) : (s.raise q r).1.pins = s.pins := by
  have htaken := pins_takeRseq s q
  unfold raise
  simp only
  split
  · exact (pins_raiseFatal _ q _).trans htaken
  · split
    · cases q with
      | device => exact (pins_toDevice _ _).trans htaken
      | part p => exact (pins_toPart _ p _).trans htaken
    · exact pins_report s q _

@[simp] theorem pins_fault (s : State) (q : FaultQueue) (r : FRec) : (s.fault q r).pins = s.pins := pins_raise s q r

@[simp] theorem pins_faultDev (s : State) (cls die unit : Nat) : (s.faultDev cls die unit).pins = s.pins := pins_fault s _ _

@[simp] theorem pins_recovery (s : State) (p event : Nat) (ctx : Option Nat) : (s.recovery p event ctx).pins = s.pins := pins_fault s _ _

@[simp] theorem pins_startDump (s : State) (cause : List Word) (after : Option Nat) : (s.startDump cause after).1.pins = s.pins := by
  unfold startDump
  split
  · exact pins_logEvent s 350
  · simp only
    split <;> rfl

/-! ### Completion of descriptors (R138–R142) -/

@[simp] theorem pins_advanceDone (s : State) (a : Nat) : (s.advanceDone a).pins = s.pins := by
  obtain ⟨cs, rs, e, -⟩ := s.advanceDone_frame a
  rw [e]

@[simp] theorem pins_signalIrq (s : State) (n : Nat) : (s.signalIrq n).pins = s.pins := by
  unfold signalIrq
  simp only
  split
  · split <;> rfl
  · rfl

@[simp] theorem pins_completionIrq (s : State) (id n : Nat) : (s.completionIrq id n).pins = s.pins := by
  unfold completionIrq
  split
  · split
    · unfold raiseMsix
      simp only
      split
      · split <;> rfl
      · exact pins_faultDev s _ _ _
    · rfl
  · exact pins_signalIrq _ n

@[simp] theorem pins_recorded (s : State) (id : Nat) (d : Desc) (written : Bool) : (s.recorded id d written).pins = s.pins := by
  unfold recorded releaseSeq
  simp only [pins_advanceDone, pins_ite, pins_setCstate, pins_completionIrq, pins_modCtx, pins_setFld, pins_modDesc, ite_self]

@[simp] theorem pins_ask (s : State) (who u : Nat) : (s.ask who u).1.pins = s.pins := by
  unfold ask reserve
  simp only
  split
  · rfl
  split
  · rfl
  split
  · rename_i hw
    split at hw
    · split at hw
      · cases hw
        rfl
      · cases hw
    · cases hw
  · split <;> rfl

/-- An access that leaves the pins alone still does where the homes have to let it in first. -/
theorem pins_asking (s : State) (who : Nat) (rs : List Range) (f : State → State) (hf : ∀ t, (f t).pins = t.pins) :
    (s.asking who rs f).pins = s.pins := by
  have hasked : (s.askAll who rs).1.pins = s.pins := by
    unfold askAll
    split
    · rfl
    · exact pins_ask s who _
  unfold asking
  simp only
  split
  · exact (hf _).trans hasked
  · exact hasked

@[simp] theorem pins_writeRecord (s : State) (id : Nat) (d : Desc) : (s.writeRecord id d).pins = s.pins := by
  unfold writeRecord
  simp only
  split
  · rfl
  · split
    · rfl
    · exact pins_recorded s id d false
  · exact pins_asking s _ _ _ (fun t => (pins_recorded _ id d true).trans (pins_writeMem t _ _ _ _))

/-! ### Resets of partitions and dies (R30, R221, R338–R349) -/

@[simp] theorem pins_setRec (s : State) (p state step : Nat) : (s.setRec p state step).pins = s.pins := rfl

@[simp] theorem pins_modEpisode (s : State) (p : Nat) (f : Episode → Episode) : (s.modEpisode p f).pins = s.pins := rfl

@[simp] theorem pins_showSuspects (s : State) (p : Nat) : (s.showSuspects p).pins = s.pins := rfl

@[simp] theorem pins_beginDrain (s : State) (id : Nat) : (s.beginDrain id).pins = s.pins := rfl

@[simp] theorem pins_terminate (s : State) (id event : Nat) : (s.terminate id event).pins = s.pins := by
  unfold terminate
  simp only [pins_showSuspects, pins_ite, pins_beginDrain, pins_recovery, pins_modEpisode, pins_setCstate, ite_self]

@[simp] theorem pins_stepOne (s : State) (id : Nat) : (s.stepOne id).pins = s.pins := by
  unfold stepOne
  simp only
  split
  · rfl
  · rfl
  · rfl
  · simp only [pins_ite, pins_terminate, pins_modCtx, pins_setCstate, ite_self]

@[simp] theorem pins_sortContexts (s : State) (p : Nat) : (s.sortContexts p).pins = s.pins :=
  pins_foldl _ _ s (fun t _ => pins_stepOne t _)

@[simp] theorem pins_abandonJob (s : State) (j : Job) : (s.abandonJob j).pins = s.pins := by
  refine (pins_foldl _ _ (s.dropJob j.pp j.ref) (fun t x => ?_)).trans rfl
  simp only
  split
  · exact pins_writeMem _ _ _ _ _
  · rfl

@[simp] theorem pins_endDescs (s : State) (id : Nat) : (s.endDescs id).pins = s.pins := by
  unfold endDescs
  simp only
  split
  · rfl
  · exact pins_foldl _ _ s (fun t d => pins_writeRecord t id _)

@[simp] theorem pins_resetPartDoms (s : State) (p : Nat) : (s.resetPartDoms p).pins = s.pins := rfl

@[simp] theorem pins_homeReset (s : State) (h : Nat) : (s.homeReset h).pins = s.pins := rfl

@[simp] theorem pins_dropStackLines (s : State) (p : Nat) : (s.dropStackLines p).pins = s.pins := rfl

@[simp] theorem pins_resetPartition (s : State) (p : Nat) : (s.resetPartition p).pins = s.pins := by
  unfold resetPartition
  simp only [pins_foldl, pins_advanceDone, pins_dropStackLines, pins_homeReset, pins_modPart, pins_ite, pins_setFld, pins_setCharge,
    pins_modCtx, pins_endDescs, pins_abandonJob, pins_resetPartDoms, ite_self, implies_true]

@[simp] theorem pins_quarantine (s : State) (p : Nat) : (s.quarantine p).pins = s.pins := by
  unfold quarantine
  simp only [pins_modPart, pins_startDump, pins_setFld, pins_recovery, pins_resetPartition]
  exact pins_foldl _ _ s (fun t sl => rfl)

@[simp] theorem pins_furtherFault (s : State) (p : Nat) (ids : List Nat) : (s.furtherFault p ids).pins = s.pins := by
  unfold furtherFault
  simp only [pins_ite, pins_showSuspects, pins_setFld, pins_setRec, pins_recovery, pins_quarantine, pins_modEpisode, ite_self]

@[simp] theorem pins_strikePartition (s : State) (p cls : Nat) (ids : List Nat) : (s.strikePartition p cls ids).pins = s.pins := by
  unfold strikePartition
  split <;> simp only [pins_ite, pins_modPart, pins_showSuspects, pins_modEpisode, pins_furtherFault, ite_self]

@[simp] theorem pins_enterByDie (s : State) (p : Nat) : (s.enterByDie p).pins = s.pins := by
  unfold enterByDie
  simp only [pins_ite, pins_showSuspects, pins_setFld, pins_setRec, pins_resetPartition, pins_sortContexts, pins_bump, pins_modEpisode,
    pins_recovery, pins_strikePartition, pins_resetPartDoms, ite_self]

@[simp] theorem pins_burlReset (s : State) (b : Nat) : (s.burlReset b).pins = s.pins := by
  have hentered : (s.enterDie b).pins = s.pins := by
    obtain ⟨v, e⟩ := s.enterDie_eq b
    rw [e]
    exact pins_foldl _ _ s (fun t l => rfl)
  exact (pins_foldl _ _ _ (fun t k => pins_enterByDie t _)).trans hentered

end State

end Sys2Proof.Machine
end

section
/-! PROOFS. Device resets and bring-up leave the pins of the package alone (R30, R371, R372, R403). -/

namespace Sys2Proof.Machine

namespace State

/-! ### What bring-up writes -/

@[simp] theorem pins_wr (s : State) (a : Nat) (w : Word) : (s.wr a w).pins = s.pins := rfl

@[simp] theorem pins_setDom (s : State) (i : Nat) (x : Dom) : (s.setDom i x).pins = s.pins := rfl

@[simp] theorem pins_halt (s : State) (code : Nat) : (s.halt code).pins = s.pins := rfl

@[simp] theorem pins_extendMeasure (s : State) (i : Nat) (bs : List Byte) : (s.extendMeasure i bs).pins = s.pins := rfl

@[simp] theorem pins_faultDom (s : State) (cls i : Nat) : (s.faultDom cls i).pins = s.pins := by
  unfold faultDom
  split
  · exact pins_fault s _ _
  · exact pins_faultDev s _ _ _

@[simp] theorem pins_pwCommitGo (s : State) : s.pwCommitGo.pins = s.pins := by
  unfold pwCommitGo
  split
  · exact pins_commit s _
  · exact pins_faultDev _ _ _ _

@[simp] theorem pins_setThrottle (s : State) (c : Nat) : (s.setThrottle c).pins = s.pins := by
  unfold setThrottle
  split
  · rfl
  · exact pins_faultDev s _ _ _

@[simp] theorem pins_setMv (s : State) (i mv : Nat) : (s.setMv i mv).pins = s.pins := by
  unfold setMv
  split
  · rfl
  split
  · rfl
  · exact pins_faultDom s _ _

@[simp] theorem pins_switchReq (s : State) (i : Nat) (on : Bool) : (s.switchReq i on).pins = s.pins := by
  unfold switchReq
  simp only [pins_ite, pins_faultDom, pins_setDom, pins_setFld, ite_self]

@[simp] theorem pins_banjoWrite (s : State) (a : Nat) (v : Word) : (s.banjoWrite a v).pins = s.pins := by
  unfold banjoWrite
  split
  · rfl
  simp only
  split
  · rfl
  · rfl
  · split
    · exact pins_pwCommitGo s
    · rfl
  · exact pins_setThrottle s _
  · exact (pins_switchReq _ _ _).trans (pins_setMv s _ _)
  · rfl

theorem pins_countRefused (s : State) (f : State → State) : (s.countRefused f).pins = (f s).pins := by
  unfold countRefused
  split <;> rfl

@[simp] theorem pins_giveWrites (s : State) (ws : List (Nat × Word)) : (s.giveWrites ws).pins = s.pins := by
  refine pins_foldl _ _ s (fun t w => ?_)
  split
  · rfl
  split
  · rfl
  split
  · exact (pins_countRefused t _).trans (pins_banjoWrite t _ _)
  · rfl

@[simp] theorem pins_goOn (s : State) : s.goOn.pins = s.pins := by
  refine (pins_giveWrites _ _).trans (pins_foldl _ _ _ (fun t i => ?_))
  split <;> rfl

@[simp] theorem pins_raiseFloor (s : State) (reg : Nat) (floor raises : Fld) (v : Nat) : (s.raiseFloor reg floor raises v).pins = s.pins := by
  unfold raiseFloor
  simp only
  split <;> rfl

@[simp] theorem pins_applyLicence (s : State) : s.applyLicence.pins = s.pins := by
  unfold applyLicence
  split
  · rfl
  simp only
  split
  · exact pins_raiseFloor _ _ _ _ _
  · rfl

@[simp] theorem pins_readOverlay (s : State) (m : Nat) : (s.readOverlay m).pins = s.pins := by
  unfold readOverlay
  simp only
  split
  · exact pins_faultDev (s.setFld a_MG_BOOTSTAT MG_BOOTSTAT_MODE m) _ _ _
  · exact pins_goOn _
  · exact pins_goOn _

@[simp] theorem pins_readFlash (s : State) (m : Nat) : (s.readFlash m).pins = s.pins := by
  unfold readFlash
  split
  · rfl
  split
  · rfl
  simp only
  split
  · rfl
  split
  · exact pins_faultDev _ _ _ _
  · exact (pins_readOverlay _ m).trans (pins_applyLicence _)

@[simp] theorem pins_resume (s : State) : s.resume.pins = s.pins := by
  unfold resume
  simp only
  split
  · rfl
  split
  · exact pins_readFlash _ _
  · exact pins_goOn _

/-! ### Resets -/

@[simp] theorem pins_loseDevice (s : State) : s.loseDevice.pins = s.pins := by
  unfold loseDevice
  exact (pins_foldl _ _ _ (fun t l => pins_wr t _ _)).trans (pins_foldl _ _ _ (fun t l => pins_setFld t _ _ _))

@[simp] theorem pins_allDoms (s : State) (f : Nat → Dom) : (s.allDoms f).pins = s.pins :=
  pins_foldl _ _ s (fun _ _ => rfl)

@[simp] theorem pins_warmReset (s : State) (escalated : Bool) : (s.warmReset escalated).pins = s.pins := by
  unfold warmReset
  simp only
  split <;> simp

end State

end Sys2Proof.Machine
end

section
/-! PROOFS. Time and clocks: a die leaves its reset, a round of time messages, reference clocks lost and regained (R42, R45, R46,
R408). -/

namespace Sys2Proof.Machine

namespace State

/-! ### A die leaves its reset (R42, R45) -/

theorem setDom_canonical (s : State) (i : Nat) (x : Dom) (h : s.Canonical) : (s.setDom i x).Canonical :=
  { h with doms := Sparse.wf_put _ h.doms }

/-- One domain of a die leaves its reset; the host interface only while PERST# is high. -/
def leaveDomain (t : State) (i : Nat) : State :=
  if i = 121 && !t.hostLink.perst then t else t.setDom i { t.dom i with inReset := false }

theorem leaveDomain_canonical (t : State) (i : Nat) (h : t.Canonical) : (t.leaveDomain i).Canonical := by
  unfold leaveDomain
  split
  · exact h
  · exact setDom_canonical _ _ _ h

theorem leaveDomain_frame (t : State) (i : Nat) :
    (t.leaveDomain i).regs = t.regs ∧ (t.leaveDomain i).mem = t.mem ∧ (t.leaveDomain i).dies = t.dies := by
  unfold leaveDomain
  split <;> exact ⟨rfl, rfl, rfl⟩

theorem leaveDomain_inReset_self (t : State) (i : Nat) (h : t.Canonical) (hi : i < 121) : ((t.leaveDomain i).dom i).inReset = false := by
  have hno : (decide (i = 121) && !t.hostLink.perst) = false := by
    rw [decide_eq_false (by omega), Bool.false_and]
  rw [leaveDomain, if_neg (by simp [hno]), dom_setDom _ _ _ h]

theorem leaveDomain_inReset_false (t : State) (j i : Nat) (h : t.Canonical) (hi : i < 121) (hout : (t.dom i).inReset = false) :
    ((t.leaveDomain j).dom i).inReset = false := by
  by_cases hij : i = j
  · subst hij
    exact leaveDomain_inReset_self t i h hi
  · unfold leaveDomain
    split
    · exact hout
    · rwa [dom_setDom_ne _ _ hij]

theorem leaveDomains_frame (is : List Nat) (t : State) :
    (is.foldl leaveDomain t).regs = t.regs ∧ (is.foldl leaveDomain t).mem = t.mem ∧ (is.foldl leaveDomain t).dies = t.dies := by
  induction is generalizing t with
  | nil => exact ⟨rfl, rfl, rfl⟩
  | cons j js ih =>
    obtain ⟨hregs, hmem, hdies⟩ := leaveDomain_frame t j
    obtain ⟨iregs, imem, idies⟩ := ih (t.leaveDomain j)
    exact ⟨iregs.trans hregs, imem.trans hmem, idies.trans hdies⟩

theorem leaveDomains_inReset (is : List Nat) (t : State) (i : Nat) (h : t.Canonical) (hi : i < 121)
    (hout : i ∈ is ∨ (t.dom i).inReset = false) : ((is.foldl leaveDomain t).dom i).inReset = false := by
  induction is generalizing t with
  | nil => exact hout.resolve_left List.not_mem_nil
  | cons j js ih =>
    refine ih _ (leaveDomain_canonical t j h) ?_
    rcases hout with hmem | hfree
    · rcases List.mem_cons.mp hmem with rfl | hjs
      · exact Or.inr (leaveDomain_inReset_self t i h hi)
      · exact Or.inl hjs
    · exact Or.inr (leaveDomain_inReset_false t j i h hi hfree)

/-- The domains of a die that leave the reset with it. -/
def leavingDomains (s : State) (d : Nat) : List Nat :=
  (List.range 122).filter (fun i => dieOfDom i == d && (s.dom i).inReset && !(s.dom i).switchOn)

theorem dieExit_leaves (s : State) (d : Nat) (hreset : (s.die d).inReset = true) (hsync : (s.die d).synced = true)
    (hlink : d < 6 → (s.link d).up = true) :
    s.dieExit d = (s.leavingDomains d).foldl leaveDomain (s.setDie d { s.die d with inReset := false, lastMsg := s.now }) := by
  have hstays : (!(s.die d).inReset || !(s.die d).synced || (decide (d < 6) && !(s.link d).up)) = false := by
    rw [hreset, hsync]
    by_cases hd : d < 6
    · simp [hlink hd]
    · simp [hd]
  rw [dieExit, if_neg (by simp only [hstays, Bool.false_eq_true, not_false_eq_true])]
  rfl

theorem dieExit_domains (s : State) (d : Nat) (h : s.Canonical) (hreset : (s.die d).inReset = true) (hsync : (s.die d).synced = true)
    (hlink : d < 6 → (s.link d).up = true) :
    ((s.dieExit d).die d).inReset = false ∧
      (∀ i, i < 121 → dieOfDom i = d → (s.dom i).switchOn = false → ((s.dieExit d).dom i).inReset = false) ∧
      (s.dieExit d).regs = s.regs ∧ (s.dieExit d).mem = s.mem := by
  rw [dieExit_leaves s d hreset hsync hlink]
  obtain ⟨hregs, hmem, hdies⟩ :=
    leaveDomains_frame (s.leavingDomains d) (s.setDie d { s.die d with inReset := false, lastMsg := s.now })
  refine ⟨?_, fun i hi hdom hoff => ?_, hregs, hmem⟩
  · rw [die, hdies]
    exact congrArg Die.inReset (die_setDie s d _ h)
  · refine leaveDomains_inReset _ _ i (setDie_canonical s d _ h) hi ?_
    cases hin : (s.dom i).inReset with
    | false => exact Or.inr hin
    | true => exact Or.inl (List.mem_filter.mpr ⟨List.mem_range.mpr (by omega), by simp [hdom, hin, hoff]⟩)

end State

end Sys2Proof.Machine
end

section
/-! PROOFS. A round of time messages (R45, R46). -/

namespace Sys2Proof.Machine

/-- A sum of powers of 2, the exponents rising, has the bits of its exponents. -/
theorem natBit_foldl_two_pow {α : Type} (f : α → Nat) (xs : List α) (b : Nat) (h : (xs.map f).SortedLT) :
    natBit (xs.foldl (fun n x => n + 2 ^ f x) 0) b = decide (b ∈ xs.map f) := by
  have hsum (n : Nat) : xs.foldl (fun n x => n + 2 ^ f x) n = n + ((xs.map f).map (2 ^ ·)).sum := by
    clear h
    induction xs generalizing n with
    | nil => rfl
    | cons x xs ih => simp only [List.foldl_cons, ih, List.map_cons, List.sum_cons, Nat.add_assoc]
  have hbits := Nat.bitIndices_sum_map_two_pow h
  calc natBit (xs.foldl (fun n x => n + 2 ^ f x) 0) b = (((xs.map f).map (2 ^ ·)).sum).testBit b := by
        rw [hsum, Nat.zero_add, Nat.testBit_eq_decide_div_mod_eq, natBit]
        rfl
    _ = decide (b ∈ xs.map f) := by
        rw [Bool.eq_iff_iff, decide_eq_true_iff, ← Nat.mem_bitIndices, hbits]

/-- A bit below a modulus that is a power of 2 outlives the modulus. -/
theorem natBit_mod_two_pow (v w b : Nat) (h : b < w) : natBit (v % 2 ^ w) b = natBit v b := by
  have e := Nat.testBit_mod_two_pow v w b
  rw [decide_eq_true h, Bool.true_and, Nat.testBit_eq_decide_div_mod_eq, Nat.testBit_eq_decide_div_mod_eq] at e
  exact e

namespace State

/-- What answered a round within 200 ns: the offset and the die of each. -/
def goodAnswers (offsets : List Nat) (answered : Nat) : List (Nat × Nat) :=
  ((offsets.take 9).zipIdx.filter (fun x => natBit answered x.2)).filter (fun x => decide (x.1 ≤ 200))

theorem mem_goodAnswers {offsets : List Nat} {answered o d : Nat} :
    (o, d) ∈ goodAnswers offsets answered ↔ offsets[d]? = some o ∧ d < 9 ∧ natBit answered d = true ∧ o ≤ 200 := by
  simp only [goodAnswers, List.mem_filter, List.mem_zipIdx_iff_getElem?, decide_eq_true_iff, List.getElem?_take]
  by_cases hd : d < 9
  · simp [hd, and_assoc]
  · simp [hd]

theorem goodAnswers_sortedLT (offsets : List Nat) (answered : Nat) : ((goodAnswers offsets answered).map Prod.snd).SortedLT := by
  have hsub : ((goodAnswers offsets answered).map Prod.snd).Sublist ((offsets.take 9).zipIdx.map Prod.snd) :=
    ((List.filter_sublist).trans List.filter_sublist).map _
  rw [List.zipIdx_map_snd] at hsub
  exact (List.Pairwise.sublist hsub List.pairwise_lt_range').sortedLT

/-- Answers of other dies leave a clock alone. -/
theorem slewAll_die_ne (xs : List (Nat × Nat)) (s t : State) {d : Nat} (hx : d ∉ xs.map Prod.snd) :
    (xs.foldl (fun t x => t.setDie x.2 (s.slewed x.2 x.1)) t).die d = t.die d := by
  induction xs generalizing t with
  | nil => rfl
  | cons x xs ih =>
    obtain ⟨hne, hrest⟩ := not_or.mp (fun hin => hx (List.mem_cons.mpr hin))
    exact (ih _ hrest).trans (die_setDie_ne t _ hne)

/-- Every answer sets the clock of its own die. -/
theorem slewAll_die (xs : List (Nat × Nat)) (s t : State) (h : t.Canonical) (hn : (xs.map Prod.snd).Nodup) {o d : Nat} (hx : (o, d) ∈ xs) :
    (xs.foldl (fun t x => t.setDie x.2 (s.slewed x.2 x.1)) t).die d = s.slewed d o := by
  induction xs generalizing t with
  | nil => exact absurd hx List.not_mem_nil
  | cons x xs ih =>
    obtain ⟨hfresh, hrest⟩ := List.nodup_cons.mp hn
    rcases List.mem_cons.mp hx with rfl | htail
    · exact (slewAll_die_ne xs s _ hfresh).trans (die_setDie t _ _ h)
    · exact ih _ (setDie_canonical _ _ _ h) hrest htail

theorem slewAll_frame (xs : List (Nat × Nat)) (s t : State) :
    ∃ dies, xs.foldl (fun t x => t.setDie x.2 (s.slewed x.2 x.1)) t = { t with dies := dies } := by
  induction xs generalizing t with
  | nil => exact ⟨_, rfl⟩
  | cons x xs ih =>
    obtain ⟨dies, e⟩ := ih (t.setDie x.2 (s.slewed x.2 x.1))
    exact ⟨dies, e⟩

theorem slewed_synced (s : State) (d x : Nat) : (s.slewed d x).synced = true := rfl

/-- A die that was not synchronised comes within 100 ns of the device's time. -/
theorem slewed_offset_bounds (s : State) (d x : Nat) (h : (s.die d).synced = false) :
    -100 ≤ (s.slewed d x).offset ∧ (s.slewed d x).offset ≤ 100 := by
  simp only [slewed, h, Bool.false_eq_true, if_false]
  split <;> omega

/-- The clock of a synchronised die does not step back. -/
theorem dieNow_slewed (s t : State) (d x : Nat) (hd : d < 9) (hnow : t.now = s.now) (hdie : t.die d = s.slewed d x)
    (hsync : (s.die d).synced = true) : s.dieNow d ≤ t.dieNow d := by
  have hoff : ((s.dieNow d : Int) - (s.now : Int)) ≤ (t.die d).offset := by
    rw [hdie]
    simp only [slewed, hsync, if_true]
    exact le_max_right _ _
  have hat : (t.die d).offsetAt = t.now := by rw [hdie, hnow]; rfl
  have e : t.dieNow d = ((t.now : Int) + (t.die d).offset).toNat := by
    unfold dieNow
    simp only
    rw [if_neg (by omega), hat, Nat.sub_self, Nat.zero_div]
    simp only [Nat.cast_zero, add_zero, sub_zero]
    split <;> congr 2 <;> omega
  rw [e, hnow]
  omega

/-- What a round writes to MG_TSYNC: the largest offset, and the dies that answered in time. -/
def roundRegisters (s : State) (offsets : List Nat) (answered : Nat) : State :=
  let got := (offsets.take 9).zipIdx.filter (fun x => natBit answered x.2)
  (s.setFld a_MG_TSYNC MG_TSYNC_MAX_OFFSET (min 0xFFFF (got.foldl (fun m x => max m x.1) 0))).setFld a_MG_TSYNC MG_TSYNC_SYNC_OK
    ((goodAnswers offsets answered).foldl (fun n x => n + 2 ^ x.2) 0)

theorem roundRegisters_canonical (s : State) (offsets : List Nat) (answered : Nat) (h : s.Canonical) :
    (s.roundRegisters offsets answered).Canonical := setFld_canonical _ _ _ _ (setFld_canonical s _ _ _ h)

theorem natBit_roundRegisters (s : State) (offsets : List Nat) (answered d : Nat) (h : s.Canonical) (hd : d < 9) :
    natBit ((s.roundRegisters offsets answered).fld a_MG_TSYNC MG_TSYNC_SYNC_OK) d =
      decide (d ∈ (goodAnswers offsets answered).map Prod.snd) := by
  rw [roundRegisters, fld_setFld _ _ _ _ (setFld_canonical s _ _ _ h) (by decide) (by decide),
    natBit_mod_two_pow _ MG_TSYNC_SYNC_OK.width d hd, natBit_foldl_two_pow Prod.snd _ _ (goodAnswers_sortedLT offsets answered)]

theorem roundRegisters_frame (s : State) (offsets : List Nat) (answered : Nat) :
    (∀ a, a ≠ a_MG_TSYNC → (s.roundRegisters offsets answered).rd a = s.rd a) ∧ (s.roundRegisters offsets answered).mem = s.mem ∧
      (s.roundRegisters offsets answered).now = s.now :=
  ⟨fun a ha => (rd_setFld_ne _ _ a _ _ ha).trans (rd_setFld_ne s _ a _ _ ha), rfl, rfl⟩

/-- A round writes its register, notes its time, and sets the clocks of the dies that answered. -/
theorem syncRound_eq (s : State) (offsets : List Nat) (answered : Nat) :
    s.syncRound offsets answered = (goodAnswers offsets answered).foldl (fun t x => t.setDie x.2 (s.slewed x.2 x.1))
      { s.roundRegisters offsets answered with fresh := s.fresh + 9, tsyncAt := s.now + 1 } := rfl

theorem syncRound_die (s : State) (offsets : List Nat) (answered : Nat) (h : s.Canonical) {o d : Nat}
    (hx : (o, d) ∈ goodAnswers offsets answered) : (s.syncRound offsets answered).die d = s.slewed d o := by
  have hcanonical := roundRegisters_canonical s offsets answered h
  rw [syncRound_eq]
  exact slewAll_die _ s { s.roundRegisters offsets answered with fresh := s.fresh + 9, tsyncAt := s.now + 1 } hcanonical
    (goodAnswers_sortedLT offsets answered).pairwise.nodup hx

/-- Registers, memory and time are those of the register write. -/
theorem syncRound_frame (s : State) (offsets : List Nat) (answered : Nat) :
    let t := s.syncRound offsets answered
    t.regs = (s.roundRegisters offsets answered).regs ∧ t.mem = (s.roundRegisters offsets answered).mem ∧
      t.now = (s.roundRegisters offsets answered).now := by
  intro t
  obtain ⟨dies, e⟩ := slewAll_frame (goodAnswers offsets answered) s
    { s.roundRegisters offsets answered with fresh := s.fresh + 9, tsyncAt := s.now + 1 }
  have ht : t = _ := (syncRound_eq s offsets answered).trans e
  rw [ht]
  exact ⟨rfl, rfl, rfl⟩

theorem mem_snd_goodAnswers {offsets : List Nat} {answered o d : Nat} (ho : offsets[d]? = some o) (hd : d < 9)
    (ha : natBit answered d = true) : d ∈ (goodAnswers offsets answered).map Prod.snd ↔ o ≤ 200 := by
  constructor
  · intro hin
    obtain ⟨⟨o', d'⟩, hgood, rfl⟩ := List.mem_map.mp hin
    obtain ⟨ho', -, -, hle⟩ := mem_goodAnswers.mp hgood
    rw [ho] at ho'
    injection ho' with e
    exact e ▸ hle
  · exact fun hle => List.mem_map.mpr ⟨(o, d), mem_goodAnswers.mpr ⟨ho, hd, ha, hle⟩, rfl⟩

/-- What a round that is due does (R45, R46). -/
theorem syncRound_synchronises (s : State) (offsets : List Nat) (answered : Nat) (h : s.Canonical) :
    let t := s.syncRound offsets answered
    (∀ d o, offsets[d]? = some o → d < 9 → natBit answered d = true → o ≤ 200 →
      (t.die d).synced = true ∧ natBit (t.fld a_MG_TSYNC MG_TSYNC_SYNC_OK) d = true ∧
        ((s.die d).synced = false → -100 ≤ (t.die d).offset ∧ (t.die d).offset ≤ 100) ∧
        ((s.die d).synced = true → s.dieNow d ≤ t.dieNow d)) ∧
    (∀ d o, offsets[d]? = some o → d < 9 → natBit answered d = true → 200 < o →
      natBit (t.fld a_MG_TSYNC MG_TSYNC_SYNC_OK) d = false) ∧
    (∀ a, a ≠ a_MG_TSYNC → t.rd a = s.rd a) ∧ t.mem = s.mem := by
  intro t
  have hdie : ∀ {o d}, (o, d) ∈ goodAnswers offsets answered → t.die d = s.slewed d o := syncRound_die s offsets answered h
  obtain ⟨hregs, hmem, hnow⟩ : t.regs = _ ∧ t.mem = _ ∧ t.now = _ := syncRound_frame s offsets answered
  obtain ⟨rrd, rmem, rnow⟩ := roundRegisters_frame s offsets answered
  have hrd (a : Nat) : t.rd a = (s.roundRegisters offsets answered).rd a := by rw [rd, hregs, rd]
  have hok (d : Nat) (hd : d < 9) : natBit (t.fld a_MG_TSYNC MG_TSYNC_SYNC_OK) d =
      decide (d ∈ (goodAnswers offsets answered).map Prod.snd) := by
    rw [fld, hrd, ← fld, natBit_roundRegisters s offsets answered d h hd]
  refine ⟨fun d o ho hd ha hle => ?_, fun d o ho hd ha hgt => ?_, fun a ha => (hrd a).trans (rrd a ha), hmem.trans rmem⟩
  · have hx := hdie (mem_goodAnswers.mpr ⟨ho, hd, ha, hle⟩)
    refine ⟨hx ▸ slewed_synced s d o, ?_, fun hs => hx ▸ slewed_offset_bounds s d o hs,
      fun hs => dieNow_slewed s t d o hd (hnow.trans rnow) hx hs⟩
    rw [hok d hd, decide_eq_true ((mem_snd_goodAnswers ho hd ha).mpr hle)]
  · rw [hok d hd]
    exact decide_eq_false fun hin => absurd ((mem_snd_goodAnswers ho hd ha).mp hin) (by omega)

end State

end Sys2Proof.Machine
end

section
/-! PROOFS. Reference clocks lost and regained (R45, R408), and O38. -/

namespace Sys2Proof.Machine

namespace State

/-! ### What a device record and a failed port leave -/

/-- A non-fatal record of the device changes what is held and the record counter, nothing else. -/
theorem faultDev_eq (s : State) (cls die unit : Nat) :
    ∃ held n, s.faultDev cls die unit = { s with held := held, mg := { s.mg with devRseq := n } } := by
  obtain ⟨r, e⟩ := s.faultDev_eq_report cls die unit
  rw [e, report]
  simp only
  split
  · exact ⟨_, s.mg.devRseq, rfl⟩
  · exact ⟨_, _, rfl⟩

theorem failPort_eq (s : State) (p cls : Nat) :
    ∃ held n, s.failPort p cls =
      { (s.setPort p Port.init).setPortState p psFAILED with held := held, mg := { s.mg with devRseq := n } } :=
  faultDev_eq ((s.setPort p Port.init).setPortState p psFAILED) _ _ _

theorem failPort_canonical (s : State) (p cls : Nat) (h : s.Canonical) : (s.failPort p cls).Canonical := by
  obtain ⟨held, n, e⟩ := s.failPort_eq p cls
  have hstate : ((s.setPort p Port.init).setPortState p psFAILED).Canonical :=
    setFld_canonical _ _ _ _ { h with ports := Sparse.wf_put _ h.ports }
  rw [e]
  exact hstate

theorem failPort_frame (s : State) (p cls : Nat) :
    (s.failPort p cls).pins = s.pins ∧ (s.failPort p cls).mem = s.mem ∧ ∀ k, (s.failPort p cls).portEnabled k = s.portEnabled k := by
  obtain ⟨held, n, e⟩ := s.failPort_eq p cls
  rw [e]
  refine ⟨rfl, rfl, fun k => ?_⟩
  have hctl := rd_setFld_ne (s.setPort p Port.init) (a_FB_PORTSTAT p) (a_FB_PORTCTL k) FB_PORTSTAT_STATE psFAILED
    (by simp only [a_FB_PORTSTAT, a_FB_PORTCTL]; omega)
  exact congrArg (fun w => FB_PORTCTL_ENABLE.get w == 1) hctl

theorem failPort_portState (s : State) (p cls : Nat) (h : s.Canonical) : (s.failPort p cls).portState p = psFAILED := by
  obtain ⟨held, n, e⟩ := s.failPort_eq p cls
  have hport : (s.setPort p Port.init).Canonical := { h with ports := Sparse.wf_put _ h.ports }
  rw [e]
  exact fld_setFld _ (a_FB_PORTSTAT p) FB_PORTSTAT_STATE psFAILED hport (by decide) (by decide)

theorem failPort_portState_ne (s : State) {p k : Nat} (cls : Nat) (hk : k ≠ p) : (s.failPort p cls).portState k = s.portState k := by
  obtain ⟨held, n, e⟩ := s.failPort_eq p cls
  rw [e]
  exact fld_setFld_ne (s.setPort p Port.init) (a_FB_PORTSTAT p) (a_FB_PORTSTAT k) FB_PORTSTAT_STATE FB_PORTSTAT_STATE psFAILED
    (by simp only [a_FB_PORTSTAT]; omega)

/-! ### REFCLK_FAB (R408) -/

/-- An enabled port fails. -/
def failEnabled (t : State) (p : Nat) : State := if t.portEnabled p then t.failPort p cLINK else t

theorem failEnabled_canonical (t : State) (p : Nat) (h : t.Canonical) : (t.failEnabled p).Canonical := by
  unfold failEnabled
  split
  · exact failPort_canonical t p cLINK h
  · exact h

theorem failEnabled_frame (t : State) (p : Nat) :
    (t.failEnabled p).pins = t.pins ∧ (t.failEnabled p).mem = t.mem ∧ ∀ k, (t.failEnabled p).portEnabled k = t.portEnabled k := by
  unfold failEnabled
  split
  · exact failPort_frame t p cLINK
  · exact ⟨rfl, rfl, fun _ => rfl⟩

theorem failEnabled_portState (t : State) (p k : Nat) (h : t.Canonical)
    (hk : (k = p ∧ t.portEnabled p = true) ∨ t.portState k = psFAILED) : (t.failEnabled p).portState k = psFAILED := by
  unfold failEnabled
  split
  next hon =>
    by_cases hkp : k = p
    · subst hkp
      exact failPort_portState t k cLINK h
    · rw [failPort_portState_ne t cLINK hkp]
      exact hk.resolve_left (fun hx => hkp hx.1)
  next hoff => exact hk.resolve_left (fun hx => hoff hx.2)

theorem failAll_frame (ps : List Nat) (t : State) :
    (ps.foldl failEnabled t).pins = t.pins ∧ (ps.foldl failEnabled t).mem = t.mem := by
  induction ps generalizing t with
  | nil => exact ⟨rfl, rfl⟩
  | cons p ps ih =>
    obtain ⟨hpins, hmem, -⟩ := failEnabled_frame t p
    obtain ⟨ipins, imem⟩ := ih (t.failEnabled p)
    exact ⟨ipins.trans hpins, imem.trans hmem⟩

theorem failAll_portState (ps : List Nat) (t : State) (k : Nat) (h : t.Canonical)
    (hk : (k ∈ ps ∧ t.portEnabled k = true) ∨ t.portState k = psFAILED) : (ps.foldl failEnabled t).portState k = psFAILED := by
  induction ps generalizing t with
  | nil => exact hk.resolve_left (fun hx => List.not_mem_nil hx.1)
  | cons p ps ih =>
    refine ih _ (failEnabled_canonical t p h) ?_
    obtain ⟨-, -, henabled⟩ := failEnabled_frame t p
    rcases hk with ⟨hin, hon⟩ | hfailed
    · rcases List.mem_cons.mp hin with rfl | hps
      · exact Or.inr (failEnabled_portState t k k h (Or.inl ⟨rfl, hon⟩))
      · exact Or.inl ⟨hps, (henabled k).trans hon⟩
    · exact Or.inr (failEnabled_portState t p k h (Or.inr hfailed))

theorem loseClock_fab (s : State) (n : Fin 2) (h : n.val ∉ s.pins.lostFab) :
    s.loseClock (.fab n) = ((List.range 8).map (fun k => 8 * n.val + k)).foldl failEnabled
      { s with pins := { s.pins with lostFab := s.pins.lostFab ++ [n.val] } } := by
  rw [List.foldl_map, loseClock, if_neg (by rwa [List.contains_iff_mem])]
  rfl

theorem loseClock_fab_frame (s : State) (n : Fin 2) (h : s.Canonical) (hn : n.val ∉ s.pins.lostFab) :
    n.val ∈ (s.loseClock (.fab n)).pins.lostFab ∧ (s.loseClock (.fab n)).mem = s.mem ∧
      ∀ k, k < 8 → s.portEnabled (8 * n + k) = true → (s.loseClock (.fab n)).portState (8 * n + k) = psFAILED := by
  rw [loseClock_fab s n hn]
  obtain ⟨hpins, hmem⟩ := failAll_frame ((List.range 8).map (fun k => 8 * n.val + k))
    { s with pins := { s.pins with lostFab := s.pins.lostFab ++ [n.val] } }
  refine ⟨?_, hmem, fun k hk hon => failAll_portState _ _ _ h (Or.inl ⟨?_, hon⟩)⟩
  · rw [hpins]
    exact List.mem_append_right _ (List.mem_singleton_self _)
  · exact List.mem_map.mpr ⟨k, List.mem_range.mpr hk, rfl⟩

theorem regainClock_fab_frame (s : State) (n : Fin 2) :
    n.val ∉ (s.regainClock (.fab n)).pins.lostFab ∧ (s.regainClock (.fab n)).regs = s.regs :=
  ⟨fun hin => by simpa using (List.mem_filter.mp hin).2, rfl⟩

/-! ### REFCLK_MEM (R408) -/

@[simp] theorem pins_escalate (s : State) (code : Nat) (cause : List Word) (h : code < 6) : (s.escalate code cause).pins = s.pins := by
  have hdump := s.pins_startDump cause (some code)
  unfold escalate
  generalize s.startDump cause (some code) = r at hdump ⊢
  obtain ⟨t, wait⟩ := r
  simp only
  split
  · exact hdump
  · rw [escalateNow, if_pos h]
    exact (pins_burlReset t code).trans hdump

/-- Whatever the loss of a stack's reference leads to, the pins note it. -/
theorem mem_lostMem_loseClock (s : State) (n : Fin 7) : n.val ∈ (s.loseClock (.mem n)).pins.lostMem := by
  have hnoted : n.val ∈ s.pins.lostMem ++ [n.val] := List.mem_append_right _ (List.mem_singleton_self _)
  unfold loseClock
  simp only
  split
  next hlost => exact List.contains_iff_mem.mp hlost
  split
  next hn =>
    split
    · rwa [pins_escalate _ _ _ hn, pins_fault]
    · exact hnoted
  split
  · rwa [pins_warmReset, pins_logEvent, pins_setFld]
  · exact hnoted

theorem not_mem_lostMem_regainClock (s : State) (n : Fin 7) : n.val ∉ (s.regainClock (.mem n)).pins.lostMem := by
  have hgone : n.val ∉ s.pins.lostMem.filter (fun k => k != n.val) := fun hin => by simpa using (List.mem_filter.mp hin).2
  unfold regainClock
  simp only
  split
  · rwa [pins_resume, pins_halt]
  · exact hgone

/-! ### REFCLK_PCIE and REFCLK_MGMT (R45, R408) -/

@[simp] theorem pins_clearQueue (s : State) (q : Nat) : (s.clearQueue q).pins = s.pins := rfl

theorem pins_linkLost (s : State) : s.linkLost.pins = s.pins := rfl

theorem pins_hostCleared (s : State) : s.hostCleared.pins = s.pins := rfl

@[simp] theorem pins_loseQueue (s : State) (q : Nat) : (s.loseQueue q).pins = s.pins := by
  have hdetached : (s.detachOf q).pins = s.pins := by
    unfold detachOf detach
    simp only [pins_ite, pins_setCstate, pins_modCtx, ite_self]
  rw [loseQueue_eq, pins_setFld, pins_clearQueue, pins_wr, pins_wr, pins_discard, hdetached]

@[simp] theorem pins_hostReset (s : State) : s.hostReset.pins = s.pins := by
  rw [hostReset_eq, pins_linkLost, pins_hostCleared, loseQueues]
  exact pins_foldl _ _ s (fun t q => pins_loseQueue t q)

theorem loseClock_pcie_frame (s : State) :
    (s.loseClock .pcie).pins.refPcie = false ∧ (s.loseClock .pcie).hostLink.up = false ∧ (s.loseClock .pcie).mem = s.mem := by
  obtain ⟨hmem, -, hlink⟩ := hostReset_frame { s with pins := { s.pins with refPcie := false } }
  unfold loseClock
  simp only
  split
  next hup => exact ⟨by rw [pins_hostReset], by rw [hlink], hmem⟩
  next hdown => exact ⟨rfl, Bool.eq_false_of_not_eq_true hdown, rfl⟩

/-- The state in which the loss of REFCLK_MGMT is noted. -/
def noteRefLost (s : State) : State := { s with pins := { s.pins with refMgmt := false }, mg := { s.mg with refLostAt := s.now } }

theorem exec_refLost (s : State) (hm : s.pins.refMgmt = true) :
    exec .refLost s =
      .next (((s.noteRefLost.setFld a_MG_TSYNC MG_TSYNC_REF_LOST 1).setFld a_MG_TSYNC MG_TSYNC_REF_HOLDOVER 1).faultDev cLINK 9 224) := by
  change execRefLost s = _
  simp only [execRefLost, hm, Bool.not_true, Bool.false_eq_true, if_false, noteRefLost]

theorem refLostAt_faultDev (s : State) (cls die unit : Nat) : (s.faultDev cls die unit).mg.refLostAt = s.mg.refLostAt := by
  obtain ⟨held, n, e⟩ := s.faultDev_eq cls die unit
  rw [e]

theorem rd_faultDev (s : State) (cls die unit a : Nat) : (s.faultDev cls die unit).rd a = s.rd a := by
  obtain ⟨held, n, e⟩ := s.faultDev_eq cls die unit
  rw [e]
  rfl

theorem refLost_holdover (s : State) (h : s.Canonical) (hm : s.pins.refMgmt = true) :
    ∃ t, exec .refLost s = .next t ∧ t.pins.refMgmt = false ∧ t.mg.refLostAt = s.now ∧ t.fld a_MG_TSYNC MG_TSYNC_REF_LOST = 1 ∧
      t.fld a_MG_TSYNC MG_TSYNC_REF_HOLDOVER = 1 ∧ (∀ a, a ≠ a_MG_TSYNC → t.rd a = s.rd a) ∧ t.mem = s.mem := by
  have hexec := exec_refLost s hm
  obtain ⟨hpins, hat, hrd, hmem⟩ : s.noteRefLost.pins.refMgmt = false ∧ s.noteRefLost.mg.refLostAt = s.now ∧
    (∀ a, s.noteRefLost.rd a = s.rd a) ∧ s.noteRefLost.mem = s.mem := ⟨rfl, rfl, fun _ => rfl, rfl⟩
  have hcanonical : s.noteRefLost.Canonical := h
  generalize s.noteRefLost = u at hexec hpins hat hrd hmem hcanonical
  have hlost := setFld_canonical u a_MG_TSYNC MG_TSYNC_REF_LOST 1 hcanonical
  obtain ⟨-, hfld, hkept⟩ :=
    faultDev_frame ((u.setFld a_MG_TSYNC MG_TSYNC_REF_LOST 1).setFld a_MG_TSYNC MG_TSYNC_REF_HOLDOVER 1) cLINK 9 224
  refine ⟨_, hexec, ?_, ?_, ?_, ?_, fun a ha => ?_, hkept.trans hmem⟩
  · rwa [pins_faultDev]
  · rw [refLostAt_faultDev]
    exact hat
  · rw [hfld, fld_setFld_apart _ _ _ _ _ hlost (by decide) (by decide) (by decide) (by decide),
      fld_setFld u _ _ _ hcanonical (by decide) (by decide)]
    rfl
  · rw [hfld, fld_setFld _ _ _ _ hlost (by decide) (by decide)]
    rfl
  · rw [rd_faultDev, rd_setFld_ne _ _ a _ _ ha, rd_setFld_ne u _ a _ _ ha, hrd]

theorem refRestored_ends (s : State) (h : s.Canonical) (hm : s.pins.refMgmt = false) (hin : s.mg.refLostAt + 10000000 ≤ s.now) :
    ∃ t, exec .refRestored s = .next t ∧ t.pins.refMgmt = true ∧ t.fld a_MG_TSYNC MG_TSYNC_REF_HOLDOVER = 0 ∧
      t.fld a_MG_TSYNC MG_TSYNC_REF_LOST = s.fld a_MG_TSYNC MG_TSYNC_REF_LOST ∧ t.mem = s.mem := by
  have hexec : exec .refRestored s =
      .next (({ s with pins := { s.pins with refMgmt := true } } : State).setFld a_MG_TSYNC MG_TSYNC_REF_HOLDOVER 0) := by
    change execRefRestored s = _
    rw [execRefRestored, if_neg (by rw [hm, Bool.false_or, decide_eq_true_iff]; omega)]
  generalize hu : ({ s with pins := { s.pins with refMgmt := true } } : State) = u at hexec
  have hcanonical : u.Canonical := hu ▸ h
  obtain ⟨hpins, hregs, hmem⟩ : u.pins.refMgmt = true ∧ u.regs = s.regs ∧ u.mem = s.mem := by
    rw [← hu]
    exact ⟨rfl, rfl, rfl⟩
  refine ⟨_, hexec, hpins, ?_, ?_, hmem⟩
  · exact fld_setFld u a_MG_TSYNC MG_TSYNC_REF_HOLDOVER 0 hcanonical (by decide) (by decide)
  · rw [fld_setFld_apart u a_MG_TSYNC MG_TSYNC_REF_HOLDOVER MG_TSYNC_REF_LOST 0 hcanonical (by decide) (by decide) (by decide) (by decide),
      fld, rd, hregs, fld, rd]

end State

/-- Settles O38, clause by clause: a die's exit from its reset, a round of time messages, and each reference clock lost and
regained. -/
theorem clocksAndDies : Obligations.ClocksAndDies := by
  unfold Obligations.ClocksAndDies
  refine ⟨?_, ?_, ?_, ?_, ?_, ?_, ?_, ?_, ?_⟩
  · intro d s h hreset hsync hlink
    exact ⟨s.dieExit d, rfl, s.dieExit_domains d h hreset hsync hlink⟩
  · intro offsets ok s h hfirmware hdue
    have hexec : exec (.tsyncRound offsets ok) s = .next (s.syncRound offsets ok.toNat) := by
      change execTsyncRound offsets ok s = _
      rw [execTsyncRound, hfirmware, hdue]
      rfl
    exact ⟨_, hexec, s.syncRound_synchronises offsets ok.toNat h⟩
  · intro s h hm
    exact s.refLost_holdover h hm
  · intro s h hm hin
    exact s.refRestored_ends h hm hin
  · intro n s
    exact ⟨⟨s.loseClock (.mem n), rfl, s.mem_lostMem_loseClock n⟩, ⟨s.regainClock (.mem n), rfl, s.not_mem_lostMem_regainClock n⟩⟩
  · intro n s h hn
    exact ⟨s.loseClock (.fab n), rfl, s.loseClock_fab_frame n h hn⟩
  · intro n s
    exact ⟨s.regainClock (.fab n), rfl, s.regainClock_fab_frame n⟩
  · intro s _
    exact ⟨s.loseClock .pcie, rfl, s.loseClock_pcie_frame⟩
  · intro s
    rfl

end Sys2Proof.Machine
end

section
/-! PROOFS. O15 refuted: a release whose reference names no slot of its partition. -/

namespace Sys2Proof.Machine

/-- A blocked WAIT without the TEST flag. -/
def strayWait : Desc :=
  { index := 0, words := [], stage := .running, epoch := 0, marked := false, retranslated := false, opnds := [], cands := [],
    xlate := none, status := 0, detail := 0, condFalse := false, poisoned := false, lenClamped := false, len := 0, len2 := 0,
    started := 0, until_ := 0, order := 0, cfgw := 0, seed := 0, ended := 0, rmode := 0, eccSeq := none }

/-- A release is on its way to slot 1024 of partition 0, which stands for slot 0 of partition 4: the clock of that partition's die is
5 ns ahead of the clock of partition 0's. -/
def strayRelease : State :=
  { State.reset with
    dies := [(1, { Die.init with offset := 5 })]
    ctxs := [(1024, { Ctx.init with descs := [strayWait] })]
    bead := [.waitRelease 0 ⟨1024, 0⟩ true] }

theorem strayRelease_canonical : strayRelease.Canonical := by
  constructor <;> rfl

theorem strayRelease_local : ¬ strayRelease.remoteAt 1024 0 := by
  rintro ⟨e, hmem, -, hremote⟩
  rw [List.mem_singleton.mp hmem] at hremote
  exact absurd hremote (by decide)

/-- The release stamps the entry with the time of the die of partition 4. -/
theorem strayRelease_ended (t : State) (h : exec (.semWaitRelease 0) strayRelease = .next t) :
    (t.ctx 1024).descs.map Desc.ended = [5] := by
  injection h with e
  rw [← e]
  decide

/-- Refutes O15: nothing bounds the slot that a release's reference names. A release for partition 0 and slot 1024 ends the entry that
slot 0 of partition 4 holds, with the time of that partition's die; the statement asks for the time of partition 0's die, whose clock
stands elsewhere. -/
theorem not_waitsEndAndFlagsArePolled : ¬ Obligations.WaitsEndAndFlagsArePolled := by
  unfold Obligations.WaitsEndAndFlagsArePolled
  rintro ⟨⟨⟨hrelease, -⟩, -⟩, -⟩
  obtain ⟨t, hexec, -, ⟨hdescs, -⟩, -⟩ := hrelease 0 0 ⟨1024, 0⟩ strayWait strayRelease strayRelease_canonical rfl rfl rfl rfl
  have hwanted : (t.ctx 1024).descs.map Desc.ended = [0] :=
    (congrArg (List.map Desc.ended) (hdescs strayRelease_local)).trans (by decide)
  exact absurd ((strayRelease_ended t hexec).symm.trans hwanted) (by decide)

end Sys2Proof.Machine
end

section
/-! PROOFS. What a copy of memory leaves: its writes answer to the stored bytes alone, whatever fault records are held, and a record
changes nothing they read (R179–R181, R204, R249, R424). -/

namespace Sys2Proof.Machine

namespace State

/-! ### A state without its fault records -/

/-- The state without what a fault record changes. -/
def unreported (s : State) : State := { s with held := [], parts := [], mg := { s.mg with devRseq := 0 } }

@[simp] theorem unreported_report (s : State) (q : FaultQueue) (r : FRec) : (s.report q r).1.unreported = s.unreported := by
  unfold report
  simp only
  split
  · rfl
  · cases q with
    | device => rfl
    | part p =>
      simp only
      split <;> rfl

@[simp] theorem unreported_reportSec (s : State) (a n : Nat) : (s.reportSec a n).unreported = s.unreported := by
  unfold reportSec reportHome
  split <;> exact unreported_report _ _ _

/-- What a unit gets depends on the state without its records. -/
theorem unreported_flushLine (s : State) (l : Line) : (s.flushLine l).unreported = (s.unreported.flushLine l).unreported := by
  have hkey : s.unreported.keyAt l.key = s.keyAt l.key := rfl
  unfold flushLine
  rw [hkey]
  split
  · simp only [unreported_reportSec]
    rfl
  · rfl

theorem unreported_pullBack (s : State) (u : Nat) : (s.pullBack u).unreported = (s.unreported.pullBack u).unreported := by
  have hholder : s.unreported.dirtyHolder u = s.dirtyHolder u := rfl
  unfold pullBack
  rw [hholder]
  cases s.dirtyHolder u with
  | none => rfl
  | some l => exact unreported_flushLine s l

theorem pullBack_congr {s t : State} (h : s.unreported = t.unreported) (u : Nat) :
    (s.pullBack u).unreported = (t.pullBack u).unreported := by rw [unreported_pullBack, h, ← unreported_pullBack]

theorem unitUnder_congr {s t : State} (h : s.unreported = t.unreported) (key u : Nat) : s.unitUnder key u = t.unitUnder key u :=
  (congrArg (fun x : State => x.unitUnder key u) h :)

theorem readUnit_congr {s t : State} (h : s.unreported = t.unreported) (k u : Nat) : s.readUnit k u = t.readUnit k u := by
  have hreserve : s.inReserve u = t.inReserve u := (congrArg (fun x : State => x.inReserve u) h :)
  have hholder : s.dirtyHolder u = t.dirtyHolder u := (congrArg (fun x : State => x.dirtyHolder u) h :)
  have hkey : s.keyAt k = t.keyAt k := (congrArg (fun x : State => x.keyAt k) h :)
  have hmeta : s.unitMeta u = t.unitMeta u := (congrArg (fun x : State => x.unitMeta u) h :)
  have hbroken : s.broken u = t.broken u := (congrArg (fun x : State => x.broken u) h :)
  unfold readUnit
  rw [hreserve, hholder, hkey, hmeta, hbroken, unitUnder_congr h, unitUnder_congr (pullBack_congr h u)]

theorem unitPieces_congr {s t : State} (h : s.unreported = t.unreported) (k a n : Nat) : s.unitPieces k a n = t.unitPieces k a n := by
  have hstore : (fun p o m => (s.tsRead p o m, s.tsPoisonAt p o)) = (fun p o m => (t.tsRead p o m, t.tsPoisonAt p o)) :=
    (congrArg (fun (x : State) p o m => (x.tsRead p o m, x.tsPoisonAt p o)) h :)
  have hread (p o m : Nat) : s.tsRead p o m = t.tsRead p o m := congrArg (fun f => (f p o m).1) hstore
  have hpoison (p o : Nat) : s.tsPoisonAt p o = t.tsPoisonAt p o := congrArg (fun f => (f p o 0).2) hstore
  unfold unitPieces
  simp only [readUnit_congr h, hread, hpoison]

theorem strike_congr {s t : State} (h : s.unreported = t.unreported) (a n : Nat) :
    (s.strike a n).unreported = (t.strike a n).unreported := by
  have hjobs : s.jobs = t.jobs := (congrArg (fun x : State => x.jobs) h :)
  have hstrike : (s.strike a n).jobs = (t.strike a n).jobs := by simp only [strike, unitPieces_congr h, hjobs]
  calc (s.strike a n).unreported = { s.unreported with jobs := (s.strike a n).jobs } := rfl
    _ = { t.unreported with jobs := (t.strike a n).jobs } := by rw [h, hstrike]
    _ = (t.strike a n).unreported := rfl

/-- A unit whose copies are gone, before its bytes are written. -/
def unitCleared (s : State) (a n : Nat) : State := ((s.strike a n).pullBack (a / 64 * 64)).dropCopies (a / 64 * 64)

theorem unitCleared_congr {s t : State} (h : s.unreported = t.unreported) (a n : Nat) :
    (s.unitCleared a n).unreported = (t.unitCleared a n).unreported := by
  have hpulled := pullBack_congr (strike_congr h a n) (a / 64 * 64)
  exact (congrArg (fun x : State => x.dropCopies (a / 64 * 64)) hpulled :)

/-- The write of bytes into one unit that is cleared. -/
def putPiece (t : State) (key a : Nat) (bs : List Byte) (poison : Bool) : State :=
  let u := a / 64 * 64
  if bs.length = 64 then t.putUnit key u bs poison
  else t.putUnit key u (overlay (t.unitUnder key u) (a % 64) bs) (poison || (t.unitMeta u).poison || t.broken u)

theorem putPiece_congr {s t : State} (h : s.unreported = t.unreported) (key a : Nat) (bs : List Byte) (poison : Bool) :
    (s.putPiece key a bs poison).unreported = (t.putPiece key a bs poison).unreported := by
  have hput (x : State) : (x.putPiece key a bs poison).unreported = (x.unreported.putPiece key a bs poison).unreported := by
    unfold putPiece
    split <;> rfl
  rw [hput s, h, ← hput t]

theorem writeUnit_eq (s : State) (k a : Nat) (bs : List Byte) (poison : Bool) :
    s.writeUnit k a bs poison = if s.keyAt k = 0 || s.inReserve (a / 64 * 64) then s.reportSec a bs.length
      else (s.unitCleared a bs.length).putPiece (s.keyAt k) a bs poison := rfl

theorem writeUnit_congr {s t : State} (h : s.unreported = t.unreported) (k a : Nat) (bs : List Byte) (poison : Bool) :
    (s.writeUnit k a bs poison).unreported = (t.writeUnit k a bs poison).unreported := by
  have hkey : s.keyAt k = t.keyAt k := (congrArg (fun x : State => x.keyAt k) h :)
  have hreserve : s.inReserve (a / 64 * 64) = t.inReserve (a / 64 * 64) := (congrArg (fun x : State => x.inReserve (a / 64 * 64)) h :)
  rw [writeUnit_eq, writeUnit_eq, hkey, hreserve]
  split
  · simpa only [unreported_reportSec] using h
  · exact putPiece_congr (unitCleared_congr h a bs.length) _ _ _ _

theorem writeMemP_congr {s t : State} (h : s.unreported = t.unreported) (k a : Nat) (bs : List Byte) (poisonAt : Nat → Bool) :
    (s.writeMemP k a bs poisonAt).unreported = (t.writeMemP k a bs poisonAt).unreported := by
  unfold writeMemP
  induction pieces a bs generalizing s t with
  | nil => exact h
  | cons x xs ih => exact ih (writeUnit_congr h _ _ _ _)

theorem readMemP_congr {s t : State} (h : s.unreported = t.unreported) (k a n : Nat) : s.readMemP k a n = t.readMemP k a n := by
  have hlaid (bs : List PByte) : s.laid 0 (s.alts k) a bs = t.laid 0 (t.alts k) a bs :=
    (congrArg (fun x : State => x.laid 0 (x.alts k) a bs) h :)
  unfold readMemP
  simp only [readUnit_congr h, hlaid]

/-! ### What the writes keep -/

/-- From s to t registers, tile store and the regions of every partition are as they were. -/
structure CopyKeeps (s t : State) : Prop where
  regs : t.regs = s.regs
  ts : t.ts = s.ts
  parts : Sparse.wf (fun _ => Part.init) t.parts = true
  regions : ∀ p, (t.part p).regions = (s.part p).regions

theorem CopyKeeps.refl {s : State} (h : Sparse.wf (fun _ => Part.init) s.parts = true) : CopyKeeps s s := ⟨rfl, rfl, h, fun _ => rfl⟩

theorem CopyKeeps.trans {s t u : State} (h : CopyKeeps s t) (g : CopyKeeps t u) : CopyKeeps s u :=
  ⟨g.regs.trans h.regs, g.ts.trans h.ts, g.parts, fun p => (g.regions p).trans (h.regions p)⟩

/-- A change of a partition that keeps its regions. -/
theorem CopyKeeps.modPart {s : State} (p : Nat) (f : Part → Part) (h : Sparse.wf (fun _ => Part.init) s.parts = true)
    (hf : ∀ x, (f x).regions = x.regions) : CopyKeeps s (s.modPart p f) where
  regs := rfl
  ts := rfl
  parts := Sparse.wf_put _ h
  regions q := by
    by_cases hq : q = p
    · subst hq
      exact (congrArg Part.regions (Sparse.get_put _ (Sparse.wf_sorted h))).trans (hf _)
    · exact congrArg Part.regions (Sparse.get_put_ne s.parts _ hq)

theorem CopyKeeps.report {s : State} (q : FaultQueue) (r : FRec) (h : Sparse.wf (fun _ => Part.init) s.parts = true) :
    CopyKeeps s (s.report q r).1 := by
  unfold State.report
  simp only
  split
  · exact ⟨rfl, rfl, h, fun _ => rfl⟩
  · cases q with
    | device => exact ⟨rfl, rfl, h, fun _ => rfl⟩
    | part p =>
      simp only
      split
      next held n _ => exact CopyKeeps.modPart (s := s) p (fun x => { x with hold := held }) h fun _ => rfl
      · obtain ⟨hregs, hts, hparts, hregions⟩ := CopyKeeps.modPart (s := s) p (fun x => { x with rseq := (x.rseq + 1) % 65536 }) h fun _ => rfl
        exact ⟨hregs, hts, hparts, hregions⟩

theorem CopyKeeps.reportSec {s : State} (a n : Nat) (h : Sparse.wf (fun _ => Part.init) s.parts = true) :
    CopyKeeps s (s.reportSec a n) := by
  unfold State.reportSec reportHome
  split <;> exact CopyKeeps.report _ _ h

theorem CopyKeeps.flushLine {s : State} (l : Line) (h : Sparse.wf (fun _ => Part.init) s.parts = true) : CopyKeeps s (s.flushLine l) := by
  unfold State.flushLine
  split
  · exact CopyKeeps.reportSec _ _ h
  · exact ⟨rfl, rfl, h, fun _ => rfl⟩

theorem CopyKeeps.unitCleared {s : State} (a n : Nat) (h : Sparse.wf (fun _ => Part.init) s.parts = true) : CopyKeeps s (s.unitCleared a n) := by
  have hpulled : CopyKeeps (s.strike a n) ((s.strike a n).pullBack (a / 64 * 64)) := by
    unfold pullBack
    split
    · exact CopyKeeps.refl h
    · exact CopyKeeps.flushLine _ h
  exact ⟨hpulled.regs, hpulled.ts, hpulled.parts, hpulled.regions⟩

theorem CopyKeeps.putPiece {s : State} (key a : Nat) (bs : List Byte) (poison : Bool) (h : Sparse.wf (fun _ => Part.init) s.parts = true) :
    CopyKeeps s (s.putPiece key a bs poison) := by
  unfold State.putPiece
  simp only
  split <;> exact ⟨rfl, rfl, h, fun _ => rfl⟩

theorem CopyKeeps.writeUnit {s : State} (k a : Nat) (bs : List Byte) (poison : Bool) (h : Sparse.wf (fun _ => Part.init) s.parts = true) :
    CopyKeeps s (s.writeUnit k a bs poison) := by
  rw [writeUnit_eq]
  split
  · exact CopyKeeps.reportSec _ _ h
  · have hcleared := CopyKeeps.unitCleared a bs.length h
    exact hcleared.trans (CopyKeeps.putPiece _ _ _ _ hcleared.parts)

theorem CopyKeeps.writeMemP {s : State} (k a : Nat) (bs : List Byte) (poisonAt : Nat → Bool)
    (h : Sparse.wf (fun _ => Part.init) s.parts = true) : CopyKeeps s (s.writeMemP k a bs poisonAt) := by
  unfold State.writeMemP
  induction pieces a bs generalizing s with
  | nil => exact CopyKeeps.refl h
  | cons x xs ih =>
    have hone : CopyKeeps s (s.writeUnit k x.1 x.2 (poisonAt (x.1 - a))) := CopyKeeps.writeUnit _ _ _ _ h
    exact hone.trans (ih hone.parts)

end State

end Sys2Proof.Machine
end

section
/-! PROOFS. The tier manager: halving, start, drain, abandonment and commit of a migration (R44, R184, R186), and O50. -/

namespace Sys2Proof.Machine

namespace State

/-! ### Halving, start and end of a migration -/

theorem exec_ageHalving {pp : Fin 24} {s : State} (hon : s.tmOn pp = true) (hin : s.inReset pp = false)
    (hdue : (s.part pp).nextHalving ≤ s.now) : exec (.ageHalving pp) s = .next (s.halve pp) := by
  change execAgeHalving pp s = _
  rw [execAgeHalving, if_pos (by rw [hon, hin, decide_eq_true hdue]; rfl)]

/-- The halving writes its partition and its counters. -/
theorem halve_eq (s : State) (p : Nat) :
    ∃ choices n, s.halve p =
      (s.setPart p { s.part p with
        regions := (s.part p).regions.map (fun r => { r with count := r.count / 2 })
        choices := choices
        nextHalving := s.now + s.fld (a_PT_TMCFG p) PT_TMCFG_AGE_MS * 1000000 }).bump (a_PT_TMCNT p) PT_TMCNT_NO_ROOM n := ⟨_, _, rfl⟩

theorem exec_migrationStart {pp : Fin 24} {s : State} (hon : s.tmOn pp = true) (hin : s.inReset pp = false)
    (hnone : (s.part pp).migration = none) (hhold : s.flag (a_PT_TMCTL pp) PT_TMCTL_HOLD = false) :
    exec (.migrationStart pp) s = .next (s.startMigration pp) := by
  change execMigrationStart pp s = _
  rw [execMigrationStart, if_pos (by rw [hon, hin, hnone, hhold]; rfl)]

theorem startMigration_eq {s : State} {p slot va dest dst : Nat} {rest : List (Nat × Nat × Nat)} {r : Region}
    (hchoices : (s.part p).choices = (slot, va, dest) :: rest)
    (hregion : (s.part p).regions.find? (fun r => r.slot == slot && r.va == va) = some r)
    (hslot : s.freeSlot p dest (if dest = 0 then (s.part p).used1 else (s.part p).used2) = some dst) :
    s.startMigration p = (s.setPart p { s.part p with
      choices := rest
      regions := (s.part p).regions.map (fun r => if r.slot = slot ∧ r.va = va then { r with moving := true } else r)
      migration := some { slot := slot, va := va, dst := dst, toTier := dest, step := 2, epoch := 0, waitFrom := s.now }
    }).requestIncrement (s.asidOf (cid p slot)) (.migration p) := by
  simp only [startMigration, hchoices, hregion, hslot]

theorem exec_migrationDrained {pp : Fin 24} {s : State} {m : Migration} (hm : (s.part pp).migration = some m) (hstep : m.step = 3)
    (hdone : s.olderDone pp m = true) :
    exec (.migrationDrained pp) s = .next (s.setPart pp { s.part pp with migration := some { m with step := 4 } }) := by
  change execMigrationDrained pp s = _
  simp only [execMigrationDrained, hm, hstep, hdone, decide_true, Bool.and_self, if_true, modPart]

theorem exec_migrationAbandon {pp : Fin 24} {s : State} {m : Migration} (hm : (s.part pp).migration = some m) (hstep : m.step = 3)
    (hlate : m.waitFrom + 1000000 ≤ s.now) :
    exec (.migrationAbandon pp) s = .next ((s.discardMigration pp).bump (a_PT_TMCNT pp) PT_TMCNT_ABANDONED 1) := by
  change execMigrationAbandon pp s = _
  simp only [execMigrationAbandon, hm, hstep, hlate, decide_true, Bool.and_self, if_true]

theorem abandon_frame (s : State) (p : Nat) (h : s.Canonical) :
    let t := (s.discardMigration p).bump (a_PT_TMCNT p) PT_TMCNT_ABANDONED 1
    (t.part p).migration = none ∧ (t.part p).regions = (s.part p).regions.map (fun r => { r with moving := false }) ∧
      t.fld (a_PT_TMCNT p) PT_TMCNT_ABANDONED =
        satAdd (s.fld (a_PT_TMCNT p) PT_TMCNT_ABANDONED) 1 (2 ^ PT_TMCNT_ABANDONED.width - 1) ∧
      (∀ a, a ≠ a_PT_TMCNT p → t.rd a = s.rd a) ∧ t.mem = s.mem ∧ t.ctxs = s.ctxs := by
  intro t
  have hpart : (s.discardMigration p).part p =
      { s.part p with migration := none, regions := (s.part p).regions.map (fun r => { r with moving := false }) } :=
    part_modPart s p _ h
  refine ⟨congrArg Part.migration hpart, congrArg Part.regions hpart, ?_, fun a ha => rd_bump_ne (s.discardMigration p) PT_TMCNT_ABANDONED 1 ha, rfl, rfl⟩
  exact fld_bump (s.discardMigration p) (a_PT_TMCNT p) PT_TMCNT_ABANDONED 1 (modPart_canonical s p _ h) ⟨by decide, by decide⟩

/-! ### The commit -/

/-- The copy of a region and the write of its table entry. -/
def copyRegion (s : State) (id pa dst entry toTier : Nat) : State :=
  (s.writeMemB id dst (s.readMemP id pa 2097152)).writeMem keySYS entry (leBytes (toTier * 2 ^ 62 + dst) 8) false

/-- The charge of a region moves to its new tier. -/
def moveCharge (t : State) (id toTier : Nat) : State :=
  (t.setCharge id (toTier + 1) (t.charge id (toTier + 1) + 32)).setCharge id (2 - toTier) (t.charge id (2 - toTier) - 32)

/-- Held descriptors whose operands touch the region are marked. -/
def markHeld (t : State) (p pa : Nat) : State :=
  (t.liveSlots p).foldl (fun t sl => t.modCtx (cid p sl) (fun c => { c with descs := c.descs.map (fun d =>
    if undispatched d && d.opnds.any (fun o => o.exts.any (fun e => overlap e.pa e.len pa 2097152)) then
      { d with marked := true } else d) })) t

/-- The region stands at its destination, and the migration is over. -/
def endMigration (t : State) (p : Nat) (m : Migration) (r : Region) : State :=
  let u1 := (t.part p).used1
  let u2 := (t.part p).used2
  t.modPart p (fun x => { x with
    migration := none
    regions := x.regions.map (fun y => if y = r then { y with pa := m.dst, tier := m.toTier, moving := false } else y)
    used1 := if m.toTier = 0 then m.dst :: u1 else u1.filter (fun b => b != r.pa)
    used2 := if m.toTier = 1 then m.dst :: u2 else u2.filter (fun b => b != r.pa) })

theorem commitMigration_eq {s : State} {p i : Nat} {m : Migration} {r : Region}
    (hr : (s.part p).regions.find? (fun r => r.slot == m.slot && r.va == m.va) = some r)
    (hi : s.entryOf (s.asidOf (cid p m.slot)) m.va = some i) :
    s.commitMigration p m =
      ((((({ s with fresh := s.fresh + 1 } : State).readAs clsAccel (cid p m.slot) r.pa 2097152).1.copyRegion (cid p m.slot) r.pa m.dst
          (s.fld (a_XL_ASCFG (s.asidOf (cid p m.slot))) XL_ASCFG_TBASE * 4096 + i * 32 + 16) m.toTier).moveCharge (cid p m.slot)
        m.toTier).bump (a_PT_TMCNT p) (if m.toTier = 1 then PT_TMCNT_DEMOTED else PT_TMCNT_PROMOTED) 1
        |>.markHeld p r.pa).endMigration p m r := by
  unfold commitMigration
  simp only [hr, hi]
  rfl

/-- A charge that moves: registers alone, and of them only the use of the context. -/
theorem moveCharge_frame (t : State) (id toTier : Nat) (ht : toTier ≤ 1) :
    ∃ regs, t.moveCharge id toTier = { t with regs := regs } ∧
      ∀ a, a ≠ a_PT_CTXUSE (id / 256) (id % 256) → (t.moveCharge id toTier).rd a = t.rd a := by
  have hone : toTier = 0 ∨ toTier = 1 := by omega
  rcases hone with rfl | rfl
  · exact ⟨_, rfl, fun a ha => (rd_setFld_ne _ _ a _ _ ha).trans (rd_setFld_ne t _ a _ _ ha)⟩
  · exact ⟨_, rfl, fun a ha => (rd_setFld_ne _ _ a _ _ ha).trans (rd_setFld_ne t _ a _ _ ha)⟩

theorem charge_moveCharge_down (t : State) (id : Nat) (h : t.Canonical) (hroom : t.charge id 2 + 32 < 2 ^ 32) :
    (t.moveCharge id 1).charge id 2 = t.charge id 2 + 32 ∧ (t.moveCharge id 1).charge id 1 = t.charge id 1 - 32 := by
  have hlt : t.charge id 1 < 2 ^ 32 := Fld.get_lt _ _
  have hset := setFld_canonical t (a_PT_CTXUSE (id / 256) (id % 256)) PT_CTXUSE_T2_USED (t.charge id 2 + 32) h
  constructor
  · calc (t.moveCharge id 1).charge id 2 = (t.setCharge id 2 (t.charge id 2 + 32)).charge id 2 :=
          fld_setFld_apart _ _ PT_CTXUSE_T1_USED PT_CTXUSE_T2_USED _ hset (by decide) (by decide) (by decide) (by decide)
      _ = (t.charge id 2 + 32) % 2 ^ 32 := fld_setFld t _ PT_CTXUSE_T2_USED _ h (by decide) (by decide)
      _ = t.charge id 2 + 32 := Nat.mod_eq_of_lt hroom
  · calc (t.moveCharge id 1).charge id 1 = (t.charge id 1 - 32) % 2 ^ 32 :=
          fld_setFld _ _ PT_CTXUSE_T1_USED _ hset (by decide) (by decide)
      _ = t.charge id 1 - 32 := Nat.mod_eq_of_lt (by omega)

theorem charge_moveCharge_up (t : State) (id : Nat) (h : t.Canonical) (hroom : t.charge id 1 + 32 < 2 ^ 32) :
    (t.moveCharge id 0).charge id 1 = t.charge id 1 + 32 ∧ (t.moveCharge id 0).charge id 2 = t.charge id 2 - 32 := by
  have hlt : t.charge id 2 < 2 ^ 32 := Fld.get_lt _ _
  have hset := setFld_canonical t (a_PT_CTXUSE (id / 256) (id % 256)) PT_CTXUSE_T1_USED (t.charge id 1 + 32) h
  constructor
  · calc (t.moveCharge id 0).charge id 1 = (t.setCharge id 1 (t.charge id 1 + 32)).charge id 1 :=
          fld_setFld_apart _ _ PT_CTXUSE_T2_USED PT_CTXUSE_T1_USED _ hset (by decide) (by decide) (by decide) (by decide)
      _ = (t.charge id 1 + 32) % 2 ^ 32 := fld_setFld t _ PT_CTXUSE_T1_USED _ h (by decide) (by decide)
      _ = t.charge id 1 + 32 := Nat.mod_eq_of_lt hroom
  · calc (t.moveCharge id 0).charge id 2 = (t.charge id 2 - 32) % 2 ^ 32 :=
          fld_setFld _ _ PT_CTXUSE_T2_USED _ hset (by decide) (by decide)
      _ = t.charge id 2 - 32 := Nat.mod_eq_of_lt (by omega)

/-- Where a charge moves depends on the registers alone. -/
theorem moveCharge_congr {s t : State} (h : t.regs = s.regs) (id toTier : Nat) :
    (t.moveCharge id toTier).regs = (s.moveCharge id toTier).regs := by
  have hset (u v : State) (a : Nat) (f : Fld) (n : Nat) (e : u.regs = v.regs) : (u.setFld a f n).regs = (v.setFld a f n).regs := by
    simp only [setFld, wr, rd, e]
  have hcharge (tier : Nat) : t.charge id tier = s.charge id tier := by
    unfold charge
    simp only [fld, rd, h]
  have hsetCharge (u v : State) (tier n : Nat) (e : u.regs = v.regs) : (u.setCharge id tier n).regs = (v.setCharge id tier n).regs := by
    unfold setCharge
    split <;> exact hset u v _ _ _ e
  unfold moveCharge
  rw [hcharge, hcharge]
  exact hsetCharge _ _ _ _ (hsetCharge t s _ _ h)

/-- Marking changes contexts alone. -/
theorem markHeld_frame (t : State) (p pa : Nat) : ∃ cs, t.markHeld p pa = { t with ctxs := cs } := by
  unfold markHeld
  generalize t.liveSlots p = sls
  induction sls generalizing t with
  | nil => exact ⟨_, rfl⟩
  | cons sl sls ih => exact (ih _).imp fun cs e => e

/-- What follows the copy: the charge, a counter, the marks and the end. -/
def bookMigration (c : State) (p : Nat) (m : Migration) (r : Region) (counter : Fld) : State :=
  (((c.moveCharge (cid p m.slot) m.toTier).bump (a_PT_TMCNT p) counter 1).markHeld p r.pa).endMigration p m r

theorem bookMigration_eq (c : State) (p : Nat) (m : Migration) (r : Region) (counter : Fld) (ht : m.toTier ≤ 1) :
    ∃ cs, c.bookMigration p m r counter = ({ c with
      regs := ((c.moveCharge (cid p m.slot) m.toTier).bump (a_PT_TMCNT p) counter 1).regs, ctxs := cs } : State).endMigration p m r := by
  obtain ⟨regs, e, -⟩ := c.moveCharge_frame (cid p m.slot) m.toTier ht
  obtain ⟨cs, ecs⟩ := ((c.moveCharge (cid p m.slot) m.toTier).bump (a_PT_TMCNT p) counter 1).markHeld_frame p r.pa
  refine ⟨cs, ?_⟩
  rw [bookMigration, ecs, e]
  rfl

theorem part_endMigration (t : State) (p : Nat) (m : Migration) (r : Region) (h : Sparse.wf (fun _ => Part.init) t.parts = true) :
    ((t.endMigration p m r).part p).migration = none ∧
      ((t.endMigration p m r).part p).regions = (t.part p).regions.map (fun y =>
        if y = r then { y with pa := m.dst, tier := m.toTier, moving := false } else y) := by
  have hpart := Sparse.get_put (d := fun _ => Part.init) (k := p)
    ({ t.part p with
      migration := none
      regions := (t.part p).regions.map (fun y => if y = r then { y with pa := m.dst, tier := m.toTier, moving := false } else y)
      used1 := if m.toTier = 0 then m.dst :: (t.part p).used1 else (t.part p).used1.filter (fun b => b != r.pa)
      used2 := if m.toTier = 1 then m.dst :: (t.part p).used2 else (t.part p).used2.filter (fun b => b != r.pa) } : Part)
    (Sparse.wf_sorted h)
  exact ⟨congrArg Part.migration hpart, congrArg Part.regions hpart⟩

/-- What the books of a migration leave of the state after the copy. -/
theorem bookMigration_frame (c : State) (p : Nat) (m : Migration) (r : Region) (counter : Fld) (ht : m.toTier ≤ 1)
    (h : Sparse.wf (fun _ => Part.init) c.parts = true) :
    let t := c.bookMigration p m r counter
    (t.mem = c.mem ∧ t.units = c.units ∧ t.ts = c.ts) ∧
      t.regs = ((c.moveCharge (cid p m.slot) m.toTier).bump (a_PT_TMCNT p) counter 1).regs ∧ (t.part p).migration = none ∧
      (t.part p).regions = (c.part p).regions.map (fun y =>
        if y = r then { y with pa := m.dst, tier := m.toTier, moving := false } else y) := by
  intro t
  obtain ⟨cs, e⟩ := c.bookMigration_eq p m r counter ht
  rw [show t = _ from e]
  exact ⟨⟨rfl, rfl, rfl⟩, rfl, part_endMigration _ p m r h⟩

/-- What the books leave where a copy kept the registers and regions of s. -/
theorem CopyKeeps.bookMigration {s c : State} {p : Nat} {m : Migration} (k : CopyKeeps s c) (r : Region) (counter : Fld)
    (h : s.Canonical) (hslot : m.slot < 192) (ht : m.toTier ≤ 1) :
    let t := c.bookMigration p m r counter
    let id := cid p m.slot
    t.mem = c.mem ∧ t.units = c.units ∧ t.ts = s.ts ∧ (t.part p).migration = none ∧
      (t.part p).regions = (s.part p).regions.map (fun y =>
        if y = r then { y with pa := m.dst, tier := m.toTier, moving := false } else y) ∧
      (m.toTier = 1 → s.charge id 2 + 32 < 2 ^ 32 → t.charge id 2 = s.charge id 2 + 32 ∧ t.charge id 1 = s.charge id 1 - 32) ∧
      (m.toTier = 0 → s.charge id 1 + 32 < 2 ^ 32 → t.charge id 1 = s.charge id 1 + 32 ∧ t.charge id 2 = s.charge id 2 - 32) ∧
      (∀ a, a ≠ a_PT_TMCNT p → a ≠ a_PT_CTXUSE p m.slot → t.rd a = s.rd a) := by
  intro t id
  obtain ⟨⟨hmem, hunits, hts⟩, hregs, hnone, hregions⟩ := c.bookMigration_frame p m r counter ht k.parts
  have hrd (a : Nat) (ha : a ≠ a_PT_TMCNT p) : t.rd a = (s.moveCharge id m.toTier).rd a :=
    calc t.rd a = ((c.moveCharge id m.toTier).bump (a_PT_TMCNT p) counter 1).rd a := by rw [rd, hregs, ← rd]
      _ = (c.moveCharge id m.toTier).rd a := rd_bump_ne _ counter 1 ha
      _ = (s.moveCharge id m.toTier).rd a := by rw [rd, moveCharge_congr k.regs, ← rd]
  have huse : a_PT_CTXUSE (id / 256) (id % 256) = a_PT_CTXUSE p m.slot := by rw [cid_div p hslot, cid_mod p hslot]
  have hapart : a_PT_CTXUSE (id / 256) (id % 256) ≠ a_PT_TMCNT p := by
    rw [huse]
    simp only [a_PT_CTXUSE, a_PT_TMCNT]
    omega
  have hcharge1 : t.charge id 1 = (s.moveCharge id m.toTier).charge id 1 := congrArg PT_CTXUSE_T1_USED.get (hrd _ hapart)
  have hcharge2 : t.charge id 2 = (s.moveCharge id m.toTier).charge id 2 := congrArg PT_CTXUSE_T2_USED.get (hrd _ hapart)
  obtain ⟨_, -, hframe⟩ := s.moveCharge_frame id m.toTier ht
  rw [hcharge1, hcharge2]
  refine ⟨hmem, hunits, hts.trans k.ts, hnone, hregions.trans (congrArg _ (k.regions p)), fun hdown hroom => ?_, fun hup hroom => ?_,
    fun a ha hb => (hrd a ha).trans (hframe a (by rwa [huse]))⟩
  · rw [hdown]
    exact charge_moveCharge_down s id h hroom
  · rw [hup]
    exact charge_moveCharge_up s id h hroom

/-! ### The copy -/

/-- A read that meets no changed stored bit, by a class that fills no slice, at most reports. -/
theorem readAs_reports (s : State) (cls k a n : Nat) (hflips : s.flips = []) (hway : s.fld (a_SC_WAYMASK cls) SC_WAYMASK_MASK = 0) :
    (s.readAs cls k a n).1 = s ∨ (s.readAs cls k a n).1 = s.reportSec a n := by
  have hpass (t : State) (e : t.unreported = s.unreported) : t.passSlices cls k a n = t := by
    have hmask : t.fld (a_SC_WAYMASK cls) SC_WAYMASK_MASK = 0 :=
      (congrArg (fun x : State => x.fld (a_SC_WAYMASK cls) SC_WAYMASK_MASK) e :).trans hway
    rw [passSlices, if_pos hmask]
  have htouch : (s.touchMem k a n).1 = s ∨ (s.touchMem k a n).1 = s.reportSec a n := by
    unfold touchMem
    simp only [hflips, List.filter_nil, List.foldl_nil]
    split
    · exact Or.inr rfl
    · exact Or.inl rfl
  rcases htouch with e | e
  · exact Or.inl ((hpass _ (congrArg unreported e)).trans e)
  · exact Or.inr ((hpass _ ((congrArg unreported e).trans (unreported_reportSec s a n))).trans e)

/-- Before its copy a migration reads the region: the state gains records at most. -/
theorem readAs_keeps (s : State) (cls k a n : Nat) (hflips : s.flips = []) (hway : s.fld (a_SC_WAYMASK cls) SC_WAYMASK_MASK = 0)
    (h : Sparse.wf (fun _ => Part.init) s.parts = true) :
    (s.readAs cls k a n).1.unreported = s.unreported ∧ CopyKeeps s (s.readAs cls k a n).1 := by
  rcases s.readAs_reports cls k a n hflips hway with e | e <;> rw [e]
  · exact ⟨rfl, CopyKeeps.refl h⟩
  · exact ⟨unreported_reportSec s a n, CopyKeeps.reportSec a n h⟩

theorem stored_congr {s t : State} (h : s.unreported = t.unreported) : s.mem = t.mem ∧ s.units = t.units :=
  ⟨(congrArg State.mem h :), (congrArg State.units h :)⟩

theorem copyRegion_congr {s t : State} (h : s.unreported = t.unreported) (id pa dst entry toTier : Nat) :
    (s.copyRegion id pa dst entry toTier).unreported = (t.copyRegion id pa dst entry toTier).unreported := by
  unfold copyRegion
  rw [readMemP_congr h]
  exact writeMemP_congr (writeMemP_congr h _ _ _ _) _ _ _ _

theorem CopyKeeps.copyRegion {s : State} (id pa dst entry toTier : Nat) (h : Sparse.wf (fun _ => Part.init) s.parts = true) :
    CopyKeeps s (s.copyRegion id pa dst entry toTier) := by
  have hcopied : CopyKeeps s (s.writeMemB id dst (s.readMemP id pa 2097152)) := CopyKeeps.writeMemP _ _ _ _ h
  unfold State.copyRegion writeMem
  exact hcopied.trans (CopyKeeps.writeMemP _ _ _ _ hcopied.parts)

theorem exec_migrationCommit {pp : Fin 24} {s : State} {m : Migration} {r : Region} (hm : (s.part pp).migration = some m)
    (hstep : m.step = 4) (hr : (s.part pp).regions.find? (fun r => r.slot == m.slot && r.va == m.va) = some r)
    (hserved : ∀ a ∈ [r.pa, m.dst, s.fld (a_XL_ASCFG (s.asidOf (cid pp m.slot))) XL_ASCFG_TBASE * 4096],
      s.fare roleTILE (burlOf pp) a = .served)
    (hopen : s.shutLine (naPart pp) [⟨r.pa, 2097152⟩, ⟨m.dst, 2097152⟩,
      ⟨s.fld (a_XL_ASCFG (s.asidOf (cid pp m.slot))) XL_ASCFG_TBASE * 4096, 524288⟩] = none) :
    exec (.migrationCommit pp) s = .next (s.commitMigration pp m) := by
  change execMigrationCommit pp s = _
  have hall : [r.pa, m.dst, s.fld (a_XL_ASCFG (s.asidOf (cid pp m.slot))) XL_ASCFG_TBASE * 4096].all
      (fun a => s.fare roleTILE (burlOf pp) a == .served) = true :=
    List.all_eq_true.mpr fun a ha => by rw [hserved a ha]; rfl
  simp only [execMigrationCommit, hm, hstep, ne_eq, not_true_eq_false, if_false, hr, Option.map_some, Option.getD_some, hall, if_true,
    asking, askAll, hopen]

/-- What the commit of a migration leaves (R186). -/
theorem commitMigration_copies (s : State) (p i : Nat) (m : Migration) (r : Region) (h : s.Canonical) (hslot : m.slot < 192)
    (ht : m.toTier ≤ 1) (hr : (s.part p).regions.find? (fun r => r.slot == m.slot && r.va == m.va) = some r)
    (hi : s.entryOf (s.asidOf (cid p m.slot)) m.va = some i) (hflips : s.flips = [])
    (hway : s.fld (a_SC_WAYMASK clsAccel) SC_WAYMASK_MASK = 0) :
    let t := s.commitMigration p m
    let id := cid p m.slot
    let u := ({ s with fresh := s.fresh + 1 } : State).copyRegion id r.pa m.dst
      (s.fld (a_XL_ASCFG (s.asidOf id)) XL_ASCFG_TBASE * 4096 + i * 32 + 16) m.toTier
    t.mem = u.mem ∧ t.units = u.units ∧ t.ts = s.ts ∧ (t.part p).migration = none ∧
      (t.part p).regions = (s.part p).regions.map (fun y =>
        if y = r then { y with pa := m.dst, tier := m.toTier, moving := false } else y) ∧
      (m.toTier = 1 → s.charge id 2 + 32 < 2 ^ 32 → t.charge id 2 = s.charge id 2 + 32 ∧ t.charge id 1 = s.charge id 1 - 32) ∧
      (m.toTier = 0 → s.charge id 1 + 32 < 2 ^ 32 → t.charge id 1 = s.charge id 1 + 32 ∧ t.charge id 2 = s.charge id 2 - 32) ∧
      (∀ a, a ≠ a_PT_TMCNT p → a ≠ a_PT_CTXUSE p m.slot → t.rd a = s.rd a) := by
  intro t id u
  obtain ⟨hsame, hread⟩ := readAs_keeps ({ s with fresh := s.fresh + 1 } : State) clsAccel id r.pa 2097152 hflips hway h.parts
  have hcopied := copyRegion_congr hsame id r.pa m.dst (s.fld (a_XL_ASCFG (s.asidOf id)) XL_ASCFG_TBASE * 4096 + i * 32 + 16) m.toTier
  obtain ⟨hregs, hts, hparts, hregions⟩ := hread.trans (CopyKeeps.copyRegion id r.pa m.dst
    (s.fld (a_XL_ASCFG (s.asidOf id)) XL_ASCFG_TBASE * 4096 + i * 32 + 16) m.toTier hread.parts)
  have hkept : CopyKeeps s _ := ⟨hregs, hts, hparts, hregions⟩
  have hbooked := hkept.bookMigration (p := p) r (if m.toTier = 1 then PT_TMCNT_DEMOTED else PT_TMCNT_PROMOTED) h hslot ht
  rw [show t = _ from commitMigration_eq hr hi]
  obtain ⟨hmem, hunits, hrest⟩ := hbooked
  obtain ⟨hsameMem, hsameUnits⟩ := stored_congr hcopied
  exact ⟨hmem.trans hsameMem, hunits.trans hsameUnits, hrest⟩

end State

/-- Settles O50, clause by clause: the halving, the start, the drain, the abandonment and the commit of a migration. -/
theorem tierManagerMigrates : Obligations.TierManagerMigrates := by
  unfold Obligations.TierManagerMigrates
  intro pp s h
  refine ⟨?_, ?_, ?_, ?_, ?_⟩
  · intro hon hin hdue
    obtain ⟨choices, n, e⟩ := s.halve_eq pp
    have hpart := State.part_setPart s pp { s.part pp with
      regions := (s.part pp).regions.map (fun r => { r with count := r.count / 2 })
      choices := choices
      nextHalving := s.now + s.fld (a_PT_TMCFG pp) PT_TMCFG_AGE_MS * 1000000 } h
    refine ⟨s.halve pp, State.exec_ageHalving hon hin hdue, ?_⟩
    rw [e]
    exact ⟨congrArg Part.regions hpart, congrArg Part.nextHalving hpart, fun a ha => State.rd_bump_ne _ _ _ ha, rfl, rfl, rfl⟩
  · intro slot va dest dst rest r hon hin hnone hhold hchoices hregion hslot
    have hpart := State.part_setPart s pp { s.part pp with
      choices := rest
      regions := (s.part pp).regions.map (fun r => if r.slot = slot ∧ r.va = va then { r with moving := true } else r)
      migration := some { slot := slot, va := va, dst := dst, toTier := dest, step := 2, epoch := 0, waitFrom := s.now } } h
    refine ⟨_, (State.exec_migrationStart hon hin hnone hhold).trans (congrArg _ (State.startMigration_eq hchoices hregion hslot)), ?_⟩
    exact ⟨congrArg Part.choices hpart, congrArg Part.migration hpart, congrArg Part.regions hpart, rfl, rfl, rfl, rfl⟩
  · intro m hm hstep hdone
    exact State.exec_migrationDrained hm hstep hdone
  · intro m hm hstep hlate
    exact ⟨_, State.exec_migrationAbandon hm hstep hlate, s.abandon_frame pp h⟩
  · intro m r i hm hstep hslot ht hr hi hflips hway id table hserved hopen
    exact ⟨_, State.exec_migrationCommit hm hstep hr hserved hopen, s.commitMigration_copies pp i m r h hslot ht hr hi hflips hway⟩

end Sys2Proof.Machine
end

section
/-! PROOFS. The descriptor fetch (R80, R134, R143), and what a read through the system cache slices leaves of the sequencer (R179, R231,
R233, R234, R389). -/

namespace Sys2Proof.Machine

open State

namespace State

/-! ### What a read keeps of the sequencer -/

/-- From s to t no context changes, and the partitions stay in canonical form. -/
structure ReadKeeps (s t : State) : Prop where
  ctxs : t.ctxs = s.ctxs
  parts : Sparse.wf (fun _ => Part.init) s.parts = true → Sparse.wf (fun _ => Part.init) t.parts = true

theorem ReadKeeps.refl (s : State) : ReadKeeps s s := ⟨rfl, id⟩

theorem ReadKeeps.trans {s t u : State} (h : ReadKeeps s t) (g : ReadKeeps t u) : ReadKeeps s u :=
  ⟨g.ctxs.trans h.ctxs, fun hp => g.parts (h.parts hp)⟩

theorem ReadKeeps.ite {s t u : State} {c : Prop} [Decidable c] (ht : ReadKeeps s t) (hu : ReadKeeps s u) :
    ReadKeeps s (if c then t else u) := by
  split
  · exact ht
  · exact hu

/-- A change of neither before the rest. -/
theorem ReadKeeps.after {s t u : State} (g : ReadKeeps t u) (hc : t.ctxs = s.ctxs) (hp : t.parts = s.parts) : ReadKeeps s u :=
  ⟨g.ctxs.trans hc, fun h => g.parts (hp ▸ h)⟩

/-- What every step of a walk keeps, the walk keeps. -/
theorem ReadKeeps.foldl {α : Type} (xs : List α) {f : State → α → State} (hf : ∀ t x, ReadKeeps t (f t x)) (s : State) :
    ReadKeeps s (xs.foldl f s) := by
  induction xs generalizing s with
  | nil => exact .refl s
  | cons x xs ih => exact (hf s x).trans (ih _)

theorem ReadKeeps.foldl_fst {α β : Type} (xs : List α) {f : State × β → α → State × β} (hf : ∀ t x, ReadKeeps t.1 (f t x).1)
    (s : State × β) : ReadKeeps s.1 (xs.foldl f s).1 := by
  induction xs generalizing s with
  | nil => exact .refl s.1
  | cons x xs ih => exact (hf s x).trans (ih _)

theorem ReadKeeps.report (s : State) (q : FaultQueue) (r : FRec) : ReadKeeps s (s.report q r).1 :=
  ⟨(congrArg State.ctxs (unreported_report s q r) :), fun h => (CopyKeeps.report q r h).parts⟩

theorem ReadKeeps.reportHome (s : State) (n : Nat) (r : FRec) : ReadKeeps s (s.reportHome n r).1 := by
  unfold State.reportHome
  split <;> exact .report s _ _

theorem ReadKeeps.reportSec (s : State) (a n : Nat) : ReadKeeps s (s.reportSec a n) := .reportHome s _ _

theorem ReadKeeps.flushLine (s : State) (l : Line) : ReadKeeps s (s.flushLine l) := by
  unfold State.flushLine
  split
  · exact .reportSec s _ _
  · exact ⟨rfl, id⟩

/-! ### The errors that a read finds -/

theorem ReadKeeps.foundUnit (s : State) (u v : Nat) : ReadKeeps s (s.foundUnit u v).1 := by
  unfold State.foundUnit
  simp only
  split
  · exact ⟨rfl, id⟩
  split
  · exact ⟨rfl, id⟩
  · exact (ReadKeeps.reportHome _ _ _).after rfl rfl

theorem ReadKeeps.touchMem (s : State) (k a n : Nat) : ReadKeeps s (s.touchMem k a n).1 := by
  unfold State.touchMem
  simp only
  have hfound := foldl_fst (s.flips.filter (fun e => overlap e.1 64 a n))
    (f := fun (x : State × Option Nat) e => ((x.1.foundUnit e.1 e.2).1, x.2.or (x.1.foundUnit e.1 e.2).2))
    (fun t e => .foundUnit t.1 e.1 e.2) (s, none)
  split
  · exact hfound.trans (.reportSec _ _ _)
  · exact hfound

/-! ### The slices that a read passes -/

theorem ReadKeeps.dropLine (s : State) (a u : Nat) : ReadKeeps s (s.dropLine a u) := by
  unfold State.dropLine
  simp only
  split <;> exact ⟨rfl, id⟩

theorem ReadKeeps.dirLeave (s : State) (h a u : Nat) : ReadKeeps s (s.dirLeave h a u) := by
  unfold State.dirLeave
  split
  · exact ⟨rfl, id⟩
  split
  · split <;> exact ⟨rfl, id⟩
  · simp only
    split <;> exact ⟨rfl, id⟩
  · exact .refl s

theorem ReadKeeps.forgetLine (s : State) (a u : Nat) : ReadKeeps s (s.forgetLine a u) := by
  unfold State.forgetLine
  simp only
  split
  · exact .dropLine s a u
  · exact (ReadKeeps.dropLine s a u).trans (.dirLeave _ _ _ _)

theorem ReadKeeps.startSweep (s : State) (h : Nat) : ReadKeeps s (s.startSweep h) := by
  unfold State.startSweep
  simp only
  split
  · exact .refl s
  split
  · exact .refl s
  · exact ⟨rfl, id⟩

theorem ReadKeeps.setBucket (s : State) (h u : Nat) : ReadKeeps s (s.setBucket h u) := by
  unfold State.setBucket
  split
  · exact .refl s
  · exact (ReadKeeps.startSweep _ h).after rfl rfl

theorem ReadKeeps.takeWay {s t : State} {h u : Nat} (e : s.takeWay h u = some t) : ReadKeeps s t := by
  unfold State.takeWay at e
  split at e
  · exact Option.some.inj e ▸ .refl s
  · exact Option.some.inj e ▸ (ReadKeeps.setBucket _ _ _).after rfl rfl
  · cases e
  · cases e

theorem ReadKeeps.sliceFill {s t : State} {m cls : Nat} {l : Line} (e : s.sliceFill m cls l = some t) : ReadKeeps s t := by
  unfold State.sliceFill at e
  simp only at e
  split at e
  · exact Option.some.inj e ▸ .forgetLine s _ _
  split at e
  · exact Option.some.inj e ▸ ⟨rfl, id⟩
  split at e
  · cases e
  split at e
  · exact Option.some.inj e ▸ ⟨rfl, id⟩
  · exact Option.some.inj e ▸ (ReadKeeps.forgetLine s _ _).trans ⟨rfl, id⟩

/-- A slice that will read a line under a key gives up its own copy first. -/
def ownCopyGone (s : State) (a u : Nat) : State :=
  match s.lineOf a u with
  | some l => (if l.st = .m then s.flushLine l else s).forgetLine a u
  | none => s

/-- The other copies of the line yield: one under the key stays in S, one under another key goes. -/
def copiesYield (s : State) (h k u : Nat) : State :=
  match s.dirOf h u with
  | some (.owned o) =>
    match s.lineOf o u with
    | none => s.dirRemove h u
    | some l =>
      let v : State := if l.st = .m then s.flushLine l else s
      if l.key = k then (v.putLine o { l with st := .s }).dirPut h u (.shared [o])
      else (v.dropLine o u).dirRemove h u
  | some (.shared as) =>
    let gone := as.filter (fun b => (s.lineOf b u).any (fun l => l.key != k))
    (gone.foldl (fun v b => v.dropLine b u) s).dirPut h u (.shared (as.filter (fun b => !gone.contains b)))
  | none => s

/-- The directory names an agent for a line: as its owner, or beside the agents that share it. -/
def enterDir (s : State) (h a u : Nat) (free : Bool) (as : List Nat) : State :=
  if free then s.dirPut h u (.owned a) else if (s.dirOf h u).isSome then s.dirPut h u (.shared (as ++ [a])) else s

/-- The line is entered in its directory and filled into the slice, where a way is free; otherwise the state s stands. -/
def enterLine (s t : State) (h m cls k u : Nat) : State :=
  let as : List Nat := match t.dirOf h u with
    | some (.shared as) => as
    | _ => []
  let free := as.isEmpty && !t.bucketSet h u
  let way := if (t.dirOf h u).isNone && t.bucketSet h u then some t else t.takeWay h u
  match way with
  | none => s
  | some v =>
    let l : Line := { addr := u, key := k, st := if free then .e else .s, data := (t.readUnit k u).1,
                      poison := (t.readUnit k u).2, l1 := false }
    ((v.enterDir h (96 + m) u free as).sliceFill m cls l).getD s

theorem sliceRead_eq (s : State) (cls k u : Nat) :
    s.sliceRead cls k u =
      if !s.calm u || s.busy (homeOf u) u || s.shut (homeOf u) u || s.keyAt k == 0 || s.inReserve u then s
      else s.enterLine ((s.ownCopyGone (96 + sliceOf u) u).copiesYield (homeOf u) k u) (homeOf u) (sliceOf u) cls k u := rfl

theorem ReadKeeps.ownCopyGone (s : State) (a u : Nat) : ReadKeeps s (s.ownCopyGone a u) := by
  unfold State.ownCopyGone
  split
  · exact (ReadKeeps.ite (.flushLine s _) (.refl s)).trans (.forgetLine _ _ _)
  · exact .refl s

theorem ReadKeeps.copiesYield (s : State) (h k u : Nat) : ReadKeeps s (s.copiesYield h k u) := by
  unfold State.copiesYield
  split
  · split
    · exact ⟨rfl, id⟩
    · rename_i l _
      have hflushed : ReadKeeps s (if l.st = .m then s.flushLine l else s) := .ite (.flushLine s l) (.refl s)
      simp only
      split
      · exact hflushed.trans ⟨rfl, id⟩
      · exact (hflushed.trans (.dropLine _ _ _)).trans ⟨rfl, id⟩
  · exact (ReadKeeps.foldl _ (fun t b => .dropLine t b u) s).trans ⟨rfl, id⟩
  · exact .refl s

theorem ReadKeeps.enterDir (s : State) (h a u : Nat) (free : Bool) (as : List Nat) : ReadKeeps s (s.enterDir h a u free as) := by
  unfold State.enterDir
  split
  · exact ⟨rfl, id⟩
  split
  · exact ⟨rfl, id⟩
  · exact .refl s

theorem ReadKeeps.getD_sliceFill {s t : State} (hst : ReadKeeps s t) (m cls : Nat) (l : Line) :
    ReadKeeps s ((t.sliceFill m cls l).getD s) := by
  cases hfill : t.sliceFill m cls l with
  | none => exact .refl s
  | some u => exact hst.trans (.sliceFill hfill)

theorem ReadKeeps.enterLine {s t : State} (hst : ReadKeeps s t) (h m cls k u : Nat) : ReadKeeps s (s.enterLine t h m cls k u) := by
  unfold State.enterLine
  simp only
  split
  · exact .refl s
  · rename_i v hway
    have hv : ReadKeeps t v := by
      split at hway
      · exact Option.some.inj hway ▸ .refl t
      · exact .takeWay hway
    exact .getD_sliceFill ((hst.trans hv).trans (.enterDir v _ _ _ _ _)) _ _ _

theorem ReadKeeps.sliceRead (s : State) (cls k u : Nat) : ReadKeeps s (s.sliceRead cls k u) := by
  rw [sliceRead_eq]
  split
  · exact .refl s
  · exact .enterLine ((ReadKeeps.ownCopyGone s _ u).trans (.copiesYield _ _ _ _)) _ _ _ _ _

theorem ReadKeeps.passSlices (s : State) (cls k a n : Nat) : ReadKeeps s (s.passSlices cls k a n) := by
  unfold State.passSlices
  split
  · exact .refl s
  · refine ReadKeeps.foldl _ (fun t u => ?_) s
    simp only
    split
    · exact .refl t
    split
    · exact .ite ⟨rfl, id⟩ (.sliceRead t cls k u)
    · exact .sliceRead t cls k u

/-- A read of memory by a class changes no context. -/
theorem ReadKeeps.readAs (s : State) (cls k a n : Nat) : ReadKeeps s (s.readAs cls k a n).1 :=
  (ReadKeeps.touchMem s k a n).trans (.passSlices _ cls k a n)

/-! ### The fetch -/

/-- Where the next accepted entry of a context stands (R134). -/
def ringEntry (s : State) (id : Nat) : Nat :=
  s.fld (a_SQ_RINGBASE (id / 256) (id % 256)) SQ_RINGBASE_BASE * 64 + (s.ctx id).fetch % s.ringSize id * 64

/-- The descriptor that 64 bytes of a ring, with their poison and the number of an error's record, begin. -/
def fetched (s : State) (id : Nat) (x : List Byte × Bool) (e : Option Nat) : Desc :=
  { index := (s.ctx id).fetch, words := wordsOf x.1 8, stage := .fetching,
    epoch := s.fld (a_XL_ASSTAT (s.asidOf id)) XL_ASSTAT_EPOCH, marked := false, retranslated := false, opnds := [],
    cands := [], xlate := none, status := 0, detail := 0, condFalse := false, poisoned := x.2, lenClamped := false,
    len := 0, len2 := 0, started := 0, until_ := 0, order := 0, cfgw := s.rd (cfgAddr id),
    seed := s.rd (a_PT_CTXSEED (id / 256) (id % 256)), ended := 0, rmode := 0, eccSeq := e }

/-- A descriptor joins a context, and the fetch port has served the slot. -/
def joinEntry (t : State) (id : Nat) (c : Ctx) (d : Desc) : State :=
  (t.setCtx id { c with fetch := c.fetch + 1, descs := c.descs ++ [d] }).modPart (id / 256) (fun x => { x with lastFetch := id % 256 })

/-- What the ring holds at the next entry, with its poison. -/
def ringBytes (s : State) (id : Nat) : List Byte × Bool := ({ s with fresh := s.fresh + 1 } : State).readMem id (s.ringEntry id) 64

/-- What the read of the next entry leaves. -/
def ringRead (s : State) (id : Nat) : State × Option Nat :=
  ({ s with fresh := s.fresh + 1 } : State).readAs clsAccel id (s.ringEntry id) 64

/-- The state once the entry is fetched. -/
def entryTaken (s : State) (id : Nat) : State :=
  (s.ringRead id).1.joinEntry id (s.ctx id) (s.fetched id (s.ringBytes id) (s.ringRead id).2)

theorem asking_admitted {s : State} {who : Nat} {rs : List Range} (h : s.shutLine who rs = none) (f : State → State) :
    s.asking who rs f = f s := by simp only [asking, askAll, h, if_true]

theorem fetchNext_fetches {s : State} {id : Nat} (hf : s.fetchable id = true) (hroom : s.storeUsed (id / 256) < 2048)
    (hturn : s.turn (id / 256) (s.part (id / 256)).lastFetch (id % 256) s.fetchable = true)
    (hserved : s.fare roleCOH (burlOf (id / 256)) (s.ringEntry id) = .served)
    (hopen : s.Admitted (naPart (id / 256)) (s.ringEntry id) 64) : s.fetchNext id = s.entryTaken id := by
  have hall : (s.fetchable id && decide (s.storeUsed (id / 256) < 2048)
      && s.turn (id / 256) (s.part (id / 256)).lastFetch (id % 256) s.fetchable
      && s.fare roleCOH (burlOf (id / 256)) (s.ringEntry id) == .served) = true := by
    rw [hf, hturn, hserved, decide_eq_true hroom]
    rfl
  exact (if_pos hall).trans (asking_admitted (s := { s with fresh := s.fresh + 1 }) hopen _)

theorem fetchNext_waits {s : State} {id : Nat} (h : s.fetchable id = false ∨ 2048 ≤ s.storeUsed (id / 256) ∨
    s.turn (id / 256) (s.part (id / 256)).lastFetch (id % 256) s.fetchable = false) : s.fetchNext id = s := by
  refine if_neg ?_
  simp only [Bool.and_eq_true, decide_eq_true_eq, not_and]
  intro hgo
  obtain ⟨⟨hf, hroom⟩, hturn⟩ := hgo
  rcases h with h | h | h
  · exact absurd (hf.symm.trans h) (by decide)
  · omega
  · exact absurd (hturn.symm.trans h) (by decide)

/-- What the fetch leaves of contexts and partitions. -/
theorem joinEntry_joins {s t : State} (id : Nat) (d : Desc) (h : s.Canonical) (k : ReadKeeps s t) :
    (t.joinEntry id (s.ctx id) d).ctx id = { s.ctx id with fetch := (s.ctx id).fetch + 1, descs := (s.ctx id).descs ++ [d] } ∧
      ((t.joinEntry id (s.ctx id) d).part (id / 256)).lastFetch = id % 256 ∧
      ∀ j, j ≠ id → (t.joinEntry id (s.ctx id) d).ctx j = s.ctx j := by
  have hsorted : Sparse.sorted t.ctxs = true := by rw [k.ctxs]; exact Sparse.wf_sorted h.ctxs
  have hparts : Sparse.sorted t.parts = true := Sparse.wf_sorted (k.parts h.parts)
  refine ⟨Sparse.get_put (d := fun _ => Ctx.init) _ hsorted, ?_, fun j hj => ?_⟩
  · exact congrArg Part.lastFetch (Sparse.get_put (d := fun _ => Part.init) _ hparts)
  · have hctx : t.ctx j = s.ctx j := by rw [State.ctx, k.ctxs, State.ctx]
    exact (Sparse.get_put_ne (d := fun _ => Ctx.init) t.ctxs _ hj).trans hctx

theorem entryTaken_quiet (s : State) (id : Nat) : s.quietRead (s.entryTaken id) clsAccel := by
  intro hflips hway
  show (s.ringRead id).1.mem = s.mem ∧ (s.ringRead id).1.units = s.units ∧ (s.ringRead id).1.ts = s.ts
  have hsame := unreported_reportSec ({ s with fresh := s.fresh + 1 } : State) (s.ringEntry id) 64
  rcases readAs_reports ({ s with fresh := s.fresh + 1 } : State) clsAccel id (s.ringEntry id) 64 hflips hway with e | e
  · rw [ringRead, e]
    exact ⟨rfl, rfl, rfl⟩
  · rw [ringRead, e]
    exact ⟨(congrArg State.mem hsame :), (congrArg State.units hsame :), (congrArg State.ts hsame :)⟩

end State

/-- Settles O13: the fetch reads the ring beside every context, and joins one entry. -/
theorem fetchReadsNextEntry : Obligations.FetchReadsNextEntry := by
  unfold Obligations.FetchReadsNextEntry
  intro pp slot s h id c at_ turn
  have hp : id / 256 = pp := cid_div pp slot.isLt
  have hs : id % 256 = slot := cid_mod pp slot.isLt
  have hat : s.ringEntry id = at_ := by simp only [State.ringEntry, hp, hs]; rfl
  refine ⟨fun hf hroom hturn hserved hopen => ?fetches, fun hwait => ?waits⟩
  case fetches =>
    obtain ⟨hctx, hlast, hother⟩ := joinEntry_joins id (s.fetched id (s.ringBytes id) (s.ringRead id).2) h
      ((ReadKeeps.readAs _ clsAccel id (s.ringEntry id) 64).after (s := s) (t := { s with fresh := s.fresh + 1 }) rfl rfl)
    have hfetch : s.fetchNext id = s.entryTaken id := by
      refine fetchNext_fetches hf ?_ ?_ ?_ ?_ <;> simp only [hp, hs, hat] <;> assumption
    have hbytes : s.ringBytes id = ({ s with fresh := s.fresh + 1 } : State).readMem id at_ 64 := by rw [State.ringBytes, hat]
    rw [hp, hs] at hlast
    have hwords := congrArg (fun x : List Byte × Bool => wordsOf x.1 8) hbytes
    exact ⟨_, s.fetched id (s.ringBytes id) (s.ringRead id).2, congrArg Host.Outcome.next hfetch, (congrArg Ctx.descs hctx :),
      (congrArg Ctx.fetch hctx :), (congrArg Ctx.head hctx :), (congrArg Ctx.tail hctx :), rfl, rfl, hwords, rfl, hlast, hother,
      s.entryTaken_quiet id⟩
  case waits =>
    refine congrArg Host.Outcome.next (fetchNext_waits ?_)
    rw [hp, hs]
    exact hwait

end Sys2Proof.Machine
end

section
/-! PROOFS. Dispatch of the descriptors that movers, matrix engines, vector engines and the dispatch unit run (R64, R77, R78, R126, R150,
R152, R158, R176). -/

namespace Sys2Proof.Machine

open State

namespace State

/-! ### The checks of a chosen descriptor look at the state before its dispatch -/

theorem shaped_claims (s : State) (p slot : Nat) (d : Desc) (h : s.Canonical) :
    ((s.shaped p slot d).ctx (cid p slot)).claims = (s.ctx (cid p slot)).claims := by
  have htaken := ctx_modCtx s (cid p slot)
    (fun c => { c with descs := c.descs.map (fun e => if e.index = d.index then s.configured p slot d else e) }) h
  have hshaped := ctx_modCtx (s.taken p slot d) (cid p slot)
    (fun c => { c with descs := c.descs.map (fun e => if e.index = d.index then s.shapedDesc p slot d else e) })
    (taken_canonical s p slot d h)
  exact (congrArg Ctx.claims hshaped :).trans (congrArg Ctx.claims htaken :)

theorem inClaims_shaped {s : State} {p slot : Nat} {d : Desc} (h : s.Canonical) (off n : Nat) :
    (s.shaped p slot d).inClaims (cid p slot) off n = s.inClaims (cid p slot) off n := by
  unfold inClaims
  rw [shaped_claims s p slot d h]

theorem tsOutside_shaped {s : State} {p slot : Nat} {d : Desc} (h : s.Canonical) (ops : List (Nat × Nat)) :
    (s.shaped p slot d).tsOutside (cid p slot) ops = s.tsOutside (cid p slot) ops := by
  simp only [tsOutside, inClaims_shaped h]

/-- Up to the checks a dispatch changes nothing of a partition that a home looks at. -/
theorem shaped_part_home (s : State) (p slot q : Nat) (d : Desc) (h : s.Canonical) :
    ((s.shaped p slot d).part q).stackOut = (s.part q).stackOut ∧ ((s.shaped p slot d).part q).joined = (s.part q).joined := by
  by_cases hq : q = p
  · subst hq
    have hpart := shaped_part s q slot d h
    exact ⟨(congrArg Part.stackOut hpart :), (congrArg Part.joined hpart :)⟩
  · rw [shaped_part_ne s slot d hq]
    exact ⟨rfl, rfl⟩

/-- The parts of an operand do not depend on the configuration that a descriptor takes. -/
theorem partsFrom_configured (d : Desc) (w seed : Word) (ws : List Nat) (size fuel c : Nat) :
    partsFrom { d with cfgw := w, seed := seed } ws size fuel c = partsFrom d ws size fuel c := by
  have hlimit : opLimit { d with cfgw := w, seed := seed } = opLimit d := rfl
  induction fuel generalizing c with
  | zero => rfl
  | succ fuel ih => simp only [partsFrom, hlimit, ih]

theorem newBindings_configured (d : Desc) (w seed : Word) (slot group : Nat) :
    newBindings { d with cfgw := w, seed := seed } slot group = newBindings d slot group := by
  unfold newBindings
  simp only [partsFrom_configured]
  rfl

theorem moveCheck_shaped {s : State} {p slot : Nat} {d : Desc} (h : s.Canonical) (hs : slot < 192) :
    moveCheck (s.shaped p slot d) (cid p slot) (s.shapedDesc p slot d) = s.moveCheck (cid p slot) (s.resolved (cid p slot) d) := by
  have hbinds : ((s.shaped p slot d).part p).binds = (s.part p).binds := (congrArg Part.binds (shaped_part s p slot d h) :)
  have hnew : newBindings (s.shapedDesc p slot d) 0 0 = newBindings (s.resolved (cid p slot) d) 0 0 := newBindings_configured _ _ _ 0 0
  unfold moveCheck
  simp only [tsOutside_shaped h, cid_div p hs, hbinds, hnew]
  rfl

theorem flushCheck_shaped {s : State} {p slot : Nat} {d : Desc} (h : s.Canonical) :
    flushCheck (s.shaped p slot d) (cid p slot) (s.shapedDesc p slot d) = s.flushCheck (cid p slot) d := tsOutside_shaped h _

theorem vecCheck_shaped {s : State} {p slot : Nat} {d : Desc} (h : s.Canonical) :
    vecCheck (s.shaped p slot d) (cid p slot) (s.shapedDesc p slot d) = s.vecCheck (cid p slot) (s.resolved (cid p slot) d) :=
  tsOutside_shaped h _

theorem dispatchCheck_shaped {s : State} {p slot : Nat} {d : Desc} (h : s.Canonical) :
    dispatchCheck (s.shaped p slot d) (cid p slot) (s.shapedDesc p slot d)
      = s.dispatchCheck (cid p slot) (s.resolved (cid p slot) d) := tsOutside_shaped h _

theorem mmCheck_shaped {s : State} {p slot : Nat} {d : Desc} (h : s.Canonical) :
    mmCheck (s.shaped p slot d) (cid p slot) (s.shapedDesc p slot d) = s.mmCheck (cid p slot) (s.resolved (cid p slot) d) := by
  have hclaims := fun off n => inClaims_shaped (p := p) (slot := slot) (d := d) h off n
  have hread : (s.shaped p slot d).readTsP = s.readTsP := rfl
  unfold mmCheck mmOperandCheck
  simp only [hclaims, hread]
  rfl

/-- Which homes answer does not depend on the dispatcher. -/
theorem fare_shaped {s : State} {p slot : Nat} {d : Desc} (h : s.Canonical) (role die a : Nat) :
    (s.shaped p slot d).fare role die a = s.fare role die a := by
  have hstack : ∀ q, (s.shaped p slot d).stackOut q = s.stackOut q := by
    intro q
    obtain ⟨hout, hjoined⟩ := shaped_part_home s p slot q d h
    unfold stackOut
    rw [hout, hjoined]
    rfl
  have hout : ∀ n, (s.shaped p slot d).homeOut n = s.homeOut n := by
    intro n
    unfold homeOut
    rw [hstack]
    rfl
  unfold fare
  simp only [hout]
  rfl

theorem flushFree_shaped {s : State} {p slot : Nat} {d : Desc} (h : s.Canonical) :
    flushFree (s.shaped p slot d) (cid p slot) (s.shapedDesc p slot d) = s.flushFree (cid p slot) d := by
  unfold flushFree
  rw [fare_shaped h]
  rfl

/-- Which engines are free does not depend on the dispatcher. -/
theorem engineFree_shaped {s : State} {p slot : Nat} {d : Desc} (h : s.Canonical) :
    engineFree (s.shaped p slot d) p (s.shapedDesc p slot d) = s.engineFree p (s.resolved (cid p slot) d) := by
  unfold engineFree
  rw [shaped_part s p slot d h]
  rfl

/-- A descriptor that passes its checks and whose engines are all taken stays where it is (R81). -/
theorem dispatchNext_waits {s : State} {p slot : Nat} {d : Desc} (r : s.Runs p slot d) {is : Desc → Bool}
    {check : State → Nat → Desc → Option DispatchFail} {free : State → Nat → Desc → Bool} (body : State → Nat → Desc → State)
    (hk : is d = true) (hcheck : check (s.shaped p slot d) (cid p slot) (s.shapedDesc p slot d) = none)
    (hfree : free (s.shaped p slot d) (cid p slot) (s.shapedDesc p slot d) = false) :
    dispatchNext p slot is check free body s = s := by
  unfold dispatchNext
  simp only [r.can.next, r.can.notHeld hk, Bool.false_eq_true, if_false]
  split
  · rename_i pos hpos
    exact absurd (r.noPosition.symm.trans hpos) (by simp)
  split
  · rename_i hpred
    simp only [Bool.and_eq_true, beq_iff_eq] at hpred
    exact absurd hpred r.pred
  split
  · rename_i hmarked
    exact absurd (r.current.symm.trans hmarked) (by simp)
  split
  · rename_i hwork
    simp only [Bool.or_eq_true, decide_eq_true_eq] at hwork
    exact absurd hwork (not_or.mpr ⟨r.work, r.work2⟩)
  split
  · rename_i f hf
    exact absurd (hcheck.symm.trans hf) (by simp)
  split
  · rfl
  · rename_i hgo
    exact absurd hgo (by rw [Bool.not_eq_true, Bool.not_eq_false', Bool.not_eq_true]; exact hfree)

/-! ### A started descriptor whose engine is set up -/

/-- A partition's inside after a change of it. -/
theorem part_modPart_of_wf {s : State} (p : Nat) (f : Part → Part) (h : Sparse.wf (fun _ => Part.init) s.parts = true) :
    (s.modPart p f).part p = f (s.part p) := Sparse.get_put (d := fun _ => Part.init) _ (Sparse.wf_sorted h)

theorem parts_modPart_wf {s : State} (p : Nat) (f : Part → Part) (h : Sparse.wf (fun _ => Part.init) s.parts = true) :
    Sparse.wf (fun _ => Part.init) (s.modPart p f).parts = true := Sparse.wf_put _ h

/-- A change of a partition's inside leaves its dispatcher alone. -/
def Part.KeepsDispatcher (f : Part → Part) : Prop := ∀ x, (f x).lastDisp = x.lastDisp ∧ (f x).dispatchSeq = x.dispatchSeq

theorem Started.modPart {s u : State} {p slot : Nat} {e : Desc} (h : s.Started u p slot e)
    (hu : Sparse.wf (fun _ => Part.init) u.parts = true) (f : Part → Part) (hf : Part.KeepsDispatcher f) :
    s.Started (u.modPart p f) p slot e := by
  have hpart := part_modPart_of_wf p f hu
  obtain ⟨hlast, hseq⟩ := hf (u.part p)
  refine ⟨h.descs, ⟨?_, ?_, fun q hq => ?_⟩, h.sameData⟩
  · rw [hpart, hlast, h.dispatched.1]
  · rw [hpart, hseq, h.dispatched.2.1]
  · rw [part_modPart_ne u f hq, h.dispatched.2.2 q hq]

theorem launched_parts_wf (s : State) (p slot : Nat) (d : Desc) (h : s.Canonical) :
    Sparse.wf (fun _ => Part.init) (s.launched p slot d).parts = true := (launched_canonical s p slot d h).parts

theorem fld_launched (s : State) (p slot : Nat) (d : Desc) (a : Nat) (f : Fld) : (s.launched p slot d).fld a f = s.fld a f := by
  obtain ⟨cs, ps, e⟩ := launched_eq s p slot d
  rw [e]
  rfl

theorem asidOf_launched (s : State) (p slot : Nat) (d : Desc) (id : Nat) : (s.launched p slot d).asidOf id = s.asidOf id := by
  obtain ⟨cs, ps, e⟩ := launched_eq s p slot d
  rw [e]
  rfl

theorem tabValid_launched (s : State) (p slot : Nat) (d : Desc) (q v k : Nat) :
    (s.launched p slot d).tabValid q v k = s.tabValid q v k := by
  unfold tabValid
  rw [fld_launched]

theorem dirtyUnits_launched (s : State) (p slot : Nat) (d : Desc) (q : Nat) (bs : List Binding) :
    (s.launched p slot d).dirtyUnits q bs = s.dirtyUnits q bs := by
  obtain ⟨cs, ps, e⟩ := launched_eq s p slot d
  rw [e]
  rfl

theorem binds_launched (s : State) (p slot : Nat) (d : Desc) (h : s.Canonical) : ((s.launched p slot d).part p).binds = (s.part p).binds := by
  rw [launched_part s p slot d h]

theorem overlapping_launched (s : State) (p slot : Nat) (d : Desc) (h : s.Canonical) (off n : Nat) :
    (s.launched p slot d).overlapping p slot off n = s.overlapping p slot off n := by
  unfold overlapping
  rw [binds_launched s p slot d h]

theorem worksOn_launched (s : State) (p slot : Nat) (d : Desc) (h : s.Canonical) (e : Desc) :
    (s.launched p slot d).worksOn p slot e = s.worksOn p slot e := by
  unfold worksOn
  simp only [overlapping_launched s p slot d h, dirtyUnits_launched, binds_launched s p slot d h]

/-- A job begins, and its descriptor joins the end of the mover queue (R78). -/
def enqueued (t : State) (p : Nat) (r : DRef) (reads writes : List Range) (dirty : List Nat) (es : List Extent) : State :=
  ((t.addJob p r reads writes dirty).countRegions p es).modPart p (fun x => { x with moverQ := x.moverQ ++ [r] })

theorem enqueued_joins {t : State} (p : Nat) (r : DRef) (reads writes : List Range) (dirty : List Nat) (es : List Extent)
    (h : Sparse.wf (fun _ => Part.init) t.parts = true) :
    let u := t.enqueued p r reads writes dirty es
    (u.part p).moverQ = (t.part p).moverQ ++ [r] ∧ (u.part p).binds = (t.part p).binds ∧
      (∃ j ∈ u.jobs, j.pp = p ∧ j.ref = r ∧ j.dirty = dirty) ∧ u.tsDirty = t.tsDirty := by
  intro u
  have hcounted : Sparse.wf (fun _ => Part.init) ((t.addJob p r reads writes dirty).countRegions p es).parts = true :=
    parts_modPart_wf p _ h
  have hqueue : u.part p = _ := part_modPart_of_wf p (fun x => { x with moverQ := x.moverQ ++ [r] }) hcounted
  have hcount : ((t.addJob p r reads writes dirty).countRegions p es).part p = _ :=
    part_modPart_of_wf (s := t.addJob p r reads writes dirty) p _ h
  refine ⟨?_, ?_, ⟨_, List.mem_append_right _ (List.mem_singleton_self _), rfl, rfl, rfl⟩, rfl⟩
  · rw [hqueue, hcount]
    rfl
  · rw [hqueue, hcount]
    rfl

theorem Started.enqueued {s u : State} {p slot : Nat} {e : Desc} (h : s.Started u p slot e)
    (hu : Sparse.wf (fun _ => Part.init) u.parts = true) (r : DRef) (reads writes : List Range) (dirty : List Nat) (es : List Extent) :
    s.Started (u.enqueued p r reads writes dirty es) p slot e := by
  have hjob : s.Started (u.addJob p r reads writes dirty) p slot e := ⟨h.descs, h.dispatched, h.sameData⟩
  have hcount : s.Started ((u.addJob p r reads writes dirty).countRegions p es) p slot e := hjob.modPart hu _ (fun _ => ⟨rfl, rfl⟩)
  exact hcount.modPart (parts_modPart_wf p _ hu) _ (fun _ => ⟨rfl, rfl⟩)

/-- A change of the dirty bits of the tile store. -/
theorem Started.withDirty {s u : State} {p slot : Nat} {e : Desc} (h : s.Started u p slot e) (m : Sparse Bool) :
    s.Started { u with tsDirty := m } p slot e := ⟨h.descs, h.dispatched, h.sameData⟩

/-! ### MOVE (R78, R150) -/

/-- A MOVE with BIND has added its bindings as a group of their own, and they begin clean (R150). -/
def boundMove (u : State) (p slot : Nat) (d : Desc) (g : Nat) : State :=
  { (u.modPart p (fun x => { x with binds := x.binds ++ newBindings d slot g, bindSeq := g + 1 })).modDesc (cid p slot) d.index
      (fun x => { x with len2 := g }) with
    tsDirty := setKeys u.tsDirty (tsKey p d.mvDst / 64) ((d.mvDst % 64 + bindSpan d + 63) / 64) false }

theorem moveBody_eq (u : State) {p slot : Nat} (d : Desc) (hs : slot < 192) : ∃ reads writes es,
    moveBody u (cid p slot) d =
      (if d.mvBind then u.boundMove p slot d (u.part p).bindSeq else u).enqueued p ⟨slot, d.index⟩ reads writes [] es := by
  unfold moveBody
  simp only [cid_div p hs, cid_mod p hs]
  exact ⟨_, _, _, rfl⟩

/-- The bindings of a started MOVE join those of its partition. -/
theorem boundMove_started {s u : State} {p slot : Nat} {e : Desc} (hu : u.Canonical) (h : s.Started u p slot e) (g : Nat) :
    s.Started (u.boundMove p slot e g) p slot { e with len2 := g } ∧
      Sparse.wf (fun _ => Part.init) (u.boundMove p slot e g).parts = true ∧
      ((u.boundMove p slot e g).part p).moverQ = (u.part p).moverQ ∧
      ((u.boundMove p slot e g).part p).binds = (u.part p).binds ++ newBindings e slot g := by
  have hkept : Part.KeepsDispatcher (fun x => { x with binds := x.binds ++ newBindings e slot g, bindSeq := g + 1 }) :=
    fun _ => ⟨rfl, rfl⟩
  have hpart : (u.boundMove p slot e g).part p = _ :=
    part_modPart_of_wf p (fun x => { x with binds := x.binds ++ newBindings e slot g, bindSeq := g + 1 }) hu.parts
  have hnamed := (h.modPart hu.parts _ hkept).modDesc (modPart_canonical u p _ hu) (f := fun x => { x with len2 := g }) rfl rfl
  refine ⟨hnamed.withDirty _, ?_, ?_, ?_⟩
  · exact parts_modPart_wf p (fun x => { x with binds := x.binds ++ newBindings e slot g, bindSeq := g + 1 }) hu.parts
  · rw [hpart]
  · rw [hpart]

theorem moveBody_started {s u : State} {p slot : Nat} {e : Desc} (hs : slot < 192) (hu : u.Canonical) (h : s.Started u p slot e) :
    let t := moveBody u (cid p slot) e
    (t.part p).moverQ = (u.part p).moverQ ++ [⟨slot, e.index⟩] ∧ (∃ j ∈ t.jobs, j.pp = p ∧ j.ref = ⟨slot, e.index⟩) ∧
      s.Started t p slot (if e.mvBind then { e with len2 := (u.part p).bindSeq } else e) ∧
      (t.part p).binds = (u.part p).binds ++ (if e.mvBind then newBindings e slot (u.part p).bindSeq else []) := by
  intro t
  obtain ⟨reads, writes, es, he⟩ := moveBody_eq u e hs
  rw [show t = _ from he]
  cases e.mvBind with
  | true =>
    obtain ⟨hstart, hwf, hqueue, hbinds⟩ := boundMove_started hu h (u.part p).bindSeq
    obtain ⟨hjoin, hkeep, ⟨j, hj, hp, hr, -⟩, -⟩ := enqueued_joins p ⟨slot, e.index⟩ reads writes [] es hwf
    exact ⟨hjoin.trans (by rw [hqueue]), ⟨j, hj, hp, hr⟩, hstart.enqueued hwf _ _ _ _ _, hkeep.trans hbinds⟩
  | false =>
    obtain ⟨hjoin, hkeep, ⟨j, hj, hp, hr, -⟩, -⟩ := enqueued_joins p ⟨slot, e.index⟩ reads writes [] es hu.parts
    exact ⟨hjoin, ⟨j, hj, hp, hr⟩, h.enqueued hu.parts _ _ _ _ _, hkeep.trans (List.append_nil _).symm⟩

theorem moveBody_launched {s : State} {p slot : Nat} {d : Desc} (h : s.Canonical) (hs : slot < 192) :
    let t := moveBody (s.launched p slot d) (cid p slot) (s.begun p slot d)
    (t.part p).moverQ = (s.part p).moverQ ++ [⟨slot, d.index⟩] ∧ (∃ j ∈ t.jobs, j.pp = p ∧ j.ref = ⟨slot, d.index⟩) ∧
      s.Started t p slot (if d.mvBind then { s.begun p slot d with len2 := (s.part p).bindSeq } else s.begun p slot d) ∧
      (t.part p).binds = (s.part p).binds ++
        (if d.mvBind then newBindings (s.begun p slot d) slot (s.part p).bindSeq else []) := by
  have hstarted := moveBody_started hs (launched_canonical s p slot d h) (launched_started h)
  rw [launched_part s p slot d h] at hstarted
  exact hstarted

/-! ### REFRESH, FLUSH and EVICT (R158, R176) -/

/-- Bindings of the current epoch stay as they are. -/
theorem renewBindings_current {s : State} {id : Nat} {bs : List Binding}
    (h : ∀ b ∈ bs, b.epoch = s.fld (a_XL_ASSTAT (s.asidOf id)) XL_ASSTAT_EPOCH) : s.renewBindings id bs = .ok bs := by
  unfold renewBindings
  simp only
  suffices hmap : ∀ f : Binding → Except Nat (List Binding), (∀ b ∈ bs, f b = .ok [b]) → bs.mapM f = .ok (bs.map (fun b => [b])) by
    rw [hmap _ (fun b hb => if_pos (h b hb))]
    simp [Except.map, ← List.flatMap_def]
  clear h
  intro f hf
  induction bs with
  | nil => rfl
  | cons b bs ih =>
    simp only [List.forall_mem_cons] at hf
    rw [List.mapM_cons, hf.1, ih hf.2]
    rfl

/-- The bindings that a descriptor works on and the rest are all of them. -/
theorem rest_worksOn_length (s : State) (p slot : Nat) (d : Desc) :
    ((s.part p).binds.filter (fun b => !(s.worksOn p slot d).contains b)).length + (s.worksOn p slot d).length
      = (s.part p).binds.length := by
  generalize hf : (fun b => (s.overlapping p slot d.rfOff d.rfBytes).contains b ||
    (b.slot == slot && (s.dirtyUnits p (s.overlapping p slot d.rfOff d.rfBytes)).any (fun k => overlap (k * 64) 64 (tsKey p b.off) b.len)))
      = f
  have hworks : s.worksOn p slot d = (s.part p).binds.filter f := by rw [← hf]; rfl
  have hrest : (s.part p).binds.filter (fun b => !(s.worksOn p slot d).contains b) = (s.part p).binds.filter (fun b => !f b) := by
    refine List.filter_congr (fun b hb => ?_)
    rw [hworks]
    simp [hb]
  rw [hrest, hworks, Nat.add_comm]
  exact (List.length_eq_length_filter_add f).symm

/-- Dirty bits cleared one after another. -/
def cleanOf (ks : List Nat) (m : Sparse Bool) : Sparse Bool := ks.foldl (fun m k => Sparse.put (fun _ => false) m k false) m

theorem get_cleanOf (ks : List Nat) {m : Sparse Bool} {k : Nat} (h : Sparse.wf (fun _ => false) m = true)
    (hk : k ∈ ks ∨ Sparse.get (fun _ => false) m k = false) : Sparse.get (fun _ => false) (cleanOf ks m) k = false := by
  induction ks generalizing m with
  | nil => exact hk.resolve_left (List.not_mem_nil)
  | cons x xs ih =>
    refine ih (Sparse.wf_put _ h) ?_
    by_cases hx : k = x
    · exact Or.inr (hx ▸ Sparse.get_put _ (Sparse.wf_sorted h))
    · refine hk.imp (fun hmem => (List.mem_cons.mp hmem).resolve_left hx) (fun hget => ?_)
      rw [Sparse.get_put_ne _ _ hx, hget]

/-- A FLUSH, its bindings standing last among those of the partition, has taken the dirty units of its range. -/
def flushTaken (u : State) (p slot : Nat) (d : Desc) (bs : List Binding) (stale : Bool) : State :=
  { (u.modPart p (fun x => { x with binds := bs })).modDesc (cid p slot) d.index (fun x => { x with
      retranslated := x.retranslated || stale
      rmode := u.fld (a_XL_ASCFG (u.asidOf (cid p slot))) XL_ASCFG_RMODE }) with
    tsDirty := cleanOf (u.dirtyUnits p (u.overlapping p slot d.rfOff d.rfBytes)) u.tsDirty }

theorem flushBody_current {u : State} {p slot : Nat} {d : Desc} (hs : slot < 192) (hroom : (u.part p).binds.length ≤ 1024)
    (hepoch : ∀ b ∈ u.worksOn p slot d, b.epoch = u.fld (a_XL_ASSTAT (u.asidOf (cid p slot))) XL_ASSTAT_EPOCH) :
    ∃ bs reads writes es, flushBody u (cid p slot) d = (u.flushTaken p slot d bs false).enqueued p ⟨slot, d.index⟩ reads writes
      (u.dirtyUnits p (u.overlapping p slot d.rfOff d.rfBytes)) es := by
  have hlen := rest_worksOn_length u p slot d
  unfold flushBody
  simp only [cid_div p hs, cid_mod p hs, renewBindings_current hepoch]
  rw [if_neg (by omega)]
  simp only [ne_eq, not_true_eq_false, decide_false]
  exact ⟨_, _, _, _, rfl⟩

theorem flushTaken_started {s u : State} {p slot : Nat} {e : Desc} (hu : u.Canonical) (h : s.Started u p slot e) (bs : List Binding) :
    s.Started (u.flushTaken p slot e bs false) p slot { e with rmode := u.fld (a_XL_ASCFG (u.asidOf (cid p slot))) XL_ASCFG_RMODE } ∧
      Sparse.wf (fun _ => Part.init) (u.flushTaken p slot e bs false).parts = true ∧
      ((u.flushTaken p slot e bs false).part p).moverQ = (u.part p).moverQ := by
  have hpart : (u.flushTaken p slot e bs false).part p = _ := part_modPart_of_wf p (fun x => { x with binds := bs }) hu.parts
  have hmode := (h.modPart hu.parts (fun x => { x with binds := bs }) (fun _ => ⟨rfl, rfl⟩)).modDesc (modPart_canonical u p _ hu)
    (f := fun x => { x with
      retranslated := x.retranslated || false
      rmode := u.fld (a_XL_ASCFG (u.asidOf (cid p slot))) XL_ASCFG_RMODE })
    (e' := { e with rmode := u.fld (a_XL_ASCFG (u.asidOf (cid p slot))) XL_ASCFG_RMODE }) (by simp only [Bool.or_false]) rfl
  exact ⟨hmode.withDirty _, parts_modPart_wf p (fun x => { x with binds := bs }) hu.parts, by rw [hpart]⟩

theorem flushBody_started {s u : State} {p slot : Nat} {e : Desc} (hs : slot < 192) (hu : u.Canonical) (h : s.Started u p slot e)
    (hroom : (u.part p).binds.length ≤ 1024)
    (hepoch : ∀ b ∈ u.worksOn p slot e, b.epoch = u.fld (a_XL_ASSTAT (u.asidOf (cid p slot))) XL_ASSTAT_EPOCH) :
    let t := flushBody u (cid p slot) e
    let ks := u.dirtyUnits p (u.overlapping p slot e.rfOff e.rfBytes)
    (t.part p).moverQ = (u.part p).moverQ ++ [⟨slot, e.index⟩] ∧
      s.Started t p slot { e with rmode := u.fld (a_XL_ASCFG (u.asidOf (cid p slot))) XL_ASCFG_RMODE } ∧
      (∃ j ∈ t.jobs, j.pp = p ∧ j.ref = ⟨slot, e.index⟩ ∧ j.dirty = ks) ∧
      (∀ k ∈ ks, Sparse.get (fun _ => false) t.tsDirty k = false) := by
  intro t ks
  obtain ⟨bs, reads, writes, es, he⟩ := flushBody_current hs hroom hepoch
  obtain ⟨hstart, hwf, hqueue⟩ := flushTaken_started hu h bs
  obtain ⟨hjoin, -, hjob, hclean⟩ := enqueued_joins p ⟨slot, e.index⟩ reads writes ks es hwf
  rw [show t = _ from he]
  refine ⟨hjoin.trans (by rw [hqueue]), hstart.enqueued hwf _ _ _ _ _, hjob, fun k hk => ?_⟩
  rw [hclean]
  exact get_cleanOf ks hu.tsDirty (Or.inl hk)

theorem flushBody_launched {s : State} {p slot : Nat} {d : Desc} (h : s.Canonical) (hs : slot < 192)
    (hroom : (s.part p).binds.length ≤ 1024)
    (hepoch : ∀ b ∈ s.worksOn p slot d, b.epoch = s.fld (a_XL_ASSTAT (s.asidOf (cid p slot))) XL_ASSTAT_EPOCH) :
    let t := flushBody (s.launched p slot d) (cid p slot) (s.begun p slot d)
    let ks := s.dirtyUnits p (s.overlapping p slot d.rfOff d.rfBytes)
    (t.part p).moverQ = (s.part p).moverQ ++ [⟨slot, d.index⟩] ∧
      s.Started t p slot { s.begun p slot d with rmode := s.fld (a_XL_ASCFG (s.asidOf (cid p slot))) XL_ASCFG_RMODE } ∧
      (∃ j ∈ t.jobs, j.pp = p ∧ j.ref = ⟨slot, d.index⟩ ∧ j.dirty = ks) ∧
      (∀ k ∈ ks, Sparse.get (fun _ => false) t.tsDirty k = false) := by
  have hworks : s.worksOn p slot (s.begun p slot d) = s.worksOn p slot d := rfl
  have hstarted := flushBody_started hs (launched_canonical s p slot d h) (launched_started h)
    (by rw [binds_launched s p slot d h]; exact hroom)
    (by rw [worksOn_launched s p slot d h, hworks, asidOf_launched, fld_launched]; exact hepoch)
  have hqueue : ((s.launched p slot d).part p).moverQ = (s.part p).moverQ := by rw [launched_part s p slot d h]
  rw [overlapping_launched s p slot d h, dirtyUnits_launched, hqueue, asidOf_launched, fld_launched] at hstarted
  exact hstarted

/-! ### MM (R64, R126) -/

/-- A job begins, and the partition takes note of its engine's work. -/
def handed (t : State) (p : Nat) (r : DRef) (reads writes : List Range) (f : Part → Part) : State :=
  (t.addJob p r reads writes []).modPart p f

theorem Started.handed {s u : State} {p slot : Nat} {e : Desc} (h : s.Started u p slot e)
    (hu : Sparse.wf (fun _ => Part.init) u.parts = true) (r : DRef) (reads writes : List Range) (f : Part → Part)
    (hf : Part.KeepsDispatcher f) :
    s.Started (u.handed p r reads writes f) p slot e ∧ (u.handed p r reads writes f).part p = f (u.part p) ∧
      Sparse.wf (fun _ => Part.init) (u.handed p r reads writes f).parts = true := by
  have hjob : s.Started (u.addJob p r reads writes []) p slot e := ⟨h.descs, h.dispatched, h.sameData⟩
  exact ⟨hjob.modPart hu f hf, part_modPart_of_wf (s := u.addJob p r reads writes []) p f hu, parts_modPart_wf p f hu⟩

/-- An MM with its work units before any is taken (R64). -/
def unitList (slot : Nat) (d : Desc) : MmJob :=
  { ref := ⟨slot, d.index⟩, rows := ceilDiv d.len 32, cols := ceilDiv d.len2 64, next := 0, done := 0, engMask := d.mmMask }

theorem mmBody_eq (u : State) {p slot : Nat} (d : Desc) (hs : slot < 192) : ∃ reads writes,
    mmBody u (cid p slot) d = u.handed p ⟨slot, d.index⟩ reads writes (fun x => { x with mms := x.mms ++ [unitList slot d] }) := by
  unfold mmBody
  simp only [cid_div p hs, cid_mod p hs]
  exact ⟨_, _, rfl⟩

theorem mmBody_launched {s : State} {p slot : Nat} {d : Desc} (h : s.Canonical) (hs : slot < 192) :
    let t := mmBody (s.launched p slot d) (cid p slot) (s.begun p slot d)
    s.Started t p slot (s.begun p slot d) ∧ (t.part p).mms = (s.part p).mms ++ [unitList slot (s.begun p slot d)] := by
  intro t
  obtain ⟨reads, writes, he⟩ := mmBody_eq (s.launched p slot d) (p := p) (s.begun p slot d) hs
  obtain ⟨hstart, hpart, -⟩ := (launched_started (p := p) (slot := slot) (d := d) h).handed (launched_parts_wf s p slot d h)
    ⟨slot, d.index⟩ reads writes (fun x => { x with mms := x.mms ++ [unitList slot (s.begun p slot d)] }) (fun _ => ⟨rfl, rfl⟩)
  rw [launched_part s p slot d h] at hpart
  rw [show t = _ from he]
  exact ⟨hstart, (congrArg Part.mms hpart :)⟩

/-! ### VEC (R152) -/

/-- The permitted vector engines that are idle, each with since when. -/
def idleVes (s : State) (p : Nat) (d : Desc) : List ((Option DRef × Nat) × Nat) :=
  ((s.part p).ves).zipIdx.filter (fun v => v.1.1.isNone && natBit d.vMask v.2 && (d.vOp != 0x28 || s.tabValid p v.2 d.vSlot))

/-- Of an engine found so far and the next one, the one that has been idle longer. -/
def longerIdle (b : Option (Nat × Nat)) (v : (Option DRef × Nat) × Nat) : Option (Nat × Nat) :=
  match b with
  | none => some (v.1.2, v.2)
  | some x => if v.1.2 < x.1 then some (v.1.2, v.2) else some x

theorem vecEngine_eq (s : State) (p : Nat) (d : Desc) :
    s.vecEngine p d = ((s.idleVes p d).foldl longerIdle none).map (fun x => x.2) := rfl

theorem longerIdle_cases (b : Option (Nat × Nat)) (v : (Option DRef × Nat) × Nat) :
    longerIdle b v = some (v.1.2, v.2) ∨ (longerIdle b v = b ∧ b ≠ none) := by
  cases b with
  | none => exact Or.inl rfl
  | some x =>
    simp only [longerIdle]
    split
    · exact Or.inl rfl
    · exact Or.inr ⟨rfl, Option.some_ne_none x⟩

theorem foldl_longerIdle (vs : List ((Option DRef × Nat) × Nat)) (b : Option (Nat × Nat)) :
    (vs.foldl longerIdle b = b ∧ (b = none → vs = [])) ∨ ∃ v ∈ vs, vs.foldl longerIdle b = some (v.1.2, v.2) := by
  induction vs generalizing b with
  | nil => exact Or.inl ⟨rfl, fun _ => rfl⟩
  | cons v vs ih =>
    rcases ih (longerIdle b v) with ⟨e, -⟩ | ⟨w, hw, e⟩
    · rcases longerIdle_cases b v with hv | ⟨hv, hb⟩
      · exact Or.inr ⟨v, List.mem_cons_self, e.trans hv⟩
      · exact Or.inl ⟨e.trans hv, fun h => absurd h hb⟩
    · exact Or.inr ⟨w, List.mem_cons_of_mem _ hw, e⟩

/-- The chosen engine is idle and permitted. -/
theorem vecEngine_some {s : State} {p v : Nat} {d : Desc} (h : s.vecEngine p d = some v) :
    s.idleVes p d ≠ [] ∧ natBit d.vMask v = true ∧ ((s.part p).ves.getD v (none, 0)).1 = none := by
  rw [vecEngine_eq] at h
  rcases foldl_longerIdle (s.idleVes p d) none with ⟨e, -⟩ | ⟨w, hw, e⟩
  · rw [e] at h
    cases h
  · rw [e] at h
    obtain rfl : w.2 = v := Option.some.inj h
    refine ⟨List.ne_nil_of_mem hw, ?_⟩
    obtain ⟨hmem, hidle⟩ := List.mem_filter.mp hw
    have hget := List.mem_zipIdx_iff_getElem?.mp hmem
    simp only [Bool.and_eq_true, Option.isNone_iff_eq_none] at hidle
    obtain ⟨⟨hnone, hmask⟩, -⟩ := hidle
    exact ⟨hmask, by rw [List.getD_eq_getElem?_getD, hget, Option.getD_some, hnone]⟩

theorem vecEngine_none {s : State} {p : Nat} {d : Desc} (h : s.vecEngine p d = none) : s.idleVes p d = [] := by
  rw [vecEngine_eq] at h
  rcases foldl_longerIdle (s.idleVes p d) none with ⟨-, hempty⟩ | ⟨w, -, e⟩
  · exact hempty rfl
  · rw [e] at h
    cases h

theorem engineFree_vec {s : State} {p : Nat} {d : Desc} (hk : d.kind = kVEC) : s.engineFree p d = !(s.idleVes p d).isEmpty := by
  have hkind : d.kind = 2 := hk
  simp only [engineFree, hkind, idleVes]
  rw [Bool.eq_iff_iff]
  simp only [List.any_eq_true, Bool.not_eq_true', List.isEmpty_eq_false_iff, ne_eq, List.filter_eq_nil_iff, not_forall, exists_prop,
    not_not, Bool.and_eq_true, and_assoc, and_left_comm]

/-- From here on another reader may see the results of a started descriptor (R204). -/
theorem Started.showParts {s u : State} {p slot : Nat} {e : Desc} (h : s.Started u p slot e) (r : DRef)
    (ps : List (Nat × List PByte)) : s.Started (u.showParts p r ps) p slot e := ⟨h.descs, h.dispatched, h.sameData⟩

/-- A partition's inside with the watchdog of a unit running (R81). -/
def armed (u : State) (p unit : Nat) (x : Part) : Part :=
  { x with wd := Sparse.put (fun _ => 0) x.wd unit (u.now + u.fld (a_PT_WATCHDOG p) PT_WATCHDOG_WD_ENGINE * 1000000 + 1) }

theorem Started.wdArm {s u : State} {p slot : Nat} {e : Desc} (h : s.Started u p slot e)
    (hu : Sparse.wf (fun _ => Part.init) u.parts = true) (unit : Nat) :
    s.Started (u.wdArm p unit) p slot e ∧ ∃ wd, (u.wdArm p unit).part p = { u.part p with wd := wd } := by
  have harm : Part.KeepsDispatcher (armed u p unit) := fun _ => ⟨rfl, rfl⟩
  exact ⟨h.modPart hu (armed u p unit) harm, _, part_modPart_of_wf p (armed u p unit) hu⟩

/-- A unit with a watchdog has received a descriptor: its results may be open to other readers, or not yet. -/
def Received (u t : State) (p unit : Nat) (r : DRef) (f : Part → Part) : Prop :=
  ∃ reads writes, t = (u.handed p r reads writes f).wdArm p unit ∨ ∃ ps, t = ((u.handed p r reads writes f).wdArm p unit).showParts p r ps

theorem Started.received {s u t : State} {p slot unit : Nat} {e : Desc} {r : DRef} {f : Part → Part} (h : s.Started u p slot e)
    (hu : Sparse.wf (fun _ => Part.init) u.parts = true) (ht : u.Received t p unit r f) (hf : Part.KeepsDispatcher f) :
    s.Started t p slot e ∧ (t.part p).ves = (f (u.part p)).ves ∧ (t.part p).du = (f (u.part p)).du := by
  obtain ⟨reads, writes, ht⟩ := ht
  obtain ⟨hstart, hpart, hwf⟩ := h.handed hu r reads writes f hf
  obtain ⟨harmed, wd, hunit⟩ := hstart.wdArm hwf unit
  rw [hpart] at hunit
  rcases ht with rfl | ⟨ps, rfl⟩
  · exact ⟨harmed, (congrArg Part.ves hunit :), (congrArg Part.du hunit :)⟩
  · exact ⟨harmed.showParts r ps, (congrArg Part.ves hunit :), (congrArg Part.du hunit :)⟩

/-- A vector engine holds a descriptor. -/
def veHolds (v : Nat) (r : DRef) (x : Part) : Part := { x with ves := x.ves.set v (some r, 0) }

theorem vecBody_received {u : State} {p slot v : Nat} {d : Desc} (hs : slot < 192) (hv : u.vecEngine p d = some v) :
    u.Received (vecBody u (cid p slot) d) p (20 + v) ⟨slot, d.index⟩ (veHolds v ⟨slot, d.index⟩) := by
  unfold Received
  simp only [vecBody, cid_div p hs, cid_mod p hs, hv]
  split
  · exact ⟨_, _, Or.inr ⟨_, rfl⟩⟩
  · exact ⟨_, _, Or.inl rfl⟩

theorem vecEngine_launched (s : State) (p slot : Nat) (d : Desc) (h : s.Canonical) (e : Desc) :
    (s.launched p slot d).vecEngine p e = s.vecEngine p e := by
  have hidle : (s.launched p slot d).idleVes p e = s.idleVes p e := by
    unfold idleVes
    rw [launched_part s p slot d h]
    simp only [tabValid_launched]
  rw [vecEngine_eq, hidle, vecEngine_eq]

/-- A descriptor's begun form asks for the engines its resolved form asks for. -/
theorem vecEngine_begun (s : State) (p slot : Nat) (d : Desc) :
    s.vecEngine p (s.begun p slot d) = s.vecEngine p (s.resolved (cid p slot) d) := rfl

theorem vecBody_launched {s : State} {p slot v : Nat} {d : Desc} (h : s.Canonical) (hs : slot < 192)
    (hv : s.vecEngine p (s.resolved (cid p slot) d) = some v) :
    let t := vecBody (s.launched p slot d) (cid p slot) (s.begun p slot d)
    s.Started t p slot (s.begun p slot d) ∧ (t.part p).ves = (s.part p).ves.set v (some ⟨slot, d.index⟩, 0) := by
  have hengine : (s.launched p slot d).vecEngine p (s.begun p slot d) = some v := by
    rw [vecEngine_launched s p slot d h, vecEngine_begun, hv]
  have hves : ((s.launched p slot d).part p).ves = (s.part p).ves := by rw [launched_part s p slot d h]
  obtain ⟨hstart, hset, -⟩ := (launched_started (p := p) (slot := slot) (d := d) h).received (launched_parts_wf s p slot d h)
    (vecBody_received hs hengine) (fun _ => ⟨rfl, rfl⟩)
  rw [veHolds, hves] at hset
  exact ⟨hstart, hset⟩

/-! ### DISPATCH (R77) -/

theorem engineFree_dispatch {s : State} {p : Nat} {d : Desc} (hk : d.kind = kDISPATCH) : s.engineFree p d = (s.part p).du.isNone := by
  have hkind : d.kind = 3 := hk
  simp only [engineFree, hkind]

theorem duBody_received (u : State) {p slot : Nat} (d : Desc) (hs : slot < 192) :
    u.Received (duBody u (cid p slot) d) p 24 ⟨slot, d.index⟩ (fun x => { x with du := some ⟨slot, d.index⟩ }) := by
  unfold Received
  simp only [duBody, cid_div p hs, cid_mod p hs]
  split
  · exact ⟨_, _, Or.inr ⟨_, rfl⟩⟩
  · exact ⟨_, _, Or.inl rfl⟩

theorem duBody_launched {s : State} {p slot : Nat} {d : Desc} (h : s.Canonical) (hs : slot < 192) :
    let t := duBody (s.launched p slot d) (cid p slot) (s.begun p slot d)
    s.Started t p slot (s.begun p slot d) ∧ (t.part p).du = some ⟨slot, d.index⟩ := by
  obtain ⟨hstart, -, hunit⟩ := (launched_started (p := p) (slot := slot) (d := d) h).received (launched_parts_wf s p slot d h)
    (duBody_received _ (s.begun p slot d) hs) (fun _ => ⟨rfl, rfl⟩)
  exact ⟨hstart, hunit⟩

end State

/-! ### The commands -/

theorem exec_moves (pp : Fin 24) (slot : Fin 192) :
    ∀ cm ∈ [(Instr.moveLinear pp slot, 0), (Instr.moveTile pp slot, 1), (Instr.moveStrided pp slot, 2), (Instr.moveGather pp slot, 3),
      (Instr.moveScatter pp slot, 4)], ∀ s, exec cm.1 s = .next (dispatchMove pp slot cm.2 s) := by
  simp only [List.forall_mem_cons, List.not_mem_nil, false_imp_iff, forall_true_iff, and_true]
  and_intros <;> exact fun _ => rfl

theorem exec_flushes (pp : Fin 24) (slot : Fin 192) :
    ∀ ck ∈ [(Instr.refresh pp slot, kREFRESH), (Instr.flush pp slot, kFLUSH), (Instr.evict pp slot, kEVICT)],
      ∀ s, exec ck.1 s = .next (dispatchFlush pp slot ck.2 s) := by
  simp only [List.forall_mem_cons, List.not_mem_nil, false_imp_iff, forall_true_iff, and_true]
  and_intros <;> exact fun _ => rfl

theorem exec_vecs (pp : Fin 24) (slot : Fin 192) :
    ∀ ci ∈ [(Instr.vecElementwise pp slot, fun op => decide (op < 0x10)), (Instr.vecReduction pp slot, isReduction),
      (Instr.softmax pp slot, fun op => op == 0x18), (Instr.layernorm pp slot, fun op => op == 0x19),
      (Instr.rmsnorm pp slot, fun op => op == 0x1A), (Instr.convert pp slot, fun op => op == 0x20),
      (Instr.funcSlot pp slot, fun op => op == 0x28), (Instr.funcTableImage pp slot, fun op => op == 0x29)],
      ∀ s, exec ci.1 s = .next (dispatchVec pp slot ci.2 s) := by
  simp only [List.forall_mem_cons, List.not_mem_nil, false_imp_iff, forall_true_iff, and_true]
  and_intros <;> exact fun _ => rfl

/-- Settles O44: each command launches its descriptor and its body hands it over, or it waits for an engine. -/
theorem engineWorkIsHandedOver : Obligations.EngineWorkIsHandedOver := by
  unfold Obligations.EngineWorkIsHandedOver
  intro pp slot d s h r id ref b started
  have hs : slot.val < 192 := slot.isLt
  have hid : id / 256 = pp := cid_div pp hs
  have asStarted : ∀ {t : State} {e : Desc}, s.Started t pp slot e → started t e := fun x => ⟨x.descs, x.dispatched, x.sameData⟩
  refine ⟨fun cm hcm hk hmode hcheck => ?move, fun ck hck hk hcheck hfree hroom hepoch => ?flush,
    fun hk hcheck => ⟨fun hfree => ?mm, fun hbusy => ?mmWaits⟩,
    fun ci hci hk hop hcheck => ⟨fun v hv => ?vec, fun hv => ?vecWaits⟩,
    fun hk hcheck => ⟨fun hdu => ?dispatch, fun hdu => ?dispatchWaits⟩⟩
  case move =>
    obtain ⟨hqueue, hjob, hstart, hbinds⟩ := moveBody_launched (p := pp) (d := d) h hs
    refine ⟨_, (exec_moves pp slot cm hcm s).trans (congrArg Host.Outcome.next (dispatchNext_runs h r moveBody ?_ ?_ rfl)), hqueue, hjob,
      asStarted hstart, hbinds⟩
    · simp [hk, hmode]
    · exact (moveCheck_shaped h hs).trans hcheck
  case flush =>
    obtain ⟨hqueue, hstart, hjob, hclean⟩ := flushBody_launched (p := pp) (d := d) h hs hroom hepoch
    refine ⟨_, (exec_flushes pp slot ck hck s).trans (congrArg Host.Outcome.next (dispatchNext_runs h r flushBody ?_ ?_ ?_)), hqueue,
      asStarted hstart, hjob, hclean⟩
    · simp [hk]
    · exact (flushCheck_shaped h).trans hcheck
    · exact (flushFree_shaped h).trans hfree
  case mm =>
    obtain ⟨hstart, hmms⟩ := mmBody_launched (p := pp) (d := d) h hs
    refine ⟨_, congrArg Host.Outcome.next (dispatchNext_runs h r mmBody ?_ ((mmCheck_shaped h).trans hcheck) ?_), asStarted hstart, hmms⟩
    · simp [hk]
    · rw [mmFree, hid] at hfree ⊢
      exact (engineFree_shaped h).trans hfree
  case mmWaits =>
    refine congrArg Host.Outcome.next (dispatchNext_waits r mmBody ?_ ((mmCheck_shaped h).trans hcheck) ?_)
    · simp [hk]
    · rw [mmFree, hid] at hbusy ⊢
      exact (engineFree_shaped h).trans hbusy
  case vec =>
    obtain ⟨hidle, hmask, hnone⟩ := vecEngine_some hv
    obtain ⟨hstart, hves⟩ := vecBody_launched h hs hv
    refine ⟨hmask, hnone, _, (exec_vecs pp slot ci hci s).trans (congrArg Host.Outcome.next (dispatchNext_runs h r vecBody ?_
      ((vecCheck_shaped h).trans hcheck) ?_)), asStarted hstart, hves⟩
    · simp [hk, hop]
    · rw [vecFree, hid, engineFree_shaped h, engineFree_vec (show (s.resolved (cid pp slot) d).kind = kVEC from hk)]
      simpa using hidle
  case vecWaits =>
    refine (exec_vecs pp slot ci hci s).trans (congrArg Host.Outcome.next (dispatchNext_waits r vecBody ?_
      ((vecCheck_shaped h).trans hcheck) ?_))
    · simp [hk, hop]
    · rw [vecFree, hid, engineFree_shaped h, engineFree_vec (show (s.resolved (cid pp slot) d).kind = kVEC from hk), vecEngine_none hv]
      rfl
  case dispatch =>
    obtain ⟨hstart, hunit⟩ := duBody_launched (p := pp) (d := d) h hs
    refine ⟨_, congrArg Host.Outcome.next (dispatchNext_runs h r duBody ?_ ((dispatchCheck_shaped h).trans hcheck) ?_),
      asStarted hstart, hunit⟩
    · simp [hk]
    · rw [duFree, hid, engineFree_shaped h, engineFree_dispatch (show (s.resolved (cid pp slot) d).kind = kDISPATCH from hk), hdu]
      rfl
  case dispatchWaits =>
    refine congrArg Host.Outcome.next (dispatchNext_waits r duBody ?_ ((dispatchCheck_shaped h).trans hcheck) ?_)
    · simp [hk]
    · rw [duFree, hid, engineFree_shaped h, engineFree_dispatch (show (s.resolved (cid pp slot) d).kind = kDISPATCH from hk)]
      simpa [Option.isSome_iff_ne_none] using hdu

end Sys2Proof.Machine
end

section
/-! PROOFS. What the end of a descriptor reads, and what a job's data changes on its way to the homes and the tile store (R61, R79, R139,
R140, R141, R179, R204, R205). -/

namespace Sys2Proof.Machine

open State

/-- A partition's inside without what a fault record changes. -/
def Part.unreported (x : Part) : Part := { x with hold := [], rseq := 0 }

namespace State

/-! ### The end of a descriptor reads registers, contexts, epochs and clocks alone -/

/-- What the end of a descriptor reads and writes. -/
def control (s : State) : State :=
  { State.reset with regs := s.regs, ctxs := s.ctxs, epochs := s.epochs, now := s.now, dies := s.dies }

theorem control_modDesc (s : State) (id index : Nat) (f : Desc → Desc) :
    (s.modDesc id index f).control = (s.control.modDesc id index f) := rfl

theorem control_modCtxs (s : State) (ids : List Nat) (f : Nat → Ctx → Ctx) : (s.modCtxs ids f).control = s.control.modCtxs ids f := by
  induction ids generalizing s with
  | nil => rfl
  | cons id ids ih => exact ih (s.modCtx id (f id))

theorem control_completeFences (s : State) (a : Nat) : (s.completeFences a).control = s.control.completeFences a := by
  rw [completeFences_eq, completeFences_eq]
  exact control_modCtxs s _ _

theorem control_finish (s : State) (id index status detail : Nat) :
    (s.finish id index status detail).control = s.control.finish id index status detail := by
  have hremote : s.control.remoteFound id index = s.remoteFound id index := rfl
  rw [finish_eq, finish_eq, hremote]
  split
  · exact control_completeFences _ _
  · rfl

/-! ### What an ending leaves of the entries -/

/-- What the end of a descriptor with a status leaves of registers and entries; poison may have come with what it read. -/
def Ends (s t : State) (id index status detail : Nat) (poison : Bool) : Prop :=
  s.sameRegs t id index ∧ s.becomes t id index (fun e => s.completed (id / 256) { e with poisoned := e.poisoned || poison } status detail)

theorem Ends.of_control {s t u : State} {id index status detail : Nat} {poison : Bool} (h : s.Ends u id index status detail poison)
    (e : t.control = u.control) : s.Ends t id index status detail poison := by
  have hrd (a : Nat) : t.rd a = u.rd a := (congrArg (fun x : State => x.rd a) e :)
  have hctx : t.ctx id = u.ctx id := (congrArg (fun x : State => x.ctx id) e :)
  obtain ⟨hregs, hdescs⟩ := h
  refine ⟨fun a ha => (hrd a).trans (hregs a ha), ?_⟩
  unfold becomes at hdescs ⊢
  rwa [hctx]

theorem remoteAt_of_found {s : State} {id index : Nat} (h : s.remoteFound id index = true) : s.remoteAt id index := by
  unfold remoteFound at h
  cases hfind : s.findDesc id index with
  | none => simp [hfind] at h
  | some e =>
    rw [hfind, Option.any_some] at h
    exact ⟨e, List.mem_of_find?_eq_some hfind, by simpa using List.find?_some hfind, h⟩

/-- The end of a descriptor changes the registers as far as it may (R199). -/
theorem finish_sameRegs (s : State) (id index status detail : Nat) : s.sameRegs (s.finish id index status detail) id index := by
  obtain ⟨_, _, -, hrd⟩ := finish_frame s id index status detail
  exact fun a ha => hrd a (fun hr => ha (remoteAt_of_found hr))

theorem finish_becomes (s : State) (id index status detail : Nat) (h : s.Canonical) :
    s.becomes (s.finish id index status detail) id index (fun e => s.completed (id / 256) e status detail) := by
  refine ⟨fun hlocal => ?_, fun k e hk => ⟨fun hi => ?_, fun hi hfence => ?_⟩⟩
  · exact finish_descs_local s id index status detail h (Bool.eq_false_iff.mpr (fun hr => hlocal (remoteAt_of_found hr)))
  · rw [finish_keeps s id index status detail h hk (Or.inl hi), if_pos hi]
  · rw [finish_keeps s id index status detail h hk (Or.inr hfence), if_neg hi]

/-- A later change of the entries that end changes what they become. -/
theorem becomes.thenModDesc {s t : State} {id index : Nat} {f : Desc → Desc} (h : s.becomes t id index f) (g : Desc → Desc)
    (ht : t.Canonical) (hf : ∀ e, e.index = index → (f e).index = index) :
    s.becomes (t.modDesc id index g) id index (fun e => g (f e)) := by
  obtain ⟨hlocal, hall⟩ := h
  refine ⟨fun hr => ?_, fun k e hk => ⟨fun hi => ?_, fun hi hfence => ?_⟩⟩
  · rw [descs_modDesc t id index g ht, hlocal hr]
    exact endsWith_endsWith index f g _ hf
  · rw [descs_modDesc t id index g ht, getElem?_endsWith _ _ _ ((hall k e hk).1 hi), if_pos (hf e hi)]
  · rw [descs_modDesc t id index g ht, getElem?_endsWith _ _ _ ((hall k e hk).2 hi hfence), if_neg hi]

/-- Poison of what the descriptor read is noted at its end. -/
def poisonNoted (s : State) (id index : Nat) (poison : Bool) : State :=
  s.modDesc id index (fun d => { d with poisoned := d.poisoned || poison })

theorem finish_ends (s : State) (id index status detail : Nat) (poison : Bool) (h : s.Canonical) :
    s.Ends ((s.finish id index status detail).poisonNoted id index poison) id index status detail poison := by
  refine ⟨finish_sameRegs s id index status detail, ?_⟩
  have hnoted := (finish_becomes s id index status detail h).thenModDesc (fun d => { d with poisoned := d.poisoned || poison })
    (finish_canonical s id index status detail h) (fun _ hi => hi)
  have hswap : ∀ e : Desc, { s.completed (id / 256) e status detail with
        poisoned := (s.completed (id / 256) e status detail).poisoned || poison }
      = s.completed (id / 256) { e with poisoned := e.poisoned || poison } status detail := fun e =>
    congrArg (fun b => { s.completed (id / 256) e status detail with poisoned := b }) (Bool.or_right_comm _ _ _)
  simp only [hswap] at hnoted
  exact hnoted

/-- Noting poison changes nothing of what reaches another device. -/
theorem remoteAt_poisonNoted {s : State} {id index : Nat} {poison : Bool} (h : s.Canonical) :
    (s.poisonNoted id index poison).remoteAt id index ↔ s.remoteAt id index := by
  unfold State.remoteAt poisonNoted
  rw [descs_modDesc s id index _ h]
  simp only [endsWith, List.mem_map, exists_exists_and_eq_and]
  refine exists_congr (fun e => and_congr_right (fun _ => ?_))
  split <;> rfl

/-- Poison that is noted before the end is the same. -/
theorem poisonNoted_ends (s : State) (id index status detail : Nat) (poison : Bool) (h : s.Canonical) :
    s.Ends ((s.poisonNoted id index poison).finish id index status detail) id index status detail poison := by
  have hv : (s.poisonNoted id index poison).Canonical := modDesc_canonical s id index _ h
  have hdescs : ((s.poisonNoted id index poison).ctx id).descs = endsWith index _ (s.ctx id).descs := descs_modDesc s id index _ h
  obtain ⟨hlocal, hall⟩ := finish_becomes _ id index status detail hv
  refine ⟨fun a ha => finish_sameRegs _ id index status detail a (fun hr => ha ((remoteAt_poisonNoted h).mp hr)),
    fun hr => ?_, fun k e hk => ?_⟩
  · rw [hlocal (fun hv => hr ((remoteAt_poisonNoted h).mp hv)), hdescs]
    exact endsWith_endsWith index _ _ _ (fun _ hi => hi)
  · have hentry := getElem?_endsWith index (fun d => { d with poisoned := d.poisoned || poison }) _ hk
    rw [← hdescs] at hentry
    refine ⟨fun hi => ?_, fun hi hfence => ?_⟩
    · rw [if_pos hi] at hentry
      exact (hall k _ hentry).1 hi
    · rw [if_neg hi] at hentry
      exact (hall k e hentry).2 hi hfence

/-- What an ending leaves when the job before it has left what the end reads. -/
theorem Ends.finish {s u : State} {id index status detail : Nat} (poison : Bool) (h : s.Canonical) (e : u.control = s.control) :
    s.Ends ((u.finish id index status detail).poisonNoted id index poison) id index status detail poison := by
  refine (s.finish_ends id index status detail poison h).of_control ?_
  rw [poisonNoted, control_modDesc, control_finish, e, ← control_finish, ← control_modDesc]
  rfl

theorem Ends.finishPoisoned {s u : State} {id index status detail : Nat} (poison : Bool) (h : s.Canonical) (e : u.control = s.control) :
    s.Ends ((u.poisonNoted id index poison).finish id index status detail) id index status detail poison := by
  refine (s.poisonNoted_ends id index status detail poison h).of_control ?_
  rw [control_finish, control_finish, poisonNoted, poisonNoted, control_modDesc, control_modDesc, e]

/-- An end without poison of its own. -/
theorem Ends.finishClean {s u : State} {id index status detail : Nat} (h : s.Canonical) (e : u.control = s.control) :
    s.Ends (u.finish id index status detail) id index status detail false := by
  have hclean : ∀ d : Desc, { d with poisoned := d.poisoned || false } = d := fun d => by rw [Bool.or_false]
  have hends : s.Ends (s.finish id index status detail) id index status detail false := by
    refine ⟨finish_sameRegs s id index status detail, ?_⟩
    simp only [hclean]
    exact finish_becomes s id index status detail h
  exact hends.of_control (by rw [control_finish, control_finish, e])

/-- The end changes contexts and registers alone. -/
theorem finish_rest (s : State) (id index status detail : Nat) : ∃ cs rs, s.finish id index status detail = { s with ctxs := cs, regs := rs } := by
  obtain ⟨cs, rs, e, -⟩ := finish_frame s id index status detail
  exact ⟨cs, rs, e⟩

/-! ### Jobs -/

/-- A descriptor whose job is gone has none. -/
theorem findJob_dropJob (s : State) (p : Nat) (r : DRef) : (s.dropJob p r).findJob p r = none := by
  simp only [findJob, dropJob, List.find?_filter]
  exact List.find?_eq_none.mpr (fun j _ => by cases (j.pp == p && j.ref == r) <;> simp)

theorem findJob_map {s t : State} (f : Job → Job) (hf : ∀ j, (f j).pp = j.pp ∧ (f j).ref = j.ref) (h : t.jobs = s.jobs.map f) {p : Nat}
    {r : DRef} (hn : s.findJob p r = none) : t.findJob p r = none := by
  unfold findJob at hn ⊢
  rw [h, List.find?_eq_none]
  rintro j hj
  obtain ⟨i, hi, rfl⟩ := List.mem_map.mp hj
  obtain ⟨hp, hr⟩ := hf i
  rw [hp, hr]
  exact List.find?_eq_none.mp hn i hi

theorem findJob_strike {s : State} (a n : Nat) {p : Nat} {r : DRef} (h : s.findJob p r = none) : (s.strike a n).findJob p r = none := by
  refine findJob_map _ (fun j => ?_) (show (s.strike a n).jobs = s.jobs.map _ from rfl) h
  simp only
  constructor <;> (split <;> split <;> rfl)

/-! ### Writes of the tile store -/

/-- The state without the tile store and the jobs. -/
def storeless (s : State) : State := { s with ts := [], tsPoison := [], tsDirty := [], tsFlips := [], jobs := [] }

/-- From s to t only the tile store changes, and what running jobs may show; no job begins. -/
structure StoreWrites (s t : State) : Prop where
  rest : t.storeless = s.storeless
  jobs : ∀ p r, s.findJob p r = none → t.findJob p r = none

theorem StoreWrites.refl (s : State) : StoreWrites s s := ⟨rfl, fun _ _ h => h⟩

theorem StoreWrites.trans {s t u : State} (h : StoreWrites s t) (g : StoreWrites t u) : StoreWrites s u :=
  ⟨g.rest.trans h.rest, fun p r hn => g.jobs p r (h.jobs p r hn)⟩

theorem StoreWrites.foldl {α : Type} (xs : List α) {f : State → α → State} (hf : ∀ t, ∀ x ∈ xs, StoreWrites t (f t x)) (s : State) :
    StoreWrites s (xs.foldl f s) := by
  induction xs generalizing s with
  | nil => exact .refl s
  | cons x xs ih =>
    exact (hf s x List.mem_cons_self).trans (ih (fun t y hy => hf t y (List.mem_cons_of_mem _ hy)) _)

theorem StoreWrites.control {s t : State} (h : StoreWrites s t) : t.control = s.control := (congrArg State.control h.rest :)

theorem StoreWrites.parts {s t : State} (h : StoreWrites s t) : t.parts = s.parts := (congrArg State.parts h.rest :)

theorem StoreWrites.part {s t : State} (h : StoreWrites s t) (p : Nat) : t.part p = s.part p :=
  (congrArg (fun x : State => x.part p) h.rest :)

theorem StoreWrites.stored {s t : State} (h : StoreWrites s t) : t.mem = s.mem ∧ t.units = s.units :=
  ⟨(congrArg State.mem h.rest :), (congrArg State.units h.rest :)⟩

theorem StoreWrites.tsWrite (s : State) (p off : Nat) (bs : List Byte) (poison : Bool) : StoreWrites s (s.tsWrite p off bs poison) :=
  ⟨rfl, fun _ _ h => findJob_strike _ _ h⟩

theorem StoreWrites.writeTsB (s : State) (p off : Nat) (bs : List PByte) : StoreWrites s (s.writeTsB p off bs) :=
  StoreWrites.foldl _ (fun t _ _ => .tsWrite t _ _ _ _) s

/-- A job that is taken out and put back with more to show. -/
theorem StoreWrites.tsWriteJob (s : State) (p : Nat) (r : DRef) (off : Nat) (bs : List Byte) (poison : Bool) :
    StoreWrites s (s.tsWriteJob p r off bs poison) := by
  unfold State.tsWriteJob
  split
  · exact .tsWrite s _ _ _ _
  · rename_i j hj
    refine ⟨rfl, fun q x hn => ?_⟩
    have hwritten : (((s.dropJob p r).tsWrite p off bs poison).findJob q x) = none := by
      refine (StoreWrites.tsWrite (s.dropJob p r) p off bs poison).jobs q x ?_
      exact List.find?_eq_none.mpr (fun i hi => List.find?_eq_none.mp hn i (List.mem_of_mem_filter hi))
    have hself : (j.pp == q && j.ref == x) ≠ true := List.find?_eq_none.mp hn j (List.mem_of_find?_eq_some hj)
    unfold findJob at hwritten ⊢
    simp only [List.find?_append, hwritten, Option.none_or]
    exact List.find?_eq_none.mpr (fun i hi => by rwa [List.mem_singleton.mp hi])

theorem StoreWrites.ite {s t u : State} {c : Prop} [Decidable c] (ht : StoreWrites s t) (hu : StoreWrites s u) :
    StoreWrites s (if c then t else u) := by
  split
  · exact ht
  · exact hu

theorem StoreWrites.writeOutBlock (s : State) (p : Nat) (j : Job) (d : Desc) (brow cb : Nat) (poison : Bool) (out : Nat → Nat → Num) :
    StoreWrites s (s.writeOutBlock p j d brow cb poison out) := by
  have hput : ∀ (t : State) (off : Nat) (bs : List Byte) (po : Bool),
      StoreWrites t (if bs = [] then t else t.tsWriteJob p j.ref off bs po) :=
    fun t off bs po => .ite (.refl t) (.tsWriteJob t p j.ref off bs po)
  unfold State.writeOutBlock
  extract_lets
  split
  refine .ite (.refl s) ?_
  extract_lets _ _ _ _ header scalesEnd scales
  have hheader : StoreWrites s header := hput s _ _ _
  have hend : StoreWrites header scalesEnd := hput header _ _ _
  have hscales : StoreWrites scalesEnd scales := hput scalesEnd _ _ _
  exact hheader.trans (hend.trans (hscales.trans (.ite (hput scales _ _ _) (.foldl _ (fun t _ _ => hput t _ _ _) scales))))

theorem StoreWrites.padOutput (s : State) (p : Nat) (j : Job) (d : Desc) : StoreWrites s (s.padOutput p j d) :=
  StoreWrites.foldl _ (fun t _ _ => StoreWrites.foldl _ (fun _ _ _ => .ite (.refl _) (.writeOutBlock _ _ _ _ _ _ _ _)) t) s

/-- The pieces of a range of a tile store stand in its window. -/
theorem unitParts_window {a n : Nat} (ha : tsWindow ≤ a) : ∀ x ∈ unitParts a n, tsWindow ≤ x.1 := by
  unfold unitParts
  rw [if_pos ha]
  intro x hx
  obtain ⟨i, -, rfl⟩ := List.mem_map.mp hx
  simp only
  split <;> omega

theorem tsParts_window (p : Nat) (ws : List (Nat × List Byte)) (poison : Bool) : ∀ x ∈ tsParts p ws poison, tsWindow ≤ x.1 := by
  unfold tsParts
  intro x hx
  obtain ⟨w, -, hw⟩ := List.mem_flatMap.mp hx
  obtain ⟨q, hq, rfl⟩ := List.mem_map.mp hw
  exact unitParts_window (Nat.le_add_right _ _) q hq

/-- Results of a job in its tile store alone. -/
theorem StoreWrites.landPieces (s : State) (p id : Nat) (j : Job) (ps : List (Nat × List PByte)) (h : ∀ x ∈ ps, tsWindow ≤ x.1) :
    StoreWrites s (s.landPieces p id j ps) := by
  unfold State.landPieces
  refine StoreWrites.foldl _ (fun t x hx => .ite (.refl t) ?_) s
  have hx : x.1 ∈ ps := List.fst_mem_of_mem_zipIdx hx
  rw [putBytesAt, if_pos (h _ hx)]
  exact .writeTsB t _ _ _

/-! ### Records and writes of memory -/

/-- From s to t at most fault records are added. -/
structure Reports (s t : State) : Prop where
  rest : t.unreported = s.unreported
  parts : Sparse.wf (fun _ => Part.init) t.parts = true
  inside : ∀ p, (t.part p).unreported = (s.part p).unreported

theorem Reports.refl {s : State} (h : Sparse.wf (fun _ => Part.init) s.parts = true) : Reports s s := ⟨rfl, h, fun _ => rfl⟩

theorem Reports.trans {s t u : State} (h : Reports s t) (g : Reports t u) : Reports s u :=
  ⟨g.rest.trans h.rest, g.parts, fun p => (g.inside p).trans (h.inside p)⟩

theorem inside_modPart {s : State} (p : Nat) (f : Part → Part) (h : Sparse.wf (fun _ => Part.init) s.parts = true)
    (hf : ∀ x, (f x).unreported = x.unreported) (q : Nat) : ((s.modPart p f).part q).unreported = (s.part q).unreported := by
  by_cases hq : q = p
  · subst hq
    rw [part_modPart_of_wf q f h, hf]
  · rw [part_modPart_ne s f hq]

theorem Reports.report {s : State} (q : FaultQueue) (r : FRec) (h : Sparse.wf (fun _ => Part.init) s.parts = true) :
    Reports s (s.report q r).1 := by
  refine ⟨unreported_report s q r, (CopyKeeps.report q r h).parts, fun p => ?_⟩
  unfold State.report
  simp only
  split
  · rfl
  · cases q with
    | device => rfl
    | part k =>
      simp only
      split
      next held n _ => exact inside_modPart (s := s) k (fun x => { x with hold := held }) h (fun _ => rfl) p
      · exact inside_modPart (s := s) k (fun x => { x with rseq := (x.rseq + 1) % 65536 }) h (fun _ => rfl) p

theorem Reports.reportSec {s : State} (a n : Nat) (h : Sparse.wf (fun _ => Part.init) s.parts = true) :
    Reports s (s.reportSec a n) := by
  unfold State.reportSec reportHome
  split <;> exact .report _ _ h

/-- From s to t a job's data lands: memory, tile store, caches and fault records change, and no job begins. -/
structure Lands (s t : State) : Prop where
  control : t.control = s.control
  parts : Sparse.wf (fun _ => Part.init) t.parts = true
  inside : ∀ p, (t.part p).unreported = (s.part p).unreported
  jobs : ∀ p r, s.findJob p r = none → t.findJob p r = none

theorem Lands.refl {s : State} (h : Sparse.wf (fun _ => Part.init) s.parts = true) : Lands s s := ⟨rfl, h, fun _ => rfl, fun _ _ h => h⟩

theorem Lands.trans {s t u : State} (h : Lands s t) (g : Lands t u) : Lands s u :=
  ⟨g.control.trans h.control, g.parts, fun p => (g.inside p).trans (h.inside p), fun p r hn => g.jobs p r (h.jobs p r hn)⟩

theorem Reports.lands {s t : State} (h : Reports s t) : Lands s t where
  control := (congrArg State.control h.rest :)
  parts := h.parts
  inside := h.inside
  jobs p r hn := (congrArg (fun x : State => x.findJob p r) h.rest :).trans hn

theorem StoreWrites.lands {s t : State} (h : StoreWrites s t) (hs : Sparse.wf (fun _ => Part.init) s.parts = true) : Lands s t where
  control := h.control
  parts := h.parts.symm ▸ hs
  inside p := by rw [h.part]
  jobs := h.jobs

/-- A change of caches and memory alone. -/
theorem Lands.unitCleared {s : State} (a n : Nat) (h : Sparse.wf (fun _ => Part.init) s.parts = true) : Lands s (s.unitCleared a n) := by
  have hstrike : Lands s (s.strike a n) := ⟨rfl, h, fun _ => rfl, fun _ _ hn => findJob_strike a n hn⟩
  have hpulled : Lands (s.strike a n) ((s.strike a n).pullBack (a / 64 * 64)) := by
    unfold pullBack
    split
    · exact .refl h
    · unfold flushLine
      split
      · exact (Reports.reportSec (s := s.strike a n) _ _ h).lands
      · exact ⟨rfl, h, fun _ => rfl, fun _ _ hn => hn⟩
  obtain ⟨hcontrol, hparts, hinside, hjobs⟩ := hstrike.trans hpulled
  exact ⟨hcontrol, hparts, hinside, hjobs⟩

theorem Lands.putPiece {s : State} (key a : Nat) (bs : List Byte) (poison : Bool) (h : Sparse.wf (fun _ => Part.init) s.parts = true) :
    Lands s (s.putPiece key a bs poison) := by
  unfold State.putPiece
  simp only
  split <;> exact ⟨rfl, h, fun _ => rfl, fun _ _ hn => hn⟩

theorem Lands.writeUnit {s : State} (k a : Nat) (bs : List Byte) (poison : Bool) (h : Sparse.wf (fun _ => Part.init) s.parts = true) :
    Lands s (s.writeUnit k a bs poison) := by
  rw [writeUnit_eq]
  split
  · exact (Reports.reportSec _ _ h).lands
  · have hcleared := Lands.unitCleared a bs.length h
    exact hcleared.trans (.putPiece _ _ _ _ hcleared.parts)

/-- What lands step by step, lands. -/
theorem Lands.foldl {α : Type} (xs : List α) {f : State → α → State}
    (hf : ∀ t x, Sparse.wf (fun _ => Part.init) t.parts = true → Lands t (f t x)) {s : State}
    (h : Sparse.wf (fun _ => Part.init) s.parts = true) : Lands s (xs.foldl f s) := by
  induction xs generalizing s with
  | nil => exact .refl h
  | cons x xs ih =>
    have hone := hf s x h
    exact hone.trans (ih hone.parts)

theorem Lands.writeMemP {s : State} (k a : Nat) (bs : List Byte) (poisonAt : Nat → Bool)
    (h : Sparse.wf (fun _ => Part.init) s.parts = true) : Lands s (s.writeMemP k a bs poisonAt) :=
  .foldl _ (fun _ _ ht => .writeUnit _ _ _ _ ht) h

theorem Lands.putBytesAt {s : State} (p id a : Nat) (bs : List PByte) (h : Sparse.wf (fun _ => Part.init) s.parts = true) :
    Lands s (s.putBytesAt p id a bs) := by
  unfold State.putBytesAt
  split
  · exact (StoreWrites.writeTsB s _ _ _).lands h
  · exact .writeMemP _ _ _ _ h

theorem Lands.landPieces {s : State} (p id : Nat) (j : Job) (ps : List (Nat × List PByte))
    (h : Sparse.wf (fun _ => Part.init) s.parts = true) : Lands s (s.landPieces p id j ps) := by
  refine .foldl _ (fun t x ht => ?_) h
  split
  · exact .refl ht
  · exact .putBytesAt _ _ _ _ ht

/-! ### What lands does not depend on the fault records -/

/-- Two states alike but for fault records: in their data, and in the bindings of every partition. -/
structure Alike (s t : State) : Prop where
  rest : s.unreported = t.unreported
  wfs : Sparse.wf (fun _ => Part.init) s.parts = true
  wft : Sparse.wf (fun _ => Part.init) t.parts = true
  binds : ∀ p, (s.part p).binds = (t.part p).binds

theorem Reports.alike {s t : State} (h : Reports s t) (hs : Sparse.wf (fun _ => Part.init) s.parts = true) : Alike t s where
  rest := h.rest
  wfs := h.parts
  wft := hs
  binds p := (congrArg Part.binds (h.inside p) :)

theorem Alike.lands {s t s' t' : State} (h : Alike s t) (e : s'.unreported = t'.unreported) (hs : Lands s s') (ht : Lands t t') :
    Alike s' t' where
  rest := e
  wfs := hs.parts
  wft := ht.parts
  binds p := (congrArg Part.binds (hs.inside p) :).trans ((h.binds p).trans (congrArg Part.binds (ht.inside p) :).symm)

theorem Alike.foldl {α : Type} (xs : List α) {f : State → α → State} (hf : ∀ s t x, Alike s t → Alike (f s x) (f t x)) {s t : State}
    (h : Alike s t) : Alike (xs.foldl f s) (xs.foldl f t) := by
  induction xs generalizing s t with
  | nil => exact h
  | cons x xs ih => exact ih (hf s t x h)

/-- The tile store after a write, before its dirty bits. -/
def tsPut (s : State) (p off : Nat) (bs : List Byte) (poison : Bool) : State :=
  { s.tsWrite p off bs poison with tsDirty := s.tsDirty }

theorem tsWrite_eq (s : State) (p off : Nat) (bs : List Byte) (poison : Bool) :
    s.tsWrite p off bs poison = (s.tsPut p off bs poison).markDirty p off bs.length := rfl

theorem tsPut_congr {s t : State} (h : s.unreported = t.unreported) (p off : Nat) (bs : List Byte) (poison : Bool) :
    (s.tsPut p off bs poison).unreported = (t.tsPut p off bs poison).unreported := by
  have hstrike := strike_congr h (tsWindow + tsKey p off) bs.length
  have hjobs : (s.strike (tsWindow + tsKey p off) bs.length).jobs = (t.strike (tsWindow + tsKey p off) bs.length).jobs :=
    (congrArg State.jobs hstrike :)
  have hput (x : State) : (x.tsPut p off bs poison).unreported =
      { x.unreported.tsPut p off bs poison with jobs := (x.strike (tsWindow + tsKey p off) bs.length).jobs } := rfl
  rw [hput s, h, hjobs, ← hput t]

theorem markDirty_congr {s t : State} (h : s.unreported = t.unreported) (hb : ∀ p, (s.part p).binds = (t.part p).binds) (p off n : Nat) :
    (s.markDirty p off n).unreported = (t.markDirty p off n).unreported := by
  have hdirty : s.tsDirty = t.tsDirty := (congrArg State.tsDirty h :)
  have hbound : s.bound = t.bound := by
    funext q lo m
    unfold bound
    rw [hb q]
  have hmarks : (s.markDirty p off n).tsDirty = (t.markDirty p off n).tsDirty := by
    unfold markDirty
    rw [hbound, hdirty]
  calc (s.markDirty p off n).unreported = { s.unreported with tsDirty := (s.markDirty p off n).tsDirty } := rfl
    _ = { t.unreported with tsDirty := (t.markDirty p off n).tsDirty } := by rw [h, hmarks]
    _ = (t.markDirty p off n).unreported := rfl

theorem Alike.tsWrite {s t : State} (h : Alike s t) (p off : Nat) (bs : List Byte) (poison : Bool) :
    Alike (s.tsWrite p off bs poison) (t.tsWrite p off bs poison) := by
  refine h.lands ?_ ((StoreWrites.tsWrite s p off bs poison).lands h.wfs) ((StoreWrites.tsWrite t p off bs poison).lands h.wft)
  rw [tsWrite_eq, tsWrite_eq]
  exact markDirty_congr (tsPut_congr h.rest p off bs poison) h.binds p off bs.length

theorem Alike.writeTsB {s t : State} (h : Alike s t) (p off : Nat) (bs : List PByte) :
    Alike (s.writeTsB p off bs) (t.writeTsB p off bs) := by
  unfold State.writeTsB
  refine Alike.foldl _ (fun a b i g => ?_) h
  exact g.tsWrite _ _ _ _

theorem Alike.putBytesAt {s t : State} (h : Alike s t) (p id a : Nat) (bs : List PByte) :
    Alike (s.putBytesAt p id a bs) (t.putBytesAt p id a bs) := by
  unfold State.putBytesAt
  split
  · exact h.writeTsB _ _ _
  · exact h.lands (writeMemP_congr h.rest _ _ _ _) (.writeMemP _ _ _ _ h.wfs) (.writeMemP _ _ _ _ h.wft)

theorem Alike.landPieces {s t : State} (h : Alike s t) (p id : Nat) (j : Job) (ps : List (Nat × List PByte)) :
    Alike (s.landPieces p id j ps) (t.landPieces p id j ps) := by
  have hfresh : s.fresh = t.fresh := (congrArg State.fresh h.rest :)
  unfold State.landPieces
  rw [hfresh]
  refine Alike.foldl _ (fun a b x g => ?_) h
  split
  · exact g
  · exact g.putBytesAt _ _ _ _

end State
end Sys2Proof.Machine
end

section
/-! PROOFS. The last write of a running descriptor is acknowledged (R66, R72–R75, R79, R139, R149, R154, R158, R176, R205). -/

namespace Sys2Proof.Machine

open State

namespace State

/-! ### Reads that meet no changed stored bit -/

theorem touchTs_sound {s : State} (h : s.tsFlips = []) (p off n : Nat) : s.touchTs p off n = (s, none) := by
  unfold touchTs
  rw [h]
  rfl

/-- A walk over sound words of a tile store finds nothing. -/
theorem foldl_touchTs_sound {α : Type} {s : State} (h : s.tsFlips = []) (p : Nat) (off n : α → Nat) (xs : List α) :
    xs.foldl (fun (x : State × Option Nat) a =>
      let y := x.1.touchTs p (off a) (n a)
      (y.1, x.2.or y.2)) (s, none) = (s, none) :=
  List.foldl_fixed' (fun a => by simp only [touchTs_sound h, Option.or_none]) xs

theorem touchReads_sound {s : State} (h : s.tsFlips = []) (p : Nat) (j : Job) : s.touchReads p j = (s, none) := by
  unfold touchReads
  exact List.foldl_fixed' (fun r => by simp only [touchTs_sound h, Option.or_none]) j.reads

/-- Nothing that the accelerators read has changed, and their class fills no slice. -/
structure Sound (s : State) : Prop where
  parts : Sparse.wf (fun _ => Part.init) s.parts = true
  flips : s.flips = []
  tsFlips : s.tsFlips = []
  way : s.fld (a_SC_WAYMASK clsAccel) SC_WAYMASK_MASK = 0

theorem Sound.reports {s t : State} (h : s.Sound) (r : Reports s t) : t.Sound where
  parts := r.parts
  flips := (congrArg State.flips r.rest :).trans h.flips
  tsFlips := (congrArg State.tsFlips r.rest :).trans h.tsFlips
  way := (congrArg (fun x : State => x.fld (a_SC_WAYMASK clsAccel) SC_WAYMASK_MASK) r.rest :).trans h.way

/-- A sound read of memory at most reports, and finds no error. -/
theorem Sound.readAs {s : State} (h : s.Sound) (k a n : Nat) :
    Reports s (s.readAs clsAccel k a n).1 ∧ (s.readAs clsAccel k a n).2 = none := by
  constructor
  · rcases s.readAs_reports clsAccel k a n h.flips h.way with e | e <;> rw [e]
    · exact .refl h.parts
    · exact .reportSec a n h.parts
  · unfold State.readAs touchMem
    simp only [h.flips, List.filter_nil, List.foldl_nil]
    split <;> rfl

/-- A sound read of the source of a segment at most reports, and finds no error. -/
theorem Sound.touchSrc {s : State} (h : s.Sound) (p id : Nat) (d : Desc) (g : Segment) :
    Reports s (s.touchSrc p id d g).1 ∧ (s.touchSrc p id d g).2 = none := by
  unfold State.touchSrc
  split
  · rw [touchTs_sound h.tsFlips]
    exact ⟨.refl h.parts, rfl⟩
  · generalize (runsOf (d.operand 0).exts g.src g.len).filter (fun r => r.1.tier != 2) = rs
    induction rs generalizing s with
    | nil => exact ⟨.refl h.parts, rfl⟩
    | cons r rs ih =>
      obtain ⟨hread, hnone⟩ := h.readAs id r.2.1 r.2.2
      obtain ⟨hrest, he⟩ := ih (h.reports hread)
      rw [List.foldl_cons]
      simp only [hnone, Option.or_none]
      exact ⟨hread.trans hrest, he⟩

/-! ### The units of a partition let a descriptor go -/

theorem leaveMover_rest (s : State) (p : Nat) (r : DRef) : ∃ ps, s.leaveMover p r = { s with parts := ps } := by
  unfold leaveMover wdDone
  split
  · exact ⟨_, rfl⟩
  · exact ⟨_, rfl⟩

theorem leaveVec_rest (s : State) (p : Nat) (r : DRef) : ∃ ps, s.leaveVec p r = { s with parts := ps } := by
  unfold leaveVec wdDone
  split
  · exact ⟨_, rfl⟩
  · exact ⟨_, rfl⟩

/-- A partition's inside with the watchdog of a unit at rest (R337). -/
def rested (s : State) (unit : Nat) (x : Part) : Part :=
  { x with wd := Sparse.put (fun _ => 0) x.wd unit 0, wdLast := Sparse.put (fun _ => 0) x.wdLast unit s.now }

/-- A completion leaves of a partition all but its watchdogs. -/
theorem part_wdDone {s : State} (p unit : Nat) (holds : Bool) (h : Sparse.wf (fun _ => Part.init) s.parts = true) :
    Sparse.wf (fun _ => Part.init) (s.wdDone p unit holds).parts = true ∧
      ∃ wd wdLast, (s.wdDone p unit holds).part p = { s.part p with wd := wd, wdLast := wdLast } := by
  have hpart := part_modPart_of_wf p (rested s unit) h
  have hparts := parts_modPart_wf p (rested s unit) h
  cases holds with
  | false => exact ⟨hparts, _, _, hpart⟩
  | true =>
    have harmed := part_modPart_of_wf p (armed (s.modPart p (rested s unit)) p unit) hparts
    rw [hpart] at harmed
    exact ⟨parts_modPart_wf p (armed (s.modPart p (rested s unit)) p unit) hparts, _, _, harmed⟩

theorem leaveVec_ves {s : State} (p : Nat) (r : DRef) (h : Sparse.wf (fun _ => Part.init) s.parts = true) :
    ((s.leaveVec p r).part p).ves = match (s.part p).ves.findIdx? (fun v => v.1 == some r) with
      | some i => (s.part p).ves.set i (none, s.now)
      | none => (s.part p).ves := by
  unfold leaveVec
  split
  · rename_i hi
    rw [hi]
  · rename_i i hi
    have hset := part_modPart_of_wf p (fun x => { x with ves := x.ves.set i (none, s.now) }) h
    obtain ⟨-, wd, wdLast, hpart⟩ := part_wdDone p (20 + i) false (parts_modPart_wf p (fun x => { x with ves := x.ves.set i (none, s.now) }) h)
    rw [hset] at hpart
    rw [hi, hpart]

/-- A mover descriptor ends with OK. -/
theorem endMove_ok (s : State) (p : Nat) (r : DRef) (detail : Nat) (poison : Bool) :
    s.endMove p r stOK detail poison
      = (((s.leaveMover p r).dropJob p r).finish (cid p r.slot) r.index stOK detail).poisonNoted (cid p r.slot) r.index poison := rfl

/-- What the end of a mover descriptor leaves when its job has left what the end reads. -/
theorem endMove_ends {s u : State} {p slot index : Nat} (poison : Bool) (h : s.Canonical) (hu : u.control = s.control) :
    let t := u.endMove p ⟨slot, index⟩ stOK 0 poison
    t.findJob p ⟨slot, index⟩ = none ∧ s.Ends t (cid p slot) index stOK 0 poison ∧ t.mem = u.mem ∧ t.units = u.units ∧ t.ts = u.ts := by
  intro t
  obtain ⟨ps, hleft⟩ := leaveMover_rest u p ⟨slot, index⟩
  have hends : s.Ends t (cid p slot) index stOK 0 poison := by
    rw [show t = _ from endMove_ok u p ⟨slot, index⟩ 0 poison]
    refine Ends.finish poison h ?_
    rw [hleft]
    exact hu
  obtain ⟨cs, rs, hrest⟩ := finish_rest ((u.leaveMover p ⟨slot, index⟩).dropJob p ⟨slot, index⟩) (cid p slot) index stOK 0
  have ht : t = _ := (endMove_ok u p ⟨slot, index⟩ 0 poison).trans (congrArg (fun x => x.poisonNoted (cid p slot) index poison) hrest)
  refine ⟨?_, hends, ?_⟩
  · rw [ht]
    exact findJob_dropJob (u.leaveMover p ⟨slot, index⟩) p ⟨slot, index⟩
  · rw [ht, hleft]
    exact ⟨rfl, rfl, rfl⟩

/-! ### MM (R66, R139) -/

theorem mmAck_done {s : State} {p : Nat} {r : DRef} {d : Desc} {j : Job} {m : MmJob} (hj : s.findJob p r = some j)
    (hm : (s.part p).mms.find? (fun m => m.ref == r) = some m) (hdone : m.rows * m.cols ≤ m.done) :
    s.mmAck p r d = (((s.padOutput p j d).dropJob p r).modPart p (fun x => { x with mms := x.mms.filter (fun y => y.ref != r) })).finish
      (cid p r.slot) r.index d.status d.detail := by
  simp only [mmAck, hm, hj, if_neg (Nat.not_lt.mpr hdone)]

theorem mmAck_ends {s : State} {p slot index : Nat} {d : Desc} {j : Job} {m : MmJob} (h : s.Canonical)
    (hj : s.findJob p ⟨slot, index⟩ = some j) (hm : (s.part p).mms.find? (fun m => m.ref == ⟨slot, index⟩) = some m)
    (hdone : m.rows * m.cols ≤ m.done) :
    let t := s.mmAck p ⟨slot, index⟩ d
    t.findJob p ⟨slot, index⟩ = none ∧ s.Ends t (cid p slot) index d.status d.detail false ∧
      (t.part p).mms = (s.part p).mms.filter (fun y => y.ref != ⟨slot, index⟩) ∧ t.mem = s.mem ∧ t.units = s.units := by
  intro t
  have hpad := StoreWrites.padOutput s p j d
  have hparts : Sparse.wf (fun _ => Part.init) (s.padOutput p j d).parts = true := hpad.parts.symm ▸ h.parts
  have hpart := part_modPart_of_wf (s := (s.padOutput p j d).dropJob p ⟨slot, index⟩) p
    (fun x => { x with mms := x.mms.filter (fun y => y.ref != ⟨slot, index⟩) }) hparts
  have hends : s.Ends t (cid p slot) index d.status d.detail false := by
    rw [show t = _ from mmAck_done hj hm hdone]
    exact Ends.finishClean h hpad.control
  obtain ⟨cs, rs, hrest⟩ := finish_rest (((s.padOutput p j d).dropJob p ⟨slot, index⟩).modPart p
    (fun x => { x with mms := x.mms.filter (fun y => y.ref != ⟨slot, index⟩) })) (cid p slot) index d.status d.detail
  have ht : t = _ := (mmAck_done hj hm hdone).trans hrest
  obtain ⟨hmem, hunits⟩ := hpad.stored
  refine ⟨?_, hends, ?_, ?_⟩
  · rw [ht]
    exact findJob_dropJob (s.padOutput p j d) p ⟨slot, index⟩
  · rw [ht, ← hpad.part p]
    exact (congrArg Part.mms hpart :)
  · rw [ht]
    exact ⟨hmem, hunits⟩

/-! ### VEC (R72–R75) -/

/-- An operation other than a table image gives results, which stand in the tile store. -/
theorem vecParts_some (s : State) (p : Nat) {d : Desc} (j : Job) (h : d.vOp ≠ 0x29) :
    ∃ ws poison, s.vecParts p d j = some (tsParts p ws poison, poison) := by
  unfold vecParts
  simp only [h, false_and, if_false]
  exact ⟨_, _, rfl⟩

theorem vecAck_eq {s : State} {p slot : Nat} {d : Desc} {j : Job} {ps : List (Nat × List PByte)} {poison : Bool}
    (hj : s.findJob p ⟨slot, d.index⟩ = some j) (hrun : s.unitsRun p = true) (hsound : s.tsFlips = [])
    (hps : s.vecParts p d j = some (ps, poison)) :
    s.vecAck p ⟨slot, d.index⟩ d = (((((({ s with fresh := s.fresh + 1 } : State).leaveVec p ⟨slot, d.index⟩).dropJob p
      ⟨slot, d.index⟩).landPieces p (cid p slot) j ps).poisonNoted (cid p slot) d.index poison).finishOk (cid p slot) d.index) := by
  have hleft : (({ s with fresh := s.fresh + 1 } : State).leaveVec p ⟨slot, d.index⟩).tsFlips = [] := by
    obtain ⟨_, e⟩ := leaveVec_rest { s with fresh := s.fresh + 1 } p ⟨slot, d.index⟩
    rw [e]
    exact hsound
  simp only [vecAck, hj, hrun, Bool.not_true, Bool.false_eq_true, if_false, touchReads_sound hleft, hps]
  rfl

theorem vecAck_ends {s : State} {p slot : Nat} {d : Desc} {j : Job} (h : s.Canonical) (hj : s.findJob p ⟨slot, d.index⟩ = some j)
    (hrun : s.unitsRun p = true) (hsound : s.tsFlips = []) (hop : d.vOp ≠ 0x29) :
    ∃ poison, let t := s.vecAck p ⟨slot, d.index⟩ d
      t.findJob p ⟨slot, d.index⟩ = none ∧ s.Ends t (cid p slot) d.index stOK 0 poison ∧
        (∃ ps, s.vecParts p d j = some (ps, poison)) ∧
        (t.part p).ves = (match (s.part p).ves.findIdx? (fun v => v.1 == some ⟨slot, d.index⟩) with
          | some i => (s.part p).ves.set i (none, s.now)
          | none => (s.part p).ves) ∧ t.mem = s.mem ∧ t.units = s.units := by
  obtain ⟨ws, poison, hps⟩ := s.vecParts_some p j hop
  refine ⟨poison, ?_⟩
  intro t
  obtain ⟨parts, hleft⟩ := leaveVec_rest { s with fresh := s.fresh + 1 } p ⟨slot, d.index⟩
  have hves := leaveVec_ves (s := { s with fresh := s.fresh + 1 }) p ⟨slot, d.index⟩ h.parts
  have hland := StoreWrites.landPieces ((({ s with fresh := s.fresh + 1 } : State).leaveVec p ⟨slot, d.index⟩).dropJob p ⟨slot, d.index⟩)
    p (cid p slot) j (tsParts p ws poison) (tsParts_window p ws poison)
  have hgone := hland.jobs p _ (findJob_dropJob (({ s with fresh := s.fresh + 1 } : State).leaveVec p ⟨slot, d.index⟩) p ⟨slot, d.index⟩)
  have hpart := (congrArg Part.ves (hland.part p) :).trans hves
  have hbase : ((({ s with fresh := s.fresh + 1 } : State).leaveVec p ⟨slot, d.index⟩).dropJob p ⟨slot, d.index⟩).control = s.control ∧
      ((({ s with fresh := s.fresh + 1 } : State).leaveVec p ⟨slot, d.index⟩).dropJob p ⟨slot, d.index⟩).mem = s.mem ∧
      ((({ s with fresh := s.fresh + 1 } : State).leaveVec p ⟨slot, d.index⟩).dropJob p ⟨slot, d.index⟩).units = s.units := by
    rw [hleft]
    exact ⟨rfl, rfl, rfl⟩
  obtain ⟨hbaseControl, hbaseMem, hbaseUnits⟩ := hbase
  have hmem := hland.stored.1.trans hbaseMem
  have hunits := hland.stored.2.trans hbaseUnits
  have hcontrol := hland.control.trans hbaseControl
  have ht : t = _ := vecAck_eq hj hrun hsound hps
  generalize (((({ s with fresh := s.fresh + 1 } : State).leaveVec p ⟨slot, d.index⟩).dropJob p ⟨slot, d.index⟩).landPieces p
    (cid p slot) j (tsParts p ws poison)) = u at ht hgone hpart hmem hunits hcontrol
  have hends : s.Ends t (cid p slot) d.index stOK 0 poison := by
    rw [ht]
    exact Ends.finishPoisoned poison h hcontrol
  obtain ⟨cs, rs, hrest⟩ := finish_rest (u.poisonNoted (cid p slot) d.index poison) (cid p slot) d.index stOK 0
  rw [show t = _ from ht.trans hrest] at hends ⊢
  exact ⟨hgone, hends, ⟨_, hps⟩, hpart, hmem, hunits⟩

/-! ### SIGNAL (R154, R217) -/

theorem fabFlagAck_ends {s : State} {p slot pa : Nat} {d : Desc} {j : Job} {e : Extent} (h : s.Canonical)
    (hj : s.findJob p ⟨slot, d.index⟩ = some j) (hphys : physical (d.operand 2).exts d.flagVa = some (e, pa))
    (hserved : s.fare roleCOH (burlOf p) pa = .served) (hopen : s.Admitted (naPart p) pa 4) :
    let t := s.fabFlagAck p ⟨slot, d.index⟩ d
    let u := (s.dropJob p ⟨slot, d.index⟩).writeMem (cid p slot) pa (leBytes d.sgValue 4) false
    t.findJob p ⟨slot, d.index⟩ = none ∧ s.Ends t (cid p slot) d.index stOK 0 false ∧ t.mem = u.mem ∧ t.units = u.units ∧
      t.ts = s.ts := by
  intro t u
  have hland : Lands (s.dropJob p ⟨slot, d.index⟩) u := .writeMemP _ _ _ _ h.parts
  have hkeep : CopyKeeps (s.dropJob p ⟨slot, d.index⟩) u := .writeMemP _ _ _ _ h.parts
  have ht : t = u.finish (cid p slot) d.index stOK 0 := by
    simp only [t, u, fabFlagAck, hj, hphys, hserved, asking_admitted hopen]
    rfl
  have hgone := hland.jobs p _ (findJob_dropJob s p ⟨slot, d.index⟩)
  have hts : u.ts = s.ts := hkeep.ts
  have hends : s.Ends t (cid p slot) d.index stOK 0 false := by
    rw [ht]
    exact Ends.finishClean h hland.control
  obtain ⟨cs, rs, hrest⟩ := finish_rest u (cid p slot) d.index stOK 0
  rw [show t = _ from ht.trans hrest] at hends ⊢
  exact ⟨hgone, hends, rfl, rfl, hts⟩

/-! ### MOVE and FLUSH of this device's memory (R149, R158, R176) -/

theorem mem_runsOf {es : List Extent} {va n : Nat} {r : Extent × Nat × Nat} (h : r ∈ runsOf es va n) : r.1 ∈ es := by
  induction es with
  | nil => exact absurd h List.not_mem_nil
  | cons e es ih =>
    simp only [runsOf] at h
    split at h
    · rcases List.mem_cons.mp h with rfl | h
      · exact List.mem_cons_self
      · exact List.mem_cons_of_mem _ (ih h)
    · exact List.mem_cons_of_mem _ (ih h)

/-- No run of local extents reaches another device. -/
theorem runsOf_local {es : List Extent} (h : ∀ e ∈ es, e.tier ≠ 2) (va n : Nat) :
    (runsOf es va n).filter (fun r => r.1.tier == 2) = [] :=
  List.filter_eq_nil_iff.mpr (fun r hr => by simpa using h r.1 (mem_runsOf hr))

theorem operand_local {d : Desc} (h : d.local_) (w : Nat) : ∀ e ∈ (d.operand w).exts, e.tier ≠ 2 := by
  unfold Desc.operand
  cases hfind : d.opnds.find? (fun o => o.which == w) with
  | none => exact fun e he => absurd he List.not_mem_nil
  | some o => exact h o (List.mem_of_find?_eq_some hfind)

theorem remoteRuns_local {d : Desc} (h : d.local_) (w : Nat) (gs : List Segment) : remoteRuns d w gs = [] :=
  List.flatMap_eq_nil_iff.mpr (fun _ _ => runsOf_local (operand_local h w) _ _)

/-- The one segment of a LINEAR MOVE. -/
def linear (d : Desc) : Segment := ⟨d.mvSrc, d.mvDst, d.len⟩

theorem segments_linear {s : State} (p : Nat) {id : Nat} {d : Desc} (j : Job) (hmode : d.mvMode = 0)
    (hsrc : s.reaches id d 0 d.mvSrc d.len = true) (hdst : s.reaches id d 1 d.mvDst d.len = true) :
    s.segments p id d j = ([linear d], .done) := by
  simp only [segments, hmode, reachAll, hsrc, hdst, Bool.not_true, Bool.false_eq_true, if_false]
  rfl

theorem unitsToRead_local (s : State) (p id : Nat) {d : Desc} (j : Job) (h : d.local_) : s.unitsToRead p id d j = [] := by
  have hmore : ∀ a n, (runsOf (d.operand 0).exts a n).flatMap (fun r => if r.1.tier = 2 then unitsOf r.2.1 r.2.2 else []) = [] :=
    fun a n => List.flatMap_eq_nil_iff.mpr (fun r hr => if_neg (operand_local h 0 r.1 (mem_runsOf hr)))
  unfold unitsToRead
  rcases (s.dropJob p j.ref).segments p id d j with ⟨gs, stop⟩
  cases stop <;> simp [remoteRuns_local h, hmore]

/-- A mover descriptor's homes serve its job, and no request of it is under way. -/
structure MoverServed (s : State) (p : Nat) (r : DRef) (j : Job) : Prop where
  held : (s.part p).dms.contains (some r) = true
  waiting : s.waiting p r = false
  fare : s.jobFare j = .served
  admitted : s.shutLine (naPart p) ((j.reads ++ j.writes).filter (fun r => decide (r.addr < tsWindow))) = none

theorem moverAck_move {s : State} {p slot : Nat} {d : Desc} {j : Job} (v : s.MoverServed p ⟨slot, d.index⟩ j)
    (hj : s.findJob p ⟨slot, d.index⟩ = some j) (hk : d.kind = kMOVE) (hlocal : d.local_) :
    s.moverAck p ⟨slot, d.index⟩ d = s.finishMove p ⟨slot, d.index⟩ d j := by
  have hgather : s.gatherDirty p ⟨slot, d.index⟩ d = s := if_neg (by rw [hk]; decide)
  unfold moverAck
  simp only [v.held, v.waiting, Bool.not_true, Bool.or_self, Bool.false_eq_true, if_false, hgather, hj, v.fare,
    asking_admitted v.admitted, hk, if_true, unitsToRead_local s p (cid p slot) j hlocal, remoteRuns_local hlocal,
    List.flatMap_nil, ite_self, List.isEmpty_nil, List.any_nil]

/-- The bytes of a LINEAR MOVE as it reads them. -/
def linearData (s : State) (p id : Nat) (d : Desc) (j : Job) : List PByte := (s.readSrc p id d j d.mvSrc d.len).getD []

/-- The pieces of a LINEAR MOVE, unit by unit of its destination. -/
def linearPieces (s : State) (p id : Nat) (d : Desc) (j : Job) : List (Nat × List PByte) :=
  (destParts p d (linear d)).map (fun q => (q.1, ((s.linearData p id d j).drop q.2.1).take q.2.2))

theorem finishMove_linear {s t : State} {p slot : Nat} {d : Desc} {j : Job}
    (ht : ({ s with fresh := s.fresh + 1 } : State).dropJob p ⟨slot, d.index⟩ = t)
    (hmode : d.mvMode = 0) (hbind : d.mvBind = false)
    (hsrc : t.reaches (cid p slot) d 0 d.mvSrc d.len = true) (hdst : t.reaches (cid p slot) d 1 d.mvDst d.len = true)
    (hnone : (t.touchSrc p (cid p slot) d (linear d)).2 = none) :
    s.finishMove p ⟨slot, d.index⟩ d j = ((t.touchSrc p (cid p slot) d (linear d)).1.landPieces p (cid p slot) j
      (t.linearPieces p (cid p slot) d j)).endMove p ⟨slot, d.index⟩ stOK 0 ((t.linearData p (cid p slot) d j).any (fun b => b.2)) := by
  have hsegs : t.segments p (cid p slot) d j = ([linear d], .done) := segments_linear p j hmode hsrc hdst
  unfold finishMove
  simp only [ht, hsegs, List.map_cons, List.map_nil, List.foldl_cons, List.foldl_nil, List.flatMap_cons, List.flatMap_nil, List.append_nil,
    List.any_cons, List.any_nil, Bool.or_false, hnone, Option.or_none, hbind, Bool.false_eq_true, if_false]
  rfl

theorem finishMove_ends {s own : State} {p slot : Nat} {d : Desc} {j : Job} (h : s.Canonical) (hsound : s.Sound)
    (hown : ({ s with fresh := s.fresh + 1 } : State).dropJob p ⟨slot, d.index⟩ = own) (hmode : d.mvMode = 0) (hbind : d.mvBind = false)
    (hsrc : s.reaches (cid p slot) d 0 d.mvSrc d.len = true) (hdst : s.reaches (cid p slot) d 1 d.mvDst d.len = true) :
    let t := s.finishMove p ⟨slot, d.index⟩ d j
    let u := own.landPieces p (cid p slot) j (own.linearPieces p (cid p slot) d j)
    t.findJob p ⟨slot, d.index⟩ = none ∧
      s.Ends t (cid p slot) d.index stOK 0 ((own.linearData p (cid p slot) d j).any (fun b => b.2)) ∧
      t.mem = u.mem ∧ t.units = u.units ∧ t.ts = u.ts := by
  intro t u
  have hreach : own.Sound ∧ own.control = s.control ∧ own.reaches (cid p slot) d 0 d.mvSrc d.len = true ∧
      own.reaches (cid p slot) d 1 d.mvDst d.len = true := by
    subst hown
    exact ⟨⟨hsound.parts, hsound.flips, hsound.tsFlips, hsound.way⟩, rfl, hsrc, hdst⟩
  obtain ⟨hsoundOwn, hcontrol, hsrcOwn, hdstOwn⟩ := hreach
  obtain ⟨hreports, hnone⟩ := hsoundOwn.touchSrc p (cid p slot) d (linear d)
  have ht : t = _ := finishMove_linear hown hmode hbind hsrcOwn hdstOwn hnone
  have halike := (hreports.alike hsoundOwn.parts).landPieces p (cid p slot) j (own.linearPieces p (cid p slot) d j)
  have hland := hreports.lands.trans (Lands.landPieces p (cid p slot) j (own.linearPieces p (cid p slot) d j) hreports.parts)
  obtain ⟨hgone, hends, hmem, hunits, hts⟩ := endMove_ends (slot := slot) (index := d.index)
    ((own.linearData p (cid p slot) d j).any (fun b => b.2)) h (hland.control.trans hcontrol)
  obtain ⟨hsameMem, hsameUnits⟩ := stored_congr halike.rest
  rw [ht]
  exact ⟨hgone, hends, hmem.trans hsameMem, hunits.trans hsameUnits, hts.trans (congrArg State.ts halike.rest :)⟩

/-- No dirty unit goes back to another device. -/
theorem dirtyRemote_local {s : State} {p slot : Nat} {d : Desc} {j : Job} {index : Nat}
    (h : ∀ b ∈ s.jobBinds p slot d j, ∀ e ∈ b.exts, e.tier ≠ 2) : s.dirtyRemote p ⟨slot, index⟩ d j = [] := by
  refine List.flatMap_eq_nil_iff.mpr (fun k _ => List.flatMap_eq_nil_iff.mpr (fun x hx => ?_))
  obtain ⟨b, hb, rfl⟩ := List.mem_map.mp hx
  rw [runsOf_local (h b (List.mem_of_mem_filter hb))]
  rfl

theorem moverAck_flush {s : State} {p slot : Nat} {d : Desc} {j : Job} (v : s.MoverServed p ⟨slot, d.index⟩ j)
    (hj : s.findJob p ⟨slot, d.index⟩ = some j) (hk : d.kind = kFLUSH)
    (hlocal : ∀ b ∈ s.jobBinds p slot d j, ∀ e ∈ b.exts, e.tier ≠ 2) :
    s.moverAck p ⟨slot, d.index⟩ d = s.finishFlush p ⟨slot, d.index⟩ d j := by
  have hgather : s.gatherDirty p ⟨slot, d.index⟩ d = s := if_neg (by rw [hk]; decide)
  have hunits : s.flushUnits p ⟨slot, d.index⟩ d j = [] := by
    unfold flushUnits
    rw [dirtyRemote_local hlocal]
    rfl
  have hagain : s.refreshUnits p ⟨slot, d.index⟩ d j = [] := if_neg (by rw [hk]; decide)
  have hmove : ¬ d.kind = kMOVE := by rw [hk]; decide
  unfold moverAck
  simp only [v.held, v.waiting, Bool.not_true, Bool.or_self, Bool.false_eq_true, if_false, hgather, hj, v.fare,
    asking_admitted v.admitted, hmove, hunits, hagain, List.isEmpty_nil]

theorem finishFlush_flush {s own : State} {p slot : Nat} {d : Desc} {j : Job}
    (hown : ({ s with fresh := s.fresh + 1 } : State).dropJob p ⟨slot, d.index⟩ = own) (hsound : own.tsFlips = []) (hk : d.kind = kFLUSH) :
    let back := own.backPieces p (own.jobBinds p slot d j) j j.dirty
    s.finishFlush p ⟨slot, d.index⟩ d j
      = (own.landPieces p (cid p slot) j back).endMove p ⟨slot, d.index⟩ stOK 0 (back.any (fun x => x.2.any (fun b => b.2))) := by
  have hrefresh : ¬ d.kind = kREFRESH := by rw [hk]; decide
  have hevict : ¬ d.kind = kEVICT := by rw [hk]; decide
  have htouch := foldl_touchTs_sound hsound p (fun k => k * 64 - p * tsSize) (fun _ => 64) j.dirty
  simp only at htouch
  unfold finishFlush
  simp only [hown, htouch, hrefresh, hevict, if_false, List.append_nil]
  rfl

theorem finishFlush_ends {s own : State} {p slot : Nat} {d : Desc} {j : Job} (h : s.Canonical) (hsound : s.tsFlips = [])
    (hown : ({ s with fresh := s.fresh + 1 } : State).dropJob p ⟨slot, d.index⟩ = own) (hk : d.kind = kFLUSH) :
    let back := own.backPieces p (own.jobBinds p slot d j) j j.dirty
    let t := s.finishFlush p ⟨slot, d.index⟩ d j
    let u := own.landPieces p (cid p slot) j back
    t.findJob p ⟨slot, d.index⟩ = none ∧ s.Ends t (cid p slot) d.index stOK 0 (back.any (fun x => x.2.any (fun b => b.2))) ∧
      t.mem = u.mem ∧ t.units = u.units ∧ t.ts = u.ts := by
  intro back t u
  have hbase : own.tsFlips = [] ∧ own.control = s.control ∧ Sparse.wf (fun _ => Part.init) own.parts = true := by
    subst hown
    exact ⟨hsound, rfl, h.parts⟩
  obtain ⟨hsoundOwn, hcontrol, hparts⟩ := hbase
  have hland : Lands own u := .landPieces p (cid p slot) j back hparts
  rw [show t = _ from finishFlush_flush hown hsoundOwn hk]
  exact endMove_ends _ h (hland.control.trans hcontrol)

/-! ### The command -/

/-- The running descriptor whose last write is acknowledged. -/
structure Acked (s : State) (pp : Fin 24) (slot : Fin 192) (index : BitVec 16) (d : Desc) : Prop where
  inReset : s.inReset pp = false
  found : (s.ctx (cid pp slot)).descs.find? (fun d => d.stage == .running && d.index % s.ringSize (cid pp slot) == index.toNat) = some d

section
variable {s : State} {pp : Fin 24} {slot : Fin 192} {index : BitVec 16} {d : Desc} (a : s.Acked pp slot index d)
include a

theorem Acked.exec_eq : exec (.lastWriteAcknowledged pp slot index) s = .next (s.lastAck pp slot index.toNat) := by
  change execLastWriteAcknowledged pp slot index s = _
  simp only [execLastWriteAcknowledged, a.inReset, Bool.false_eq_true, if_false]

theorem Acked.exec_mm (hk : d.kind = kMM) : exec (.lastWriteAcknowledged pp slot index) s = .next (s.mmAck pp ⟨slot, d.index⟩ d) := by
  have hkind : d.kind = 1 := hk
  simp only [a.exec_eq, lastAck, a.found, hkind]

theorem Acked.exec_vec (hk : d.kind = kVEC) : exec (.lastWriteAcknowledged pp slot index) s = .next (s.vecAck pp ⟨slot, d.index⟩ d) := by
  have hkind : d.kind = 2 := hk
  simp only [a.exec_eq, lastAck, a.found, hkind]

theorem Acked.exec_flag (hk : d.kind = kSIGNAL) (hscope : d.sgScope = 3) :
    exec (.lastWriteAcknowledged pp slot index) s = .next (s.fabFlagAck pp ⟨slot, d.index⟩ d) := by
  have hkind : d.kind = 4 := hk
  simp only [a.exec_eq, lastAck, a.found, hkind, hscope, if_true]

theorem Acked.exec_move (hk : d.kind = kMOVE) :
    exec (.lastWriteAcknowledged pp slot index) s = .next (s.moverAck pp ⟨slot, d.index⟩ d) := by
  have hkind : d.kind = 0 := hk
  simp only [a.exec_eq, lastAck, a.found, hkind]

theorem Acked.exec_flush (hk : d.kind = kFLUSH) :
    exec (.lastWriteAcknowledged pp slot index) s = .next (s.moverAck pp ⟨slot, d.index⟩ d) := by
  have hkind : d.kind = 7 := hk
  simp only [a.exec_eq, lastAck, a.found, hkind]

end

end State

/-- Settles O49: each kind of descriptor ends by its own acknowledgement, once its data has landed. -/
theorem lastWritesComplete : Obligations.LastWritesComplete := by
  unfold Obligations.LastWritesComplete
  intro pp slot index d j s h hreset hflips htsFlips hway hfound hj hstruck id r own served ended
  have hack : s.Acked pp slot index d := ⟨hreset, hfound⟩
  have hsound : s.Sound := ⟨h.parts, hflips, htsFlips, hway⟩
  have hid : id / 256 = pp := cid_div pp slot.isLt
  have asEnded : ∀ {t : State} {st detail : Nat} {poison : Bool}, t.findJob pp r = none → s.Ends t id d.index st detail poison →
      ended t st detail poison := fun hgone hends => ⟨hgone, hends.1, by simpa only [hid] using hends.2⟩
  refine ⟨fun m hk hm hdone => ?mm, fun hk hop hrun => ?vec, fun hk hmode hbind hlocal hserved hsrc hdst => ?move,
    fun e pa hk hscope hphys hfare hopen => ?signal, fun hk hlocal hserved => ?flush⟩
  case mm =>
    obtain ⟨hgone, hends, hrest⟩ := mmAck_ends (d := d) h hj hm hdone
    exact ⟨_, hack.exec_mm hk, asEnded hgone hends, hrest⟩
  case vec =>
    obtain ⟨poison, hgone, hends, hrest⟩ := vecAck_ends h hj hrun htsFlips hop
    exact ⟨_, poison, hack.exec_vec hk, asEnded hgone hends, hrest⟩
  case move =>
    obtain ⟨hheld, hwaiting, hfare, hadmitted⟩ := hserved
    obtain ⟨hgone, hends, hrest⟩ := finishMove_ends (j := j) (own := own) h hsound rfl hmode hbind hsrc hdst
    have hmoves := moverAck_move ⟨hheld, hwaiting, hfare, hadmitted⟩ hj hk hlocal
    exact ⟨_, (hack.exec_move hk).trans (congrArg Host.Outcome.next hmoves), asEnded hgone hends, hrest⟩
  case signal =>
    obtain ⟨hgone, hends, hrest⟩ := fabFlagAck_ends h hj hphys hfare hopen
    exact ⟨_, hack.exec_flag hk hscope, asEnded hgone hends, hrest⟩
  case flush =>
    obtain ⟨hheld, hwaiting, hfare, hadmitted⟩ := hserved
    obtain ⟨hgone, hends, hrest⟩ := finishFlush_ends (j := j) (own := own) h htsFlips rfl hk
    have hflushes := moverAck_flush ⟨hheld, hwaiting, hfare, hadmitted⟩ hj hk hlocal
    exact ⟨_, (hack.exec_flush hk).trans (congrArg Host.Outcome.next hflushes), asEnded hgone hends, hrest⟩

end Sys2Proof.Machine
end

section
/-! PROOFS. Movers and matrix engines take work, fire, finish and cool (R64–R66, R69–R71, R78, R297, R299). -/

namespace Sys2Proof.Machine

open State

namespace State

/-! ### What a mover's requests leave (R297, R299) -/

/-- A record that is neither fatal nor of a recovery is reported. -/
theorem Reports.raise {s : State} (q : FaultQueue) {r : FRec} (hfatal : r.fatal = false) (hkind : r.kind = 0)
    (h : Sparse.wf (fun _ => Part.init) s.parts = true) : Reports s (s.raise q r).1 := by
  have hraise : s.raise q r = s.report q { r with time := s.dieNow r.die } := by
    simp only [State.raise, hfatal, hkind, Bool.false_eq_true, if_false, ne_eq, not_true_eq_false]
  rw [hraise]
  exact .report q _ h

theorem linkFault_reports {s : State} (p dev code : Nat) (h : Sparse.wf (fun _ => Part.init) s.parts = true) :
    ∃ m, Reports { s with linkFaultAt := m } (s.linkFault p dev code) := by
  unfold linkFault
  simp only
  split
  · exact ⟨s.linkFaultAt, .refl h⟩
  · refine ⟨Sparse.put (fun _ => 0) s.linkFaultAt dev (s.now + 1), .raise (pq p) ?_ ?_ h⟩ <;> (dsimp only; split <;> rfl)

/-- From s to t a mover has sent what it can for a descriptor, or ended it where no port was UP (R297, R299). -/
structure Pumps (s t : State) (p : Nat) (r : DRef) : Prop where
  mem : t.mem = s.mem
  ts : t.ts = s.ts
  parts : Sparse.wf (fun _ => Part.init) t.parts = true
  queue : (t.part p).moverQ = (s.part p).moverQ
  regs : t.regs = s.regs ∨ (t.findJob p r = none ∧ ∀ a, a ≠ a_XL_ASSTAT (s.asidOf (cid p r.slot)) → t.rd a = s.rd a)

theorem Pumps.refl {s : State} (p : Nat) (r : DRef) (h : Sparse.wf (fun _ => Part.init) s.parts = true) : Pumps s s p r :=
  ⟨rfl, rfl, h, rfl, Or.inl rfl⟩

/-- A change of the partition's inside that leaves its mover queue alone. -/
theorem Pumps.modPart {s t : State} {p : Nat} {r : DRef} (k : Pumps s t p r) (hr : t.regs = s.regs) (f : Part → Part)
    (hf : ∀ x, (f x).moverQ = x.moverQ) : Pumps s (t.modPart p f) p r :=
  ⟨k.mem, k.ts, parts_modPart_wf p f k.parts, by rw [part_modPart_of_wf p f k.parts, hf, k.queue], Or.inl hr⟩

theorem Pumps.linkFault {s t : State} {p : Nat} {r : DRef} (k : Pumps s t p r) (hr : t.regs = s.regs) (dev code : Nat) :
    Pumps s (t.linkFault p dev code) p r ∧ (t.linkFault p dev code).regs = s.regs := by
  obtain ⟨m, hreports⟩ := linkFault_reports p dev code k.parts
  have hregs : (t.linkFault p dev code).regs = s.regs := (congrArg State.regs hreports.rest :).trans hr
  exact ⟨⟨(congrArg State.mem hreports.rest :).trans k.mem, (congrArg State.ts hreports.rest :).trans k.ts, hreports.parts,
    (congrArg Part.moverQ (hreports.inside p) :).trans k.queue, Or.inl hregs⟩, hregs⟩

theorem Pumps.dropBinding {s t : State} {p : Nat} {r : DRef} (k : Pumps s t p r) (hr : t.regs = s.regs) :
    Pumps s (t.dropBinding p r) p r ∧ (t.dropBinding p r).regs = s.regs := by
  unfold State.dropBinding
  split
  · split
    · exact ⟨k.modPart hr _ (fun _ => rfl), hr⟩
    · exact ⟨k, hr⟩
  · exact ⟨k, hr⟩

theorem Pumps.leaveMover {s t : State} {p : Nat} {r : DRef} (k : Pumps s t p r) (hr : t.regs = s.regs) :
    Pumps s (t.leaveMover p r) p r ∧ (t.leaveMover p r).regs = s.regs := by
  unfold State.leaveMover
  split
  · exact ⟨k, hr⟩
  · rename_i i _
    exact ⟨(k.modPart hr (fun x => { x with dms := x.dms.set i none }) (fun _ => rfl)).modPart hr
      (rested (t.modPart p (fun x => { x with dms := x.dms.set i none })) (25 + i)) (fun _ => rfl), hr⟩

/-- The descriptor ends: its job goes, and DONE_EPOCH may advance (R199, R299). -/
theorem Pumps.ends {s t : State} {p : Nat} {r : DRef} (k : Pumps s t p r) (hr : t.regs = s.regs) (status detail : Nat) (poison : Bool) :
    Pumps s (((t.dropJob p r).finish (cid p r.slot) r.index status detail).poisonNoted (cid p r.slot) r.index poison) p r := by
  obtain ⟨cs, rs, e, hrd⟩ := finish_frame (t.dropJob p r) (cid p r.slot) r.index status detail
  have hasid : (t.dropJob p r).asidOf (cid p r.slot) = s.asidOf (cid p r.slot) := by
    have hreads : ∀ u : State, u.asidOf (cid p r.slot) = ({ State.reset with regs := u.regs } : State).asidOf (cid p r.slot) := fun _ => rfl
    rw [hreads, hreads s, ← hr]
    rfl
  rw [hasid] at hrd
  have hrd' : ∀ a, a ≠ a_XL_ASSTAT (s.asidOf (cid p r.slot)) →
      (((t.dropJob p r).finish (cid p r.slot) r.index status detail).poisonNoted (cid p r.slot) r.index poison).rd a = s.rd a :=
    fun a ha => (hrd a (fun _ => ha)).trans (by show t.rd a = s.rd a; rw [rd, hr, rd])
  rw [e] at hrd' ⊢
  exact ⟨k.mem, k.ts, k.parts, k.queue, Or.inr ⟨findJob_dropJob t p r, hrd'⟩⟩

theorem Pumps.timeOut {s t : State} {p : Nat} {r : DRef} (k : Pumps s t p r) (hr : t.regs = s.regs) :
    Pumps s (t.endMove p r stTIMEOUT 0 false) p r := by
  obtain ⟨hdropped, hdroppedRegs⟩ := k.dropBinding hr
  obtain ⟨hleft, hleftRegs⟩ := hdropped.leaveMover hdroppedRegs
  exact hleft.ends hleftRegs stTIMEOUT 0 false

theorem Pumps.sendRemote {s t : State} {p : Nat} {r : DRef} (k : Pumps s t p r) (hr : t.regs = s.regs)
    (kind pa len poison rctx rmode flag : Nat) (data : List Byte) : Pumps s (t.sendRemote p r kind pa len poison rctx rmode flag data) p r := by
  unfold State.sendRemote
  simp only
  split
  · obtain ⟨hfault, hfaultRegs⟩ := k.linkFault hr (pa / 2 ^ 45) 0
    exact hfault.timeOut hfaultRegs
  · exact ⟨k.mem, k.ts, k.parts, k.queue, Or.inl hr⟩

/-- A running job has more to show or has sent more. -/
theorem Pumps.modJob {s t : State} {p : Nat} {r : DRef} (k : Pumps s t p r) (hr : t.regs = s.regs) (f : Job → Job) :
    Pumps s (t.modJob p r f) p r := ⟨k.mem, k.ts, k.parts, k.queue, Or.inl hr⟩

/-- What a walk sends while the descriptor runs. -/
theorem Pumps.foldl {α : Type} {s t : State} {p : Nat} {r : DRef} (xs : List α) {f : State → α → State}
    (hf : ∀ u x, Pumps s u p r → u.regs = s.regs → Pumps s (f u x) p r) (k : Pumps s t p r) :
    Pumps s (xs.foldl (fun u x => if (u.findJob p r).isNone then u else f u x) t) p r := by
  induction xs generalizing t with
  | nil => exact k
  | cons x xs ih =>
    refine ih ?_
    dsimp only
    split
    · exact k
    · rename_i hsome
      exact hf t x k (k.regs.resolve_right (fun hended => hsome (by rw [hended.1]; rfl)))

theorem launch_eq (s : State) (p : Nat) (r : DRef) (d : Desc) (j : Job) :
    ∃ f, s.launch p r d j = ({ s with fresh := s.fresh + 1 } : State).modJob p r f := ⟨_, rfl⟩

theorem launchFlush_eq (s : State) (p : Nat) (r : DRef) (d : Desc) (j : Job) :
    ∃ f, s.launchFlush p r d j = ({ s with fresh := s.fresh + 1 } : State).modJob p r f := ⟨_, rfl⟩

theorem Pumps.pump {s : State} (p : Nat) (r : DRef) (h : Sparse.wf (fun _ => Part.init) s.parts = true) : Pumps s (s.pump p r) p r := by
  unfold State.pump
  simp only
  split
  · rename_i j d _ _
    split
    · exact .refl p r h
    · have hlaunch : Pumps s (s.launch p r d j) p r := by
        obtain ⟨f, e⟩ := s.launch_eq p r d j
        rw [e]
        exact ⟨rfl, rfl, h, rfl, Or.inl rfl⟩
      split
      · exact hlaunch.foldl _ (fun u x k hr => k.sendRemote hr _ _ _ _ _ _ _ _)
      · exact hlaunch.foldl _ (fun u x k hr => (k.modJob hr _).sendRemote hr _ _ _ _ _ _ _ _)
  · exact .refl p r h

theorem Pumps.pumpFlush {s : State} (p : Nat) (r : DRef) (h : Sparse.wf (fun _ => Part.init) s.parts = true) :
    Pumps s (s.pumpFlush p r) p r := by
  unfold State.pumpFlush
  simp only
  split
  · rename_i j d _ _
    have hlaunch : Pumps s (s.launchFlush p r d j) p r := by
      obtain ⟨f, e⟩ := s.launchFlush_eq p r d j
      rw [e]
      exact ⟨rfl, rfl, h, rfl, Or.inl rfl⟩
    split
    · exact hlaunch.foldl _ (fun u x k hr => (k.modJob hr _).sendRemote hr _ _ _ _ _ _ _ _)
    split
    · exact hlaunch
    · exact hlaunch.foldl _ (fun u x k hr => k.sendRemote hr _ _ _ _ _ _ _ _)
  · exact .refl p r h

theorem Pumps.moverStart {s : State} (p : Nat) (r : DRef) (h : Sparse.wf (fun _ => Part.init) s.parts = true) :
    Pumps s (s.moverStart p r) p r := by
  unfold State.moverStart
  split
  · split
    · exact .pump p r h
    · exact .pumpFlush p r h
  · exact .refl p r h

/-- A MOVE of this device's memory sends nothing. -/
theorem pump_local {s : State} {p : Nat} {r : DRef} {d : Desc} (hd : s.findDesc (cid p r.slot) r.index = some d) (h : d.local_) :
    ∃ n js, s.pump p r = { s with fresh := n, jobs := js } := by
  unfold pump
  simp only [hd]
  cases s.findJob p r with
  | none => exact ⟨s.fresh, s.jobs, rfl⟩
  | some j =>
    obtain ⟨f, e⟩ := s.launch_eq p r d j
    have hnone : packetsOf (sortBy (fun u => u) []) = [] := rfl
    simp only [unitsToRead_local _ p (cid p r.slot) j h, remoteRuns_local h, List.flatMap_nil, ite_self, List.isEmpty_nil, Bool.not_true,
      Bool.false_eq_true, List.dedup_nil, List.filter_nil, hnone, List.take_nil, List.foldl_nil]
    split
    · exact ⟨s.fresh, s.jobs, rfl⟩
    · exact ⟨_, _, e⟩

/-! ### A mover takes a descriptor (R78) -/

/-- A mover holds a descriptor that has left the queue. -/
def dmHolds (dm : Nat) (r : DRef) (rest : List DRef) (x : Part) : Part := { x with moverQ := rest, dms := x.dms.set dm (some r) }

/-- The state in which a mover begins its descriptor. -/
def moverHolds (s : State) (p dm : Nat) (r : DRef) (rest : List DRef) : State := (s.modPart p (dmHolds dm r rest)).wdArm p (25 + dm)

theorem moverHolds_eq (s : State) (p dm : Nat) (r : DRef) (rest : List DRef) : ∃ ps, s.moverHolds p dm r rest = { s with parts := ps } :=
  ⟨_, rfl⟩

theorem moverHolds_part {s : State} (p dm : Nat) (r : DRef) (rest : List DRef) (h : Sparse.wf (fun _ => Part.init) s.parts = true) :
    Sparse.wf (fun _ => Part.init) (s.moverHolds p dm r rest).parts = true ∧ ((s.moverHolds p dm r rest).part p).moverQ = rest ∧
      ((s.moverHolds p dm r rest).part p).dms = (s.part p).dms.set dm (some r) := by
  have hheld := parts_modPart_wf p (dmHolds dm r rest) h
  have harmed := part_modPart_of_wf p (armed (s.modPart p (dmHolds dm r rest)) p (25 + dm)) hheld
  rw [part_modPart_of_wf p (dmHolds dm r rest) h] at harmed
  exact ⟨parts_modPart_wf p (armed (s.modPart p (dmHolds dm r rest)) p (25 + dm)) hheld, (congrArg Part.moverQ harmed :),
    (congrArg Part.dms harmed :)⟩

theorem exec_moverTake {s : State} {pp : Fin 24} {dm : Fin 2} {r : DRef} {rest : List DRef} (hq : (s.part pp).moverQ = r :: rest)
    (hfree : (s.part pp).dms.getD dm none = none) (halive : s.alive (domCtl pp) = true) (hreset : s.inReset pp = false) :
    exec (.moverTake pp dm) s = .next ((s.moverHolds pp dm r rest).moverStart pp r) := by
  change execMoverTake pp dm s = _
  simp only [execMoverTake, hq, hfree, halive, hreset, Bool.not_false, Bool.and_self, if_true]
  rfl

theorem moverTake_takes {s : State} {p dm : Nat} {r : DRef} {rest : List DRef} (h : s.Canonical) :
    let t := (s.moverHolds p dm r rest).moverStart p r
    (t.part p).moverQ = rest ∧ t.mem = s.mem ∧ t.ts = s.ts ∧
      (∀ a, a ≠ a_XL_ASSTAT (s.asidOf (cid p r.slot)) → t.rd a = s.rd a) ∧
      (∀ d, s.findDesc (cid p r.slot) r.index = some d → d.kind = kMOVE → d.local_ →
        (t.part p).dms = (s.part p).dms.set dm (some r) ∧ t.regs = s.regs ∧ t.ctxs = s.ctxs ∧ t.outbox = s.outbox) := by
  intro t
  obtain ⟨hparts, hqueue, hdms⟩ := moverHolds_part p dm r rest h.parts
  have hpumps : Pumps (s.moverHolds p dm r rest) t p r := .moverStart p r hparts
  obtain ⟨ps, hheld⟩ := s.moverHolds_eq p dm r rest
  refine ⟨hpumps.queue.trans hqueue, hpumps.mem.trans (by rw [hheld]), hpumps.ts.trans (by rw [hheld]), fun a ha => ?_,
    fun d hd hk hlocal => ?_⟩
  · have hrd : (s.moverHolds p dm r rest).rd a = s.rd a := by
      rw [hheld]
      rfl
    rcases hpumps.regs with hregs | ⟨-, hframe⟩
    · rw [rd, hregs, ← rd, hrd]
    · refine (hframe a ?_).trans hrd
      rw [hheld]
      exact ha
  · have hfound : (s.moverHolds p dm r rest).findDesc (cid p r.slot) r.index = some d := by
      rw [hheld]
      exact hd
    obtain ⟨n, js, hpump⟩ := pump_local hfound hlocal
    have hstart : t = (s.moverHolds p dm r rest).pump p r := by
      simp only [t, moverStart, hfound, hk, if_true]
    rw [hstart, hpump]
    refine ⟨hdms, ?_⟩
    rw [hheld]
    exact ⟨rfl, rfl, rfl⟩

/-! ### Matrix engines (R64–R66) -/

theorem part_modEngine {s : State} (p k : Nat) (f : Engine → Engine) (h : Sparse.wf (fun _ => Part.init) s.parts = true) :
    (s.modEngine p k f).part p = { s.part p with engines := (s.part p).engines.set k (f (s.engine p k)) } :=
  part_modPart_of_wf p (fun x => { x with engines := x.engines.set k (f (x.engines.getD k Engine.init)) }) h

theorem modEngine_parts_wf {s : State} (p k : Nat) (f : Engine → Engine) (h : Sparse.wf (fun _ => Part.init) s.parts = true) :
    Sparse.wf (fun _ => Part.init) (s.modEngine p k f).parts = true := parts_modPart_wf p _ h

/-- The work unit of an MM that is handed out next (R64). -/
def nextUnit (m : MmJob) : WorkUnit :=
  { ref := m.ref, row := m.next / m.cols, col := m.next % m.cols, pos := 0, acc := [], poison := false, bad := false }

/-- An engine with a work unit in a slot; a cold one waits for a token from now on (R69). -/
def unitIn (s : State) (i : Nat) (w : WorkUnit) (y : Engine) : Engine :=
  { y with slots := y.slots.set i (some w), waitFrom := if y.cold && y.waitFrom.isNone then some s.now else y.waitFrom }

/-- A work unit of an MM is handed out. -/
def unitTaken (m : MmJob) (x : Part) : Part :=
  { x with mms := x.mms.map (fun y => if y.ref = m.ref then { y with next := y.next + 1 } else y) }

theorem takeUnit_eq {s : State} {p k i : Nat} {m : MmJob}
    (hm : (s.part p).mms.find? (fun m => natBit m.engMask k && decide (m.next < m.rows * m.cols)) = some m)
    (hi : (s.engine p k).slots.findIdx? (fun x => x.isNone) = some i) :
    s.takeUnit p k = if holdsWork (s.engine p k) then (s.modPart p (unitTaken m)).modEngine p k (unitIn s i (nextUnit m))
      else ((s.modPart p (unitTaken m)).modEngine p k (unitIn s i (nextUnit m))).wdArm p k := by
  simp only [takeUnit, hm, hi]
  rfl

theorem takeUnit_takes {s : State} {p k i : Nat} {m : MmJob} (h : s.Canonical)
    (hm : (s.part p).mms.find? (fun m => natBit m.engMask k && decide (m.next < m.rows * m.cols)) = some m)
    (hi : (s.engine p k).slots.findIdx? (fun x => x.isNone) = some i) :
    let t := s.takeUnit p k
    (t.part p).engines = (s.part p).engines.set k (unitIn s i (nextUnit m) (s.engine p k)) ∧
      (t.part p).mms = (s.part p).mms.map (fun y => if y.ref = m.ref then { y with next := y.next + 1 } else y) ∧
      s.sameData t ∧ t.ctxs = s.ctxs ∧ t.jobs = s.jobs := by
  intro t
  have htaken := part_modPart_of_wf p (unitTaken m) h.parts
  have hengine := part_modEngine p k (unitIn s i (nextUnit m)) (parts_modPart_wf p (unitTaken m) h.parts)
  have hwf := modEngine_parts_wf p k (unitIn s i (nextUnit m)) (parts_modPart_wf p (unitTaken m) h.parts)
  rw [engine, htaken] at hengine
  rw [show t = _ from takeUnit_eq hm hi]
  split
  · exact ⟨(congrArg Part.engines hengine :), (congrArg Part.mms hengine :), ⟨rfl, rfl, rfl, rfl⟩, rfl, rfl⟩
  · have harmed := part_modPart_of_wf p (armed ((s.modPart p (unitTaken m)).modEngine p k (unitIn s i (nextUnit m))) p k) hwf
    rw [hengine] at harmed
    exact ⟨(congrArg Part.engines harmed :), (congrArg Part.mms harmed :), ⟨rfl, rfl, rfl, rfl⟩, rfl, rfl⟩

/-- A work unit whose next wavefront has fired (R65). -/
def waved (d : Desc) (u : UnitBlocks) (w : WorkUnit) : WorkUnit :=
  if w.pos + 1 = u.wavefronts d then accumulate d u { w with pos := w.pos + 1 } else { w with pos := w.pos + 1 }

theorem waved_fields (d : Desc) (u : UnitBlocks) {w : WorkUnit} (hacc : w.acc = []) :
    (waved d u w).ref = w.ref ∧ (waved d u w).row = w.row ∧ (waved d u w).col = w.col ∧ (waved d u w).pos = w.pos + 1 ∧
      (waved d u w).acc = (if w.pos + 1 = u.wavefronts d then u.roots (d.mmL / 32) else []) := by
  by_cases hlast : w.pos + 1 = u.wavefronts d
  · simp only [waved, if_pos hlast, accumulate, and_self]
  · rw [waved, if_neg hlast, if_neg hlast]
    exact ⟨rfl, rfl, rfl, rfl, hacc⟩

theorem fireWave_eq {s : State} {p k i : Nat} {w : WorkUnit} {d : Desc} {j : Job} (hw : (s.engine p k).slots.getD i none = some w)
    (hd : s.findDesc (cid p w.ref.slot) w.ref.index = some d) (hj : s.findJob p w.ref = some j) (hwarm : (s.engine p k).cold = false)
    (hacc : w.acc = []) (hpos : w.pos < (s.unitBlocks p j d w.row w.col).wavefronts d) :
    s.fireWave p k i = ({ s with fresh := s.fresh + 1 } : State).modEngine p k (fun y => { y with
      slots := y.slots.set i (some (waved d (s.unitBlocks p j d w.row w.col) w)), lastWave := s.now, lastWork := s.now }) := by
  have hempty : w.acc.isEmpty = true := by rw [hacc]; rfl
  simp only [fireWave, hw, hd, hj, hwarm, hempty, Bool.not_true, Bool.false_or, decide_eq_true_eq, Nat.not_le.mpr hpos,
    if_false]
  rfl

theorem fireWave_fires {s : State} {p k i : Nat} {w : WorkUnit} {d : Desc} {j : Job} (h : s.Canonical)
    (hw : (s.engine p k).slots.getD i none = some w) (hd : s.findDesc (cid p w.ref.slot) w.ref.index = some d)
    (hj : s.findJob p w.ref = some j) (hwarm : (s.engine p k).cold = false) (hacc : w.acc = [])
    (hpos : w.pos < (s.unitBlocks p j d w.row w.col).wavefronts d) :
    let t := s.fireWave p k i
    (t.part p).engines = (s.part p).engines.set k { s.engine p k with
        slots := (s.engine p k).slots.set i (some (waved d (s.unitBlocks p j d w.row w.col) w)), lastWave := s.now, lastWork := s.now } ∧
      s.sameData t ∧ t.ctxs = s.ctxs ∧ t.jobs = s.jobs := by
  intro t
  have hengine := part_modEngine (s := { s with fresh := s.fresh + 1 }) p k (fun y => { y with
    slots := y.slots.set i (some (waved d (s.unitBlocks p j d w.row w.col) w)), lastWave := s.now, lastWork := s.now }) h.parts
  rw [show t = _ from fireWave_eq hw hd hj hwarm hacc hpos]
  exact ⟨(congrArg Part.engines hengine :), ⟨rfl, rfl, rfl, rfl⟩, rfl, rfl⟩

/-! ### The result of a work unit (R66) -/

/-- From s to t a result is written: memory stays, of the registers only the error counts of the tile store may change, and of a
partition only its records. -/
structure Results (s t : State) (p : Nat) : Prop where
  stored : t.mem = s.mem ∧ t.units = s.units
  parts : Sparse.wf (fun _ => Part.init) t.parts = true
  inside : ∀ q, (t.part q).unreported = (s.part q).unreported
  regs : ∀ a, a ≠ a_TS_ERRCNT p → t.rd a = s.rd a

theorem Results.refl {s : State} (p : Nat) (h : Sparse.wf (fun _ => Part.init) s.parts = true) : Results s s p :=
  ⟨⟨rfl, rfl⟩, h, fun _ => rfl, fun _ _ => rfl⟩

theorem Results.trans {s t u : State} {p : Nat} (h : Results s t p) (g : Results t u p) : Results s u p :=
  ⟨⟨g.stored.1.trans h.stored.1, g.stored.2.trans h.stored.2⟩, g.parts, fun q => (g.inside q).trans (h.inside q),
    fun a ha => (g.regs a ha).trans (h.regs a ha)⟩

theorem Reports.results {s t : State} (h : Reports s t) (p : Nat) : Results s t p where
  stored := stored_congr h.rest
  parts := h.parts
  inside := h.inside
  regs a _ := (congrArg (fun x : State => x.rd a) h.rest :)

theorem StoreWrites.results {s t : State} (h : StoreWrites s t) (p : Nat) (hs : Sparse.wf (fun _ => Part.init) s.parts = true) :
    Results s t p where
  stored := h.stored
  parts := h.parts.symm ▸ hs
  inside q := by rw [h.part]
  regs a _ := (congrArg (fun x : State => x.rd a) h.rest :)

theorem Results.foldl_fst {α β : Type} {p : Nat} (xs : List α) {f : State × β → α → State × β}
    (hf : ∀ x a, Sparse.wf (fun _ => Part.init) x.1.parts = true → Results x.1 (f x a).1 p) {x : State × β}
    (h : Sparse.wf (fun _ => Part.init) x.1.parts = true) : Results x.1 (xs.foldl f x).1 p := by
  induction xs generalizing x with
  | nil => exact .refl p h
  | cons a xs ih =>
    have hone := hf x a h
    exact hone.trans (ih hone.parts)

/-- A word whose stored bits have changed is counted, and an error that cannot be corrected is logged (R61). -/
theorem Results.touchTs {s : State} (p off n : Nat) (h : Sparse.wf (fun _ => Part.init) s.parts = true) :
    Results s (s.touchTs p off n).1 p := by
  unfold State.touchTs
  refine Results.foldl_fst _ (x := (s, none)) (fun x e hx => ?_) h
  simp only
  split
  · exact ⟨⟨rfl, rfl⟩, hx, fun _ => rfl, fun a ha => rd_bump_ne _ _ _ ha⟩
  · have hcounted : Results x.1 (({ x.1 with
        tsFlips := Sparse.put (fun _ => 0) x.1.tsFlips e.1 0
        tsPoison := Sparse.put (fun _ => false) x.1.tsPoison (e.1 / 32) true } : State).bump (a_TS_ERRCNT p) TS_ERRCNT_UNCORR 1) p :=
      ⟨⟨rfl, rfl⟩, hx, fun _ => rfl, fun a ha => rd_bump_ne _ _ _ ha⟩
    exact hcounted.trans ((Reports.report _ _ hcounted.parts).results p)

/-- A change of contexts alone. -/
theorem Results.modDesc {s : State} (p id index : Nat) (f : Desc → Desc) (h : Sparse.wf (fun _ => Part.init) s.parts = true) :
    Results s (s.modDesc id index f) p := ⟨⟨rfl, rfl⟩, h, fun _ => rfl, fun _ _ => rfl⟩

theorem Results.noteEcc {s : State} (p id index : Nat) (e : Option Nat) (h : Sparse.wf (fun _ => Part.init) s.parts = true) :
    Results s (s.noteEcc id index e) p := by
  cases e with
  | none => exact .refl p h
  | some n => exact .modDesc p id index _ h

theorem Results.noteError {s : State} (p id index cls unit status : Nat) (h : Sparse.wf (fun _ => Part.init) s.parts = true) :
    Results s (s.noteError id index cls unit status) p := by
  unfold State.noteError
  split
  · exact .refl p h
  · have hraise := (Reports.raise (s := s) (pq (id / 256))
      (r := s.recordD cls (id / 256) unit id (index % s.ringSize id)) rfl rfl h).results p
    simp only
    split
    · exact hraise.trans (.modDesc p id index _ hraise.parts)
    · exact hraise

theorem Results.ite {s t u : State} {p : Nat} {c : Prop} [Decidable c] (ht : Results s t p) (hu : Results s u p) :
    Results s (if c then t else u) p := by
  split
  · exact ht
  · exact hu

/-- A slot of an engine is free again. -/
def slotFreed (now i : Nat) (y : Engine) : Engine := { y with slots := y.slots.set i none, lastWork := now }

/-- A work unit of an MM is done. -/
def unitDone (r : DRef) (x : Part) : Part :=
  { x with mms := x.mms.map (fun y => if y.ref = r then { y with done := y.done + 1 } else y) }

/-- The books of a result: its MM, its slot and the watchdog. -/
def bookResult (t : State) (p k i now : Nat) (r : DRef) : State :=
  let u := (t.modPart p (unitDone r)).modEngine p k (slotFreed now i)
  u.wdDone p k (holdsWork (u.engine p k))

/-- The errors that the tile store shows where a work unit reads it (R61). -/
def unitTouched (s : State) (p : Nat) (j : Job) (d : Desc) (w : WorkUnit) : State × Option Nat :=
  (s.unitSpans p j d w.row w.col).foldl (fun (x : State × Option Nat) g =>
    let y := x.1.touchTs p g.1 g.2
    (y.1, x.2.or y.2)) ({ s with fresh := s.fresh + 1 }, none)

/-- The two output blocks of a work unit are written, and the descriptor takes note of its errors (R66, R98, R108, R172). -/
def unitWritten (s : State) (p k id : Nat) (j : Job) (d : Desc) (w : WorkUnit) (faulty poison : Bool) (left right : Nat → Nat → Num) : State :=
  let x := s.unitTouched p j d w
  let t := ((x.1.noteEcc id d.index x.2).writeOutBlock p j d w.row (2 * w.col) poison left).writeOutBlock p j d w.row (2 * w.col + 1) poison
    right
  let t := if faulty then t.noteError id d.index cPROTO k stDATA_ERROR else t
  if poison then t.modDesc id d.index (fun x => { x with poisoned := true }) else t

theorem unitResult_eq {s : State} {p k i : Nat} {w : WorkUnit} {d : Desc} {j : Job}
    (hw : (s.engine p k).slots.getD i none = some w) (hd : s.findDesc (cid p w.ref.slot) w.ref.index = some d)
    (hj : s.findJob p w.ref = some j) (hwarm : (s.engine p k).cold = false) (hacc : w.acc ≠ []) :
    ∃ faulty poison left right, s.unitResult p k i
      = (s.unitWritten p k (cid p w.ref.slot) j d w faulty poison left right).bookResult p k i s.now w.ref := by
  have hfull : w.acc.isEmpty = false := List.isEmpty_eq_false_iff.mpr hacc
  simp only [unitResult, hw, hd, hj, hwarm, hfull, Bool.false_and, Bool.or_self, Bool.false_eq_true, if_false]
  exact ⟨_, _, _, _, rfl⟩

theorem Results.unitTouched {s : State} (p : Nat) (j : Job) (d : Desc) (w : WorkUnit) (h : Sparse.wf (fun _ => Part.init) s.parts = true) :
    Results s (s.unitTouched p j d w).1 p := by
  have hfold : Results { s with fresh := s.fresh + 1 } (s.unitTouched p j d w).1 p :=
    Results.foldl_fst (s.unitSpans p j d w.row w.col)
      (f := fun (x : State × Option Nat) g => ((x.1.touchTs p g.1 g.2).1, x.2.or (x.1.touchTs p g.1 g.2).2))
      (x := ({ s with fresh := s.fresh + 1 }, none)) (fun x g hx => .touchTs p g.1 g.2 hx) h
  exact ⟨hfold.stored, hfold.parts, hfold.inside, hfold.regs⟩

theorem Results.unitWritten {s : State} (p k id : Nat) (j : Job) (d : Desc) (w : WorkUnit) (faulty poison : Bool)
    (left right : Nat → Nat → Num) (h : Sparse.wf (fun _ => Part.init) s.parts = true) :
    Results s (s.unitWritten p k id j d w faulty poison left right) p := by
  unfold State.unitWritten
  extract_lets x blocks noted
  have htouched : Results s x.1 p := .unitTouched p j d w h
  have hecc : Results s (x.1.noteEcc id d.index x.2) p := htouched.trans (.noteEcc p id d.index x.2 htouched.parts)
  have hblocks : Results s blocks p :=
    hecc.trans (((StoreWrites.writeOutBlock _ p j d _ _ poison left).trans (.writeOutBlock _ p j d _ _ poison right)).results p hecc.parts)
  have hnoted : Results s noted p := .ite (hblocks.trans (.noteError p id d.index cPROTO k stDATA_ERROR hblocks.parts)) hblocks
  exact .ite (hnoted.trans (.modDesc p id d.index _ hnoted.parts)) hnoted

theorem bookResult_frees {t : State} (p k i now : Nat) (r : DRef) (h : Sparse.wf (fun _ => Part.init) t.parts = true) :
    let u := t.bookResult p k i now r
    (u.part p).engines = (t.part p).engines.set k (slotFreed now i (t.engine p k)) ∧
      (u.part p).mms = (t.part p).mms.map (fun y => if y.ref = r then { y with done := y.done + 1 } else y) ∧
      u.regs = t.regs ∧ u.mem = t.mem ∧ u.units = t.units := by
  intro u
  have hdone := part_modPart_of_wf p (unitDone r) h
  have hwf := parts_modPart_wf p (unitDone r) h
  have hengine := part_modEngine p k (slotFreed now i) hwf
  rw [engine, hdone] at hengine
  have hdoneEngine := modEngine_parts_wf p k (slotFreed now i) hwf
  obtain ⟨-, wd, wdLast, hpart⟩ := part_wdDone p k
    (holdsWork (((t.modPart p (unitDone r)).modEngine p k (slotFreed now i)).engine p k)) hdoneEngine
  rw [hengine] at hpart
  refine ⟨(congrArg Part.engines hpart :), (congrArg Part.mms hpart :), ?_⟩
  simp only [u, bookResult, wdDone]
  split <;> exact ⟨rfl, rfl, rfl⟩

theorem unitResult_frees {s : State} {p k i : Nat} {w : WorkUnit} {d : Desc} {j : Job} (h : s.Canonical)
    (hw : (s.engine p k).slots.getD i none = some w) (hd : s.findDesc (cid p w.ref.slot) w.ref.index = some d)
    (hj : s.findJob p w.ref = some j) (hwarm : (s.engine p k).cold = false) (hacc : w.acc ≠ []) :
    let t := s.unitResult p k i
    (t.part p).engines = (s.part p).engines.set k (slotFreed s.now i (s.engine p k)) ∧
      (t.part p).mms = (s.part p).mms.map (fun y => if y.ref = w.ref then { y with done := y.done + 1 } else y) ∧
      (∀ a, a ≠ a_TS_ERRCNT p → t.rd a = s.rd a) ∧ t.mem = s.mem ∧ t.units = s.units := by
  intro t
  obtain ⟨faulty, poison, left, right, e⟩ := unitResult_eq hw hd hj hwarm hacc
  obtain ⟨hstored, hparts, hinside, hregs⟩ := Results.unitWritten p k (cid p w.ref.slot) j d w faulty poison left right h.parts
  obtain ⟨hengines, hmms, hbooked, hmem, hunits⟩ := bookResult_frees p k i s.now w.ref hparts
  rw [← e] at hengines hmms hbooked hmem hunits
  have hkept := hinside p
  have hkeptEngines : ((s.unitWritten p k (cid p w.ref.slot) j d w faulty poison left right).part p).engines = (s.part p).engines :=
    (congrArg Part.engines hkept :)
  have hkeptMms : ((s.unitWritten p k (cid p w.ref.slot) j d w faulty poison left right).part p).mms = (s.part p).mms :=
    (congrArg Part.mms hkept :)
  rw [engine, hkeptEngines] at hengines
  rw [hkeptMms] at hmms
  refine ⟨hengines, hmms, fun a ha => ?_, hmem.trans hstored.1, hunits.trans hstored.2⟩
  rw [← hregs a ha, rd, hbooked, ← rd]

/-! ### Tokens (R69–R71) -/

theorem exec_startTokenIssue {s : State} {pp : Fin 24} (hnone : (s.part pp).token = false) (halive : s.alive (domEng pp) = true)
    (hdue : max (s.part pp).lastIssue (s.part pp).lastTake + s.fld (a_ME_RAMP pp) ME_RAMP_INTERVAL ≤ s.now) :
    exec (.startTokenIssue pp) s = .next (s.setPart pp { s.part pp with
      token := true, lastIssue := s.now, rampIdle := s.fld (a_ME_RAMP pp) ME_RAMP_IDLE }) := by
  change execStartTokenIssue pp s = _
  simp only [execStartTokenIssue, hnone, halive, decide_eq_false (Nat.not_lt.mpr hdue), Bool.not_true, Bool.or_self, Bool.false_eq_true,
    if_false, modPart]

/-- A token is taken. -/
def tokenSpent (now : Nat) (x : Part) : Part := { x with token := false, lastTake := now }

theorem takeToken_takes {s : State} {p k : Nat} (h : s.Canonical) (hk : longestWaiting (s.part p).engines = some k)
    (htoken : (s.part p).token = true) (hrun : s.unitsRun p = true) :
    let t := s.takeToken p
    (t.part p).token = false ∧ (t.part p).lastTake = s.now ∧
      (t.part p).engines = (s.part p).engines.set k
        { s.engine p k with cold := false, waitFrom := none, lastWork := s.now, lastWave := s.now } ∧
      s.sameData t ∧ t.ctxs = s.ctxs := by
  intro t
  have ht : t = (s.modPart p (tokenSpent s.now)).modEngine p k
      (fun e => { e with cold := false, waitFrom := none, lastWork := s.now, lastWave := s.now }) := by
    simp only [t, takeToken, hk, htoken, hrun, Bool.not_true, Bool.or_self, Bool.false_eq_true, if_false]
    rfl
  have hengine := part_modEngine p k (fun e => { e with cold := false, waitFrom := none, lastWork := s.now, lastWave := s.now })
    (parts_modPart_wf p (tokenSpent s.now) h.parts)
  rw [engine, part_modPart_of_wf p (tokenSpent s.now) h.parts] at hengine
  rw [ht]
  exact ⟨(congrArg Part.token hengine :), (congrArg Part.lastTake hengine :), (congrArg Part.engines hengine :), ⟨rfl, rfl, rfl, rfl⟩, rfl⟩

/-- An engine is cold; one that holds work waits for a token from now on (R69). -/
def cooled (now : Nat) (e : Engine) : Engine := { e with cold := true, waitFrom := if holdsWork e then some now else none }

/-- The idle time of an engine is over (R69). -/
def idleOver (s : State) (p k : Nat) : Bool :=
  if holdsWork (s.engine p k) then decide (max (s.engine p k).lastWave (s.pacedUntil p) + (s.part p).rampIdle < s.now)
  else decide ((s.engine p k).lastWork + (s.part p).rampIdle < s.now) ||
    decide (max (s.engine p k).lastWave (min (s.pacedUntil p) (s.engine p k).lastWork) + (s.part p).rampIdle < s.now)

theorem coolEngine_cools {s : State} {p k : Nat} (h : s.Canonical) (hwarm : (s.engine p k).cold = false) (hidle : s.idleOver p k = true) :
    let t := s.coolEngine p k
    (t.part p).engines = (s.part p).engines.set k (cooled s.now (s.engine p k)) ∧ s.sameData t ∧ t.ctxs = s.ctxs := by
  intro t
  have ht : t = s.modEngine p k (cooled s.now) := by
    have hcool : t = if (s.engine p k).cold || !s.idleOver p k then s else s.modEngine p k (cooled s.now) := rfl
    rw [hcool, hwarm, hidle]
    rfl
  rw [ht]
  exact ⟨(congrArg Part.engines (part_modEngine p k (cooled s.now) h.parts) :), ⟨rfl, rfl, rfl, rfl⟩, rfl⟩

end State

/-- Settles O47: each command is the step its lemma above describes. -/
theorem enginesTakeFireAndCool : Obligations.EnginesTakeFireAndCool := by
  unfold Obligations.EnginesTakeFireAndCool
  intro pp s h
  refine ⟨fun dm r rest hq hfree halive hreset => ?mover, fun me m i hrun hm hi => ?unit,
    ?wave, fun me acc w d j hrun hw hd hj hwarm hacc => ?result,
    fun hnone halive hdue => exec_startTokenIssue hnone halive hdue,
    fun k hk htoken hrun => ⟨_, rfl, takeToken_takes h hk htoken hrun⟩,
    fun me hwarm hempty hidle => ?idle, fun me hwarm hholds hidle => ?holding⟩
  case mover => exact ⟨_, exec_moverTake hq hfree halive hreset, moverTake_takes h⟩
  case unit =>
    have hexec : exec (.workUnitTake pp me) s = .next (s.takeUnit pp me) := congrArg Host.Outcome.next (if_pos hrun)
    exact ⟨_, hexec, takeUnit_takes h hm hi⟩
  case wave =>
    intro me acc w d j hrun hw hd hj hwarm hacc e u hpos
    have hexec : exec (.wavefrontFire pp me acc) s = .next (s.fireWave pp me acc) := congrArg Host.Outcome.next (if_pos hrun)
    obtain ⟨hengines, hrest⟩ := fireWave_fires h hw hd hj hwarm hacc hpos
    obtain ⟨href, hrow, hcol, hposNext, haccNext⟩ := waved_fields d u hacc
    exact ⟨_, waved d u w, hexec, hengines, href, hrow, hcol, hposNext, haccNext, hrest⟩
  case result =>
    have hexec : exec (.workUnitResult pp me acc) s = .next (s.unitResult pp me acc) := congrArg Host.Outcome.next (if_pos hrun)
    exact ⟨_, hexec, unitResult_frees h hw hd hj hwarm hacc⟩
  case idle =>
    have hover : s.idleOver pp me = true := by simp [idleOver, hempty, hidle]
    have hcools := coolEngine_cools h hwarm hover
    simp only [cooled, hempty, Bool.false_eq_true, if_false] at hcools
    exact ⟨_, rfl, hcools⟩
  case holding =>
    have hover : s.idleOver pp me = true := by simp only [idleOver, hholds, if_true, decide_eq_true hidle]
    have hcools := coolEngine_cools h hwarm hover
    simp only [cooled, hholds, if_true] at hcools
    exact ⟨_, rfl, hcools⟩

end Sys2Proof.Machine
end

section
/-! PROOFS. Writes of the Bead registers and of PT_PRED (R122, R164, R165, R167). -/

namespace Sys2Proof.Machine

open State

namespace State

/-- Fields set one after another leave their register with them set one after another in its word. -/
theorem rd_setFlds (s : State) (a : Nat) (xs : List (Fld × Nat)) (h : s.Canonical) :
    (s.setFlds a xs).rd a = xs.foldl (fun w x => x.1.set w x.2) (s.rd a) := by
  induction xs generalizing s with
  | nil => rfl
  | cons x xs ih =>
    have hfirst : (s.setFld a x.1 x.2).rd a = x.1.set (s.rd a) x.2 := rd_wr s a _ h
    rw [List.foldl_cons, ← hfirst]
    exact ih _ (setFld_canonical s a _ _ h)

/-- The fields of BD_BARCFG, each with its value in a written word. -/
def barcfgValues (v : Word) : List (Fld × Nat) :=
  [BD_BARCFG_COUNT, BD_BARCFG_HOME, BD_BARCFG_SCOPE, BD_BARCFG_VALID, BD_BARCFG_TENANT].map (fun f => (f, f.get v))

theorem barcfgValues_fields (v : Word) : ApartFields (barcfgValues v) := by
  constructor <;> simp [barcfgValues, Fld.Sound, Fld.Apart, BD_BARCFG_COUNT, BD_BARCFG_HOME, BD_BARCFG_SCOPE, BD_BARCFG_VALID,
    BD_BARCFG_TENANT]

/-- What a legal write of BD_BARCFG leaves in the register: the fields of the written word. -/
def barcfgWord (v : Word) : Word := (barcfgValues v).foldl (fun w x => x.1.set w x.2) 0

theorem barcfgWrite_legal {s : State} {b : Nat} {v : Word} (hnone : s.fld (a_BD_BARGEN b) BD_BARGEN_ARRIVED = 0)
    (hscope : BD_BARCFG_SCOPE.get v ≠ 3) (hpos : 0 < BD_BARCFG_COUNT.get v) (hcount : BD_BARCFG_COUNT.get v ≤ 4704) :
    s.barcfgWrite b v = s.wr (a_BD_BARCFG b) (barcfgWord v) := by
  have hlegal : (BD_BARCFG_SCOPE.get v = 3 || BD_BARCFG_COUNT.get v = 0 || 4704 < BD_BARCFG_COUNT.get v : Bool) = false := by
    simp [hscope, Nat.pos_iff_ne_zero.mp hpos, hcount]
  unfold barcfgWrite
  simp only [hnone, ne_eq, not_true_eq_false, if_false, hlegal, Bool.false_eq_true]
  rfl

theorem barcfgWrite_counted {s : State} {b : Nat} (v : Word) (hsome : s.fld (a_BD_BARGEN b) BD_BARGEN_ARRIVED ≠ 0) :
    s.barcfgWrite b v = s.faultDev cCONFIG 6 255 := if_pos hsome

/-- Each field of BD_BARCFG takes its value of the written word. -/
theorem fld_barcfgWord {s : State} (h : s.Canonical) (b : Nat) (v : Word) {f : Fld} (hf : (f, f.get v) ∈ barcfgValues v) :
    (s.wr (a_BD_BARCFG b) (barcfgWord v)).fld (a_BD_BARCFG b) f = f.get v := by
  have hcleared := wr_canonical s (a_BD_BARCFG b) 0 h
  have hword : ((s.wr (a_BD_BARCFG b) 0).setFlds (a_BD_BARCFG b) (barcfgValues v)).rd (a_BD_BARCFG b) = barcfgWord v := by
    rw [rd_setFlds _ _ _ hcleared, rd_wr s _ _ h, barcfgWord]
  calc (s.wr (a_BD_BARCFG b) (barcfgWord v)).fld (a_BD_BARCFG b) f = f.get (barcfgWord v) := by rw [fld, rd_wr s _ _ h]
    _ = ((s.wr (a_BD_BARCFG b) 0).setFlds (a_BD_BARCFG b) (barcfgValues v)).fld (a_BD_BARCFG b) f := by rw [fld, hword]
    _ = f.get v % 2 ^ f.width := fld_setFlds _ _ _ hcleared (barcfgValues_fields v) hf
    _ = f.get v := Nat.mod_eq_of_lt (Fld.get_lt f v)

end State

/-- An admitted register command goes on with its effect. -/
theorem next_gated {s : State} {who : Requester} {a : Nat} {t : State} (f : State → State) (hg : s.gate who a true = none)
    (hf : f s = t) : (.next (s.gated who a f) : Out') = .next t :=
  congrArg Host.Outcome.next ((gated_admitted s who a f hg).trans hf)

/-- Settles O10: each command is its effect behind the gate, and a legal BD_BARCFG word is built of fields that share no bit. -/
theorem beadRegisterWrites : Obligations.BeadRegisterWrites := by
  unfold Obligations.BeadRegisterWrites
  refine ⟨⟨fun who pp i v s hg => next_gated _ hg rfl, fun who pp i v s hg => next_gated _ hg rfl,
    fun who b s hg => next_gated _ hg rfl⟩, fun who b v s h hg hnone hscope hpos hcount => ?legal,
    fun who b v s hg hsome => ?counted, fun who pp n v s hg => next_gated _ hg rfl⟩
  case legal =>
    refine ⟨s.wr (a_BD_BARCFG b) (barcfgWord v), next_gated _ hg (barcfgWrite_legal hnone hscope hpos hcount),
      fun f hf => fld_barcfgWord h b v (List.mem_map.mpr ⟨f, ?_, rfl⟩), fun a ha => rd_wr_ne s _ _ _ ha, rfl⟩
    simp only [List.mem_cons, List.not_mem_nil, or_false] at hf ⊢
    tauto
  case counted =>
    obtain ⟨held, n, e⟩ := s.faultDev_eq cCONFIG 6 255
    exact ⟨next_gated _ hg (barcfgWrite_counted v hsome), by rw [e]⟩

end Sys2Proof.Machine
end

section
/-! PROOFS. The completion of a DISPATCH: its lists and counts land, then predicate bits, length registers and semaphore adds tell of
its accepted choices (R117–R121). -/

namespace Sys2Proof.Machine

open State

namespace State

/-! ### Predicate bits beside the one written (R122) -/

/-- Adding a clear bit changes no other bit. -/
theorem natBit_add_two_pow_ne {w b c : Nat} (hb : natBit w b = false) (hc : c ≠ b) : natBit (w + 2 ^ b) c = natBit w c := by
  simp only [natBit, beq_eq_false_iff_ne] at hb
  unfold natBit
  rcases Nat.lt_or_gt_of_ne hc with hlt | hgt
  · have hpow : 2 ^ b = 2 ^ c * (2 * 2 ^ (b - c - 1)) := by rw [← pow_succ', ← pow_add]; congr 1; omega
    rw [hpow, Nat.add_mul_div_left _ _ (Nat.two_pow_pos c), Nat.add_mul_mod_self_left]
  · have hpow : 2 ^ c = 2 ^ b * (2 * 2 ^ (c - b - 1)) := by rw [← pow_succ', ← pow_add]; congr 1; omega
    have hhalf : (w / 2 ^ b + 1) / 2 = w / 2 ^ b / 2 := by omega
    rw [hpow, ← Nat.div_div_eq_div_mul, ← Nat.div_div_eq_div_mul, Nat.add_div_right _ (Nat.two_pow_pos b), hhalf,
      Nat.div_div_eq_div_mul, Nat.div_div_eq_div_mul]

theorem natBit_natSetBit_ne {w b c : Nat} (v : Bool) (hc : c ≠ b) : natBit (natSetBit w b v) c = natBit w c := by
  have hself := natBit_natSetBit w b v
  cases hw : natBit w b <;> cases v <;> simp only [natSetBit, hw] at hself ⊢
  case false.true => exact natBit_add_two_pow_ne hw hc
  case true.false =>
    have hle : 2 ^ b ≤ w := by
      by_contra hlt
      simp [natBit, Nat.div_eq_of_lt (Nat.lt_of_not_le hlt)] at hw
    rw [← natBit_add_two_pow_ne hself hc, Nat.sub_add_cancel hle]

theorem predBit_setPred_ne (s : State) (p : Nat) {i k : Nat} (v : Bool) (h : s.Canonical) (hk : k ≠ i) :
    (s.setPred p i v).predBit p k = s.predBit p k := by
  by_cases hword : k / 64 = i / 64
  · have hlt := natSetBit_lt (b := i % 64) v (s.rd (a_PT_PRED p (i / 64))).isLt (Nat.mod_lt _ (by decide))
    rw [predBit, predBit, setPred, hword, rd_wr s _ _ h, BitVec.toNat_ofNat, Nat.mod_eq_of_lt hlt,
      natBit_natSetBit_ne v (by omega)]
  · rw [predBit, predBit, setPred, rd_wr_ne _ _ _ _ (by simp only [a_PT_PRED]; omega)]

/-! ### Writes of registers alone -/

/-- From s to t only registers change, and none that is to be kept. -/
structure RegWrites (s t : State) (keep : Nat → Prop) : Prop where
  rest : { t with regs := s.regs } = s
  canonical : t.Canonical
  kept : ∀ a, keep a → t.rd a = s.rd a

theorem RegWrites.refl {s : State} (keep : Nat → Prop) (h : s.Canonical) : RegWrites s s keep := ⟨rfl, h, fun _ _ => rfl⟩

theorem RegWrites.wr {s t : State} {keep : Nat → Prop} (k : RegWrites s t keep) {a : Nat} (ha : ¬ keep a) (w : Word) :
    RegWrites s (t.wr a w) keep where
  rest := k.rest
  canonical := wr_canonical t a w k.canonical
  kept b hb := (rd_wr_ne t a b w (fun e => ha (e ▸ hb))).trans (k.kept b hb)

theorem RegWrites.trans {s t u : State} {keep also : Nat → Prop} (k : RegWrites s t keep) (l : RegWrites t u also) :
    RegWrites s u (fun a => keep a ∧ also a) where
  rest := (congrArg (fun x : State => { x with regs := s.regs }) l.rest :).trans k.rest
  canonical := l.canonical
  kept a ha := (l.kept a ha.2).trans (k.kept a ha.1)

theorem RegWrites.mono {s t : State} {keep less : Nat → Prop} (k : RegWrites s t keep) (h : ∀ a, less a → keep a) :
    RegWrites s t less := ⟨k.rest, k.canonical, fun a ha => k.kept a (h a ha)⟩

theorem RegWrites.predBit {s t : State} {keep : Nat → Prop} (k : RegWrites s t keep) {p i : Nat} (h : keep (a_PT_PRED p (i / 64))) :
    t.predBit p i = s.predBit p i := by
  rw [State.predBit, State.predBit, k.kept _ h]

/-! ### What a DISPATCH tells of its counts (R121) -/

/-- A predicate bit for each expert of a window: whether its count is not 0. -/
def predsWritten (s : State) (p first : Nat) (n : Nat → Nat) (w : Nat) : State :=
  (List.range w).foldl (fun t i => t.setPred p (first + i) (decide (0 < n i))) s

theorem predsWritten_succ (s : State) (p first : Nat) (n : Nat → Nat) (w : Nat) :
    s.predsWritten p first n (w + 1) = (s.predsWritten p first n w).setPred p (first + w) (decide (0 < n w)) := by
  simp only [predsWritten, List.range_succ, List.foldl_append, List.foldl_cons, List.foldl_nil]

/-- The register at an address is none of the predicate bits of a partition. -/
def noPred (p a : Nat) : Prop := ∀ k, k < 4 → a ≠ a_PT_PRED p k

theorem RegWrites.predsWritten {s : State} {p first w : Nat} (n : Nat → Nat) (h : s.Canonical) (hw : first + w ≤ 256) :
    RegWrites s (s.predsWritten p first n w) (noPred p) := by
  induction w with
  | zero => exact .refl _ h
  | succ w ih =>
    rw [predsWritten_succ]
    exact (ih (by omega)).wr (fun hkeep => hkeep ((first + w) / 64) (by omega) rfl) _

/-- The bits of the window say which counts are not 0, and every other bit is as it was. -/
theorem predBit_predsWritten {s : State} {p first w : Nat} (n : Nat → Nat) (h : s.Canonical) (hw : first + w ≤ 256) :
    (∀ i, i < w → (s.predsWritten p first n w).predBit p (first + i) = decide (0 < n i)) ∧
      ∀ k, k < first ∨ first + w ≤ k → (s.predsWritten p first n w).predBit p k = s.predBit p k := by
  induction w with
  | zero => exact ⟨fun i hi => absurd hi (Nat.not_lt_zero i), fun _ _ => rfl⟩
  | succ w ih =>
    obtain ⟨hin, hout⟩ := ih (by omega)
    have hc := (RegWrites.predsWritten (p := p) n h (show first + w ≤ 256 by omega)).canonical
    rw [predsWritten_succ]
    refine ⟨fun i hi => ?_, fun k hk => ?_⟩
    · rcases Nat.lt_succ_iff_lt_or_eq.mp hi with hlt | rfl
      · exact (predBit_setPred_ne _ p _ hc (by omega)).trans (hin i hlt)
      · exact predBit_setPred _ p _ _ hc
    · exact (predBit_setPred_ne _ p _ hc (by omega)).trans (hout k (by omega))

/-- A length register for each expert of a window: its count. -/
def lensWritten (s : State) (p slot first : Nat) (n : Nat → Nat) (w : Nat) : State :=
  (List.range w).foldl (fun t i => t.setFld (a_SQ_LEN p slot (first + i)) SQ_LEN_LEN (n i)) s

theorem lensWritten_succ (s : State) (p slot first : Nat) (n : Nat → Nat) (w : Nat) :
    s.lensWritten p slot first n (w + 1)
      = (s.lensWritten p slot first n w).setFld (a_SQ_LEN p slot (first + w)) SQ_LEN_LEN (n w) := by
  simp only [lensWritten, List.range_succ, List.foldl_append, List.foldl_cons, List.foldl_nil]

/-- The register at an address is none of the length registers of a slot. -/
def noLen (p slot a : Nat) : Prop := ∀ k, k < 64 → a ≠ a_SQ_LEN p slot k

theorem RegWrites.lensWritten {s : State} {p slot first w : Nat} (n : Nat → Nat) (h : s.Canonical) (hw : first + w ≤ 64) :
    RegWrites s (s.lensWritten p slot first n w) (noLen p slot) := by
  induction w with
  | zero => exact .refl _ h
  | succ w ih =>
    rw [lensWritten_succ]
    exact (ih (by omega)).wr (fun hkeep => hkeep (first + w) (by omega) rfl) _

theorem fld_lensWritten {s : State} {p slot first w : Nat} (n : Nat → Nat) (h : s.Canonical) (hw : first + w ≤ 64) {i : Nat}
    (hi : i < w) : (s.lensWritten p slot first n w).fld (a_SQ_LEN p slot (first + i)) SQ_LEN_LEN = n i % 2 ^ 32 := by
  induction w with
  | zero => exact absurd hi (Nat.not_lt_zero i)
  | succ w ih =>
    have hc := (RegWrites.lensWritten (p := p) (slot := slot) n h (show first + w ≤ 64 by omega)).canonical
    rw [lensWritten_succ]
    rcases Nat.lt_succ_iff_lt_or_eq.mp hi with hlt | rfl
    · exact (fld_setFld_ne _ _ _ _ _ _ (by simp only [a_SQ_LEN]; omega)).trans (ih (by omega) hlt)
    · exact fld_setFld _ _ SQ_LEN_LEN _ hc (by decide) (by decide)

/-- The registers that tell of a DISPATCH's counts. -/
def countsWritten (s : State) (p slot : Nat) (d : Desc) (n : Nat → Nat) : State :=
  if d.dLenEn then (s.predsWritten p d.dPred n d.dWin).lensWritten p slot d.dLen n d.dWin else s.predsWritten p d.dPred n d.dWin

/-- What the registers say after a DISPATCH of a slot that ends with the counts n. -/
structure Counted (s t : State) (p slot : Nat) (d : Desc) (n : Nat → Nat) : Prop where
  writes : RegWrites s t (fun a => noPred p a ∧ noLen p slot a)
  preds : ∀ i, i < d.dWin → t.predBit p (d.dPred + i) = decide (0 < n i)
  others : ∀ i, i < 256 → i < d.dPred ∨ d.dPred + d.dWin ≤ i → t.predBit p i = s.predBit p i
  lens : d.dLenEn = true → ∀ i, i < d.dWin → t.fld (a_SQ_LEN p slot (d.dLen + i)) SQ_LEN_LEN = n i % 2 ^ 32

theorem countsWritten_counted {s : State} {p slot : Nat} {d : Desc} (n : Nat → Nat) (h : s.Canonical) (hpred : d.dPred + d.dWin ≤ 256)
    (hlen : d.dLenEn = true → d.dLen + d.dWin ≤ 64) : s.Counted (s.countsWritten p slot d n) p slot d n := by
  have hwrites := RegWrites.predsWritten (p := p) n h hpred
  obtain ⟨hin, hout⟩ := predBit_predsWritten (p := p) n h hpred
  cases hen : d.dLenEn with
  | false =>
    rw [countsWritten, hen]
    exact ⟨hwrites.mono (fun _ ha => ha.1), hin, fun i _ hi => hout i hi, fun hf => absurd (hen.symm.trans hf) (by decide)⟩
  | true =>
    have hlens := RegWrites.lensWritten (p := p) (slot := slot) n hwrites.canonical (hlen hen)
    have hfar : ∀ i, i < 256 → noLen p slot (a_PT_PRED p (i / 64)) := fun i hi k _ => by
      simp only [a_PT_PRED, a_SQ_LEN]; omega
    rw [countsWritten, hen]
    exact ⟨hwrites.trans hlens, fun i hi => (hlens.predBit (hfar _ (by omega))).trans (hin i hi),
      fun i h256 hi => (hlens.predBit (hfar i h256)).trans (hout i hi),
      fun _ i hi => fld_lensWritten n hwrites.canonical (hlen hen) hi⟩

/-- The semaphore adds of a DISPATCH's counts. -/
def countAdds (p : Nat) (d : Desc) (n : Nat → Nat) : List Bead :=
  (List.range d.dWin).map (fun i => Bead.update d.dSemPart (d.dSem + i) (.add (n i)) (.duAdd p))

/-- The semaphore adds of a DISPATCH that is to send them have set out. -/
def countsSent (s : State) (p : Nat) (d : Desc) (n : Nat → Nat) : State :=
  { s with bead := s.bead ++ if d.dSemEn then countAdds p d n else [] }

theorem countsSent_eq (s : State) (p : Nat) (d : Desc) (n : Nat → Nat) :
    s.countsSent p d n = if d.dSemEn then { s with bead := s.bead ++ countAdds p d n } else s := by
  unfold countsSent
  split
  · rfl
  · rw [List.append_nil]

/-! ### Results in the tile store keep the canonical form -/

theorem tsWrite_canonical (s : State) (p off : Nat) (bs : List Byte) (poison : Bool) (h : s.Canonical) :
    (s.tsWrite p off bs poison).Canonical :=
  { h with
    ts := putBytes_wf _ _ _ h.ts
    tsPoison := List.foldlRecOn (motive := fun m => Sparse.wf (fun _ => false) m = true) _ _ h.tsPoison
      (fun _ hm _ _ => Sparse.wf_put _ hm)
    tsDirty := List.foldlRecOn (motive := fun m => Sparse.wf (fun _ => false) m = true) _ _ h.tsDirty (fun m hm _ _ => by
      simp only
      split
      · exact Sparse.wf_put _ hm
      · exact hm)
    tsFlips := (Sparse.wf_drop (fun k => within (k * 8) 8 (tsKey p off) bs.length) h.tsFlips :) }

theorem landPieces_canonical (s : State) (p id : Nat) (j : Job) (ps : List (Nat × List PByte)) (h : s.Canonical)
    (hps : ∀ x ∈ ps, tsWindow ≤ x.1) : (s.landPieces p id j ps).Canonical := by
  refine List.foldlRecOn _ _ h (fun t ht x hx => ?_)
  have hwindow : tsWindow ≤ x.1.1 := hps _ (List.fst_mem_of_mem_zipIdx hx)
  split
  · exact ht
  · rw [putBytesAt, if_pos hwindow]
    exact List.foldlRecOn _ _ ht (fun u hu _ _ => tsWrite_canonical u _ _ _ _ hu)

/-! ### An end beside register writes -/

/-- An end that follows register writes is the same end where these leave the address space of the context. -/
theorem Ends.beside {s u t : State} {id index status detail : Nat} {poison : Bool} (h : u.Ends t id index status detail poison)
    (hrest : ({ u with regs := s.regs } : State).control = s.control) (hasid : u.asidOf id = s.asidOf id) :
    (∀ a, (s.remoteAt id index → a ≠ a_XL_ASSTAT (s.asidOf id)) → t.rd a = u.rd a) ∧
      s.becomes t id index (fun e => s.completed (id / 256) { e with poisoned := e.poisoned || poison } status detail) := by
  obtain ⟨hregs, hbecomes⟩ := h
  have hremote : u.remoteAt id index = s.remoteAt id index := (congrArg (fun x : State => x.remoteAt id index) hrest :)
  have hsame : u.becomes t id index (fun e => u.completed (id / 256) { e with poisoned := e.poisoned || poison } status detail)
      = s.becomes t id index (fun e => s.completed (id / 256) { e with poisoned := e.poisoned || poison } status detail) :=
    (congrArg (fun x : State => x.becomes t id index
      (fun e => x.completed (id / 256) { e with poisoned := e.poisoned || poison } status detail)) hrest :)
  exact ⟨fun a ha => hregs a (by rwa [hremote, hasid]), hsame.mp hbecomes⟩

/-! ### The end of a DISPATCH -/

/-- The lists and counts of a DISPATCH stand in the tile store, and its job is gone. -/
def dispatchLanded (s : State) (p : Nat) (r : DRef) (d : Desc) (j : Job) : State :=
  (({ s with fresh := s.fresh + 1 } : State).dropJob p r).landPieces p (cid p r.slot) j (dispatchParts p d (s.dispatchChoices p d j))

/-- The accepted choices of each expert of a DISPATCH's window. -/
def windowCount (s : State) (p : Nat) (d : Desc) (j : Job) (i : Nat) : Nat := acceptedOf (s.choicesOf p j d) (d.dExpFirst + i)

/-- The dispatch unit of a partition lets its descriptor go. -/
def duFreed (s : State) (p : Nat) : State := (s.modPart p (fun x => { x with du := none })).wdDone p 24 false

/-- A DISPATCH whose lists have landed has told of its counts and has left its unit. -/
def dispatchTold (s : State) (p : Nat) (r : DRef) (d : Desc) (j : Job) : State :=
  (((s.dispatchLanded p r d j).countsWritten p r.slot d (s.windowCount p d j)).countsSent p d (s.windowCount p d j)).duFreed p

/-- Where no stored bit has changed, a DISPATCH completes in these steps. -/
theorem duComplete_eq {s : State} {p : Nat} {r : DRef} {d : Desc} {j : Job} (h : s.tsFlips = []) :
    s.duComplete p r d j = ((s.dispatchTold p r d j).poisonNoted (cid p r.slot) r.index (s.dispatchChoices p d j).2).finish
      (cid p r.slot) r.index stOK 0 := by
  have htouch := touchReads_sound (s := { s with fresh := s.fresh + 1 }) h p j
  unfold duComplete
  simp only [htouch, List.foldl_map, List.map_map]
  rw [dispatchTold, countsSent_eq]
  rfl

theorem duFreed_eq (s : State) (p : Nat) : s.duFreed p = (s.modPart p (fun x => { x with du := none })).modPart p
    (rested (s.modPart p (fun x => { x with du := none })) 24) := rfl

theorem duFreed_rest (s : State) (p : Nat) : ∃ ps, s.duFreed p = { s with parts := ps } := ⟨_, rfl⟩

theorem duFreed_canonical (s : State) (p : Nat) (h : s.Canonical) : (s.duFreed p).Canonical := by
  rw [duFreed_eq]
  exact modPart_canonical _ p _ (modPart_canonical s p _ h)

theorem duFreed_du (s : State) (p : Nat) (h : s.Canonical) : ((s.duFreed p).part p).du = none := by
  rw [duFreed_eq, part_modPart _ p _ (modPart_canonical s p _ h), part_modPart s p _ h]
  rfl

theorem dispatchLanded_writes (s : State) (p : Nat) (r : DRef) (d : Desc) (j : Job) :
    StoreWrites (({ s with fresh := s.fresh + 1 } : State).dropJob p r) (s.dispatchLanded p r d j) :=
  .landPieces _ _ _ _ _ (tsParts_window _ _ _)

theorem dispatchLanded_canonical {s : State} (p : Nat) (r : DRef) (d : Desc) (j : Job) (h : s.Canonical) :
    (s.dispatchLanded p r d j).Canonical :=
  landPieces_canonical _ _ _ _ _ (show (({ s with fresh := s.fresh + 1 } : State).dropJob p r).Canonical from h) (tsParts_window _ _ _)

/-- The configuration of a context is none of the registers that tell of a DISPATCH's counts. -/
theorem cfgAddr_uncounted (p : Nat) {slot : Nat} (hs : slot < 192) :
    noPred p (cfgAddr (cid p slot)) ∧ noLen p slot (cfgAddr (cid p slot)) := by
  simp only [cfgAddr, cid_div p hs, cid_mod p hs]
  constructor <;> (intro k hk; simp only [a_PT_CTXCFG, a_PT_PRED, a_SQ_LEN]; omega)

/-- From s to u a DISPATCH has told of its counts n, and its unit and its job are gone; its descriptor has not ended. -/
structure Told (s u : State) (p : Nat) (r : DRef) (d : Desc) (n : Nat → Nat) : Prop where
  canonical : u.Canonical
  free : (u.part p).du = none
  gone : u.findJob p r = none
  beside : ({ u with regs := s.regs } : State).control = s.control
  kept : ∀ a, noPred p a → noLen p r.slot a → u.rd a = s.rd a
  preds : ∀ i, i < d.dWin → u.predBit p (d.dPred + i) = decide (0 < n i)
  others : ∀ i, i < 256 → i < d.dPred ∨ d.dPred + d.dWin ≤ i → u.predBit p i = s.predBit p i
  lens : d.dLenEn = true → ∀ i, i < d.dWin → u.fld (a_SQ_LEN p r.slot (d.dLen + i)) SQ_LEN_LEN = n i % 2 ^ 32
  bead : u.bead = s.bead ++ (if d.dSemEn then countAdds p d n else [])
  stored : u.mem = s.mem ∧ u.units = s.units

theorem dispatchTold_tells {s : State} (p : Nat) (r : DRef) {d : Desc} (j : Job) (h : s.Canonical) (hpred : d.dPred + d.dWin ≤ 256)
    (hlen : d.dLenEn = true → d.dLen + d.dWin ≤ 64) : Told s (s.dispatchTold p r d j) p r d (s.windowCount p d j) := by
  have hstore := s.dispatchLanded_writes p r d j
  have hcounted := countsWritten_counted (p := p) (slot := r.slot) (s.windowCount p d j) (dispatchLanded_canonical p r d j h) hpred hlen
  have hgone := hstore.jobs p r (findJob_dropJob _ p r)
  have hcontrol : (s.dispatchLanded p r d j).control = s.control := hstore.control
  have hbead : (s.dispatchLanded p r d j).bead = s.bead := (congrArg State.bead hstore.rest :)
  obtain ⟨hmem, hunits⟩ := hstore.stored
  unfold dispatchTold
  generalize s.windowCount p d j = n at hcounted ⊢
  generalize s.dispatchLanded p r d j = landed at hcounted hgone hcontrol hbead hmem hunits ⊢
  generalize landed.countsWritten p r.slot d n = counted at hcounted ⊢
  obtain ⟨⟨hrest, hcanonical, hkept⟩, hpreds, hothers, hlens⟩ := hcounted
  have hsent : (counted.countsSent p d n).Canonical := hcanonical
  have hbeside : ({ counted with regs := s.regs } : State).control = s.control := by
    have hlanded : ({ counted with regs := s.regs } : State) = { landed with regs := s.regs } :=
      (congrArg (fun x : State => { x with regs := s.regs }) hrest :)
    exact (congrArg State.control hlanded).trans (congrArg (fun x : State => { x with regs := s.regs }) hcontrol :)
  have hrd (a : Nat) : landed.rd a = s.rd a := (congrArg (fun x : State => x.rd a) hcontrol :)
  have hbit (i : Nat) : landed.predBit p i = s.predBit p i := (congrArg (fun x : State => x.predBit p i) hcontrol :)
  have hjob : counted.findJob p r = landed.findJob p r := (congrArg (fun x : State => x.findJob p r) hrest :)
  have hmessages : counted.bead = landed.bead := (congrArg State.bead hrest :)
  have hstored : counted.mem = landed.mem ∧ counted.units = landed.units :=
    ⟨(congrArg State.mem hrest :), (congrArg State.units hrest :)⟩
  have hfree := duFreed_du _ p hsent
  have hfreed := duFreed_canonical _ p hsent
  obtain ⟨ps, e⟩ := duFreed_rest (counted.countsSent p d n) p
  rw [e] at hfree hfreed ⊢
  exact {
    canonical := hfreed
    free := hfree
    gone := hjob.trans hgone
    beside := hbeside
    kept := fun a hp hl => (hkept a ⟨hp, hl⟩).trans (hrd a)
    preds := hpreds
    others := fun i h256 hi => (hothers i h256 hi).trans (hbit i)
    lens := hlens
    bead := congrArg (· ++ _) (hmessages.trans hbead)
    stored := ⟨hstored.1.trans hmem, hstored.2.trans hunits⟩ }

/-- Once a DISPATCH has told of its counts, the end of its descriptor keeps what it told. -/
theorem Told.finish {s u : State} {p : Nat} {r : DRef} {d : Desc} {n : Nat → Nat} (told : Told s u p r d n) (poison : Bool)
    (hp : p < 24) (hs : r.slot < 192) (hpred : d.dPred + d.dWin ≤ 256) (hlen : d.dLenEn = true → d.dLen + d.dWin ≤ 64) :
    let t := (u.poisonNoted (cid p r.slot) r.index poison).finish (cid p r.slot) r.index stOK 0
    (t.part p).du = none ∧ t.findJob p r = none ∧
      s.becomes t (cid p r.slot) r.index (fun e => s.completed p { e with poisoned := e.poisoned || poison } stOK 0) ∧
      (∀ i, i < d.dWin → t.predBit p (d.dPred + i) = decide (0 < n i)) ∧
      (∀ i, i < 256 → i < d.dPred ∨ d.dPred + d.dWin ≤ i → t.predBit p i = s.predBit p i) ∧
      (d.dLenEn = true → ∀ i, i < d.dWin → t.fld (a_SQ_LEN p r.slot (d.dLen + i)) SQ_LEN_LEN = n i % 2 ^ 32) ∧
      t.bead = s.bead ++ (if d.dSemEn then countAdds p d n else []) ∧
      (∀ a, noPred p a → noLen p r.slot a → (s.remoteAt (cid p r.slot) r.index → a ≠ a_XL_ASSTAT (s.asidOf (cid p r.slot))) →
        t.rd a = s.rd a) ∧
      t.mem = s.mem ∧ t.units = s.units := by
  intro t
  have hasid : u.asidOf (cid p r.slot) = s.asidOf (cid p r.slot) := by
    obtain ⟨hfarPred, hfarLen⟩ := cfgAddr_uncounted p hs
    exact congrArg PT_CTXCFG_ASID.get (told.kept _ hfarPred hfarLen)
  obtain ⟨hregs, hbecomes⟩ := (u.poisonNoted_ends (cid p r.slot) r.index stOK 0 poison told.canonical).beside told.beside hasid
  rw [cid_div p hs] at hbecomes
  have hbits : ∀ i, i < 256 → t.predBit p i = u.predBit p i := fun i hi => by
    have hword : t.rd (a_PT_PRED p (i / 64)) = u.rd (a_PT_PRED p (i / 64)) :=
      hregs _ (fun _ => by simp only [a_PT_PRED, a_XL_ASSTAT]; omega)
    rw [predBit, predBit, hword]
  have hcounts : d.dLenEn = true → ∀ i, i < d.dWin → t.rd (a_SQ_LEN p r.slot (d.dLen + i)) = u.rd (a_SQ_LEN p r.slot (d.dLen + i)) :=
    fun hen i hi => by
      have := hlen hen
      exact hregs _ (fun _ => by simp only [a_SQ_LEN, a_XL_ASSTAT]; omega)
  have hrest : (t.part p).du = (u.part p).du ∧ t.findJob p r = u.findJob p r ∧ t.bead = u.bead ∧ t.mem = u.mem ∧ t.units = u.units := by
    obtain ⟨cs, rs, e⟩ := finish_rest (u.poisonNoted (cid p r.slot) r.index poison) (cid p r.slot) r.index stOK 0
    rw [show t = _ from e]
    exact ⟨rfl, rfl, rfl, rfl, rfl⟩
  obtain ⟨hunit, hjob, hbead, hmem, hunits⟩ := hrest
  exact ⟨hunit.trans told.free, hjob.trans told.gone, hbecomes,
    fun i hi => (hbits _ (by omega)).trans (told.preds i hi),
    fun i h256 hi => (hbits i h256).trans (told.others i h256 hi),
    fun hen i hi => (congrArg SQ_LEN_LEN.get (hcounts hen i hi)).trans (told.lens hen i hi),
    hbead.trans told.bead, fun a hpredA hlenA ha => (hregs a ha).trans (told.kept a hpredA hlenA),
    hmem.trans told.stored.1, hunits.trans told.stored.2⟩

end State

/-- The command completes the DISPATCH that the unit holds. -/
theorem exec_dispatchComplete {pp : Fin 24} {r : DRef} {d : Desc} {j : Job} {s : State} (hdu : (s.part pp).du = some r)
    (hd : s.findDesc (cid pp r.slot) r.index = some d) (hj : s.findJob pp r = some j) (hrun : s.unitsRun pp = true) :
    exec (.dispatchComplete pp) s = .next (s.duComplete pp r d j) := by
  change execDispatchComplete pp s = _
  simp only [execDispatchComplete, hdu, hd, hj, hrun, if_true]

/-- Settles O48: the lists land beside registers and messages, these tell of the counts, and the descriptor ends. -/
theorem dispatchUnitCompletes : Obligations.DispatchUnitCompletes := by
  unfold Obligations.DispatchUnitCompletes
  intro pp r d j s h hdu hd hj hrun hsound hslot hpred hlen n
  have htold := (dispatchTold_tells pp r j h hpred hlen).finish (s.dispatchChoices pp d j).2 pp.isLt hslot hpred hlen
  rw [← duComplete_eq hsound] at htold
  exact ⟨_, exec_dispatchComplete hdu hd hj hrun, htold⟩

end Sys2Proof.Machine
end

section
/-! PROOFS. Contexts, rings and doorbells: PT_COMMIT, RESUME, SQ_COMMIT and SQ_DB (R129–R131, R135, R137). -/

namespace Sys2Proof.Machine

open State

/-- A context as its creation leaves it (R131). -/
def Ctx.created (c : Ctx) : Ctx :=
  { c with descs := [], claims := [], replayable := false, phaseTag := 64, before := 0, drainAfter := false, replayed := 0 }

/-- The tail of a context at a new place of its ring. -/
def Ctx.tailAt (c : Ctx) (size n : Nat) : Ctx := { c with tail := c.tail + (n % size + size - c.tail % size) % size }

namespace State

theorem slotOk_lt {s : State} {slot : Nat} (h : s.slotOk slot = true) : slot < 192 := by
  simp only [slotOk, Bool.and_eq_true, decide_eq_true_eq] at h
  exact h.1

/-- A commit makes every staged word of its group live (R14). -/
theorem rd_commit {s : State} {as : List Nat} {a : Nat} (h : s.Canonical) (ha : a ∈ as) : (s.commit as).rd a = s.stagedRd a :=
  ((commit_committed as h trivial).group a ha).trans (if_pos trivial)

theorem fld_commit {s : State} {as : List Nat} {a : Nat} (f : Fld) (h : s.Canonical) (ha : a ∈ as) :
    (s.commit as).fld a f = s.stagedFld a f := by rw [fld, rd_commit h ha, stagedFld]

/-! ### Context states -/

/-- The 64 length registers of a slot. -/
def lenRegs (p slot : Nat) : List Nat := (List.range 64).map (a_SQ_LEN p slot)

/-- From s to t a context takes a new state: of the registers only its status and its length registers may change, and no
memory and no partition does. -/
structure StateTaken (s t : State) (id : Nat) : Prop where
  regs : ∀ a, a ≠ a_PT_CTXSTAT (id / 256) (id % 256) → a ∉ lenRegs (id / 256) (id % 256) → t.rd a = s.rd a
  mem : t.mem = s.mem
  parts : t.parts = s.parts

theorem StateTaken.refl (s : State) (id : Nat) : StateTaken s s id := ⟨fun _ _ _ => rfl, rfl, rfl⟩

theorem StateTaken.trans {s t u : State} {id : Nat} (h : StateTaken s t id) (g : StateTaken t u id) : StateTaken s u id :=
  ⟨fun a hs hl => (g.regs a hs hl).trans (h.regs a hs hl), g.mem.trans h.mem, g.parts.trans h.parts⟩

theorem StateTaken.setCstate (s : State) (id st : Nat) : StateTaken s (s.setCstate id st) id :=
  ⟨fun a hs _ => rd_setFld_ne s _ a _ _ hs, rfl, rfl⟩

theorem StateTaken.modCtx {s t : State} {id : Nat} (h : StateTaken s t id) (k : Nat) (f : Ctx → Ctx) :
    StateTaken s (t.modCtx k f) id := ⟨h.regs, h.mem, h.parts⟩

theorem StateTaken.lens (s : State) (id : Nat) :
    StateTaken s ((lenRegs (id / 256) (id % 256)).foldl (fun t a => t.wr a 0) s) id := by
  have hrd := rd_foldl_wr_ne (lenRegs (id / 256) (id % 256)) (fun _ => 0) s
  obtain ⟨rs, e⟩ := foldl_wr_eq (lenRegs (id / 256) (id % 256)) (fun _ => 0) s
  exact ⟨fun a _ hl => hrd a hl, by rw [e], by rw [e]⟩

theorem createCtx_eq (s : State) (id : Nat) :
    s.createCtx id =
      (((lenRegs (id / 256) (id % 256)).foldl (fun t a => t.wr a 0) s).setCstate id 1).modCtx id Ctx.created := by
  rw [lenRegs, List.foldl_map]
  rfl

theorem createCtx_taken (s : State) (id : Nat) : StateTaken s (s.createCtx id) id := by
  rw [createCtx_eq]
  exact ((StateTaken.lens s id).trans (.setCstate _ id 1)).modCtx id _

theorem setCstate_canonical (s : State) (id st : Nat) (h : s.Canonical) : (s.setCstate id st).Canonical :=
  setFld_canonical s _ _ _ h

theorem cstate_setCstate (s : State) (id : Nat) {st : Nat} (h : s.Canonical) (hst : st < 16) : (s.setCstate id st).cstate id = st :=
  (fld_setFld s _ PT_CTXSTAT_STATE st h (by decide) (by decide)).trans (Nat.mod_eq_of_lt hst)

/-- The status of a context is none of its length registers. -/
theorem ctxstat_not_len (p : Nat) {slot : Nat} (hs : slot < 192) : a_PT_CTXSTAT p slot ∉ lenRegs p slot := by
  simp only [lenRegs, List.mem_map, List.mem_range, not_exists, not_and, a_SQ_LEN, a_PT_CTXSTAT]
  omega

/-- A created context is ACTIVE, its length registers are 0 and it holds no descriptor (R131). -/
theorem createCtx_created (s : State) {id : Nat} (h : s.Canonical) (hs : id % 256 < 192) :
    (s.createCtx id).cstate id = 1 ∧ (∀ i, i < 64 → (s.createCtx id).rd (a_SQ_LEN (id / 256) (id % 256) i) = 0) ∧
      ((s.createCtx id).ctx id).descs = [] := by
  have hzero := fun a ha => rd_foldl_wr_mem (as := lenRegs (id / 256) (id % 256)) (b := a) (fun _ => 0) s h ha
  have hc := foldl_wr_canonical (lenRegs (id / 256) (id % 256)) (fun _ => 0) s h
  rw [createCtx_eq]
  generalize (lenRegs (id / 256) (id % 256)).foldl (fun t a => t.wr a 0) s = u at hzero hc ⊢
  refine ⟨cstate_setCstate u id hc (by decide), fun i hi => ?_, ?_⟩
  · have hmem : a_SQ_LEN (id / 256) (id % 256) i ∈ lenRegs (id / 256) (id % 256) :=
      List.mem_map.mpr ⟨i, List.mem_range.mpr hi, rfl⟩
    exact (rd_setFld_ne u _ _ _ _ (fun e => ctxstat_not_len _ hs (e ▸ hmem))).trans (hzero _ hmem)
  · rw [ctx_modCtx _ _ _ (setCstate_canonical u id 1 hc)]
    rfl

theorem commitState_taken (s : State) (id was : Nat) : StateTaken s (s.commitState id was) id := by
  unfold commitState
  split
  · split
    · exact createCtx_taken s id
    · exact .refl s id
  split
  · exact .refl s id
  · exact .refl s id
  · exact (StateTaken.refl s id).modCtx id _
  split
  · have herased : StateTaken s (s.eraseKey id) id := ⟨fun _ _ _ => rfl, rfl, rfl⟩
    exact (herased.trans (.setCstate _ id 0)).modCtx id _
  · exact (StateTaken.setCstate s id 6).modCtx id _

theorem ptResume_taken (s : State) (id : Nat) : StateTaken s (s.ptResume id) id := by
  unfold ptResume
  split
  · exact .setCstate s id 1
  · exact .refl s id

/-! ### The commands on a context -/

/-- GO, and RESUME after it where the same write asks for it (R130). -/
def ptCommitted (s : State) (id : Nat) (resume : Bool) : State :=
  if resume then (s.ptCommit id).ptResume id else s.ptCommit id

theorem ptCommit_accepted {s : State} {id : Nat} (hok : s.commitOk id = true) :
    s.ptCommit id = (s.commit (ctxGroup id)).commitState id (s.cfg id PT_CTXCFG_ENABLE) := if_pos hok

theorem ptCommitted_taken {s : State} {id : Nat} (resume : Bool) (hok : s.commitOk id = true) :
    StateTaken (s.commit (ctxGroup id)) (s.ptCommitted id resume) id := by
  have hgo : StateTaken (s.commit (ctxGroup id)) (s.ptCommit id) id := ptCommit_accepted hok ▸ commitState_taken _ id _
  unfold ptCommitted
  split
  · exact hgo.trans (ptResume_taken _ id)
  · exact hgo

/-- An accepted commit that raises ENABLE creates the context; a RESUME beside it finds it ACTIVE. -/
theorem ptCommitted_creates {s : State} {id : Nat} (resume : Bool) (h : s.Canonical) (hs : id % 256 < 192)
    (hok : s.commitOk id = true) (hwas : s.cfg id PT_CTXCFG_ENABLE = 0)
    (hraise : s.stagedFld (cfgAddr id) PT_CTXCFG_ENABLE = 1) :
    s.ptCommitted id resume = (s.commit (ctxGroup id)).createCtx id := by
  have hlive : (s.commit (ctxGroup id)).cfg id PT_CTXCFG_ENABLE = 1 :=
    (fld_commit PT_CTXCFG_ENABLE h (as := ctxGroup id) (a := cfgAddr id) List.mem_cons_self).trans hraise
  have hgo : s.ptCommit id = (s.commit (ctxGroup id)).createCtx id := by
    rw [ptCommit_accepted hok, commitState, if_pos hlive, if_pos hwas]
  have hactive := (createCtx_created _ (commit_canonical s (ctxGroup id) h) hs).1
  have hresume : ((s.commit (ctxGroup id)).createCtx id).ptResume id = (s.commit (ctxGroup id)).createCtx id :=
    if_neg (by rw [hactive]; decide)
  rw [ptCommitted, hgo, hresume, ite_self]

/-- The group of PT_COMMIT holds neither the status nor the length registers of its slot. -/
theorem ctxGroup_apart {id a : Nat} (hs : id % 256 < 192) (ha : a ∈ ctxGroup id) :
    a ≠ a_PT_CTXSTAT (id / 256) (id % 256) ∧ a ∉ lenRegs (id / 256) (id % 256) := by
  simp only [ctxGroup, List.mem_cons, List.not_mem_nil, or_false, a_PT_CTXCFG, a_PT_CTXQUOTA, a_PT_CTXSEED] at ha
  simp only [lenRegs, List.mem_map, List.mem_range, not_exists, not_and, a_SQ_LEN, a_PT_CTXSTAT]
  exact ⟨by omega, fun k _ => by omega⟩

/-- The ring registers of a slot, which one SQ_COMMIT applies (R137). -/
def ringGroup (p slot : Nat) : List Nat := [a_SQ_RINGBASE p slot, a_SQ_CPLBASE p slot, a_SQ_RINGCFG p slot]

/-- An accepted SQ_COMMIT applies the ring registers, and a ring in use begins empty. -/
theorem sqCommitGo_accepted {s : State} {id : Nat} (h : s.Canonical) (hok : s.ringOk id = true) :
    s.sqCommitGo id =
      if s.stagedFld (a_SQ_RINGCFG (id / 256) (id % 256)) SQ_RINGCFG_ENABLE = 1 then
        (s.commit (ringGroup (id / 256) (id % 256))).modCtx id (fun c => { c with head := 0, fetch := 0, tail := 0, descs := [] })
      else s.commit (ringGroup (id / 256) (id % 256)) := by
  have hlive := fld_commit SQ_RINGCFG_ENABLE h (as := ringGroup (id / 256) (id % 256)) (a := a_SQ_RINGCFG (id / 256) (id % 256))
    (by simp [ringGroup])
  simp only [fld, ringGroup] at hlive
  simp only [sqCommitGo, hok, if_true, flag, hlive, beq_iff_eq, ringGroup]

/-- What an accepted SQ_COMMIT leaves. -/
structure RingTaken (s t : State) (id : Nat) : Prop where
  group : ∀ a ∈ ringGroup (id / 256) (id % 256), t.rd a = s.stagedRd a
  empty : s.stagedFld (a_SQ_RINGCFG (id / 256) (id % 256)) SQ_RINGCFG_ENABLE = 1 →
    (t.ctx id).head = 0 ∧ (t.ctx id).fetch = 0 ∧ (t.ctx id).tail = 0
  mem : t.mem = s.mem
  parts : t.parts = s.parts

/-- A ring in use begins empty. -/
theorem RingTaken.emptied {s t : State} {id : Nat} (hc : t.Canonical)
    (hgroup : ∀ a ∈ ringGroup (id / 256) (id % 256), t.rd a = s.stagedRd a) (hmem : t.mem = s.mem) (hparts : t.parts = s.parts) :
    RingTaken s (t.modCtx id (fun c => { c with head := 0, fetch := 0, tail := 0, descs := [] })) id := by
  refine ⟨hgroup, fun _ => ?_, hmem, hparts⟩
  rw [ctx_modCtx _ _ _ hc]
  exact ⟨rfl, rfl, rfl⟩

theorem sqCommitGo_taken {s : State} {id : Nat} (h : s.Canonical) (hok : s.ringOk id = true) : RingTaken s (s.sqCommitGo id) id := by
  have hgroup := fun a ha => rd_commit (s := s) (as := ringGroup (id / 256) (id % 256)) (a := a) h ha
  obtain ⟨rs, st, e⟩ := s.commit_eq (ringGroup (id / 256) (id % 256))
  rw [sqCommitGo_accepted h hok]
  by_cases hon : s.stagedFld (a_SQ_RINGCFG (id / 256) (id % 256)) SQ_RINGCFG_ENABLE = 1
  · rw [if_pos hon]
    exact .emptied (commit_canonical s _ h) hgroup (by rw [e]) (by rw [e])
  · rw [if_neg hon]
    exact ⟨hgroup, fun h => absurd h hon, by rw [e], by rw [e]⟩

/-! ### Doorbells (R135) -/

theorem ringSize_pos (s : State) (id : Nat) : 0 < s.ringSize id := Nat.two_pow_pos _

/-- The distance of an index from a place of a ring depends on the index modulo the ring alone. -/
theorem ringDistance_congr {n m size r : Nat} (hr : r ≤ size) (h : n % size = m % size) :
    (n + size - r) % size = (m + size - r) % size := by
  rw [Nat.add_sub_assoc hr, Nat.add_sub_assoc hr, ← Nat.mod_add_mod, h, Nat.mod_add_mod]

/-- A tail that has moved on by the distance to a new one stands at the new one, modulo the ring. -/
theorem ringAdvance_mod {n size : Nat} (tail : Nat) (hsize : 0 < size) :
    (tail + (n % size + size - tail % size) % size) % size = n % size := by
  have hlt : tail % size < size := Nat.mod_lt _ hsize
  rw [Nat.add_mod_mod, ← Nat.mod_add_mod, show tail % size + (n % size + size - tail % size) = n % size + size by omega,
    Nat.add_mod_right, Nat.mod_mod]

/-- A doorbell of an ACTIVE context with a ring in use, in a partition out of reset, is not lost in silence. -/
theorem doorbellFate_live {s : State} {id n : Nat} (hring : s.flag (a_SQ_RINGCFG (id / 256) (id % 256)) SQ_RINGCFG_ENABLE = true)
    (hact : s.cstate id = 1) (hin : s.inReset (id / 256) = false) :
    s.doorbellFate id n =
      if n % s.ringSize id = (s.ctx id).tail % s.ringSize id then .ignored
      else if ((s.ctx id).tail + s.ringSize id - (s.ctx id).head % s.ringSize id) % s.ringSize id
          ≤ (n + s.ringSize id - (s.ctx id).head % s.ringSize id) % s.ringSize id then .accepted
      else .backward := by
  simp [doorbellFate, hring, hact, hin]

/-- A doorbell that does not go backward sets the tail, or finds it where it is to be. -/
theorem doorbell_forward {s : State} {id n : Nat} (hring : s.flag (a_SQ_RINGCFG (id / 256) (id % 256)) SQ_RINGCFG_ENABLE = true)
    (hact : s.cstate id = 1) (hin : s.inReset (id / 256) = false)
    (hle : ((s.ctx id).tail + s.ringSize id - (s.ctx id).head % s.ringSize id) % s.ringSize id
      ≤ (n + s.ringSize id - (s.ctx id).head % s.ringSize id) % s.ringSize id) :
    s.doorbell id n = if n % s.ringSize id = (s.ctx id).tail % s.ringSize id then s
      else s.modCtx id (fun c => c.tailAt (s.ringSize id) n) := by
  rw [doorbell, doorbellFate_live hring hact hin, if_pos hle]
  by_cases hsame : n % s.ringSize id = (s.ctx id).tail % s.ringSize id
  · rw [if_pos hsame, if_pos hsame]
  · rw [if_neg hsame, if_neg hsame]
    rfl

theorem doorbell_backward {s : State} {id n : Nat} (hring : s.flag (a_SQ_RINGCFG (id / 256) (id % 256)) SQ_RINGCFG_ENABLE = true)
    (hact : s.cstate id = 1) (hin : s.inReset (id / 256) = false)
    (hlt : (n + s.ringSize id - (s.ctx id).head % s.ringSize id) % s.ringSize id
      < ((s.ctx id).tail + s.ringSize id - (s.ctx id).head % s.ringSize id) % s.ringSize id) :
    s.doorbell id n = s.faultPart (id / 256) cPROTO := by
  have hne : n % s.ringSize id ≠ (s.ctx id).tail % s.ringSize id := fun e =>
    absurd (ringDistance_congr (Nat.mod_lt (s.ctx id).head (s.ringSize_pos id)).le e) (Nat.ne_of_lt hlt)
  rw [doorbell, doorbellFate_live hring hact hin, if_neg hne, if_neg (Nat.not_le.mpr hlt)]

theorem faultPart_ctxs (s : State) (p cls : Nat) : (s.faultPart p cls).ctxs = s.ctxs := by
  obtain ⟨r, e⟩ := s.faultPart_eq_report p cls
  rw [e]
  exact (ReadKeeps.report s _ r).ctxs

end State

/-! ### The commands -/

theorem exec_ptCommitGo_admitted {who : Requester} {pp : Fin 24} {slot : BitVec 8} {s : State} (resume : Bool)
    (hg : s.gate who (a_PT_COMMIT pp) true = none) (hslot : s.slotOk slot.toNat = true) :
    exec (.ptCommitGo who pp slot resume) s = .next (s.ptCommitted (cid pp slot.toNat) resume) :=
  next_gated _ hg (by simp only [hslot, Bool.not_true, Bool.false_eq_true, if_false]; rfl)

theorem exec_ptCommitResume_admitted {who : Requester} {pp : Fin 24} {slot : BitVec 8} {s : State}
    (hg : s.gate who (a_PT_COMMIT pp) true = none) (hslot : s.slotOk slot.toNat = true) :
    exec (.ptCommitResume who pp slot) s = .next (s.ptResume (cid pp slot.toNat)) :=
  next_gated _ hg (by simp only [hslot, Bool.not_true, Bool.false_eq_true, if_false])

theorem exec_sqCommit_admitted {who : Requester} {pp : Fin 24} {slot : BitVec 8} {s : State}
    (hg : s.gate who (a_SQ_COMMIT pp) true = none) (hslot : s.slotOk slot.toNat = true) :
    exec (.sqCommit who pp slot) s = .next (s.sqCommitGo (cid pp slot.toNat)) :=
  next_gated _ hg (by simp only [hslot, Bool.not_true, Bool.false_eq_true, if_false])

theorem exec_sqDb_admitted {who : Requester} {pp : Fin 24} {slot : BitVec 8} {n : BitVec 16} {s : State} (hslot : slot.toNat < 192)
    (hg : s.gate who (a_SQ_DB pp slot.toNat) true = none) (hown : s.cfg (cid pp slot.toNat) PT_CTXCFG_HOST_OWNED ≠ 1) :
    exec (.sqDb who pp slot n) s = .next (s.doorbell (cid pp slot.toNat) n.toNat) := by
  show execSqDb who pp slot n s = _
  rw [execSqDb, if_neg (Nat.not_le.mpr hslot)]
  exact next_gated _ hg (if_neg hown)

/-- Settles O9: a commit applies its group and then gives the context its new state, and a doorbell's distances decide its fate. -/
theorem contextsRingsAndDoorbells : Obligations.ContextsRingsAndDoorbells := by
  unfold Obligations.ContextsRingsAndDoorbells
  refine ⟨⟨fun who pp slot resume s h hg hslot hok => ?commit, fun who pp slot s h hg hslot hst => ?resume,
    fun who pp slot s h hg hslot hok => ?ring⟩, fun who pp slot n s h hslot hg hown hring hact hin => ?doorbell⟩
  case commit =>
    have hp : cid pp slot.toNat / 256 = pp := cid_div pp (slotOk_lt hslot)
    have hs : cid pp slot.toNat % 256 = slot.toNat := cid_mod pp (slotOk_lt hslot)
    have hlt : cid pp slot.toNat % 256 < 192 := by rw [hs]; exact slotOk_lt hslot
    have htaken := ptCommitted_taken resume hok
    obtain ⟨rs, st, e⟩ := s.commit_eq (ctxGroup (cid pp slot.toNat))
    refine ⟨_, exec_ptCommitGo_admitted resume hg hslot, fun a ha => ?_, fun hwas hraise => ?_, htaken.mem.trans (by rw [e]),
      htaken.parts.trans (by rw [e])⟩
    · obtain ⟨hstat, hlen⟩ := ctxGroup_apart hlt ha
      exact (htaken.regs a hstat hlen).trans (rd_commit h ha)
    · have hraise : s.stagedFld (cfgAddr (cid pp slot.toNat)) PT_CTXCFG_ENABLE = 1 := by rw [cfgAddr, hp, hs]; exact hraise
      rw [ptCommitted_creates resume h hlt hok hwas hraise]
      have hcreated := createCtx_created _ (commit_canonical s (ctxGroup (cid pp slot.toNat)) h) hlt
      rwa [hp, hs] at hcreated
  case resume =>
    have hp : cid pp slot.toNat / 256 = pp := cid_div pp (slotOk_lt hslot)
    have hs : cid pp slot.toNat % 256 = slot.toNat := cid_mod pp (slotOk_lt hslot)
    have hresume : s.ptResume (cid pp slot.toNat) = s.setCstate (cid pp slot.toNat) 1 := if_pos hst
    refine ⟨_, (exec_ptCommitResume_admitted hg hslot).trans (congrArg Host.Outcome.next hresume),
      cstate_setCstate s _ h (by decide), fun a ha => rd_setFld_ne s _ a _ _ ?_, rfl, rfl⟩
    rwa [hp, hs]
  case ring =>
    have hp : cid pp slot.toNat / 256 = pp := cid_div pp (slotOk_lt hslot)
    have hs : cid pp slot.toNat % 256 = slot.toNat := cid_mod pp (slotOk_lt hslot)
    obtain ⟨hgroup, hempty, hmem, hparts⟩ := sqCommitGo_taken h hok
    rw [hp, hs] at hgroup hempty
    exact ⟨_, exec_sqCommit_admitted hg hslot, hgroup _ (by simp [ringGroup]), hgroup _ (by simp [ringGroup]),
      hgroup _ (by simp [ringGroup]), hempty, hmem, hparts⟩
  case doorbell =>
    intro c size
    have hp : cid pp slot.toNat / 256 = pp := cid_div pp hslot
    have hs : cid pp slot.toNat % 256 = slot.toNat := cid_mod pp hslot
    have hring : s.flag (a_SQ_RINGCFG (cid pp slot.toNat / 256) (cid pp slot.toNat % 256)) SQ_RINGCFG_ENABLE = true := by
      rwa [hp, hs]
    have hin : s.inReset (cid pp slot.toNat / 256) = false := by rwa [hp]
    refine ⟨fun hle => ?_, fun hlt => ?_⟩
    · refine ⟨_, (exec_sqDb_admitted hslot hg hown).trans (congrArg Host.Outcome.next (doorbell_forward hring hact hin hle)), ?_⟩
      split
      · rename_i hsame
        exact ⟨hsame.symm, rfl, fun _ _ => rfl, rfl, rfl, rfl⟩
      · refine ⟨?_, ?_, fun k hk => ctx_modCtx_ne s _ hk, rfl, rfl, rfl⟩
        · rw [ctx_modCtx s _ _ h]
          exact ringAdvance_mod _ (s.ringSize_pos _)
        · rw [ctx_modCtx s _ _ h]
          rfl
    · have hback := doorbell_backward hring hact hin hlt
      rw [hp] at hback
      exact ⟨(exec_sqDb_admitted hslot hg hown).trans (congrArg Host.Outcome.next hback), s.faultPart_ctxs pp cPROTO⟩

end Sys2Proof.Machine
end

section
/-! PROOFS. The end of DRAINING (R132). -/

namespace Sys2Proof.Machine

open State

namespace State

theorem tsZero_canonical (s : State) (p off n : Nat) (h : s.Canonical) : (s.tsZero p off n).Canonical :=
  { h with
    ts := (Sparse.wf_drop (fun k => within k 1 (tsKey p off) n) h.ts :)
    tsPoison := (Sparse.wf_drop (fun k => within (k * 256) 256 (tsKey p off) n) h.tsPoison :)
    tsDirty := (Sparse.wf_drop (fun k => within (k * 64) 64 (tsKey p off) n) h.tsDirty :)
    tsFlips := (Sparse.wf_drop (fun k => within (k * 8) 8 (tsKey p off) n) h.tsFlips :) }

theorem setCharge_canonical (s : State) (id tier n : Nat) (h : s.Canonical) : (s.setCharge id tier n).Canonical := by
  unfold setCharge
  split <;> exact setFld_canonical s _ _ _ h

/-- From s to t claims are given back: no context, no key, no memory and no binding of the partition changes. -/
structure GivesBack (s t : State) (p : Nat) : Prop where
  canonical : t.Canonical
  ctxs : t.ctxs = s.ctxs
  keys : t.keys = s.keys
  mem : t.mem = s.mem
  binds : (t.part p).binds = (s.part p).binds

theorem GivesBack.refl {s : State} (p : Nat) (h : s.Canonical) : GivesBack s s p := ⟨h, rfl, rfl, rfl, rfl⟩

theorem GivesBack.trans {s t u : State} {p : Nat} (h : GivesBack s t p) (g : GivesBack t u p) : GivesBack s u p :=
  ⟨g.canonical, g.ctxs.trans h.ctxs, g.keys.trans h.keys, g.mem.trans h.mem, g.binds.trans h.binds⟩

/-- What every step gives back, all of them give back. -/
theorem GivesBack.foldl {α : Type} {p : Nat} (xs : List α) {f : State → α → State} (hf : ∀ t x, t.Canonical → GivesBack t (f t x) p)
    {s : State} (h : s.Canonical) : GivesBack s (xs.foldl f s) p := by
  induction xs generalizing s with
  | nil => exact .refl p h
  | cons x xs ih => exact (hf s x h).trans (ih (hf s x h).canonical)

theorem GivesBack.tsZero (s : State) (p off n : Nat) (h : s.Canonical) : GivesBack s (s.tsZero p off n) p :=
  ⟨tsZero_canonical s p off n h, rfl, rfl, rfl, rfl⟩

theorem GivesBack.dropRegions (s : State) (p slot va n : Nat) (h : s.Canonical) : GivesBack s (s.dropRegions p slot va n) p :=
  ⟨modPart_canonical s p _ h, rfl, rfl, rfl, (congrArg Part.binds (part_modPart s p _ h)).trans rfl⟩

theorem GivesBack.setCharge (s : State) (p id tier n : Nat) (h : s.Canonical) : GivesBack s (s.setCharge id tier n) p := by
  have hc := setCharge_canonical s id tier n h
  unfold State.setCharge at hc ⊢
  split at hc <;> exact ⟨hc, rfl, rfl, rfl, rfl⟩

/-- A predicate bit becomes 0 and has no owner. -/
def disowned (t : State) (p i : Nat) : State := (t.setPred p i false).setFld (a_PT_PREDOWN p (i / 8)) ⟨i % 8 * 8 + 7, i % 8 * 8⟩ 0xFF

theorem GivesBack.disowned (s : State) (p i : Nat) (h : s.Canonical) : GivesBack s (s.disowned p i) p :=
  ⟨setFld_canonical _ _ _ _ (wr_canonical s _ _ h), rfl, rfl, rfl, rfl⟩

/-- The bindings of a slot are gone. -/
def unbound (s : State) (p slot : Nat) : State := s.modPart p (fun x => { x with binds := x.binds.filter (fun b => b.slot != slot) })

theorem unbound_canonical (s : State) (p slot : Nat) (h : s.Canonical) : (s.unbound p slot).Canonical := modPart_canonical s p _ h

/-- No binding of the slot is left. -/
theorem unbound_binds {s : State} {p slot : Nat} (h : s.Canonical) : ∀ b ∈ ((s.unbound p slot).part p).binds, b.slot ≠ slot := by
  intro b hb
  rw [unbound, part_modPart s p _ h] at hb
  simpa using (List.mem_filter.mp hb).2

/-- The bindings of a context are gone, and its claims, its charges and its predicate bits are given back (R132 steps 4 to 7). -/
def claimsFreed (s : State) (p slot id : Nat) : State :=
  let cs := (s.ctx id).claims
  let t := s.unbound p slot
  let t := (cs.filter (fun c => c.tier == 0)).foldl (fun t c => t.tsZero p c.addr c.bytes) t
  let t := (cs.filter (fun c => c.tier != 0)).foldl (fun t c => t.dropRegions p slot c.addr c.bytes) t
  let t := [0, 1, 2].foldl (fun t k => t.setCharge id k 0) t
  (List.range 256).foldl (fun t i => if s.predOwner p i = slot then t.disowned p i else t) t

theorem claimsFreed_givesBack {s : State} (p slot id : Nat) (h : s.Canonical) :
    GivesBack (s.unbound p slot) (s.claimsFreed p slot id) p := by
  unfold claimsFreed
  have hunbound := unbound_canonical s p slot h
  generalize s.unbound p slot = u at hunbound ⊢
  have hzeroed := GivesBack.foldl (p := p) ((s.ctx id).claims.filter (fun c => c.tier == 0))
    (f := fun t c => t.tsZero p c.addr c.bytes) (fun t c ht => .tsZero t p c.addr c.bytes ht) hunbound
  have hdropped := hzeroed.trans (GivesBack.foldl ((s.ctx id).claims.filter (fun c => c.tier != 0))
    (f := fun t c => t.dropRegions p slot c.addr c.bytes) (fun t c ht => .dropRegions t p slot c.addr c.bytes ht) hzeroed.canonical)
  have hcharged := hdropped.trans (GivesBack.foldl [0, 1, 2] (f := fun t k => t.setCharge id k 0)
    (fun t k ht => .setCharge t p id k 0 ht) hdropped.canonical)
  refine hcharged.trans (GivesBack.foldl _ (fun t i ht => ?_) hcharged.canonical)
  split
  · exact .disowned t p i ht
  · exact .refl p ht

/-- The context is FREE: its key is erased, and of its contents the places of its ring alone stay. -/
def emptied (t : State) (id : Nat) : State :=
  ((t.eraseKey id).setCstate id 0).modCtx id (fun c => { Ctx.init with head := c.head, fetch := c.fetch, tail := c.tail })

theorem freeCtx_eq (s : State) (id : Nat) : s.freeCtx id = (s.claimsFreed (id / 256) (id % 256) id).emptied id := rfl

theorem eraseKey_canonical (t : State) (id : Nat) (h : t.Canonical) : (t.eraseKey id).Canonical :=
  { h with keys := Sparse.wf_put 0 h.keys }

/-- An emptied context is FREE without key, descriptors and claims (R132 step 8). -/
theorem emptied_free {t : State} (id : Nat) (h : t.Canonical) :
    (t.emptied id).cstate id = 0 ∧ (t.emptied id).keyAt id = 0 ∧ ((t.emptied id).ctx id).descs = [] ∧
      ((t.emptied id).ctx id).claims = [] := by
  have herased := eraseKey_canonical t id h
  have hctx := ctx_modCtx ((t.eraseKey id).setCstate id 0) id
    (fun c => { Ctx.init with head := c.head, fetch := c.fetch, tail := c.tail }) (setCstate_canonical _ id 0 herased)
  refine ⟨(cstate_setCstate (t.eraseKey id) id (st := 0) herased (by decide) :), ?_, congrArg Ctx.descs hctx, congrArg Ctx.claims hctx⟩
  exact Sparse.get_put (d := fun _ => 0) 0 (Sparse.wf_sorted h.keys)

theorem emptied_part (t : State) (id p : Nat) : (t.emptied id).part p = t.part p := rfl

theorem emptied_mem (t : State) (id : Nat) : (t.emptied id).mem = t.mem := rfl

end State

theorem exec_contextDrained {pp : Fin 24} {slot : Fin 192} {s : State} (hst : s.cstate (cid pp slot) = 6)
    (hdrained : s.drained (cid pp slot) = true) : exec (.contextDrained pp slot) s = .next (s.freeCtx (cid pp slot)) := by
  change execContextDrained pp slot s = _
  simp only [execContextDrained, hst, hdrained, decide_true, Bool.and_self, if_true]

/-- Settles O16: what is given back changes neither context nor key, and the context is then emptied. -/
theorem drainedContextBecomesFree : Obligations.DrainedContextBecomesFree := by
  unfold Obligations.DrainedContextBecomesFree
  intro pp slot s h hst hdrained
  have hfreed := claimsFreed_givesBack (cid pp slot / 256) (cid pp slot % 256) (cid pp slot) h
  have hnone := unbound_binds (p := cid pp slot / 256) (slot := cid pp slot % 256) h
  obtain ⟨hfree, hkey, hdescs, hclaims⟩ := emptied_free (cid pp slot) hfreed.canonical
  refine ⟨_, exec_contextDrained hst hdrained, ?_⟩
  rw [freeCtx_eq]
  refine ⟨hfree, hkey, hdescs, hclaims, ?_, (emptied_mem _ _).trans hfreed.mem⟩
  rw [← hfreed.binds, cid_div pp slot.isLt, cid_mod pp slot.isLt] at hnone
  rw [emptied_part, cid_div pp slot.isLt, cid_mod pp slot.isLt]
  exact hnone

end Sys2Proof.Machine
end

section
/-! PROOFS. Submission of a fetched descriptor, and one probe of the translation search (R143, R146, R193, R196). -/

namespace Sys2Proof.Machine

open State

namespace State

/-! ### Submission (R143, R146) -/

/-- A descriptor without an illegal field goes on to its translation. -/
theorem submitNext_legal {s : State} {id : Nat} {d : Desc} (hrun : s.mayRun id = true)
    (hd : (s.ctx id).descs.find? (fun x => x.stage == .fetching) = some d) (hlegal : smallest (s.submissionBad id d).1 = none) :
    s.submitNext id = s.startXlate id d := by
  rcases hb : s.submissionBad id d with ⟨bad, sec⟩
  rw [hb] at hlegal
  simp only [submitNext, hd, hrun, hb, hlegal, Bool.not_true, Bool.false_eq_true, if_false]

/-- A descriptor with an illegal field ends at once with the position of the lowest one. -/
theorem submitNext_illegal {s : State} {id pos : Nat} {d : Desc} (hrun : s.mayRun id = true)
    (hd : (s.ctx id).descs.find? (fun x => x.stage == .fetching) = some d) (hpos : smallest (s.submissionBad id d).1 = some pos)
    (hsec : (s.submissionBad id d).2 = false) : s.submitNext id = s.finish id d.index stILLEGAL pos := by
  rcases hb : s.submissionBad id d with ⟨bad, sec⟩
  rw [hb] at hpos hsec
  simp only at hpos hsec
  simp only [submitNext, hd, hrun, hb, hpos, hsec, Bool.not_true, Bool.false_eq_true, if_false]

theorem startXlate_none {s : State} {id : Nat} {d : Desc} (h : translated d = []) :
    s.startXlate id d = s.modDesc id d.index (fun x => { x with stage := .ready, opnds := [], marked := false }) := by
  simp only [startXlate, h]

/-! ### A probe (R193, R196) -/

/-- The place in the table that the next probe of a search tries, counted from 1. -/
def probePlace (y : Xlate) : Nat := y.pos + 2 ^ (y.left - 1)

/-- The address of the entry that the next probe of a search reads. -/
def probeEntry (y : Xlate) : Nat := y.tbase + (min (probePlace y) y.count - 1) * 32

/-- The search after a probe that read the entry e. -/
def halved (y : Xlate) (e : List Word) : Xlate :=
  { y with
    since := 0
    left := y.left - 1
    pos := if probePlace y ≤ y.count ∧ entryStart e ≤ y.cur then probePlace y else y.pos
    best := if probePlace y ≤ y.count ∧ entryStart e ≤ y.cur then e else y.best }

/-- The descriptor's entry once the first probe has taken the table and the epoch. -/
def stamped (s : State) (id : Nat) (d : Desc) (x : Xlate) (z : Desc) : Desc :=
  if x.begun then z else { z with epoch := s.fld (a_XL_ASSTAT (s.asidOf id)) XL_ASSTAT_EPOCH, xlate := some (s.latchTable id d x) }

/-- The state once the first probe has taken the table. -/
def tableTaken (s : State) (id : Nat) (d : Desc) (x : Xlate) : State :=
  if x.begun then s else s.modDesc id d.index (s.stamped id d x)

theorem tableTaken_eq (s : State) (id : Nat) (d : Desc) (x : Xlate) : ∃ cs, s.tableTaken id d x = { s with ctxs := cs } := by
  unfold tableTaken
  split
  · exact ⟨_, rfl⟩
  · exact ⟨_, rfl⟩

theorem tableTaken_canonical {s : State} (id : Nat) (d : Desc) (x : Xlate) (h : s.Canonical) : (s.tableTaken id d x).Canonical := by
  unfold tableTaken
  split
  · exact h
  · exact modDesc_canonical s _ _ _ h

theorem tableTaken_descs {s : State} (id : Nat) (d : Desc) (x : Xlate) (h : s.Canonical) :
    ((s.tableTaken id d x).ctx id).descs = endsWith d.index (s.stamped id d x) (s.ctx id).descs := by
  unfold tableTaken
  split
  · rename_i hb
    simp [endsWith, stamped, hb]
  · exact descs_modDesc s id d.index _ h

/-- What a read of the range table leaves. -/
def tableRead (t : State) (at_ : Nat) : State := (({ t with fresh := t.fresh + 1 } : State).readAs clsAccel keySYS at_ 32).1

/-- The entry that stands at an address of the range table, with its poison. -/
def tableEntry (s : State) (at_ : Nat) : List Byte × Bool := ({ s with fresh := s.fresh + 1 } : State).readMem keySYS at_ 32

/-! What the memory shows does not depend on the contexts. -/

theorem flushLine_ctxs (s : State) (cs : Sparse Ctx) (l : Line) :
    (({ s with ctxs := cs } : State).flushLine l).unreported = { (s.flushLine l).unreported with ctxs := cs } := by
  have hkey : ({ s with ctxs := cs } : State).keyAt l.key = s.keyAt l.key := rfl
  unfold flushLine
  rw [hkey]
  split
  · simp only [unreported_reportSec]
    rfl
  · rfl

theorem pullBack_ctxs (s : State) (cs : Sparse Ctx) (u : Nat) :
    (({ s with ctxs := cs } : State).pullBack u).unreported = { (s.pullBack u).unreported with ctxs := cs } := by
  have hholder : ({ s with ctxs := cs } : State).dirtyHolder u = s.dirtyHolder u := rfl
  unfold pullBack
  rw [hholder]
  cases s.dirtyHolder u with
  | none => rfl
  | some l => exact flushLine_ctxs s cs l

theorem readUnit_ctxs (s : State) (cs : Sparse Ctx) (k u : Nat) : ({ s with ctxs := cs } : State).readUnit k u = s.readUnit k u := by
  have hpulled (key : Nat) : (({ s with ctxs := cs } : State).pullBack u).unitUnder key u = (s.pullBack u).unitUnder key u :=
    (congrArg (fun x : State => x.unitUnder key u) (pullBack_ctxs s cs u) :)
  unfold readUnit
  rw [hpulled]
  rfl

theorem readMem_ctxs (s : State) (cs : Sparse Ctx) (k a n : Nat) : ({ s with ctxs := cs } : State).readMem k a n = s.readMem k a n := by
  have hlaid (bs : List PByte) :
      ({ s with ctxs := cs } : State).laid 0 (({ s with ctxs := cs } : State).alts k) a bs = s.laid 0 (s.alts k) a bs := rfl
  have hbytes : ({ s with ctxs := cs } : State).readMemP k a n = s.readMemP k a n := by
    unfold readMemP
    simp only [readUnit_ctxs, hlaid]
  rw [readMem, hbytes]
  rfl

theorem tableEntry_taken (s : State) (id : Nat) (d : Desc) (x : Xlate) (at_ : Nat) :
    (s.tableTaken id d x).tableEntry at_ = s.tableEntry at_ := by
  obtain ⟨cs, e⟩ := s.tableTaken_eq id d x
  rw [e]
  exact readMem_ctxs ({ s with fresh := s.fresh + 1 } : State) cs keySYS at_ 32

theorem shutLine_taken (s : State) (id : Nat) (d : Desc) (x : Xlate) (who : Nat) (rs : List Range) :
    ({ s.tableTaken id d x with fresh := (s.tableTaken id d x).fresh + 1 } : State).shutLine who rs = s.shutLine who rs := by
  obtain ⟨cs, e⟩ := s.tableTaken_eq id d x
  rw [e]
  rfl

/-- A probe that does not end the search halves it. -/
theorem probed_halves {v : State} {id idx : Nat} {d : Desc} {y : Xlate} {e : List Word} (hseq : y.inSeq = false) (hleft : 2 ≤ y.left) :
    v.probed id d { y with since := 0 } idx e = v.modDesc id d.index (fun z => { z with xlate := some (halved y e) }) := by
  have hsearching : ¬ y.inSeq = true := by rw [hseq]; decide
  have hmore : y.left - 1 ≠ 0 := by omega
  have hbelow : ((decide (probePlace y ≤ y.count) && decide (entryStart e ≤ y.cur)) = true) ↔
      (probePlace y ≤ y.count ∧ entryStart e ≤ y.cur) := by simp
  refine (if_neg hsearching).trans ((if_pos hmore).trans ?_)
  refine congrArg (fun z : Xlate => v.modDesc id d.index (fun d => { d with xlate := some z })) ?_
  exact (congrArg₂ (fun p b => ({ y with since := 0, left := y.left - 1, pos := p, best := b } : Xlate))
    (if_congr hbelow rfl rfl) (if_congr hbelow rfl rfl) :)

/-- A probe of a table whose home serves it reads the entry at its place. -/
theorem probe_served {s : State} {id : Nat} {d : Desc} {x : Xlate} (hseq : (s.latchTable id d x).inSeq = false)
    (hcount : (s.latchTable id d x).count ≠ 0)
    (hserved : s.fare roleCOH (burlOf (id / 256)) (probeEntry (s.latchTable id d x)) = .served) :
    s.probe id d x = ({ s.tableTaken id d x with fresh := (s.tableTaken id d x).fresh + 1 } : State).asking (naPart (id / 256))
      [⟨probeEntry (s.latchTable id d x), 32⟩] (fun t =>
        let (bs, poison) := t.readMem keySYS (probeEntry (s.latchTable id d x)) 32
        let (v, _) := t.readAs clsAccel keySYS (probeEntry (s.latchTable id d x)) 32
        if poison then v.xlateStop id d { s.latchTable id d x with since := 0 } 6
        else v.probed id d { s.latchTable id d x with since := 0 }
          (min (probePlace (s.latchTable id d x)) (s.latchTable id d x).count - 1) (wordsOf bs 4)) := by
  have htaken : (if x.begun then s else s.modDesc id d.index (fun z => { z with
      epoch := s.fld (a_XL_ASSTAT (s.asidOf id)) XL_ASSTAT_EPOCH, xlate := some (s.latchTable id d x) }))
      = s.tableTaken id d x := by
    unfold tableTaken
    by_cases hb : x.begun = true
    · rw [if_pos hb, if_pos hb]
    · rw [if_neg hb, if_neg hb]
      exact congrArg (s.modDesc id d.index) (funext fun z => (if_neg hb).symm)
  have hplace : (if (s.latchTable id d x).inSeq = true then (s.latchTable id d x).pos
      else min ((s.latchTable id d x).pos + 2 ^ ((s.latchTable id d x).left - 1)) (s.latchTable id d x).count - 1)
      = min (probePlace (s.latchTable id d x)) (s.latchTable id d x).count - 1 := if_neg (by rw [hseq]; decide)
  unfold probe
  simp only [htaken, hcount, if_false, hplace]
  rw [probeEntry] at hserved
  rw [hserved]
  rfl

theorem probe_halves {s : State} {id : Nat} {d : Desc} {x : Xlate} (hseq : (s.latchTable id d x).inSeq = false)
    (hleft : 2 ≤ (s.latchTable id d x).left) (hcount : (s.latchTable id d x).count ≠ 0)
    (hserved : s.fare roleCOH (burlOf (id / 256)) (probeEntry (s.latchTable id d x)) = .served)
    (hopen : s.Admitted (naPart (id / 256)) (probeEntry (s.latchTable id d x)) 32)
    (hclean : (s.tableEntry (probeEntry (s.latchTable id d x))).2 = false) :
    s.probe id d x = ((s.tableTaken id d x).tableRead (probeEntry (s.latchTable id d x))).modDesc id d.index (fun z =>
      { z with xlate := some (halved (s.latchTable id d x) (wordsOf (s.tableEntry (probeEntry (s.latchTable id d x))).1 4)) }) := by
  have hasked := (s.shutLine_taken id d x (naPart (id / 256)) [⟨probeEntry (s.latchTable id d x), 32⟩]).trans hopen
  have hentry := s.tableEntry_taken id d x (probeEntry (s.latchTable id d x))
  rw [probe_served hseq hcount hserved]
  refine (asking_admitted hasked _).trans ?_
  refine (if_neg (?_ : ¬ ((s.tableTaken id d x).tableEntry (probeEntry (s.latchTable id d x))).2 = true)).trans ?_
  · rw [hentry, hclean]
    decide
  · rw [← hentry]
    exact probed_halves hseq hleft

/-- Where no stored bit has changed and the class fills no slice, a read leaves memories as they were (R179, R234). -/
theorem readAs_stored (s : State) (cls k a n : Nat) (hflips : s.flips = []) (hway : s.fld (a_SC_WAYMASK cls) SC_WAYMASK_MASK = 0) :
    (s.readAs cls k a n).1.mem = s.mem ∧ (s.readAs cls k a n).1.units = s.units ∧ (s.readAs cls k a n).1.ts = s.ts := by
  have hsame := unreported_reportSec s a n
  rcases readAs_reports s cls k a n hflips hway with e | e
  · rw [e]
    exact ⟨rfl, rfl, rfl⟩
  · rw [e]
    exact ⟨(congrArg State.mem hsame :), (congrArg State.units hsame :), (congrArg State.ts hsame :)⟩

theorem tableRead_quiet (s : State) (id : Nat) (d : Desc) (x : Xlate) (at_ : Nat) :
    s.quietRead ((s.tableTaken id d x).tableRead at_) clsAccel := by
  intro hflips hway
  obtain ⟨cs, e⟩ := s.tableTaken_eq id d x
  rw [e]
  exact readAs_stored ({ s with ctxs := cs, fresh := s.fresh + 1 } : State) clsAccel keySYS at_ 32 hflips hway

theorem tableRead_keeps (t : State) (at_ : Nat) : ReadKeeps t (t.tableRead at_) :=
  (ReadKeeps.readAs _ clsAccel keySYS at_ 32).after (t := { t with fresh := t.fresh + 1 }) rfl rfl

/-- The entries of a context after a change of those with an index, in a state whose contexts are those of a canonical one. -/
theorem descs_modDesc_of_ctxs {s v : State} (id index : Nat) (f : Desc → Desc) (h : s.Canonical) (hv : v.ctxs = s.ctxs) :
    ((v.modDesc id index f).ctx id).descs = endsWith index f (s.ctx id).descs := by
  have hsorted : Sparse.sorted v.ctxs = true := by rw [hv]; exact Sparse.wf_sorted h.ctxs
  have hctx : v.ctx id = s.ctx id := by rw [ctx, hv, ctx]
  have hput := Sparse.get_put (d := fun _ => Ctx.init) (k := id)
    { v.ctx id with descs := (v.ctx id).descs.map (fun d => if d.index = index then f d else d) } hsorted
  rw [← hctx]
  exact (congrArg Ctx.descs hput :)

end State

/-! ### The commands -/

theorem exec_descriptorSubmit (pp : Fin 24) (slot : Fin 192) (s : State) :
    exec (.descriptorSubmit pp slot) s = .next (s.submitNext (cid pp slot)) := rfl

theorem exec_rangeTableProbe {pp : Fin 24} {slot : Fin 192} {d : Desc} {x : Xlate} {s : State} (hrun : s.mayRun (cid pp slot) = true)
    (hd : (s.ctx (cid pp slot)).descs.find? (fun y => y.stage == .translating) = some d) (hx : d.xlate = some x) :
    exec (.rangeTableProbe pp slot) s = .next (s.probe (cid pp slot) d x) := by
  change execRangeTableProbe pp slot s = _
  simp only [execRangeTableProbe, hd, hx, hrun, if_true]

/-- Settles O14: a legal descriptor without operands starts no translation, an illegal one ends, and a probe rewrites the search alone. -/
theorem submissionAndTranslation : Obligations.SubmissionAndTranslation := by
  unfold Obligations.SubmissionAndTranslation
  refine ⟨fun pp slot d s h hrun hd => ?submission, fun pp slot d x s h hrun hd hx => ?probe⟩
  case submission =>
    intro id
    refine ⟨fun hlegal hnone => ?ready, fun pos hpos hsec => ?illegal⟩
    case ready =>
      have hready := (submitNext_legal hrun hd hlegal).trans (startXlate_none hnone)
      exact ⟨_, (exec_descriptorSubmit pp slot s).trans (congrArg Host.Outcome.next hready), descs_modDesc s id d.index _ h, rfl, rfl⟩
    case illegal =>
      have hends := finish_becomes s id d.index stILLEGAL pos h
      rw [show id / 256 = pp from cid_div pp slot.isLt] at hends
      obtain ⟨cs, rs, e⟩ := finish_rest s id d.index stILLEGAL pos
      exact ⟨_, (exec_descriptorSubmit pp slot s).trans (congrArg Host.Outcome.next (submitNext_illegal hrun hd hpos hsec)), hends,
        finish_sameRegs s id d.index stILLEGAL pos, by rw [e]⟩
  case probe =>
    intro id y cand at_ bs e hseq hleft hcount hserved hopen hclean
    have hp : id / 256 = pp := cid_div pp slot.isLt
    have hhalves : s.probe id d x = _ := probe_halves hseq hleft hcount (by rw [hp]; exact hserved) (by rw [hp]; exact hopen) hclean
    have hkeeps := (s.tableTaken id d x).tableRead_keeps (probeEntry y)
    refine ⟨_, (exec_rangeTableProbe hrun hd hx).trans (congrArg Host.Outcome.next hhalves), ?_, s.tableRead_quiet id d x (probeEntry y)⟩
    rw [descs_modDesc_of_ctxs id d.index _ (tableTaken_canonical id d x h) hkeeps.ctxs, tableTaken_descs id d x h,
      endsWith_endsWith _ _ _ _ (fun z hz => by unfold stamped; split <;> exact hz)]
    refine List.map_congr_left (fun z _ => ?_)
    unfold stamped
    cases x.begun <;> rfl

end Sys2Proof.Machine
end

section
/-! PROOFS. A completion record is written to its ring, and what follows it (R138–R142, R156, R161, R198). -/

namespace Sys2Proof.Machine

open State

namespace State

/-- The entries with an index are recorded. -/
def recordedAt (index : Nat) (c : Ctx) : Prop := ∀ e ∈ c.descs, e.index = index → e.stage = .recorded

/-- From s to t, in a partition p, a record was issued: memory and the step of the recovery are as they were, and the entries of
the descriptor are recorded. -/
structure RecordIssued (s t : State) (p id index : Nat) : Prop where
  ctxs : Sparse.wf (fun _ => Ctx.init) t.ctxs = true
  mem : t.mem = s.mem
  step : t.recStep p = s.recStep p
  entries : recordedAt index (t.ctx id)

section
variable {s t : State} {p id index : Nat}

theorem ctx_modCtx_of_wf (k : Nat) (f : Ctx → Ctx) (h : Sparse.wf (fun _ => Ctx.init) t.ctxs = true) :
    (t.modCtx k f).ctx k = f (t.ctx k) := Sparse.get_put (d := fun _ => Ctx.init) _ (Sparse.wf_sorted h)

/-- A change of a context that takes no recorded entry of the descriptor back. -/
theorem RecordIssued.modCtx {k : Nat} {f : Ctx → Ctx} (h : RecordIssued s t p id index)
    (hf : ∀ c, recordedAt index c → recordedAt index (f c)) : RecordIssued s (t.modCtx k f) p id index := by
  refine ⟨Sparse.wf_put _ h.ctxs, h.mem, h.step, ?_⟩
  by_cases hk : id = k
  · rw [← hk, ctx_modCtx_of_wf id f h.ctxs]
    exact hf _ h.entries
  · rw [ctx_modCtx_ne t f hk]
    exact h.entries

theorem RecordIssued.modCtxs {ids : List Nat} {f : Nat → Ctx → Ctx} (h : RecordIssued s t p id index)
    (hf : ∀ k c, recordedAt index c → recordedAt index (f k c)) : RecordIssued s (t.modCtxs ids f) p id index := by
  induction ids generalizing t with
  | nil => exact h
  | cons k ids ih => exact ih (h.modCtx (hf k))

theorem RecordIssued.wr {a : Nat} {v : Word} (h : RecordIssued s t p id index) (ha : a_PT_RECSTAT p ≠ a) :
    RecordIssued s (t.wr a v) p id index := by
  refine ⟨h.ctxs, h.mem, ?_, h.entries⟩
  exact (congrArg (fun w : Word => PT_RECSTAT_STEP.get w) (rd_wr_ne t a _ v ha)).trans h.step

theorem RecordIssued.setFld {a n : Nat} {f : Fld} (h : RecordIssued s t p id index) (ha : a_PT_RECSTAT p ≠ a) :
    RecordIssued s (t.setFld a f n) p id index := h.wr ha

/-- A change of what is neither context, memory nor register. -/
theorem RecordIssued.beside {u : State} (h : RecordIssued s t p id index) (hctxs : u.ctxs = t.ctxs) (hmem : u.mem = t.mem)
    (hregs : u.regs = t.regs) : RecordIssued s u p id index := by
  refine ⟨hctxs ▸ h.ctxs, hmem.trans h.mem, ?_, ?_⟩
  · rw [← h.step, recStep, recStep, fld, fld, rd, rd, hregs]
  · rw [ctx, hctxs]
    exact h.entries

/-! ### Addresses apart from the recovery's status -/

theorem recstat_ne_ctxstat (p k : Nat) : a_PT_RECSTAT p ≠ a_PT_CTXSTAT (k / 256) (k % 256) := by
  simp only [a_PT_RECSTAT, a_PT_CTXSTAT]
  omega

theorem recstat_ne_irqpend (_ : p < 24) (n : Nat) : a_PT_RECSTAT p ≠ a_HS_IRQPEND n := by
  simp only [a_PT_RECSTAT, a_HS_IRQPEND]
  omega

theorem recstat_ne_asstat (_ : p < 24) (a : Nat) : a_PT_RECSTAT p ≠ a_XL_ASSTAT a := by
  simp only [a_PT_RECSTAT, a_XL_ASSTAT]
  omega

/-! ### The steps that follow a record -/

/-- A change of entries that keeps their index and takes no recorded one back. -/
theorem recordedAt_map {f : Desc → Desc} {c : Ctx} (hindex : ∀ e, (f e).index = e.index)
    (hstage : ∀ e, e.stage = .recorded → (f e).stage = .recorded) (h : recordedAt index c) :
    recordedAt index { c with descs := c.descs.map f } := by
  intro e he hi
  obtain ⟨e', he', rfl⟩ := List.mem_map.mp he
  exact hstage e' (h e' he' ((hindex e').symm.trans hi))

/-- The entries of the descriptor become recorded. -/
theorem RecordIssued.begin (p id index : Nat) (h : Sparse.wf (fun _ => Ctx.init) s.ctxs = true) :
    RecordIssued s (s.modDesc id index (fun x => { x with stage := .recorded })) p id index := by
  refine ⟨Sparse.wf_put _ h, rfl, rfl, ?_⟩
  rw [modDesc, ctx_modCtx_of_wf id _ h]
  intro e he hi
  obtain ⟨e', -, rfl⟩ := List.mem_map.mp he
  by_cases hi' : e'.index = index
  · rw [if_pos hi']
  · rw [if_neg hi'] at hi
    exact absurd hi hi'

/-- Only WAITs that run are satisfied. -/
theorem RecordIssued.releaseSeq (h : RecordIssued s t p id index) (k i : Nat) : RecordIssued s (t.releaseSeq k i) p id index := by
  refine h.modCtx (fun c hc => recordedAt_map (fun e => ?_) (fun e he => ?_) hc)
  · split <;> rfl
  · rw [if_neg (fun ⟨_, _, hrun, _⟩ => by rw [he] at hrun; cases hrun)]
    exact he

/-- The head passes entries and changes none. -/
theorem advanceHead_descs (n : Nat) (c : Ctx) : ∀ e ∈ (advanceHead n c).descs, e ∈ c.descs := by
  induction n generalizing c with
  | zero => exact fun e he => he
  | succ n ih =>
    intro e he
    unfold advanceHead at he
    split at he
    · exact he
    · rename_i d ds hds
      rw [hds]
      split at he
      · simp only at he
        split at he
        · rwa [hds] at he
        · split at he
          · exact List.mem_of_mem_drop (ih _ e he)
          · rwa [hds] at he
      · split at he
        · exact List.mem_cons_of_mem d (ih _ e he)
        · rwa [hds] at he

theorem RecordIssued.advanceHead (h : RecordIssued s t p id index) (k n : Nat) :
    RecordIssued s (t.modCtx k (fun c => advanceHead n c)) p id index :=
  h.modCtx (fun c hc e he => hc e (advanceHead_descs n c e he))

theorem RecordIssued.raiseIrq (h : RecordIssued s t p id index) (hp : p < 24) (n : Nat) :
    RecordIssued s (t.raiseIrq n) p id index := by
  have hpend := h.wr (v := BitVec.ofNat 64 (natSetBit (t.rd (a_HS_IRQPEND (n / 64))).toNat (n % 64) true))
    (recstat_ne_irqpend hp (n / 64))
  simp only [State.raiseIrq, signalIrq]
  split
  · split
    · exact hpend
    · exact hpend.beside rfl rfl rfl
  · exact hpend

theorem RecordIssued.raiseMsix (h : RecordIssued s t p id index) (k n : Nat) : RecordIssued s (t.raiseMsix k n) p id index := by
  simp only [State.raiseMsix]
  split
  · split
    · exact h
    · exact h.beside rfl rfl rfl
  · obtain ⟨held, m, e⟩ := t.faultDev_eq cPROTO 7 208
    rw [e]
    exact h.beside rfl rfl rfl

theorem RecordIssued.completionIrq (h : RecordIssued s t p id index) (hp : p < 24) (k n : Nat) :
    RecordIssued s (t.completionIrq k n) p id index := by
  unfold State.completionIrq
  split
  · split
    · exact h.raiseMsix _ n
    · exact h
  · exact h.raiseIrq hp n

/-- Only FENCEs that run complete. -/
theorem RecordIssued.advanceDone (h : RecordIssued s t p id index) (hp : p < 24) (a : Nat) :
    RecordIssued s (t.advanceDone a) p id index := by
  obtain ⟨n, e⟩ := t.advanceDone_eq a
  rw [e, completeFences_eq]
  refine (h.setFld (recstat_ne_asstat hp a)).modCtxs (fun k c hc => recordedAt_map (fun e => ?_) (fun e he => ?_) hc)
  · unfold fenceEnd
    split <;> rfl
  · rw [fenceEnd_other (.inr (by rw [he]; decide))]
    exact he

theorem RecordIssued.ite {u : State} {b : Prop} [Decidable b] (h : RecordIssued s t p id index) (g : RecordIssued s u p id index) :
    RecordIssued s (if b then t else u) p id index := by
  split
  · exact h
  · exact g

/-- What follows a record leaves memory and the recovery's step, and its descriptor recorded. -/
theorem RecordIssued.recorded (hp : p < 24) (d : Desc) (written : Bool) (h : Sparse.wf (fun _ => Ctx.init) s.ctxs = true) :
    RecordIssued s (s.recorded id d written) p id d.index := by
  have hbegun := (RecordIssued.begin p id d.index h).releaseSeq id d.index
  have hmarked := (hbegun.setFld (f := PT_CTXSTAT_LAST_MARK) (n := d.mkId) (recstat_ne_ctxstat p id)).ite
    (b := (actsAsMark d && d.mkCheckpoint) = true) hbegun
  have hpassed := hmarked.ite (b := s.recStep (id / 256) = 8) (hmarked.advanceHead id 65537)
  have hraised := (hpassed.completionIrq hp id (PT_CTXCFG_IRQ_VEC.get d.cfgw)).ite (b := (d.irq && written) = true) hpassed
  unfold State.recorded
  simp only
  refine RecordIssued.advanceDone ?_ hp _
  exact (hraised.setFld (recstat_ne_ctxstat p id)).ite hraised

/-- A write of memory leaves registers and contexts. -/
theorem writeMem_control (s : State) (k a : Nat) (bs : List Byte) (poison : Bool) (h : s.Canonical) :
    (s.writeMem k a bs poison).regs = s.regs ∧ (s.writeMem k a bs poison).ctxs = s.ctxs := by
  have hcontrol := (Lands.writeMemP (s := s) k a bs (fun _ => poison) h.parts).control
  exact ⟨(congrArg State.regs hcontrol :), (congrArg State.ctxs hcontrol :)⟩

end

/-- A record that its home serves is written, and what follows it is done. -/
theorem writeRecord_served {s : State} {id : Nat} {d : Desc} {at_ : Nat}
    (hat : s.fld (a_SQ_CPLBASE (id / 256) (id % 256)) SQ_CPLBASE_BASE * 16 + d.index % s.ringSize id * 16 = at_)
    (hserved : s.fare roleCOH (burlOf (id / 256)) at_ = .served) (hopen : s.Admitted (naPart (id / 256)) at_ 16) :
    s.writeRecord id d =
      (s.writeMem id at_ (bytesOfWords (d.record (s.ringSize id) d.ended)) false).recorded id d true := by
  unfold writeRecord
  simp only [hat, hserved]
  exact asking_admitted hopen _

end State

theorem exec_completionRecord {p : Fin 24} {slot : Fin 192} {index : BitVec 16} {d : Desc} {s : State}
    (hd : (s.ctx (cid p slot)).descs.find? (fun d => d.stage == .complete && d.index % s.ringSize (cid p slot) == index.toNat) = some d)
    (halive : s.alive (domCtl p) = true) (hin : s.inReset p = false) :
    exec (.completionRecord p slot index) s = .next ((s.writeRecord (cid p slot) d).replayEnded p (cid p slot) d) := by
  change execCompletionRecord p slot index s = _
  simp only [execCompletionRecord, hd, halive, hin, Bool.not_false, Bool.and_self, if_true]

/-- Settles O42: the record is written, and nothing that follows it touches memory or takes the descriptor's end back. -/
theorem completionRecordIsWritten : Obligations.CompletionRecordIsWritten := by
  unfold Obligations.CompletionRecordIsWritten
  intro p slot index d s h id size hd halive hin hstep at_ hserved hopen
  have hp : id / 256 = p := cid_div p slot.isLt
  have hs : id % 256 = slot := cid_mod p slot.isLt
  have hwritten : s.writeRecord id d = (s.writeMem id at_ (bytesOfWords (d.record size d.ended)) false).recorded id d true :=
    writeRecord_served (by rw [hp, hs]) (by rw [hp]; exact hserved) (by rw [hp]; exact hopen)
  obtain ⟨hregs, hctxs⟩ := writeMem_control s id at_ (bytesOfWords (d.record size d.ended)) false h
  have hissued := RecordIssued.recorded (s := s.writeMem id at_ (bytesOfWords (d.record size d.ended)) false) (id := id) p.isLt d true
    (by rw [hctxs]; exact h.ctxs)
  have hsame : (s.writeMem id at_ (bytesOfWords (d.record size d.ended)) false).recStep p = s.recStep p := by
    rw [recStep, recStep, fld, fld, rd, rd, hregs]
  refine ⟨_, exec_completionRecord hd halive hin, ?_⟩
  have hended : (s.writeRecord id d).replayEnded p id d = s.writeRecord id d :=
    if_neg (fun ⟨hrun, _⟩ => hstep (by rw [← hrun, hwritten, hissued.step, hsame]))
  rw [hended, hwritten]
  exact ⟨hissued.mem, hissued.entries⟩

end Sys2Proof.Machine
end

section
/-! PROOFS. The body of a descriptor that completes at its dispatch, and the dispatch of ALLOC (R159, R175, R186). -/

namespace Sys2Proof.Machine

open State

/-- Of a context entries alone change. -/
def Ctx.EntriesOnly (c c' : Ctx) : Prop := ∃ ds, c' = { c with descs := ds }

theorem Ctx.EntriesOnly.trans {c c' c'' : Ctx} (h : c.EntriesOnly c') (g : c'.EntriesOnly c'') : c.EntriesOnly c'' := by
  obtain ⟨ds, rfl⟩ := h
  obtain ⟨ds', rfl⟩ := g
  exact ⟨ds', rfl⟩

namespace State

/-! ### What a dispatch and an ending leave of the context -/

theorem modDesc_entriesOnly (s : State) (id index : Nat) (f : Desc → Desc) (h : s.Canonical) :
    (s.ctx id).EntriesOnly ((s.modDesc id index f).ctx id) := ⟨_, ctx_modCtx s id _ h⟩

theorem launched_entriesOnly {s : State} {p slot : Nat} {d : Desc} (h : s.Canonical) :
    (s.ctx (cid p slot)).EntriesOnly ((s.launched p slot d).ctx (cid p slot)) := by
  have htaken := modDesc_entriesOnly s (cid p slot) d.index (fun _ => s.configured p slot d) h
  have hshaped := modDesc_entriesOnly (s.taken p slot d) (cid p slot) d.index (fun _ => s.shapedDesc p slot d)
    (taken_canonical s p slot d h)
  have hbegun := modDesc_entriesOnly (s.shaped p slot d) (cid p slot) d.index (fun _ => s.begun p slot d)
    (shaped_canonical s p slot d h)
  exact htaken.trans (hshaped.trans hbegun)

theorem finish_entriesOnly (s : State) (id index status detail : Nat) (h : s.Canonical) :
    (s.ctx id).EntriesOnly ((s.finish id index status detail).ctx id) := by
  have hended := modDesc_entriesOnly s id index (fun d => s.completed (id / 256) d status detail) h
  rw [finish_eq]
  split
  · obtain ⟨n, e⟩ := advanceDone_eq (s.ended id index status detail) (s.asidOf id)
    rw [e, completeFences_eq]
    exact modCtxs_keeps _ _ _ (s.ctx id).EntriesOnly (fun k c hc => hc.trans ⟨_, rfl⟩) id
      (setFld_canonical _ _ _ _ (modDesc_canonical s _ _ _ h)) hended
  · exact hended

/-! ### A body at work -/

/-- The body of a launched descriptor is at work: memory is as it was. -/
structure Worked (s u : State) (p slot : Nat) (d : Desc) : Prop where
  placed : s.Placed u (cid p slot) d (s.begun p slot d)
  dispatched : s.dispatched u p slot
  mem : u.mem = s.mem
  units : u.units = s.units

section
variable {s u : State} {p slot : Nat} {d : Desc}

theorem launched_worked (h : s.Canonical) (r : s.Runs p slot d) : s.Worked (s.launched p slot d) p slot d := by
  have hplaced := launched_placed h r
  have hdispatched := launched_dispatched s p slot d h
  obtain ⟨cs, ps, e⟩ := launched_eq s p slot d
  rw [e] at hplaced hdispatched ⊢
  exact ⟨hplaced, hdispatched, rfl, rfl⟩

/-- A change of registers other than the context's configuration, of the time's free choices and of the tile store. -/
theorem Worked.beside {v : State} (w : s.Worked u p slot d) (hc : v.Canonical) (hctxs : v.ctxs = u.ctxs) (hparts : v.parts = u.parts)
    (hmem : v.mem = u.mem) (hunits : v.units = u.units) (hnow : v.now = u.now) (hdies : v.dies = u.dies)
    (hcfg : v.rd (cfgAddr (cid p slot)) = u.rd (cfgAddr (cid p slot))) : s.Worked v p slot d := by
  obtain ⟨hplaced, ⟨hlast, hseq, hothers⟩, hm, hu⟩ := w
  have hctx : v.ctx (cid p slot) = u.ctx (cid p slot) := by rw [ctx, hctxs, ctx]
  have hpart (q : Nat) : v.part q = u.part q := by rw [part, hparts, part]
  have hasid : v.asidOf (cid p slot) = u.asidOf (cid p slot) := congrArg (fun w : Word => PT_CTXCFG_ASID.get w) hcfg
  exact ⟨{ hplaced with
      canonical := hc, descs := by rw [hctx]; exact hplaced.descs, now := hnow.trans hplaced.now, dies := hdies.trans hplaced.dies,
      asid := hasid.trans hplaced.asid },
    ⟨by rw [hpart]; exact hlast, by rw [hpart]; exact hseq, fun q hq => by rw [hpart]; exact hothers q hq⟩,
    hmem.trans hm, hunits.trans hu⟩

theorem Worked.wr {a : Nat} {v : Word} (w : s.Worked u p slot d) (ha : cfgAddr (cid p slot) ≠ a) : s.Worked (u.wr a v) p slot d :=
  w.beside (wr_canonical _ _ _ w.placed.canonical) rfl rfl rfl rfl rfl rfl (rd_wr_ne u a _ v ha)

theorem Worked.setFld {a : Nat} {f : Fld} {n : Nat} (w : s.Worked u p slot d) (ha : cfgAddr (cid p slot) ≠ a) :
    s.Worked (u.setFld a f n) p slot d := w.wr ha

/-- A change of a context's contents beside its entries. -/
theorem Worked.modCtx {f : Ctx → Ctx} (w : s.Worked u p slot d) (hf : ∀ c, (f c).descs = c.descs) :
    s.Worked (u.modCtx (cid p slot) f) p slot d := by
  obtain ⟨hplaced, hdispatched, hmem, hunits⟩ := w
  refine ⟨{ hplaced with canonical := setCtx_canonical u _ _ hplaced.canonical, descs := ?_ }, hdispatched, hmem, hunits⟩
  rw [ctx_modCtx u _ f hplaced.canonical, hf]
  exact hplaced.descs

theorem Worked.modPart {f : Part → Part} (w : s.Worked u p slot d) (hf : Part.KeepsDispatcher f) :
    s.Worked (u.modPart p f) p slot d := by
  obtain ⟨hplaced, ⟨hlast, hseq, hothers⟩, hmem, hunits⟩ := w
  have hpart := part_modPart u p f hplaced.canonical
  obtain ⟨hkeepsLast, hkeepsSeq⟩ := hf (u.part p)
  refine ⟨{ hplaced with canonical := modPart_canonical u p f hplaced.canonical }, ⟨?_, ?_, fun q hq => ?_⟩, hmem, hunits⟩
  · rw [hpart, hkeepsLast, hlast]
  · rw [hpart, hkeepsSeq, hseq]
  · rw [part_modPart_ne u f hq, hothers q hq]

/-- What a descriptor that completes at its dispatch leaves, whatever its kind. -/
def endedOk (s t : State) (p slot : Nat) (d : Desc) : Prop :=
  s.becomes t (cid p slot) d.index (fun _ => s.completed p (s.begun p slot d) stOK 0) ∧ s.dispatched t p slot ∧
    t.mem = s.mem ∧ t.units = s.units

theorem Worked.endedOk (w : s.Worked u p slot d) (hs : slot < 192) : s.endedOk (u.finishOk (cid p slot) d.index) p slot d := by
  obtain ⟨hplaced, hdispatched, hmem, hunits⟩ := w
  have hbecomes := hplaced.becomes stOK 0
  rw [cid_div p hs] at hbecomes
  obtain ⟨cs, rs, e⟩ := finish_rest u (cid p slot) d.index stOK 0
  refine ⟨hbecomes, ?_⟩
  rw [finishOk, e]
  exact ⟨hdispatched, hmem, hunits⟩

/-- A register that the end of the descriptor leaves. -/
theorem Worked.rd (w : s.Worked u p slot d) {a : Nat} (ha : s.remoteAt (cid p slot) d.index → a ≠ a_XL_ASSTAT (s.asidOf (cid p slot))) :
    (u.finishOk (cid p slot) d.index).rd a = u.rd a := w.placed.rd_finish stOK 0 ha

theorem Worked.fld (w : s.Worked u p slot d) {a : Nat} (f : Fld) (ha : ∀ k, a ≠ a_XL_ASSTAT k) :
    (u.finishOk (cid p slot) d.index).fld a f = u.fld a f :=
  congrArg (fun x : Word => f.get x) (w.rd (fun _ => ha _))

theorem Worked.entriesOnly (w : s.Worked u p slot d) :
    (u.ctx (cid p slot)).EntriesOnly ((u.finishOk (cid p slot) d.index).ctx (cid p slot)) :=
  finish_entriesOnly u _ _ stOK 0 w.placed.canonical

theorem finishOk_part (u : State) (id index q : Nat) : (u.finishOk id index).part q = u.part q := by
  obtain ⟨cs, rs, e⟩ := finish_rest u id index stOK 0
  rw [finishOk, e]
  rfl

theorem finishOk_ts (u : State) (id index : Nat) : (u.finishOk id index).ts = u.ts := by
  obtain ⟨cs, rs, e⟩ := finish_rest u id index stOK 0
  rw [finishOk, e]

end

/-! ### What a dispatch leaves before the body -/

theorem rd_launched (s : State) (p slot : Nat) (d : Desc) (a : Nat) : (s.launched p slot d).rd a = s.rd a := by
  obtain ⟨cs, ps, e⟩ := launched_eq s p slot d
  rw [e]
  rfl

/-! ### Charges (R159, R175) -/

/-- The register that holds the charge of a tier. -/
def chargeReg (id tier : Nat) : Nat :=
  if tier = 0 then a_PT_CTXSTAT (id / 256) (id % 256) else a_PT_CTXUSE (id / 256) (id % 256)

/-- The field that holds the charge of a tier. -/
def chargeFld (tier : Nat) : Fld := if tier = 0 then PT_CTXSTAT_T0_USED else if tier = 1 then PT_CTXUSE_T1_USED else PT_CTXUSE_T2_USED

theorem charge_eq (s : State) (id : Nat) : ∀ tier, s.charge id tier = s.fld (chargeReg id tier) (chargeFld tier)
  | 0 => rfl
  | 1 => rfl
  | _ + 2 => rfl

theorem setCharge_eq (s : State) (id n : Nat) : ∀ tier, s.setCharge id tier n = s.setFld (chargeReg id tier) (chargeFld tier) n
  | 0 => rfl
  | 1 => rfl
  | _ + 2 => rfl

theorem chargeFld_sound (tier : Nat) : (chargeFld tier).Sound := by
  unfold chargeFld
  split
  · exact ⟨by decide, by decide⟩
  split <;> exact ⟨by decide, by decide⟩

theorem chargeReg_ne_asstat (id tier k : Nat) : chargeReg id tier ≠ a_XL_ASSTAT k := by
  simp only [chargeReg, a_PT_CTXSTAT, a_PT_CTXUSE, a_XL_ASSTAT]
  split <;> omega

theorem cfgAddr_ne_chargeReg (id tier : Nat) : cfgAddr id ≠ chargeReg id tier := by
  simp only [chargeReg, cfgAddr, a_PT_CTXCFG, a_PT_CTXSTAT, a_PT_CTXUSE]
  split <;> omega

theorem charge_lt (s : State) (id tier : Nat) : s.charge id tier < 2 ^ (chargeFld tier).width := by
  rw [charge_eq]
  exact Fld.get_lt _ _

/-- A quota fits the field of its charge. -/
theorem quota_lt (s : State) (id : Nat) : ∀ tier, s.quota id tier < 2 ^ (chargeFld tier).width
  | 0 => Fld.get_lt PT_CTXQUOTA_T0_Q _
  | 1 => by
    have hq : PT_CTXQUOTA_T1_Q.get (s.rd (a_PT_CTXQUOTA (id / 256) (id % 256))) < 2 ^ 16 := Fld.get_lt _ _
    change _ * 1024 < 2 ^ 32
    simp only [fld]
    omega
  | _ + 2 => by
    have hq : PT_CTXQUOTA_T2_Q.get (s.rd (a_PT_CTXQUOTA (id / 256) (id % 256))) < 2 ^ 16 := Fld.get_lt _ _
    change _ * 1024 < 2 ^ 32
    simp only [fld]
    omega

theorem charge_setCharge {s : State} {tier n : Nat} (id : Nat) (h : s.Canonical) (hn : n < 2 ^ (chargeFld tier).width) :
    (s.setCharge id tier n).charge id tier = n := by
  obtain ⟨hle, hlt⟩ := chargeFld_sound tier
  rw [setCharge_eq, charge_eq, fld_setFld s _ _ n h hlt hle, Nat.mod_eq_of_lt hn]

/-- The charges of two tiers are fields of their own. -/
theorem charge_setCharge_ne {s : State} {tier k : Nat} (id n : Nat) (h : s.Canonical) (hk : min k 2 ≠ min tier 2) :
    (s.setCharge id tier n).charge id k = s.charge id k := by
  obtain ⟨hle, hlt⟩ := chargeFld_sound tier
  have hne (ht : ¬ (tier = 0 ↔ k = 0)) : chargeReg id k ≠ chargeReg id tier := by
    simp only [chargeReg, a_PT_CTXSTAT, a_PT_CTXUSE]
    split <;> split <;> omega
  rw [setCharge_eq, charge_eq, charge_eq]
  by_cases hreg : tier = 0 ↔ k = 0
  · have htier : tier ≠ 0 := fun e => hk (by rw [e, hreg.mp e])
    have hk0 : k ≠ 0 := fun e => htier (hreg.mpr e)
    have hsame : chargeReg id k = chargeReg id tier := by rw [chargeReg, chargeReg, if_neg htier, if_neg hk0]
    have hapart : (chargeFld tier).Apart (chargeFld k) := by
      rw [chargeFld, chargeFld, if_neg htier, if_neg hk0]
      by_cases h1 : tier = 1
      · rw [if_pos h1, if_neg (by omega)]
        exact Or.inr (by decide)
      · rw [if_neg h1, if_pos (by omega)]
        exact Or.inl (by decide)
    rw [hsame]
    exact fld_setFld_apart s _ _ _ n h hlt hle (chargeFld_sound k).1 hapart
  · exact fld_setFld_ne s _ _ _ _ _ (hne hreg)

theorem rd_setCharge_ne (s : State) {id tier a : Nat} (n : Nat) (ha : a ≠ chargeReg id tier) : (s.setCharge id tier n).rd a = s.rd a := by
  rw [setCharge_eq, rd_setFld_ne s _ _ _ _ ha]

theorem cstate_setCharge {s : State} (id tier n : Nat) (h : s.Canonical) : (s.setCharge id tier n).cstate id = s.cstate id := by
  rw [setCharge_eq]
  by_cases ht : tier = 0
  · rw [ht]
    exact fld_setFld_apart s (a_PT_CTXSTAT (id / 256) (id % 256)) PT_CTXSTAT_T0_USED PT_CTXSTAT_STATE n h
      (by decide) (by decide) (by decide) (by decide)
  · refine fld_setFld_ne s _ _ _ _ _ ?_
    rw [chargeReg, if_neg ht]
    simp only [a_PT_CTXSTAT, a_PT_CTXUSE]
    omega

/-- What a change of charges keeps. -/
theorem setCharge_ctxs (s : State) (id tier n : Nat) : (s.setCharge id tier n).ctxs = s.ctxs := by
  rw [setCharge_eq]
  rfl

theorem setCharge_ts (s : State) (id tier n : Nat) : (s.setCharge id tier n).ts = s.ts := by
  rw [setCharge_eq]
  rfl

theorem Worked.setCharge {s u : State} {p slot : Nat} {d : Desc} (w : s.Worked u p slot d) (tier n : Nat) :
    s.Worked (u.setCharge (cid p slot) tier n) p slot d := by
  rw [setCharge_eq]
  exact w.setFld (cfgAddr_ne_chargeReg _ _)

/-! ### A release gives its units back -/

/-- The charges of a context after a release of n units of a tier, k of them charged to the other tier now. -/
structure Discharged (s t : State) (id tier n k : Nat) : Prop where
  own : t.charge id tier = s.charge id tier - (n - k)
  other : tier = 1 ∨ tier = 2 → t.charge id (3 - tier) = s.charge id (3 - tier) - k
  cstate : t.cstate id = s.cstate id
  rest : ∀ a, a ≠ a_PT_CTXSTAT (id / 256) (id % 256) → a ≠ a_PT_CTXUSE (id / 256) (id % 256) → t.rd a = s.rd a

theorem chargeReg_ne {id tier a : Nat} (hstat : a ≠ a_PT_CTXSTAT (id / 256) (id % 256)) (huse : a ≠ a_PT_CTXUSE (id / 256) (id % 256)) :
    a ≠ chargeReg id tier := by
  unfold chargeReg
  split
  · exact hstat
  · exact huse

/-- Only T1 and T2 have a tier of their regions beside them. -/
theorem movedUnits_tier {s : State} {id : Nat} {d : Desc} (hk : s.movedUnits id d ≠ 0) : d.alTier ≠ 0 := fun e => hk (if_pos e)

theorem releaseCharge_discharged {s : State} (id : Nat) (d : Desc) (h : s.Canonical) :
    Discharged s (s.releaseCharge id d) id d.alTier (d.alBytes / 65536) (s.movedUnits id d) := by
  have hlt := charge_lt s id d.alTier
  have hlt' := charge_lt s id (3 - d.alTier)
  have hown := charge_setCharge (s := s) (tier := d.alTier) (n := s.charge id d.alTier - (d.alBytes / 65536 - s.movedUnits id d)) id h
    (by omega)
  have hother (ht : d.alTier ≠ 0) := charge_setCharge_ne (s := s) (tier := d.alTier) (k := 3 - d.alTier) id
    (s.charge id d.alTier - (d.alBytes / 65536 - s.movedUnits id d)) h (by omega)
  have hcstate := cstate_setCharge id d.alTier (s.charge id d.alTier - (d.alBytes / 65536 - s.movedUnits id d)) h
  have hrest := fun a hstat huse => rd_setCharge_ne s (id := id) (tier := d.alTier) (a := a)
    (s.charge id d.alTier - (d.alBytes / 65536 - s.movedUnits id d)) (chargeReg_ne hstat huse)
  have hc := setCharge_canonical s id d.alTier (s.charge id d.alTier - (d.alBytes / 65536 - s.movedUnits id d)) h
  unfold releaseCharge
  simp only
  generalize s.setCharge id d.alTier (s.charge id d.alTier - (d.alBytes / 65536 - s.movedUnits id d)) = t
    at hown hother hcstate hrest hc ⊢
  by_cases hk : s.movedUnits id d = 0
  · rw [if_pos hk]
    refine ⟨hown, fun ht => ?_, hcstate, hrest⟩
    rw [hother (by omega), hk, Nat.sub_zero]
  · have htier := movedUnits_tier hk
    rw [if_neg hk, hother htier]
    refine ⟨?_, fun _ => ?_, ?_, fun a hstat huse => ?_⟩
    · rw [charge_setCharge_ne id _ hc (by omega), hown]
    · exact charge_setCharge id hc (by omega)
    · rw [cstate_setCharge id _ _ hc, hcstate]
    · rw [rd_setCharge_ne t _ (chargeReg_ne hstat huse), hrest a hstat huse]

/-! ### The checks of an ALLOC (R159, R175) -/

theorem shaped_claims_any (s : State) (p slot k : Nat) (d : Desc) (h : s.Canonical) :
    ((s.shaped p slot d).ctx k).claims = (s.ctx k).claims := by
  by_cases hk : k = cid p slot
  · rw [hk, shaped_claims s p slot d h]
  · rw [shaped_ctx_ne s d hk]

theorem allocCheck_shaped {s : State} {p slot : Nat} {d : Desc} (h : s.Canonical) :
    allocCheck (s.shaped p slot d) (cid p slot) (s.shapedDesc p slot d) = s.allocCheck (cid p slot) d := by
  have hclaims (k : Nat) := shaped_claims_any s p slot k d h
  have hcharge : (s.shaped p slot d).charge (cid p slot) d.alTier = s.charge (cid p slot) d.alTier := by
    rw [charge_eq, charge_eq]
    rfl
  have hquota : (s.shaped p slot d).quota (cid p slot) d.alTier = s.quota (cid p slot) d.alTier := by
    obtain ⟨cs, ps, e⟩ := shaped_eq s p slot d
    rw [e]
    rfl
  have hrelease : (s.shapedDesc p slot d).alRelease = d.alRelease := rfl
  have htier : (s.shapedDesc p slot d).alTier = d.alTier := rfl
  have haddr : (s.shapedDesc p slot d).alAddr = d.alAddr := rfl
  have hbytes : (s.shapedDesc p slot d).alBytes = d.alBytes := rfl
  unfold allocCheck claimCovers
  simp only [hrelease, htier, haddr, hbytes, hclaims, hcharge, hquota]

/-- A claim that passes its checks fits its quota. -/
theorem allocCheck_claim {s : State} {id : Nat} {d : Desc} (hclaim : d.alRelease = false) (hok : s.allocCheck id d = none) :
    s.charge id d.alTier + d.alBytes / 65536 ≤ s.quota id d.alTier := by
  by_contra hover
  simp only [allocCheck, hclaim, Bool.false_eq_true, if_false] at hok
  split at hok
  · cases hok
  · rw [if_pos (Nat.lt_of_not_le hover)] at hok
    cases hok

/-! ### CLAIM -/

/-- One region of a claim joins those of its partition, where its place is in the pool. -/
def regionJoined (p slot : Nat) (t : State) (c : Nat × Nat × Nat) : State :=
  if t.inPool p c.2.2 c.2.1 && decide ((t.part p).regions.length < 16384) then
    t.modPart p (fun x => { x with
      regions := x.regions ++ [⟨slot, c.1, c.2.1, c.2.2, 0, false⟩]
      used1 := if c.2.2 = 0 then c.2.1 :: x.used1 else x.used1
      used2 := if c.2.2 = 1 then c.2.1 :: x.used2 else x.used2 })
  else t

theorem registerRegions_foldl (s : State) (p slot : Nat) (cs : List (Nat × Nat × Nat)) :
    s.registerRegions p slot cs = if (!s.tmOn p) = true then s else cs.foldl (regionJoined p slot) s := rfl

theorem foldl_regionJoined_eq (s : State) (p slot : Nat) (cs : List (Nat × Nat × Nat)) :
    ∃ ps, cs.foldl (regionJoined p slot) s = { s with parts := ps } := by
  induction cs generalizing s with
  | nil => exact ⟨_, rfl⟩
  | cons c cs ih =>
    obtain ⟨ps, e⟩ := ih (regionJoined p slot s c)
    have hone : ∃ ps, regionJoined p slot s c = { s with parts := ps } := by
      unfold regionJoined
      split
      · exact ⟨_, rfl⟩
      · exact ⟨_, rfl⟩
    obtain ⟨ps', e'⟩ := hone
    rw [List.foldl_cons, e, e']
    exact ⟨ps, rfl⟩

/-- A claim's regions change partitions alone. -/
theorem registerRegions_eq (s : State) (p slot : Nat) (cs : List (Nat × Nat × Nat)) :
    ∃ ps, s.registerRegions p slot cs = { s with parts := ps } := by
  rw [registerRegions_foldl]
  split
  · exact ⟨_, rfl⟩
  · exact foldl_regionJoined_eq s p slot cs

section
variable {s u : State} {p slot : Nat} {d : Desc}

theorem charge_launched (s : State) (p slot : Nat) (d : Desc) (id tier : Nat) :
    (s.launched p slot d).charge id tier = s.charge id tier := by rw [charge_eq, charge_eq, fld_launched]

theorem cstate_launched (s : State) (p slot : Nat) (d : Desc) (id : Nat) : (s.launched p slot d).cstate id = s.cstate id :=
  fld_launched s p slot d _ _

theorem claims_launched (h : s.Canonical) : ((s.launched p slot d).ctx (cid p slot)).claims = (s.ctx (cid p slot)).claims := by
  obtain ⟨ds, e⟩ := launched_entriesOnly (p := p) (slot := slot) (d := d) h
  rw [e]

theorem ts_launched (s : State) (p slot : Nat) (d : Desc) : (s.launched p slot d).ts = s.ts := by
  obtain ⟨cs, ps, e⟩ := launched_eq s p slot d
  rw [e]

/-- The charge of a tier and the state of a context stay when the descriptor ends. -/
theorem Worked.charge (w : s.Worked u p slot d) (tier : Nat) :
    (u.finishOk (cid p slot) d.index).charge (cid p slot) tier = u.charge (cid p slot) tier := by
  rw [charge_eq, charge_eq]
  exact w.fld _ (fun k => chargeReg_ne_asstat _ _ k)

theorem Worked.cstate (w : s.Worked u p slot d) : (u.finishOk (cid p slot) d.index).cstate (cid p slot) = u.cstate (cid p slot) :=
  w.fld _ (fun k => chargeReg_ne_asstat (cid p slot) 0 k)

theorem Worked.claims (w : s.Worked u p slot d) :
    ((u.finishOk (cid p slot) d.index).ctx (cid p slot)).claims = (u.ctx (cid p slot)).claims := by
  obtain ⟨ds, e⟩ := w.entriesOnly
  rw [e]

/-- The regions of a claim join those of their partition. -/
theorem Worked.registerRegions (w : s.Worked u p slot d) (k : Nat) (cs : List (Nat × Nat × Nat)) :
    s.Worked (u.registerRegions p k cs) p slot d := by
  have hone (t : State) (c : Nat × Nat × Nat) (w : s.Worked t p slot d) : s.Worked (regionJoined p k t c) p slot d := by
    unfold regionJoined
    split
    · exact w.modPart (fun _ => ⟨rfl, rfl⟩)
    · exact w
  have hall : s.Worked (cs.foldl (regionJoined p k) u) p slot d := by
    induction cs generalizing u with
    | nil => exact w
    | cons c cs ih => exact ih (hone u c w)
  rw [registerRegions_foldl]
  split
  · exact w
  · exact hall

/-- A claim at work: its units are charged and it stands behind the claims before it. -/
def claimEntered (t : State) (id : Nat) (d : Desc) : State :=
  (t.setCharge id d.alTier (t.charge id d.alTier + d.alBytes / 65536)).modCtx id (fun c =>
    { c with claims := c.claims ++ [⟨d.alTier, d.alAddr, d.alBytes⟩] })

theorem claimBody_eq (t : State) (d : Desc) (hs : slot < 192) :
    t.claimBody (cid p slot) d = ((t.claimEntered (cid p slot) d).registerRegions p slot d.cands).finishOk (cid p slot) d.index := by
  rw [claimBody, cid_div p hs, cid_mod p hs]
  rfl

/-- From s to t a claim has changed the charge of its tier and the claims, and of registers and tile store nothing else; its end
may let DONE_EPOCH advance. -/
structure ClaimTaken (s t : State) (p slot : Nat) (d : Desc) : Prop where
  charge : t.charge (cid p slot) d.alTier = s.charge (cid p slot) d.alTier + d.alBytes / 65536
  claims : (t.ctx (cid p slot)).claims = (s.ctx (cid p slot)).claims ++ [⟨d.alTier, d.alAddr, d.alBytes⟩]
  cstate : t.cstate (cid p slot) = s.cstate (cid p slot)
  rest : ∀ a, a ≠ chargeReg (cid p slot) d.alTier → (s.remoteAt (cid p slot) d.index → a ≠ a_XL_ASSTAT (s.asidOf (cid p slot))) →
    t.rd a = s.rd a
  ts : t.ts = s.ts

theorem claimEntered_taken (h : s.Canonical)
    (hfits : s.charge (cid p slot) d.alTier + d.alBytes / 65536 ≤ s.quota (cid p slot) d.alTier) :
    s.ClaimTaken ((s.launched p slot d).claimEntered (cid p slot) (s.begun p slot d)) p slot d := by
  have hc := launched_canonical s p slot d h
  have hlt := lt_of_le_of_lt hfits (quota_lt s _ _)
  rw [← charge_launched s p slot d] at hlt
  refine ⟨?_, ?_, (cstate_setCharge (cid p slot) d.alTier _ hc).trans (cstate_launched s p slot d _),
    fun a ha _ => (rd_setCharge_ne _ _ ha).trans (rd_launched s p slot d a), (setCharge_ts _ _ _ _).trans (ts_launched s p slot d)⟩
  · rw [← charge_launched s p slot d]
    exact charge_setCharge (cid p slot) hc hlt
  · rw [claimEntered, ctx_modCtx _ _ _ (setCharge_canonical _ _ _ _ hc), ctx, setCharge_ctxs, ← ctx, claims_launched h]
    rfl

/-- A change of partitions. -/
theorem ClaimTaken.withParts (c : s.ClaimTaken u p slot d) (ps : Sparse Part) : s.ClaimTaken { u with parts := ps } p slot d := by
  obtain ⟨hcharge, hclaims, hcstate, hrest, hts⟩ := c
  refine ⟨?_, hclaims, hcstate, hrest, hts⟩
  rw [charge_eq] at hcharge ⊢
  exact hcharge

theorem ClaimTaken.finishOk (c : s.ClaimTaken u p slot d) (w : s.Worked u p slot d) :
    s.ClaimTaken (u.finishOk (cid p slot) d.index) p slot d :=
  ⟨(w.charge _).trans c.charge, w.claims.trans c.claims, w.cstate.trans c.cstate, fun a ha hr => (w.rd hr).trans (c.rest a ha hr),
    (finishOk_ts _ _ _).trans c.ts⟩

theorem claimBody_taken (h : s.Canonical) (r : s.Runs p slot d) (hs : slot < 192)
    (hfits : s.charge (cid p slot) d.alTier + d.alBytes / 65536 ≤ s.quota (cid p slot) d.alTier) :
    s.endedOk ((s.launched p slot d).claimBody (cid p slot) (s.begun p slot d)) p slot d ∧
      s.ClaimTaken ((s.launched p slot d).claimBody (cid p slot) (s.begun p slot d)) p slot d := by
  have hentered : s.Worked ((s.launched p slot d).claimEntered (cid p slot) (s.begun p slot d)) p slot d :=
    ((launched_worked h r).setCharge _ _).modCtx (fun _ => rfl)
  have hworked := hentered.registerRegions slot (s.begun p slot d).cands
  obtain ⟨ps, e⟩ := registerRegions_eq ((s.launched p slot d).claimEntered (cid p slot) (s.begun p slot d)) p slot (s.begun p slot d).cands
  have htaken := (claimEntered_taken h hfits).withParts ps
  rw [← e] at htaken
  rw [claimBody_eq _ _ hs]
  exact ⟨hworked.endedOk hs, htaken.finishOk hworked⟩

end

/-! ### RELEASE -/

section
variable {s u : State} {p slot : Nat} {d : Desc}

theorem movedUnits_launched (h : s.Canonical) (hs : slot < 192) :
    (s.launched p slot d).movedUnits (cid p slot) (s.begun p slot d) = s.movedUnits (cid p slot) d := by
  unfold movedUnits movedAway
  rw [cid_div p hs, launched_part s p slot d h]
  rfl

/-- Charges and state of a context are in registers. -/
theorem Discharged.of_regs {t v : State} {id tier n k : Nat} (c : Discharged s t id tier n k) (hregs : v.regs = t.regs) :
    Discharged s v id tier n k := by
  have hrd (a : Nat) : v.rd a = t.rd a := by rw [State.rd, State.rd, hregs]
  have hcharge (j : Nat) : v.charge id j = t.charge id j := by rw [charge_eq, charge_eq, State.fld, State.fld, hrd]
  obtain ⟨hown, hother, hcstate, hrest⟩ := c
  refine ⟨(hcharge _).trans hown, fun ht => (hcharge _).trans (hother ht), ?_, fun a hstat huse => (hrd a).trans (hrest a hstat huse)⟩
  rw [← hcstate, State.cstate, State.cstate, State.fld, State.fld, hrd]

/-- A release at work: its units are given back and its range leaves the claims. -/
def releaseEntered (t : State) (id : Nat) (d : Desc) : State :=
  (t.releaseCharge id d).modCtx id (fun c => { c with claims := subtract c.claims d.alTier d.alAddr d.alBytes })

/-- T0 loses its bindings and its data in the range, T1 and T2 lose their regions. -/
def rangeFreed (t : State) (p slot : Nat) (d : Desc) : State :=
  if d.alTier = 0 then
    (t.modPart p (fun x => { x with binds := x.binds.filter (fun b => !overlap b.off b.len d.alAddr d.alBytes) })).tsZero p
      d.alAddr d.alBytes
  else t.dropRegions p slot d.alAddr d.alBytes

theorem releaseBody_eq (t : State) (d : Desc) (hs : slot < 192) :
    t.releaseBody (cid p slot) d = ((t.releaseEntered (cid p slot) d).rangeFreed p slot d).finishOk (cid p slot) d.index := by
  rw [releaseBody, cid_div p hs, cid_mod p hs]
  rfl

theorem releaseCharge_ctxs (t : State) (id : Nat) (d : Desc) : (t.releaseCharge id d).ctxs = t.ctxs := by
  unfold releaseCharge
  simp only
  split
  · exact setCharge_ctxs _ _ _ _
  · exact (setCharge_ctxs _ _ _ _).trans (setCharge_ctxs _ _ _ _)

theorem releaseCharge_ts (t : State) (id : Nat) (d : Desc) : (t.releaseCharge id d).ts = t.ts := by
  unfold releaseCharge
  simp only
  split
  · exact setCharge_ts _ _ _ _
  · exact (setCharge_ts _ _ _ _).trans (setCharge_ts _ _ _ _)

theorem Worked.releaseCharge (w : s.Worked u p slot d) (e : Desc) : s.Worked (u.releaseCharge (cid p slot) e) p slot d := by
  unfold State.releaseCharge
  simp only
  split
  · exact w.setCharge _ _
  · exact (w.setCharge _ _).setCharge _ _

theorem releaseEntered_worked (h : s.Canonical) (r : s.Runs p slot d) :
    s.Worked ((s.launched p slot d).releaseEntered (cid p slot) (s.begun p slot d)) p slot d :=
  ((launched_worked h r).releaseCharge _).modCtx (fun _ => rfl)

theorem releaseEntered_claims (h : s.Canonical) (r : s.Runs p slot d) :
    (((s.launched p slot d).releaseEntered (cid p slot) (s.begun p slot d)).ctx (cid p slot)).claims
      = subtract (s.ctx (cid p slot)).claims d.alTier d.alAddr d.alBytes := by
  rw [releaseEntered, ctx_modCtx _ _ _ ((launched_worked h r).releaseCharge _).placed.canonical, ctx, releaseCharge_ctxs, ← ctx,
    claims_launched h]
  rfl

theorem releaseEntered_discharged (h : s.Canonical) (hs : slot < 192) :
    Discharged s ((s.launched p slot d).releaseEntered (cid p slot) (s.begun p slot d)) (cid p slot) d.alTier (d.alBytes / 65536)
      (s.movedUnits (cid p slot) d) := by
  have hreleased := releaseCharge_discharged (cid p slot) (s.begun p slot d) (launched_canonical s p slot d h)
  rw [movedUnits_launched h hs] at hreleased
  obtain ⟨hown, hother, hcstate, hrest⟩ := hreleased
  rw [charge_launched] at hown
  exact ⟨hown, fun ht => (hother ht).trans (by rw [charge_launched]; rfl), hcstate.trans (cstate_launched s p slot d _),
    fun a hstat huse => (hrest a hstat huse).trans (rd_launched s p slot d a)⟩

theorem rangeFreed_regs (u : State) (p slot : Nat) (d : Desc) :
    (u.rangeFreed p slot d).regs = u.regs ∧ (u.rangeFreed p slot d).ctxs = u.ctxs := by
  unfold rangeFreed
  split <;> exact ⟨rfl, rfl⟩

theorem Worked.rangeFreed (w : s.Worked u p slot d) (e : Desc) : s.Worked (u.rangeFreed p slot e) p slot d := by
  unfold State.rangeFreed
  split
  · have hunbound := w.modPart (f := fun x => { x with binds := x.binds.filter (fun b => !overlap b.off b.len e.alAddr e.alBytes) })
      (fun _ => ⟨rfl, rfl⟩)
    exact hunbound.beside (tsZero_canonical _ _ _ _ hunbound.placed.canonical) rfl rfl rfl rfl rfl rfl rfl
  · exact w.modPart (fun _ => ⟨rfl, rfl⟩)

/-- In T0 no binding meets the range any more and the range is zero; elsewhere the tile store is as it was. -/
structure RangeFreed (s t : State) (p : Nat) (d : Desc) : Prop where
  other : d.alTier ≠ 0 → t.ts = s.ts
  binds : d.alTier = 0 → ∀ x ∈ (t.part p).binds, overlap x.off x.len d.alAddr d.alBytes = false
  zero : d.alTier = 0 → ∀ k, Sparse.get (fun _ => (0 : Byte)) t.ts k =
    if within k 1 (tsKey p d.alAddr) d.alBytes then 0 else Sparse.get (fun _ => (0 : Byte)) s.ts k

theorem rangeFreed_freed (slot : Nat) (d : Desc) (h : u.Canonical) : RangeFreed u (u.rangeFreed p slot d) p d := by
  unfold State.rangeFreed
  refine ⟨fun ht => by rw [if_neg ht]; rfl, fun ht x hx => ?_, fun ht k => ?_⟩
  · rw [if_pos ht] at hx
    have hpart := part_modPart u p
      (fun x => { x with binds := x.binds.filter (fun b => !overlap b.off b.len d.alAddr d.alBytes) }) h
    have hkept : x ∈ (u.part p).binds.filter (fun b => !overlap b.off b.len d.alAddr d.alBytes) :=
      (congrArg (fun y : Part => x ∈ y.binds) hpart).mp hx
    simpa using (List.mem_filter.mp hkept).2
  · rw [if_pos ht]
    exact Sparse.get_drop u.ts (fun k => within k 1 (tsKey p d.alAddr) d.alBytes) k

/-- The end of the descriptor leaves charges and state. -/
theorem Worked.discharged (w : s.Worked u p slot d) {tier n k : Nat} (c : Discharged s u (cid p slot) tier n k) :
    (u.finishOk (cid p slot) d.index).charge (cid p slot) tier = s.charge (cid p slot) tier - (n - k) ∧
      (tier = 1 ∨ tier = 2 →
        (u.finishOk (cid p slot) d.index).charge (cid p slot) (3 - tier) = s.charge (cid p slot) (3 - tier) - k) ∧
      (u.finishOk (cid p slot) d.index).cstate (cid p slot) = s.cstate (cid p slot) :=
  ⟨(w.charge _).trans c.own, fun ht => (w.charge _).trans (c.other ht), w.cstate.trans c.cstate⟩

/-- What the end of a release leaves. -/
structure ReleaseTaken (s t : State) (p slot : Nat) (d : Desc) : Prop where
  ended : s.endedOk t p slot d
  own : t.charge (cid p slot) d.alTier =
    s.charge (cid p slot) d.alTier - (d.alBytes / 65536 - s.movedUnits (cid p slot) d)
  other : d.alTier = 1 ∨ d.alTier = 2 →
    t.charge (cid p slot) (3 - d.alTier) = s.charge (cid p slot) (3 - d.alTier) - s.movedUnits (cid p slot) d
  claims : (t.ctx (cid p slot)).claims = subtract (s.ctx (cid p slot)).claims d.alTier d.alAddr d.alBytes
  cstate : t.cstate (cid p slot) = s.cstate (cid p slot)
  rest : ∀ a, a ∉ [a_PT_CTXSTAT p slot, a_PT_CTXUSE p slot] →
    (s.remoteAt (cid p slot) d.index → a ≠ a_XL_ASSTAT (s.asidOf (cid p slot))) → t.rd a = s.rd a
  freed : RangeFreed s t p d

theorem RangeFreed.trans {a b c : State} (h : b.ts = a.ts) (f : RangeFreed b c p d) {t : State} (hts : t.ts = c.ts)
    (hpart : t.part p = c.part p) : RangeFreed a t p d :=
  ⟨fun ht => hts.trans ((f.other ht).trans h), fun ht => by rw [hpart]; exact f.binds ht,
    fun ht k => by rw [hts, f.zero ht k, h]⟩

theorem releaseBody_taken (h : s.Canonical) (r : s.Runs p slot d) (hs : slot < 192) :
    s.ReleaseTaken ((s.launched p slot d).releaseBody (cid p slot) (s.begun p slot d)) p slot d := by
  have hentered := releaseEntered_worked h r
  have hworked := hentered.rangeFreed (s.begun p slot d)
  have hclaims := releaseEntered_claims h r
  have hts : ((s.launched p slot d).releaseEntered (cid p slot) (s.begun p slot d)).ts = s.ts :=
    (releaseCharge_ts _ _ _).trans (ts_launched s p slot d)
  have hrange := rangeFreed_freed (p := p) slot (s.begun p slot d) hentered.placed.canonical
  obtain ⟨hregs, hctxs⟩ := rangeFreed_regs ((s.launched p slot d).releaseEntered (cid p slot) (s.begun p slot d)) p slot (s.begun p slot d)
  have hdischarged := (releaseEntered_discharged (d := d) h hs).of_regs hregs
  obtain ⟨hown, hother, hcstate⟩ := hworked.discharged hdischarged
  rw [releaseBody_eq _ _ hs]
  refine ⟨hworked.endedOk hs, hown, hother, hworked.claims.trans ?_, hcstate, fun a ha hr => (hworked.rd hr).trans ?_,
    RangeFreed.trans (d := d) hts ⟨hrange.other, hrange.binds, hrange.zero⟩ (finishOk_ts _ _ _) (finishOk_part _ _ _ _)⟩
  · rw [ctx, hctxs]
    exact hclaims
  · simp only [List.mem_cons, List.not_mem_nil, or_false, not_or] at ha
    exact hdischarged.rest a (by rw [cid_div p hs, cid_mod p hs]; exact ha.1) (by rw [cid_div p hs, cid_mod p hs]; exact ha.2)

end

end State
end Sys2Proof.Machine
end

section
/-! PROOFS. Dispatch of PHASE (R160, R315, R316). -/

namespace Sys2Proof.Machine

open State

namespace State

/-- A field keeps its value when a field apart from it is written, in its register or in another. -/
theorem fld_setFld_other {s : State} {f g : Fld} (a b v : Nat) (h : s.Canonical) (hf : f.Sound) (hg : g.Sound) (hd : g.Apart f) :
    (s.setFld a f v).fld b g = s.fld b g := by
  by_cases hb : b = a
  · rw [hb]
    exact fld_setFld_apart s a f g v h hf.2 hf.1 hg.1 hd.symm
  · exact fld_setFld_ne s a b f g v hb

/-- From s to t one register changes, and free choices of the time may be taken. -/
structure RegOnly (s t : State) (a : Nat) : Prop where
  canonical : t.Canonical
  same : ∃ rs n, t = { s with regs := rs, fresh := n }
  rd : ∀ b, b ≠ a → t.rd b = s.rd b

theorem RegOnly.refl {s : State} (a : Nat) (h : s.Canonical) : RegOnly s s a := ⟨h, ⟨_, _, rfl⟩, fun _ _ => rfl⟩

theorem RegOnly.trans {s t u : State} {a : Nat} (h : RegOnly s t a) (g : RegOnly t u a) : RegOnly s u a := by
  obtain ⟨hc, ⟨rs, n, e⟩, hrd⟩ := g
  obtain ⟨-, ⟨rs', n', e'⟩, hrd'⟩ := h
  exact ⟨hc, ⟨rs, n, by rw [e, e']⟩, fun b hb => (hrd b hb).trans (hrd' b hb)⟩

theorem RegOnly.setFld {s : State} (a : Nat) (f : Fld) (n : Nat) (h : s.Canonical) : RegOnly s (s.setFld a f n) a :=
  ⟨setFld_canonical s a f n h, ⟨_, _, rfl⟩, fun b hb => rd_setFld_ne s a b f n hb⟩

/-- The word of a tag that has been learned. -/
def learnedWord (s : State) (p tag next dur : Nat) : Word :=
  let w := s.rd (a_PW_PHTAG p tag)
  let first := PW_PHTAG_NEXT_VALID.get w == 0
  let w := PW_PHTAG_POWER.set w (learn first (PW_PHTAG_POWER.get w) (Config.freeNat s.fresh % 4096))
  let w := PW_PHTAG_BUSY.set w (learn first (PW_PHTAG_BUSY.get w) (Config.freeNat (s.fresh + 1) % 256))
  let w := PW_PHTAG_DUR_US.set w (learn first (PW_PHTAG_DUR_US.get w) (min 16777215 dur))
  PW_PHTAG_NEXT_VALID.set (PW_PHTAG_NEXT_TAG.set w next) 1

/-- The tag's word is written, before its set point is chosen. -/
def wordLearned (s : State) (p tag next dur : Nat) : State :=
  { s with fresh := s.fresh + 2 }.wr (a_PW_PHTAG p tag) (s.learnedWord p tag next dur)

theorem learnTag_eq (s : State) (p tag next dur : Nat) :
    s.learnTag p tag next dur = (s.wordLearned p tag next dur).chooseTag p tag := rfl

theorem wordLearned_regOnly {s : State} (p tag next dur : Nat) (h : s.Canonical) :
    RegOnly s (s.wordLearned p tag next dur) (a_PW_PHTAG p tag) :=
  ⟨wr_canonical { s with fresh := s.fresh + 2 } _ _ h, ⟨_, _, rfl⟩, fun b hb => rd_wr_ne { s with fresh := s.fresh + 2 } _ b _ hb⟩

/-- A learned tag names the phase that follows it. -/
theorem wordLearned_next {s : State} {p tag next : Nat} (dur : Nat) (h : s.Canonical) (hn : next < 64) :
    (s.wordLearned p tag next dur).fld (a_PW_PHTAG p tag) PW_PHTAG_NEXT_TAG = next ∧
      (s.wordLearned p tag next dur).fld (a_PW_PHTAG p tag) PW_PHTAG_NEXT_VALID = 1 := by
  have hrd : (s.wordLearned p tag next dur).rd (a_PW_PHTAG p tag) = s.learnedWord p tag next dur :=
    rd_wr { s with fresh := s.fresh + 2 } _ _ h
  rw [fld, fld, hrd, learnedWord]
  constructor
  · rw [get_set_apart PW_PHTAG_NEXT_VALID PW_PHTAG_NEXT_TAG _ _ (by decide) (by decide) (by decide) (by decide),
      get_set PW_PHTAG_NEXT_TAG _ _ (by decide) (by decide)]
    exact Nat.mod_eq_of_lt hn
  · rw [get_set PW_PHTAG_NEXT_VALID _ _ (by decide) (by decide)]
    rfl

/-- The phase before is learned, where there is one. -/
def phaseLearned (s : State) (p id : Nat) (d : Desc) : State :=
  if (s.ctx id).phaseTag < 64 then s.learnTag p (s.ctx id).phaseTag d.phTag ((s.now - (s.ctx id).phaseAt) / 1000) else s

/-- The entry of the new phase takes its class, and the duration that software expects where none is known. -/
def phaseClassed (s : State) (p : Nat) (d : Desc) : State :=
  let t := s.setFld (a_PW_PHTAG p d.phTag) PW_PHTAG_CLASS d.phClass
  if d.phExpect ≠ 0 ∧ t.fld (a_PW_PHTAG p d.phTag) PW_PHTAG_NEXT_VALID = 0 then
    t.setFld (a_PW_PHTAG p d.phTag) PW_PHTAG_DUR_US d.phExpect else t

theorem phTag_lt (d : Desc) : d.phTag < 64 := Nat.mod_lt _ (by decide)
theorem phClass_lt (d : Desc) : d.phClass < 4 := Nat.mod_lt _ (by decide)

theorem phaseClassed_regOnly {s : State} (p : Nat) (d : Desc) (h : s.Canonical) :
    RegOnly s (s.phaseClassed p d) (a_PW_PHTAG p d.phTag) := by
  have hclass := RegOnly.setFld (a_PW_PHTAG p d.phTag) PW_PHTAG_CLASS d.phClass h
  unfold phaseClassed
  simp only
  split
  · exact hclass.trans (.setFld _ _ _ hclass.canonical)
  · exact hclass

theorem phaseClassed_class {s : State} (p : Nat) (d : Desc) (h : s.Canonical) :
    (s.phaseClassed p d).fld (a_PW_PHTAG p d.phTag) PW_PHTAG_CLASS = d.phClass := by
  have hclass := (fld_setFld s (a_PW_PHTAG p d.phTag) PW_PHTAG_CLASS d.phClass h (by decide) (by decide)).trans
    (Nat.mod_eq_of_lt (phClass_lt d))
  unfold phaseClassed
  simp only
  split
  · rw [fld_setFld_apart _ _ PW_PHTAG_DUR_US PW_PHTAG_CLASS _ (setFld_canonical s _ _ _ h) (by decide) (by decide) (by decide) (by decide),
      hclass]
  · exact hclass

/-- A field apart from those that a PHASE writes. -/
structure PhaseSpares (g : Fld) : Prop where
  sound : g.Sound
  cls : g.Apart PW_PHTAG_CLASS
  dur : g.Apart PW_PHTAG_DUR_US
  mv : g.Apart PW_PHTAG_SET_MV

theorem phaseSpares_nextTag : PhaseSpares PW_PHTAG_NEXT_TAG :=
  ⟨⟨by decide, by decide⟩, .inl (by decide), .inr (by decide), .inl (by decide)⟩

theorem phaseSpares_nextValid : PhaseSpares PW_PHTAG_NEXT_VALID :=
  ⟨⟨by decide, by decide⟩, .inl (by decide), .inr (by decide), .inl (by decide)⟩

theorem chooseTag_kept {s : State} {g : Fld} (p tag a : Nat) (h : s.Canonical) (hg : g.Sound) (hmv : g.Apart PW_PHTAG_SET_MV) :
    (s.chooseTag p tag).fld a g = s.fld a g := fld_setFld_other _ _ _ h ⟨by decide, by decide⟩ hg hmv

theorem phaseClassed_kept {s : State} {g : Fld} (p a : Nat) (d : Desc) (h : s.Canonical) (hg : PhaseSpares g) :
    (s.phaseClassed p d).fld a g = s.fld a g := by
  have hclass := fld_setFld_other (s := s) (f := PW_PHTAG_CLASS) (g := g) (a_PW_PHTAG p d.phTag) a d.phClass h ⟨by decide, by decide⟩
    hg.sound hg.cls
  have hc := setFld_canonical s (a_PW_PHTAG p d.phTag) PW_PHTAG_CLASS d.phClass h
  unfold phaseClassed
  simp only
  split
  · exact (fld_setFld_other _ _ _ hc ⟨by decide, by decide⟩ hg.sound hg.dur).trans hclass
  · exact hclass

theorem chooseTag_regOnly {s : State} (p tag : Nat) (h : s.Canonical) : RegOnly s (s.chooseTag p tag) (a_PW_PHTAG p tag) :=
  .setFld _ _ _ h

theorem learnTag_regOnly {s : State} (p tag next dur : Nat) (h : s.Canonical) :
    RegOnly s (s.learnTag p tag next dur) (a_PW_PHTAG p tag) := by
  have hlearned := wordLearned_regOnly p tag next dur h
  rw [learnTag_eq]
  exact hlearned.trans (chooseTag_regOnly p tag hlearned.canonical)

theorem learnTag_next {s : State} {p tag next : Nat} (dur : Nat) (h : s.Canonical) (hn : next < 64) :
    (s.learnTag p tag next dur).fld (a_PW_PHTAG p tag) PW_PHTAG_NEXT_TAG = next ∧
      (s.learnTag p tag next dur).fld (a_PW_PHTAG p tag) PW_PHTAG_NEXT_VALID = 1 := by
  have hc := (wordLearned_regOnly p tag next dur h).canonical
  have hkept (g : Fld) (hg : PhaseSpares g) := chooseTag_kept p tag (a_PW_PHTAG p tag) hc hg.sound hg.mv
  rw [learnTag_eq, hkept _ phaseSpares_nextTag, hkept _ phaseSpares_nextValid]
  exact wordLearned_next dur h hn

section
variable {s u : State} {p slot : Nat} {d : Desc}

theorem Worked.regOnly {v : State} {a : Nat} (w : s.Worked u p slot d) (c : RegOnly u v a) (ha : cfgAddr (cid p slot) ≠ a) :
    s.Worked v p slot d := by
  obtain ⟨hc, ⟨rs, n, e⟩, hrd⟩ := c
  have hcfg := hrd _ ha
  rw [e] at hc hcfg ⊢
  exact w.beside hc rfl rfl rfl rfl rfl rfl hcfg

theorem cfgAddr_ne_phtag (hs : slot < 192) (tag : Nat) : cfgAddr (cid p slot) ≠ a_PW_PHTAG p tag := by
  simp only [cfgAddr, cid_div p hs, cid_mod p hs, a_PT_CTXCFG, a_PW_PHTAG]
  omega

theorem phtag_ne_asstat (hp : p < 24) {tag : Nat} (ht : tag < 64) (k : Nat) : a_PW_PHTAG p tag ≠ a_XL_ASSTAT k := by
  simp only [a_PW_PHTAG, a_XL_ASSTAT]
  omega

/-- From s to t the phase of a tag is learned, where there is one: its own entry changes and names the phase after it. -/
structure TagLearned (s t : State) (p tag next : Nat) : Prop where
  rest : ∀ a, (tag < 64 → a ≠ a_PW_PHTAG p tag) → t.rd a = s.rd a
  next : tag < 64 → t.fld (a_PW_PHTAG p tag) PW_PHTAG_NEXT_TAG = next ∧ t.fld (a_PW_PHTAG p tag) PW_PHTAG_NEXT_VALID = 1
  ts : t.ts = s.ts

theorem phaseLearned_learned (h : u.Canonical) (p id : Nat) (e : Desc) :
    TagLearned u (u.phaseLearned p id e) p (u.ctx id).phaseTag e.phTag := by
  unfold phaseLearned
  by_cases ht : (u.ctx id).phaseTag < 64
  · rw [if_pos ht]
    have hreg := learnTag_regOnly p (u.ctx id).phaseTag e.phTag ((u.now - (u.ctx id).phaseAt) / 1000) h
    obtain ⟨rs, n, hsame⟩ := hreg.same
    exact ⟨fun a ha => hreg.rd a (ha ht), fun _ => learnTag_next _ h (phTag_lt e), by rw [hsame]⟩
  · rw [if_neg ht]
    exact ⟨fun _ _ => rfl, fun h => absurd h ht, rfl⟩

theorem Worked.phaseLearned (w : s.Worked u p slot d) (hs : slot < 192) (e : Desc) :
    s.Worked (u.phaseLearned p (cid p slot) e) p slot d := by
  unfold State.phaseLearned
  split
  · exact w.regOnly (learnTag_regOnly _ _ _ _ w.placed.canonical) (cfgAddr_ne_phtag hs _)
  · exact w

/-- The entry of the new phase is written: its class, a duration and a set point. -/
def phaseWritten (u : State) (p : Nat) (d : Desc) : State := (u.phaseClassed p d).chooseTag p d.phTag

theorem phaseWritten_regOnly (p : Nat) (e : Desc) (h : u.Canonical) : RegOnly u (u.phaseWritten p e) (a_PW_PHTAG p e.phTag) :=
  (phaseClassed_regOnly p e h).trans (chooseTag_regOnly p e.phTag (phaseClassed_regOnly p e h).canonical)

theorem phaseWritten_class (p : Nat) (e : Desc) (h : u.Canonical) :
    (u.phaseWritten p e).fld (a_PW_PHTAG p e.phTag) PW_PHTAG_CLASS = e.phClass :=
  (chooseTag_kept p _ _ (phaseClassed_regOnly p e h).canonical ⟨by decide, by decide⟩ (.inl (by decide))).trans
    (phaseClassed_class p e h)

theorem phaseWritten_kept {g : Fld} (p a : Nat) (e : Desc) (h : u.Canonical) (hg : PhaseSpares g) :
    (u.phaseWritten p e).fld a g = u.fld a g :=
  (chooseTag_kept p _ a (phaseClassed_regOnly p e h).canonical hg.sound hg.mv).trans (phaseClassed_kept p a e h hg)

/-- The context is in its new phase. -/
def phaseSet (now : Nat) (d : Desc) (c : Ctx) : Ctx := { c with phaseTag := d.phTag, phaseAt := now, phaseClass := d.phClass }

/-- No raise of the slot is under way. -/
def raisesEnded (slot : Nat) (x : Part) : Part := { x with raises := x.raises.filter (fun r => r.1 != slot) }

/-- The new phase has begun. -/
def phaseEntered (u : State) (p slot now : Nat) (d : Desc) : State :=
  (u.modCtx (cid p slot) (phaseSet now d)).modPart p (raisesEnded slot)

theorem phaseBody_eq (u : State) (e : Desc) (hs : slot < 192) :
    u.phaseBody (cid p slot) e =
      (((u.phaseLearned p (cid p slot) e).phaseWritten p e).phaseEntered p slot u.now e).finishOk (cid p slot) e.index := by
  rw [phaseBody, cid_div p hs, cid_mod p hs]
  rfl

/-- What the end of a PHASE leaves. -/
structure PhaseTaken (s t : State) (p slot : Nat) (d : Desc) : Prop where
  ended : s.endedOk t p slot d
  tag : (t.ctx (cid p slot)).phaseTag = d.phTag
  since : (t.ctx (cid p slot)).phaseAt = s.now
  cls : (t.ctx (cid p slot)).phaseClass = d.phClass
  entry : t.fld (a_PW_PHTAG p d.phTag) PW_PHTAG_CLASS = d.phClass
  before : (s.ctx (cid p slot)).phaseTag < 64 →
    t.fld (a_PW_PHTAG p (s.ctx (cid p slot)).phaseTag) PW_PHTAG_NEXT_TAG = d.phTag ∧
      t.fld (a_PW_PHTAG p (s.ctx (cid p slot)).phaseTag) PW_PHTAG_NEXT_VALID = 1
  rest : ∀ a, a ∉ a_PW_PHTAG p d.phTag ::
      (if (s.ctx (cid p slot)).phaseTag < 64 then [a_PW_PHTAG p (s.ctx (cid p slot)).phaseTag] else []) →
    (s.remoteAt (cid p slot) d.index → a ≠ a_XL_ASSTAT (s.asidOf (cid p slot))) → t.rd a = s.rd a
  ts : t.ts = s.ts

theorem phaseTag_launched (h : s.Canonical) : ((s.launched p slot d).ctx (cid p slot)).phaseTag = (s.ctx (cid p slot)).phaseTag := by
  obtain ⟨ds, e⟩ := launched_entriesOnly (p := p) (slot := slot) (d := d) h
  rw [e]

theorem phaseBody_taken (h : s.Canonical) (r : s.Runs p slot d) (hp : p < 24) (hs : slot < 192) :
    s.PhaseTaken ((s.launched p slot d).phaseBody (cid p slot) (s.begun p slot d)) p slot d := by
  have hlaunched := launched_worked h r
  have hlearned := phaseLearned_learned hlaunched.placed.canonical p (cid p slot) (s.begun p slot d)
  have hworked := hlaunched.phaseLearned hs (s.begun p slot d)
  rw [phaseTag_launched h] at hlearned
  rw [phaseBody_eq _ _ hs, hlaunched.placed.now]
  generalize (s.launched p slot d).phaseLearned p (cid p slot) (s.begun p slot d) = v at hlearned hworked ⊢
  have hc := hworked.placed.canonical
  have hwritten := phaseWritten_regOnly p (s.begun p slot d) hc
  have hw := hworked.regOnly hwritten (cfgAddr_ne_phtag hs _)
  have hset := hw.modCtx (f := phaseSet s.now (s.begun p slot d)) (fun _ => rfl)
  have hctx := ctx_modCtx (v.phaseWritten p (s.begun p slot d)) (cid p slot) (phaseSet s.now (s.begun p slot d)) hw.placed.canonical
  have hentered : s.Worked ((v.phaseWritten p (s.begun p slot d)).phaseEntered p slot s.now (s.begun p slot d)) p slot d :=
    hset.modPart (fun _ => ⟨rfl, rfl⟩)
  obtain ⟨ds, e⟩ := hentered.entriesOnly
  have hctx := e.trans (congrArg (fun c : Ctx => { c with descs := ds }) hctx)
  obtain ⟨rs, n, hsame⟩ := hwritten.same
  have hfld {tag : Nat} (g : Fld) (ht : tag < 64) := hentered.fld (a := a_PW_PHTAG p tag) g (phtag_ne_asstat hp ht)
  refine ⟨hentered.endedOk hs, congrArg Ctx.phaseTag hctx, congrArg Ctx.phaseAt hctx, congrArg Ctx.phaseClass hctx,
    (hfld _ (phTag_lt d)).trans (phaseWritten_class p (s.begun p slot d) hc), fun ht => ⟨?_, ?_⟩, fun a ha hr => ?_, ?_⟩
  · exact (hfld _ ht).trans ((phaseWritten_kept p _ _ hc phaseSpares_nextTag).trans (hlearned.next ht).1)
  · exact (hfld _ ht).trans ((phaseWritten_kept p _ _ hc phaseSpares_nextValid).trans (hlearned.next ht).2)
  · rw [List.mem_cons, not_or] at ha
    have hbefore : v.rd a = s.rd a :=
      (hlearned.rest a (fun ht => by simpa [ht] using ha.2)).trans (rd_launched s p slot d a)
    exact (hentered.rd hr).trans ((hwritten.rd a ha.1).trans hbefore)
  · refine (finishOk_ts _ _ _).trans ?_
    have hts : (v.phaseWritten p (s.begun p slot d)).ts = v.ts := by rw [hsame]
    exact hts.trans (hlearned.ts.trans (ts_launched s p slot d))

end

end State
end Sys2Proof.Machine
end

section
/-! PROOFS. Dispatch of MARK and FENCE, and the commands of ALLOC, PHASE, MARK and FENCE (R159–R161, R163, R198). -/

namespace Sys2Proof.Machine

open State

namespace State

/-! ### MARK and FENCE (R161, R163, R198) -/

section
variable {s : State} {p slot : Nat} {d : Desc}

/-- A MARK ends as it was launched. -/
theorem mark_rest (h : s.Canonical) (r : s.Runs p slot d) :
    let t := (s.launched p slot d).finishOk (cid p slot) d.index
    s.sameRegs t (cid p slot) d.index ∧ t.ts = s.ts ∧ t.bead = s.bead ∧ t.epochs = s.epochs := by
  have hrd := fun a => (launched_worked h r).rd (a := a)
  obtain ⟨cs, rs, e⟩ := finish_rest (s.launched p slot d) (cid p slot) d.index stOK 0
  obtain ⟨cs', ps, e'⟩ := launched_eq s p slot d
  refine ⟨fun a ha => (hrd a ha).trans (rd_launched s p slot d a), ?_⟩
  rw [finishOk, e, e']
  exact ⟨rfl, rfl, rfl⟩

/-- The epoch after all that are asked for. -/
def nextEpoch (s : State) (a : Nat) : Nat := (s.fld (a_XL_ASSTAT a) XL_ASSTAT_EPOCH + s.pendingIncrements a + 1) % 65536

theorem fenceBody_eq (u : State) (e : Desc) (hs : slot < 192) :
    u.fenceBody (cid p slot) e =
      (u.modDesc (cid p slot) e.index (fun x => { x with epoch := u.nextEpoch (u.asidOf (cid p slot)) })).requestIncrement
        (u.asidOf (cid p slot)) (.fence p ⟨slot, e.index⟩) := by
  rw [fenceBody, cid_div p hs, cid_mod p hs]
  rfl

theorem nextEpoch_launched (s : State) (p slot : Nat) (d : Desc) (a : Nat) : (s.launched p slot d).nextEpoch a = s.nextEpoch a := by
  have hpending : (s.launched p slot d).pendingIncrements a = s.pendingIncrements a := by
    obtain ⟨cs, ps, e⟩ := launched_eq s p slot d
    rw [e]
    rfl
  rw [nextEpoch, fld_launched, hpending, nextEpoch]

/-- A FENCE has taken the epoch it creates, and asks for the increment. -/
theorem fenceBody_started (h : s.Canonical) (hs : slot < 192) :
    s.Started ((s.launched p slot d).fenceBody (cid p slot) (s.begun p slot d)) p slot
        { s.begun p slot d with epoch := s.nextEpoch (s.asidOf (cid p slot)) } ∧
      ((s.launched p slot d).fenceBody (cid p slot) (s.begun p slot d)).epochs =
        s.epochs ++ [(s.asidOf (cid p slot), .fence p ⟨slot, d.index⟩)] := by
  have hstarted := (launched_started (p := p) (slot := slot) (d := d) h).modDesc (launched_canonical s p slot d h)
    (f := fun x => { x with epoch := s.nextEpoch (s.asidOf (cid p slot)) }) rfl rfl
  have hepochs : (s.launched p slot d).epochs = s.epochs := by
    obtain ⟨cs, ps, e⟩ := launched_eq s p slot d
    rw [e]
  rw [fenceBody_eq _ _ hs, asidOf_launched, nextEpoch_launched]
  exact ⟨⟨hstarted.descs, hstarted.dispatched, hstarted.sameData⟩,
    congrArg (· ++ [(s.asidOf (cid p slot), EpochSrc.fence p ⟨slot, d.index⟩)]) hepochs⟩

end
end State

/-! ### The commands -/

section
variable {pp : Fin 24} {slot : Fin 192} {d : Desc} {s : State}

theorem exec_allocClaim (h : s.Canonical) (r : s.Runs pp slot d) (hk : d.kind = kALLOC) (hclaim : d.alRelease = false)
    (hok : s.allocCheck (cid pp slot) d = none) :
    exec (.allocClaim pp slot) s = .next ((s.launched pp slot d).claimBody (cid pp slot) (s.begun pp slot d)) :=
  congrArg Host.Outcome.next (dispatchNext_runs h r claimBody (by simp [hk, hclaim]) ((allocCheck_shaped h).trans hok) rfl)

theorem exec_allocRelease (h : s.Canonical) (r : s.Runs pp slot d) (hk : d.kind = kALLOC) (hrelease : d.alRelease = true)
    (hok : s.allocCheck (cid pp slot) d = none) :
    exec (.allocRelease pp slot) s = .next ((s.launched pp slot d).releaseBody (cid pp slot) (s.begun pp slot d)) :=
  congrArg Host.Outcome.next (dispatchNext_runs h r releaseBody (by simp [hk, hrelease]) ((allocCheck_shaped h).trans hok) rfl)

theorem exec_phase (h : s.Canonical) (r : s.Runs pp slot d) (hk : d.kind = kPHASE) :
    exec (.phase pp slot) s = .next ((s.launched pp slot d).phaseBody (cid pp slot) (s.begun pp slot d)) :=
  congrArg Host.Outcome.next (dispatchNext_runs h r phaseBody (by simp [hk]) rfl rfl)

theorem exec_mark (h : s.Canonical) (r : s.Runs pp slot d) (hk : d.kind = kMARK) :
    exec (.mark pp slot) s = .next ((s.launched pp slot d).finishOk (cid pp slot) d.index) :=
  congrArg Host.Outcome.next (dispatchNext_runs h r (fun s id d => s.finishOk id d.index) (by simp [hk]) rfl rfl)

theorem exec_fence (h : s.Canonical) (r : s.Runs pp slot d) (hk : d.kind = kFENCE) :
    exec (.fence pp slot) s = .next ((s.launched pp slot d).fenceBody (cid pp slot) (s.begun pp slot d)) :=
  congrArg Host.Outcome.next (dispatchNext_runs h r fenceBody (by simp [hk]) rfl rfl)

end

/-- The charge of a tier stands in one of the two registers of its slot. -/
theorem chargeReg_cid (pp : Nat) {slot : Nat} (tier : Nat) (hs : slot < 192) :
    chargeReg (cid pp slot) tier = if tier = 0 then a_PT_CTXSTAT pp slot else a_PT_CTXUSE pp slot := by
  rw [chargeReg, cid_div pp hs, cid_mod pp hs]

/-- Settles O46: each body is a few changes of the launched descriptor's state, and its end, where it has one, leaves all but entries. -/
theorem claimsPhasesMarksAndFences : Obligations.ClaimsPhasesMarksAndFences := by
  unfold Obligations.ClaimsPhasesMarksAndFences
  intro pp slot d s h r id b ok rest
  refine ⟨fun hk hclaim hok => ?claim, fun hk hrelease hok => ?release, fun hk => ?phase, fun hk => ?mark, fun hk => ?fence⟩
  case claim =>
    obtain ⟨hended, htaken⟩ := claimBody_taken h r slot.isLt (allocCheck_claim hclaim hok)
    refine ⟨_, exec_allocClaim h r hk hclaim hok, hended, htaken.charge, htaken.claims, htaken.cstate, fun a ha hr => ?_, htaken.ts⟩
    rw [List.mem_singleton, ← chargeReg_cid pp _ slot.isLt] at ha
    exact htaken.rest a ha hr
  case release =>
    obtain ⟨hended, hown, hother, hclaims, hcstate, hrest, hts, hbinds, hzero⟩ := releaseBody_taken h r slot.isLt
    exact ⟨_, exec_allocRelease h r hk hrelease hok, hended, hown, hother, hclaims, hcstate, hrest, hts,
      fun ht => ⟨hbinds ht, hzero ht⟩⟩
  case phase =>
    obtain ⟨hended, htag, hsince, hclass, hentry, hbefore, hrest, hts⟩ := phaseBody_taken h r pp.isLt slot.isLt
    exact ⟨_, exec_phase h r hk, hended, htag, hsince, hclass, hentry, hbefore, hrest, hts⟩
  case mark =>
    obtain ⟨hregs, hts, hbead, hepochs⟩ := mark_rest h r
    exact ⟨_, exec_mark h r hk, (launched_worked h r).endedOk slot.isLt, fun a _ hr => hregs a hr, hts, hbead, hepochs⟩
  case fence =>
    obtain ⟨⟨hdescs, hdispatched, hdata⟩, hepochs⟩ := fenceBody_started (p := pp) (d := d) h slot.isLt
    exact ⟨_, exec_fence h r hk, hepochs, hdata, hdispatched, hdescs⟩

end Sys2Proof.Machine
end

section
/-! PROOFS. Interrupt routes (R241), the key index of a core (R390) and HOLD of the tier manager (R186, R187, log entry 39). -/

namespace Sys2Proof.Machine

open State

namespace State

/-! ### Interrupt routes (R241) -/

/-- A signal to a core changes what that core has pending, nothing else. -/
theorem signalIrq_eq (s : State) (n : Nat) : ∃ cs, s.signalIrq n = { s with cores := cs } := by
  unfold signalIrq
  simp only
  split
  · split <;> exact ⟨_, rfl⟩
  · exact ⟨_, rfl⟩

end State

/-- The word that a legal write of HS_IRQROUTE leaves: the core and the enable bit of the written word. -/
def routeWord (v : Word) : Word := HS_IRQROUTE_ENABLE.set (HS_IRQROUTE_CORE.set 0 (HS_IRQROUTE_CORE.get v)) (HS_IRQROUTE_ENABLE.get v)

theorem core_routeWord (v : Word) : HS_IRQROUTE_CORE.get (routeWord v) = HS_IRQROUTE_CORE.get v := by
  rw [routeWord, get_set_apart _ _ _ _ (by decide) (by decide) (by decide) (by decide), get_set _ _ _ (by decide) (by decide)]
  exact Nat.mod_eq_of_lt (Fld.get_lt _ v)

theorem enable_routeWord (v : Word) : HS_IRQROUTE_ENABLE.get (routeWord v) = HS_IRQROUTE_ENABLE.get v := by
  rw [routeWord, get_set _ _ _ (by decide) (by decide)]
  exact Nat.mod_eq_of_lt (Fld.get_lt _ v)

theorem irqRoute_legal {s : State} (n : Nat) {v : Word} (h : HS_IRQROUTE_CORE.get v < 96) :
    ∃ cs, irqRoute n v s = { s.wr (a_HS_IRQROUTE n) (routeWord v) with cores := cs } := by
  obtain ⟨cs, e⟩ := (s.wr (a_HS_IRQROUTE n) (routeWord v)).signalIrq_eq n
  exact ⟨cs, (if_neg (Nat.not_le.mpr h)).trans e⟩

/-- A route to no core is refused with a record of the device. -/
theorem irqRoute_refused {s : State} (n : Nat) {v : Word} (h : 96 ≤ HS_IRQROUTE_CORE.get v) :
    irqRoute n v s = s.faultDev cPROTO 6 255 := if_pos h

namespace State

/-! ### Key indices of cores (R390) -/

/-- A write of HS_COREKEY where it is admitted: the key index of the core, or a record. -/
def selectKey (s : State) (who : Requester) (c : Fin 96) (k : Nat) : State :=
  if who = .core c ∧ coreKeyOk s c k = true then s.setFld (a_HS_COREKEY c) HS_COREKEY_KEYIDX k
  else s.faultDev cSEC 6 (128 + s.quadOf c)

/-! ### HOLD (R187) -/

/-- A write of HOLD where it is admitted; HOLD discards the migration under way. -/
def setHold (s : State) (p : Nat) (hold : Bool) : State :=
  let t := s.setFld (a_PT_TMCTL p) PT_TMCTL_HOLD (b2n hold)
  if hold && (t.part p).migration.isSome then t.discardMigration p else t

theorem setHold_eq (s : State) (p : Nat) (hold : Bool) :
    ∃ ps, s.setHold p hold = { s.setFld (a_PT_TMCTL p) PT_TMCTL_HOLD (b2n hold) with parts := ps } := by
  simp only [setHold]
  split <;> exact ⟨_, rfl⟩

theorem migration_setHold (s : State) (p : Nat) (hold : Bool) (h : s.Canonical) :
    ((s.setHold p hold).part p).migration = if hold then none else (s.part p).migration := by
  cases hold with
  | false => rfl
  | true =>
    have hpart : (s.setFld (a_PT_TMCTL p) PT_TMCTL_HOLD (b2n true)).part p = s.part p := rfl
    simp only [setHold, Bool.true_and, hpart, if_true]
    by_cases hunderway : (s.part p).migration.isSome = true
    · rw [if_pos hunderway, discardMigration, part_modPart _ p _ (setFld_canonical s _ _ _ h)]
    · rw [if_neg hunderway, hpart]
      exact Option.not_isSome_iff_eq_none.mp hunderway

theorem b2n_hold_fits (b : Bool) : b2n b % 2 ^ PT_TMCTL_HOLD.width = b2n b := by cases b <;> rfl

end State

/-! ### The commands -/

theorem exec_hsIrqrouteWrite_admitted {who : Requester} {n : Fin 1024} {v : Word} {s : State}
    (hg : s.gate who (a_HS_IRQROUTE n) true = none) : exec (.hsIrqrouteWrite who n v) s = .next (irqRoute n v s) :=
  next_gated _ hg rfl

theorem exec_hsCorekeyWrite_admitted {who : Requester} {c : Fin 96} {v : Word} {s : State}
    (hg : s.gate who (a_HS_COREKEY c) true = none) :
    exec (.hsCorekeyWrite who c v) s = .next (s.selectKey who c (HS_COREKEY_KEYIDX.get v)) :=
  next_gated _ hg (by simp only [selectKey, Bool.and_eq_true, decide_eq_true_eq])

theorem exec_ptTmctlHold_admitted {who : Requester} {pp : Fin 24} {hold : Bool} {s : State}
    (hg : s.gate who (a_PT_TMCTL pp) true = none) : exec (.ptTmctlHold who pp hold) s = .next (s.setHold pp hold) :=
  next_gated _ hg rfl

/-- Settles O30: each command writes its one register or logs a record, and HOLD besides discards the migration under way. -/
theorem routesKeysAndHold : Obligations.RoutesKeysAndHold := by
  unfold Obligations.RoutesKeysAndHold
  refine ⟨fun who n v s h hg => ⟨_, exec_hsIrqrouteWrite_admitted hg, ?route⟩,
    fun who c v s h hg => ⟨_, exec_hsCorekeyWrite_admitted hg, ?key⟩,
    fun who pp hold s h hg => ⟨_, exec_ptTmctlHold_admitted hg, ?hold⟩⟩
  case route =>
    rcases Nat.lt_or_ge (HS_IRQROUTE_CORE.get v) 96 with hlegal | hrefused
    · obtain ⟨cs, e⟩ := irqRoute_legal (s := s) n hlegal
      have hword := rd_wr s (a_HS_IRQROUTE n) (routeWord v) h
      rw [e]
      exact ⟨fun _ => ⟨(congrArg HS_IRQROUTE_CORE.get hword).trans (core_routeWord v),
        (congrArg HS_IRQROUTE_ENABLE.get hword).trans (enable_routeWord v)⟩,
        fun hno => absurd hlegal (Nat.not_lt.mpr hno), fun a ha => rd_wr_ne s _ a _ ha, rfl⟩
    · obtain ⟨held, m, e⟩ := s.faultDev_eq cPROTO 6 255
      rw [irqRoute_refused n hrefused, e]
      exact ⟨fun hno => absurd hno (Nat.not_lt.mpr hrefused), fun _ => rfl, fun _ _ => rfl, rfl⟩
  case key =>
    rw [selectKey]
    split
    · refine ⟨?_, ?_, fun a ha => rd_setFld_ne s _ a _ _ ha, rfl, rfl⟩
      · rw [fld_setFld s _ _ _ h (by decide) (by decide)]
        exact Nat.mod_eq_of_lt (Fld.get_lt _ v)
      · exact fld_setFld_apart s _ _ _ _ h (by decide) (by decide) (by decide) (by decide)
    · obtain ⟨held, m, e⟩ := s.faultDev_eq cSEC 6 (128 + s.quadOf c)
      rw [e]
      exact ⟨rfl, rfl, fun _ _ => rfl, rfl, rfl⟩
  case hold =>
    obtain ⟨ps, e⟩ := s.setHold_eq pp hold
    have hmigration := s.migration_setHold pp hold h
    rw [e] at hmigration ⊢
    exact ⟨(fld_setFld s _ _ _ h (by decide) (by decide)).trans (b2n_hold_fits hold), hmigration,
      fun a ha => rd_setFld_ne s _ a _ _ ha, rfl⟩

end Sys2Proof.Machine
end

section
/-! PROOFS. Address spaces: commits of their settings, and the increments of their epochs (R197, R198). -/

namespace Sys2Proof.Machine

open State

/-- An undispatched descriptor takes a new epoch, and is marked where its translation was made or begun under the old one. -/
def Desc.restamp (epoch : Nat) (d : Desc) : Desc :=
  if undispatched d then
    { d with epoch := epoch, marked := d.marked || d.stage == .ready && !(translated d).isEmpty || d.xlate.any (fun x => x.begun) }
  else d

/-- A migration that waited for its increment starts its drain at the new epoch. -/
def Migration.drainsFrom (epoch start : Nat) (m : Migration) : Migration := { m with step := 3, epoch := epoch, waitFrom := start }

namespace State

/-- A record of the device changes no register. -/
theorem regs_faultDev (s : State) (cls die unit : Nat) : (s.faultDev cls die unit).regs = s.regs := by
  obtain ⟨held, n, e⟩ := s.faultDev_eq cls die unit
  rw [e]

/-! ### Settings of an address space (R197) -/

theorem xlCommitGo_legal {s : State} {a : Nat} (hok : s.ascfgOk a = true) :
    s.xlCommitGo a = s.commit [a_XL_ASCFG a, a_XL_ASCOUNT a] := if_pos hok

theorem xlCommitGo_refused {s : State} {a : Nat} (hno : s.ascfgOk a = false) : s.xlCommitGo a = s.faultDev cCONFIG 6 255 :=
  if_neg (ne_true_of_eq_false hno)

theorem commit_ctxs (s : State) (as : List Nat) : (s.commit as).ctxs = s.ctxs := by
  obtain ⟨rs, st, e⟩ := s.commit_eq as
  rw [e]

/-- A commit of two registers makes both live, and changes no other register. -/
theorem commit_pair {s : State} (a b : Nat) (h : s.Canonical) :
    (s.commit [a, b]).rd a = s.stagedRd a ∧ (s.commit [a, b]).rd b = s.stagedRd b ∧
      (∀ c, c ≠ a → c ≠ b → (s.commit [a, b]).rd c = s.rd c) ∧ (s.commit [a, b]).mem = s.mem := by
  obtain ⟨-, hothers, hmem⟩ := commit_committed [a, b] h trivial
  refine ⟨rd_commit h (by simp), rd_commit h (by simp), fun c ha hb => hothers c ?_, hmem⟩
  simp [ha, hb]

/-! ### The next epoch (R198) -/

/-- An epoch is still stamped on an uncompleted descriptor of an address space, other than a FENCE that waits for its increment. -/
def stillStamped (s : State) (a epoch : Nat) : Bool :=
  (s.idsOf a).any (fun id => (s.ctx id).descs.any (fun d =>
    d.stage != .recorded && d.epoch == epoch && !s.fencePending id d.index))

theorem stillStamped_iff (s : State) (a epoch : Nat) :
    s.stillStamped a epoch = true ↔ ∃ id ∈ s.idsOf a, ∃ d ∈ (s.ctx id).descs,
      d.stage ≠ .recorded ∧ s.fencePending id d.index = false ∧ d.epoch = epoch := by
  simp only [stillStamped, List.any_eq_true, Bool.and_eq_true, bne_iff_ne, beq_iff_eq, Bool.not_eq_true', and_assoc,
    and_comm (a := _ = epoch)]

/-- The epoch that the next increment of an address space brings. -/
def raisedEpoch (s : State) (a : Nat) : Nat := (s.fld (a_XL_ASSTAT a) XL_ASSTAT_EPOCH + 1) % 65536

/-- The increment has left its queue and the new epoch stands. -/
def epochRaised (s : State) (a : Nat) (e : Nat × EpochSrc) : State :=
  { s with epochs := s.epochs.erase e }.setFld (a_XL_ASSTAT a) XL_ASSTAT_EPOCH (s.raisedEpoch a)

/-- The undispatched descriptors of an address space take an epoch. -/
def restamped (s : State) (a epoch : Nat) : State :=
  s.modCtxs (s.idsOf a) (fun _ c => { c with descs := c.descs.map (Desc.restamp epoch) })

/-- The migration that asked for an increment goes on. -/
def sourceTold (s : State) (epoch : Nat) : EpochSrc → State
  | .migration p => s.modPart p (fun x => { x with migration := x.migration.map (Migration.drainsFrom epoch s.now) })
  | _ => s

/-- The state before DONE_EPOCH follows an increment. -/
def incremented (s : State) (a : Nat) (e : Nat × EpochSrc) : State :=
  ((s.epochRaised a e).restamped a (s.raisedEpoch a)).sourceTold (s.raisedEpoch a) e.2

theorem sourceTold_eq (s : State) (epoch : Nat) (src : EpochSrc) : ∃ ps, s.sourceTold epoch src = { s with parts := ps } := by
  cases src with
  | fence p ref => exact ⟨_, rfl⟩
  | write => exact ⟨_, rfl⟩
  | migration p => exact ⟨_, rfl⟩

/-- Beside registers and its queue, an increment changes contexts and partitions alone. -/
theorem incremented_eq (s : State) (a : Nat) (e : Nat × EpochSrc) :
    ∃ cs ps, s.incremented a e = { s.epochRaised a e with ctxs := cs, parts := ps } := by
  obtain ⟨cs, ecs⟩ := modCtxs_eq (s.epochRaised a e) ((s.epochRaised a e).idsOf a)
    (fun _ c => { c with descs := c.descs.map (Desc.restamp (s.raisedEpoch a)) })
  obtain ⟨ps, eps⟩ := sourceTold_eq ((s.epochRaised a e).restamped a (s.raisedEpoch a)) (s.raisedEpoch a) e.2
  exact ⟨cs, ps, eps.trans (by rw [restamped, ecs])⟩

theorem sourceTold_canonical (s : State) (epoch : Nat) (src : EpochSrc) (h : s.Canonical) : (s.sourceTold epoch src).Canonical := by
  cases src with
  | fence p ref => exact h
  | write => exact h
  | migration p => exact setPart_canonical s p _ h

theorem epochRaised_canonical (s : State) (a : Nat) (e : Nat × EpochSrc) (h : s.Canonical) : (s.epochRaised a e).Canonical :=
  setFld_canonical { s with epochs := s.epochs.erase e } _ _ _ h

theorem incremented_canonical (s : State) (a : Nat) (e : Nat × EpochSrc) (h : s.Canonical) : (s.incremented a e).Canonical :=
  sourceTold_canonical _ _ _ (modCtxs_canonical _ _ _ (epochRaised_canonical s a e h))

theorem epoch_epochRaised (s : State) (a : Nat) (e : Nat × EpochSrc) (h : s.Canonical) :
    (s.epochRaised a e).fld (a_XL_ASSTAT a) XL_ASSTAT_EPOCH = s.raisedEpoch a := by
  rw [epochRaised, fld_setFld { s with epochs := s.epochs.erase e } _ _ _ h (by decide) (by decide)]
  exact Nat.mod_mod _ _

/-- DONE_EPOCH follows without a change of EPOCH. -/
theorem epoch_advanceDone (s : State) (a : Nat) (h : s.Canonical) :
    (s.advanceDone a).fld (a_XL_ASSTAT a) XL_ASSTAT_EPOCH = s.fld (a_XL_ASSTAT a) XL_ASSTAT_EPOCH := by
  obtain ⟨n, hn⟩ := s.advanceDone_eq a
  have hfld := fld_setFld_apart s (a_XL_ASSTAT a) XL_ASSTAT_DONE_EPOCH XL_ASSTAT_EPOCH n h (by decide) (by decide) (by decide)
    (by decide)
  rw [hn, completeFences_eq]
  obtain ⟨cs, e⟩ := modCtxs_eq (s.setFld (a_XL_ASSTAT a) XL_ASSTAT_DONE_EPOCH n) _ _
  rw [e]
  exact hfld

/-! ### An increment (R198) -/

/-- The oldest increment of an address space waits while its epoch is stamped, and else is applied. -/
theorem applyIncrement_oldest {s : State} {a : Nat} {e : Nat × EpochSrc} (he : s.epochs.find? (fun x => x.1 == a) = some e) :
    s.applyIncrement a = if s.stillStamped a (s.raisedEpoch a) then s else (s.incremented a e).advanceDone a := by
  rw [applyIncrement, he]
  obtain ⟨b, src⟩ := e
  cases src <;> rfl

/-- What an increment that is applied leaves: the new epoch, and everything else of registers and memory as it was. -/
theorem advanceDone_incremented (s : State) (a : Nat) (e : Nat × EpochSrc) (h : s.Canonical) :
    ((s.incremented a e).advanceDone a).fld (a_XL_ASSTAT a) XL_ASSTAT_EPOCH = s.raisedEpoch a ∧
      ((s.incremented a e).advanceDone a).epochs = s.epochs.erase e ∧
      (∀ b, b ≠ a_XL_ASSTAT a → ((s.incremented a e).advanceDone a).rd b = s.rd b) ∧
      ((s.incremented a e).advanceDone a).mem = s.mem := by
  obtain ⟨cs, rs, hdone, hrd⟩ := (s.incremented a e).advanceDone_frame a
  obtain ⟨cs', ps, heq⟩ := s.incremented_eq a e
  have hepoch := epoch_advanceDone _ a (incremented_canonical s a e h)
  have hraised : (s.incremented a e).fld (a_XL_ASSTAT a) XL_ASSTAT_EPOCH = s.raisedEpoch a := by
    rw [heq]
    exact epoch_epochRaised s a e h
  have hothers (b : Nat) (hb : b ≠ a_XL_ASSTAT a) : (s.incremented a e).rd b = s.rd b := by
    rw [heq]
    exact rd_setFld_ne { s with epochs := s.epochs.erase e } _ b _ _ hb
  refine ⟨hepoch.trans hraised, ?_, fun b hb => (hrd b hb).trans (hothers b hb), ?_⟩
  · rw [hdone, heq]
    rfl
  · rw [hdone, heq]
    rfl

end State

/-- Settles O12: a commit applies its group or logs a record, and an increment waits only while its epoch is stamped. -/
theorem addressSpacesAndEpochs : Obligations.AddressSpacesAndEpochs := by
  unfold Obligations.AddressSpacesAndEpochs
  refine ⟨⟨fun who a s h hg hok => ?accepted, fun who a s hg hno => ?refused, fun who a s hg => next_gated _ hg rfl⟩,
    fun a e s h he => ⟨fun hfree => ?applied, fun hused => ?waits⟩⟩
  case accepted =>
    obtain ⟨hcfg, hcount, hothers, hmem⟩ := commit_pair (a_XL_ASCFG a) (a_XL_ASCOUNT a) h
    exact ⟨_, next_gated _ hg (xlCommitGo_legal hok), hcfg, hcount, hothers, hmem, s.commit_ctxs _⟩
  case refused =>
    exact ⟨next_gated _ hg (xlCommitGo_refused hno), s.regs_faultDev _ _ _⟩
  case applied =>
    have hnot : ¬ s.stillStamped a (s.raisedEpoch a) = true := fun hst => by
      obtain ⟨id, hid, d, hd, hstage, hfence, hepoch⟩ := (s.stillStamped_iff _ _).mp hst
      exact hfree id hid d hd hstage hfence hepoch
    exact ⟨_, congrArg Host.Outcome.next ((applyIncrement_oldest he).trans (if_neg hnot)), s.advanceDone_incremented a e h⟩
  case waits =>
    have hst : s.stillStamped a (s.raisedEpoch a) = true := (s.stillStamped_iff _ _).mpr hused
    exact congrArg Host.Outcome.next ((applyIncrement_oldest he).trans (if_pos hst))

end Sys2Proof.Machine
end

section
/-! PROOFS. Receive windows, routing and the timeout of the fabric (R203, R303, R304). -/

namespace Sys2Proof.Machine

open State

/-- A key that no entry of a sparse map bears reads as the default. -/
theorem Sparse.get_of_not_any {V : Type} {d : Nat → V} {m : Sparse V} {k : Nat} (h : m.any (fun e => e.1 == k) = false) :
    Sparse.get d m k = d k := by
  induction m with
  | nil => rfl
  | cons e m ih =>
    simp only [List.any_cons, Bool.or_eq_false_iff, beq_eq_false_iff_ne] at h
    exact (if_neg h.1).trans (ih h.2)

namespace State

theorem winCommit_legal {s : State} {w : Nat} (hok : s.windowOk w = true) :
    s.winCommit w = s.commit [a_XL_WINBASE w, a_XL_WINCFG w] := if_pos hok

/-! ### Routing (R303) -/

/-- The registers that FB_COMMIT makes live. -/
def routeGroup (s : State) : List Nat := a_FB_DEVID :: s.stagedRoutes.map a_FB_ROUTE

theorem fbCommitGo_legal {s : State} (hok : s.routesOk = true) : s.fbCommitGo = s.commit s.routeGroup := by
  simp only [fbCommitGo, hok, if_true, routeGroup]

/-- What would become live in a register with nothing staged is what stands in it. -/
theorem stagedRd_unstaged {s : State} {a : Nat} (h : s.staged.any (fun e => e.1 == a) = false) : s.stagedRd a = s.rd a := by
  rw [stagedRd, Sparse.get_of_not_any h]
  rfl

/-- An entry of the routing table outside the group has nothing staged. -/
theorem stagedRd_route_of_not_mem {s : State} {d : Nat} (hd : d < 4096) (h : a_FB_ROUTE d ∉ s.routeGroup) :
    s.stagedRd (a_FB_ROUTE d) = s.rd (a_FB_ROUTE d) := by
  refine stagedRd_unstaged (Bool.eq_false_iff.mpr fun hany => h ?_)
  exact List.mem_cons_of_mem _ (List.mem_map_of_mem (List.mem_filter.mpr ⟨List.mem_range.mpr hd, hany⟩))

/-- A commit of the routing leaves every entry of the table as staged, whether or not anything was. -/
theorem rd_route_commit {s : State} {d : Nat} (h : s.Canonical) (hd : d < 4096) :
    (s.commit s.routeGroup).rd (a_FB_ROUTE d) = s.stagedRd (a_FB_ROUTE d) := by
  by_cases hmem : a_FB_ROUTE d ∈ s.routeGroup
  · exact rd_commit h hmem
  · obtain ⟨-, hothers, -⟩ := commit_committed s.routeGroup h trivial
    exact (hothers _ hmem).trans (stagedRd_route_of_not_mem hd hmem).symm

/-! ### The timeout (R304) -/

theorem setFbTimeout_legal {s : State} {v : Nat} (hlo : 10 ≤ v) (hhi : v ≤ 100000) :
    s.setFbTimeout v = s.setFld a_FB_TIMEOUT FB_TIMEOUT_TIMEOUT_US v := if_pos ⟨hlo, hhi⟩

theorem setFbTimeout_refused {s : State} {v : Nat} (hout : v < 10 ∨ 100000 < v) :
    s.setFbTimeout v = s.faultDev cPROTO 7 255 := if_neg (by omega)

end State

/-- Settles O25: a legal commit makes its group live, and a timeout within its limits is written. -/
theorem fabricConfiguration : Obligations.FabricConfiguration := by
  unfold Obligations.FabricConfiguration
  refine ⟨fun who w s h hg hok => ?window, fun who s h hg hok => ?routing, fun who v s h hg hlo hhi => ?timeout,
    fun who v s hg hout => ?refused⟩
  case window =>
    exact ⟨_, next_gated _ hg (winCommit_legal hok), commit_pair (a_XL_WINBASE w) (a_XL_WINCFG w) h⟩
  case routing =>
    obtain ⟨-, -, hmem⟩ := commit_committed s.routeGroup h trivial
    exact ⟨_, next_gated _ hg (fbCommitGo_legal hok), rd_commit h List.mem_cons_self, fun d hd => rd_route_commit h hd, hmem⟩
  case timeout =>
    refine ⟨_, next_gated _ hg (setFbTimeout_legal hlo hhi), ?_, fun a ha => rd_setFld_ne s _ a _ _ ha, rfl⟩
    exact (fld_setFld s _ _ _ h (by decide) (by decide)).trans (Nat.mod_eq_of_lt (Fld.get_lt _ v))
  case refused =>
    exact ⟨next_gated _ hg (setFbTimeout_refused hout), s.regs_faultDev _ _ _⟩

end Sys2Proof.Machine
end

section
/-! PROOFS. What a core has at hand: maps that read alike, and a core with no barrier before it (R263, R264). -/

namespace Sys2Proof.Machine

open State

/-! ### Canonical maps that read alike -/

theorem Sparse.wf_cons {V : Type} [DecidableEq V] {d : Nat → V} {a : Nat} {v : V} {m : Sparse V} (h : Sparse.wf d ((a, v) :: m) = true) :
    Sparse.above a m = true ∧ v ≠ d a ∧ Sparse.wf d m = true := by
  simp only [Sparse.wf, Sparse.sorted, List.all_cons, Bool.and_eq_true, decide_eq_true_eq] at h ⊢
  obtain ⟨habove, hv, hall⟩ := h
  refine ⟨habove, hv, ?_, hall⟩
  cases m with
  | nil => rfl
  | cons e m => exact (Bool.and_eq_true_iff.mp habove).2

/-- Two canonical maps that read alike are the same. -/
theorem Sparse.ext_get {V : Type} [DecidableEq V] {d : Nat → V} {m n : Sparse V} (hm : Sparse.wf d m = true) (hn : Sparse.wf d n = true)
    (h : ∀ k, Sparse.get d m k = Sparse.get d n k) : m = n := by
  induction m generalizing n with
  | nil =>
    cases n with
    | nil => rfl
    | cons e n => exact absurd ((h e.1).trans (if_pos rfl)).symm (Sparse.wf_cons hn).2.1
  | cons e m ih =>
    cases n with
    | nil => exact absurd ((if_pos rfl).symm.trans (h e.1)) (Sparse.wf_cons hm).2.1
    | cons f n =>
      obtain ⟨a, v⟩ := e
      obtain ⟨b, w⟩ := f
      obtain ⟨habove, hv, hm⟩ := Sparse.wf_cons hm
      obtain ⟨hbelow, hw, hrest⟩ := Sparse.wf_cons hn
      have hkeys : a = b := by
        rcases Nat.lt_trichotomy a b with hlt | heq | hgt
        · have ha := h a
          simp only [Sparse.get, if_true, if_neg hlt.ne', Sparse.get_above hbelow hlt.le] at ha
          exact absurd ha hv
        · exact heq
        · have hb := h b
          simp only [Sparse.get, if_true, if_neg hgt.ne', Sparse.get_above habove hgt.le] at hb
          exact absurd hb.symm hw
      subst hkeys
      have hvalue := h a
      simp only [Sparse.get, if_true] at hvalue
      have htails : m = n := ih hm hrest (fun k => by
        have hk := h k
        simp only [Sparse.get] at hk
        by_cases hak : a = k
        · rw [Sparse.get_above habove hak.ge, Sparse.get_above hbelow hak.ge]
        · rwa [if_neg hak, if_neg hak] at hk)
      rw [hvalue, htails]

/-- An entry stands for what the map reads at its key. -/
theorem Sparse.get_of_mem {V : Type} [DecidableEq V] {d : Nat → V} {m : Sparse V} {e : Nat × V} (h : Sparse.wf d m = true) (he : e ∈ m) :
    Sparse.get d m e.1 = e.2 := by
  induction m with
  | nil => cases he
  | cons x m ih =>
    obtain ⟨a, v⟩ := x
    obtain ⟨habove, hv, hm⟩ := Sparse.wf_cons h
    rcases List.mem_cons.mp he with rfl | hin
    · exact if_pos rfl
    · by_cases hk : a = e.1
      · have hlisted : e.2 ≠ d e.1 := of_decide_eq_true (List.all_eq_true.mp (Bool.and_eq_true_iff.mp hm).2 e hin)
        exact absurd ((ih hm hin).symm.trans (Sparse.get_above habove hk.ge)) hlisted
      · exact (if_neg hk).trans (ih hm hin)

namespace State

/-! ### One core's inside -/

section
variable {s : State} {c : Nat}

theorem core_setCore_of_wf (x : CoreSt) (h : Sparse.wf (fun _ => CoreSt.init) s.cores = true) : (s.setCore c x).core c = x :=
  Sparse.get_put x (Sparse.wf_sorted h)

theorem core_setCore_ne {k : Nat} (x : CoreSt) (hk : k ≠ c) : (s.setCore c x).core k = s.core k := Sparse.get_put_ne s.cores x hk

/-- A core that is given what it holds is as before. -/
theorem setCore_self (h : Sparse.wf (fun _ => CoreSt.init) s.cores = true) : s.setCore c (s.core c) = s := by
  have hcores : Sparse.put (fun _ => CoreSt.init) s.cores c (s.core c) = s.cores :=
    Sparse.ext_get (Sparse.wf_put _ h) h (fun k => by
      by_cases hk : k = c
      · subst hk; exact core_setCore_of_wf _ h
      · exact core_setCore_ne _ hk)
  simp only [setCore, hcores]

theorem setCore_setCore (x y : CoreSt) (h : Sparse.wf (fun _ => CoreSt.init) s.cores = true) :
    (s.setCore c x).setCore c y = s.setCore c y := by
  have hset : Sparse.wf (fun _ => CoreSt.init) (s.setCore c x).cores = true := Sparse.wf_put _ h
  have hcores : ((s.setCore c x).setCore c y).cores = (s.setCore c y).cores :=
    Sparse.ext_get (Sparse.wf_put _ hset) (Sparse.wf_put _ h) (fun k => by
      change ((s.setCore c x).setCore c y).core k = (s.setCore c y).core k
      by_cases hk : k = c
      · subst hk; rw [core_setCore_of_wf y hset, core_setCore_of_wf y h]
      · rw [core_setCore_ne y hk, core_setCore_ne x hk, core_setCore_ne y hk])
  exact (congrArg (fun cs => ({ s with cores := cs } : State)) hcores :)

/-! ### A core with no barrier before it (R263, R264) -/

/-- A core without buffered stores has performed them all. -/
theorem drainStores_none (h : Sparse.wf (fun _ => CoreSt.init) s.cores = true) (hbuf : (s.core c).buf = []) : s.drainStores c = some s := by
  have hsame : s.modCore c (fun x => { x with buf := [] }) = s := by
    have hcore : ({ s.core c with buf := [] } : CoreSt) = s.core c := by rw [← hbuf]
    exact (congrArg (s.setCore c) hcore).trans (setCore_self h)
  simp only [drainStores, hbuf, List.foldl_nil, Option.map_some, hsame]

theorem unwaiting_idle {x : CoreSt} (hld : x.waitLd = false) (hst : x.waitSt = false) (hdev : x.waitDev = false) :
    { x with waitLd := false, waitSt := false, waitDev := false } = x := by
  cases x
  simp_all

/-- A core that waits at no barrier goes on as it is. -/
theorem passBarrier_idle (h : Sparse.wf (fun _ => CoreSt.init) s.cores = true) (hld : (s.core c).waitLd = false)
    (hst : (s.core c).waitSt = false) (hdev : (s.core c).waitDev = false) : s.passBarrier c = some s := by
  simp only [passBarrier, hld, hst, hdev, Bool.false_and, Bool.false_eq_true, if_false, Option.map_some, modCore]
  exact congrArg some ((congrArg (s.setCore c) (unwaiting_idle hld hst hdev)).trans (setCore_self h))

theorem CoreFree.passBarrier (f : s.CoreFree c) (h : s.Canonical) : s.passBarrier c = some s :=
  passBarrier_idle h.cores f.ld f.st f.dev

theorem CoreFree.drainStores (f : s.CoreFree c) (h : s.Canonical) : s.drainStores c = some s := drainStores_none h.cores f.buf

/-- An access of a free core acts at once, where the loads it depends on have returned. -/
theorem CoreFree.dependent (f : s.CoreFree c) (h : s.Canonical) {dep : Depends} (hdep : dep = .none ∨ s.loadsDone c = true)
    (store : Bool) (g : State → Out') : s.dependent c store dep g = g s := by
  simp only [State.dependent, coreStep, f.up, if_true, f.passBarrier h]
  rcases hdep with rfl | hdone
  · rfl
  · simp only [hdone, Bool.not_true, Bool.and_false, Bool.false_eq_true, if_false]

end

end State

end Sys2Proof.Machine
end

section
/-! PROOFS. Core accesses to T3 and through the tile store window (R62, R215, R216, R391). -/

namespace Sys2Proof.Machine

open State

namespace State

section
variable {s : State} {c a n : Nat}

theorem length_leBytes (v n : Nat) : (leBytes v n).length = n := by
  induction n generalizing v with
  | zero => rfl
  | succ n ih => rw [leBytes, List.length_cons, ih]

/-! ### Records about a core's access -/

/-- A record about a core's access is held or merged; besides it only the count of records changes. -/
theorem faultCore_eq (s : State) (c cls a n : Nat) : ∃ held mg, s.faultCore c cls a n = { s with held := held, mg := mg } := by
  simp only [faultCore, fault, raise, record, Bool.false_eq_true, if_false, ne_eq, not_true_eq_false, report]
  split <;> exact ⟨_, _, rfl⟩

/-- What a core reads, writes and holds is the same. -/
structure SameView (s t : State) : Prop where
  mem : t.mem = s.mem
  units : t.units = s.units
  ts : t.ts = s.ts
  agents : t.agents = s.agents
  regs : t.regs = s.regs

theorem SameView.still {t : State} (v : SameView s t) :
    t.mem = s.mem ∧ t.units = s.units ∧ t.ts = s.ts ∧ t.agents = s.agents ∧ t.regs = s.regs :=
  ⟨v.mem, v.units, v.ts, v.agents, v.regs⟩

theorem SameView.modCore {t : State} (v : SameView s t) (f : CoreSt → CoreSt) : SameView s (t.modCore c f) :=
  ⟨v.mem, v.units, v.ts, v.agents, v.regs⟩

theorem SameView.faultCore (s : State) (c cls a n : Nat) : SameView s (s.faultCore c cls a n) := by
  obtain ⟨held, mg, e⟩ := s.faultCore_eq c cls a n
  rw [e]
  exact ⟨rfl, rfl, rfl, rfl, rfl⟩

theorem cores_faultCore (s : State) (c cls a n : Nat) : (s.faultCore c cls a n).cores = s.cores := by
  obtain ⟨held, mg, e⟩ := s.faultCore_eq c cls a n
  rw [e]

/-- After a record a core takes what a change of its inside gives it. -/
theorem core_modCore_faulted (h : s.Canonical) (cls : Nat) (f : CoreSt → CoreSt) :
    ((s.faultCore c cls a n).modCore c f).core c = f (s.core c) := by
  have hcores := s.cores_faultCore c cls a n
  have hcore : (s.faultCore c cls a n).core c = s.core c := by rw [core, core, hcores]
  exact (core_setCore_of_wf _ (hcores.symm ▸ h.cores)).trans (congrArg f hcore)

/-! ### The window (R62) -/

theorem inWindow_iff : inWindow a n = true ↔ tsWindow ≤ a ∧ a + n ≤ tsWindow + 24 * tsSize := by
  simp only [inWindow, Bool.and_eq_true, decide_eq_true_eq]

/-- The populated memory of this device lies below the tile store window. -/
theorem coreMem_above (h : tsWindow ≤ a) : s.coreMem a n = false := by
  have hgib : s.fld a_DD_TIER DD_TIER_DIMM_GIB < 512 := Fld.get_lt DD_TIER_DIMM_GIB _
  have ht1 : ¬ a < t1Size := by simp only [t1Size, tsWindow] at *; omega
  have ht2 : ¬ a < t2Base + s.t2Size := by simp only [t2Base, t2Size, tsWindow] at *; omega
  simp only [coreMem, inT1, inT2, ht1, ht2, decide_false, Bool.false_and, Bool.and_false, Bool.or_false]

/-- An atomic operation finds no memory of this device (R216). -/
theorem atomic_elsewhere (attr : MemAttr) (f : Nat → Option Nat) (h : remoteBase ≤ a ∨ inWindow a n = true) :
    s.atomic c a n attr f = s.badAccess c a n := by
  have hmem : remoteBase ≤ a ∨ s.coreMem a n = false := h.imp_right (fun hw => coreMem_above (inWindow_iff.mp hw).1)
  refine if_pos ?_
  rcases hmem with h | h <;> simp only [h, decide_true, Bool.not_false, Bool.or_true, Bool.true_or]

/-- An access of at most 8 bytes through the window reaches neither T3 nor memory. -/
theorem window_place (hn : 1 ≤ n) (hw : inWindow a n = true) : ¬ remoteBase ≤ a ∧ s.coreMem a n = false := by
  obtain ⟨hlo, hhi⟩ := inWindow_iff.mp hw
  refine ⟨?_, coreMem_above hlo⟩
  simp only [remoteBase, tsWindow, tsSize] at *
  omega

theorem load_window {attr : MemAttr} (hn : 1 ≤ n) (hw : inWindow a n = true) (hattr : attr = .normalWb ∨ attr = .normalNc ∨ attr = .device) :
    s.load c a n attr = s.loadWindow c a n := by
  obtain ⟨hremote, hmem⟩ := window_place (s := s) hn hw
  rcases hattr with rfl | rfl | rfl <;> simp only [load, if_neg hremote, hmem, hw, Bool.false_eq_true, if_false, if_true]

theorem store_window {attr : MemAttr} {bs : List Byte} (v : Word) (hn : 1 ≤ bs.length) (hw : inWindow a bs.length = true)
    (hattr : attr = .normalWb ∨ attr = .normalNc ∨ attr = .device) : s.store c a bs attr v = .next (s.storeWindow c a bs) := by
  obtain ⟨hremote, hmem⟩ := window_place (s := s) hn hw
  rcases hattr with rfl | rfl | rfl <;> simp only [store, if_neg hremote, hmem, hw, Bool.false_eq_true, if_false, if_true]

/-- The window answers an access at once. -/
structure WindowServes (s : State) (a : Nat) : Prop where
  up : s.windowUp a = true
  free : s.windowHeld a = false

/-- An access outside the core's ranges reads 0 (R391). -/
theorem WindowServes.load_shut (w : s.WindowServes a) (hshut : s.windowOpen c a n = false) :
    s.loadWindow c a n = (s.faultCore c cSEC a n).setLoaded c 0 := by
  simp only [loadWindow, w.up, w.free, hshut, Bool.not_true, Bool.not_false, Bool.false_eq_true, if_false, if_true]

theorem WindowServes.store_shut {bs : List Byte} (w : s.WindowServes a) (hshut : s.windowOpen c a bs.length = false) :
    s.storeWindow c a bs = s.faultCore c cSEC a bs.length := by
  simp only [storeWindow, w.up, w.free, hshut, Bool.not_true, Bool.not_false, Bool.false_eq_true, if_false, if_true]

/-- Sound bytes of a claimed range reach the core. -/
theorem WindowServes.load_open (w : s.WindowServes a) (hopen : s.windowOpen c a n = true) (hflips : s.tsFlips = [])
    (hgood : (s.readTsP (windowPart a) (windowOff a) n).any (fun b => b.2) = false) :
    s.loadWindow c a n = ({ s with fresh := s.fresh + 1 } : State).modCore c (fun x => { x with
      loaded := BitVec.ofNat 64 (ofLeBytes ((s.readTsP (windowPart a) (windowOff a) n).map (fun b => b.1))) }) := by
  have htouch : ({ s with fresh := s.fresh + 1 } : State).touchTs (windowPart a) (windowOff a) n = ({ s with fresh := s.fresh + 1 }, none) :=
    touchTs_sound (s := { s with fresh := s.fresh + 1 }) hflips _ _ _
  simp only [loadWindow, w.up, w.free, hopen, Bool.not_true, Bool.false_eq_true, if_false, htouch, loadDone, hgood]

theorem WindowServes.store_open {bs : List Byte} (w : s.WindowServes a) (hopen : s.windowOpen c a bs.length = true) :
    s.storeWindow c a bs = s.tsWrite (windowPart a) (windowOff a) bs false := by
  simp only [storeWindow, w.up, w.free, hopen, Bool.not_true, Bool.false_eq_true, if_false]

/-- A write of the tile store puts its bytes there and leaves every other byte. -/
theorem get_tsWrite (h : s.Canonical) (p off : Nat) (bs : List Byte) (poison : Bool) (k : Nat) :
    Sparse.get (fun _ => (0 : Byte)) (s.tsWrite p off bs poison).ts k =
      if within k 1 (tsKey p off) bs.length then bs.getD (k - tsKey p off) 0 else Sparse.get (fun _ => (0 : Byte)) s.ts k := by
  change Sparse.get (fun _ => (0 : Byte)) (putBytes s.ts (tsKey p off) bs) k = _
  simp only [within, Bool.and_eq_true, decide_eq_true_eq]
  split
  next hin =>
    obtain ⟨i, rfl⟩ := Nat.exists_eq_add_of_le hin.1
    have hi : i < bs.length := by omega
    rw [get_putBytes _ _ _ _ h.ts hi, Nat.add_sub_cancel_left, List.getD_eq_getElem _ _ hi]
  next hout => exact get_putBytes_ne _ _ _ _ (by omega)

end

/-! ### The commands -/

section
variable {s : State} {c : Fin 96} {addr : BitVec 57} {size : Nat} {attr : MemAttr} {dep : Depends}

theorem exec_load_free (f : s.CoreFree c) (h : s.Canonical) (hdep : dep = .none ∨ s.loadsDone c = true) (h1 : 1 ≤ size) (h8 : size ≤ 8) :
    exec (.load c addr size ⟨attr, dep⟩) s = .next (s.load c addr.toNat size attr) := by
  have hsize : (size = 0 || 8 < size) = false := by simp; omega
  change s.dependent c false dep _ = _
  rw [f.dependent h hdep, hsize]
  rfl

theorem exec_store_free (v : Word) (f : s.CoreFree c) (h : s.Canonical) (hdep : dep = .none ∨ s.loadsDone c = true) (h1 : 1 ≤ size)
    (h8 : size ≤ 8) : exec (.store c addr size ⟨attr, dep⟩ v) s = s.store c addr.toNat (leBytes v.toNat size) attr v := by
  have hsize : (size = 0 || 8 < size) = false := by simp; omega
  change s.dependent c true dep _ = _
  rw [f.dependent h hdep, hsize]
  rfl

/-- The four atomic operations, each with the value it writes (R215). -/
theorem exec_atomics_free (v cmp : Word) (f : s.CoreFree c) (h : s.Canonical) (hdep : dep = .none ∨ s.loadsDone c = true) :
    exec (.atomAdd c addr size ⟨attr, dep⟩ v) s = .next (s.atomic c addr.toNat size attr (fun old => some (old + v.toNat))) ∧
    exec (.atomSwp c addr size ⟨attr, dep⟩ v) s = .next (s.atomic c addr.toNat size attr (fun _ => some v.toNat)) ∧
    exec (.atomCas c addr size ⟨attr, dep⟩ cmp v) s = .next (s.atomic c addr.toNat size attr (fun old =>
      if old = cmp.toNat % 2 ^ (8 * size) then some v.toNat else none)) ∧
    exec (.atomMax c addr size ⟨attr, dep⟩ v) s = .next (s.atomic c addr.toNat size attr (fun old =>
      some (atomMaxOf size old v.toNat))) :=
  ⟨f.dependent h hdep true _, f.dependent h hdep true _, f.dependent h hdep true _, f.dependent h hdep true _⟩

end

end State

/-- Settles O59: an atomic operation elsewhere is a bad access; the window gives a core its claimed ranges, and a record for any other. -/
theorem windowAccessesAndRemoteAtomics : Obligations.WindowAccessesAndRemoteAtomics := by
  unfold Obligations.WindowAccessesAndRemoteAtomics
  intro c addr size v cmp attr dep s h free hdep
  refine ⟨fun i hi haway => ?atoms, fun h1 h8 hw hup hheld hattr => ?window⟩
  case atoms =>
    obtain ⟨hadd, hswp, hcas, hmax⟩ := exec_atomics_free (addr := addr) (size := size) (attr := attr) v cmp free h hdep
    have hbad : exec i s = .next (s.badAccess c addr.toNat size) := by
      simp only [List.mem_cons, List.not_mem_nil, or_false] at hi
      rcases hi with rfl | rfl | rfl | rfl
      · rw [hadd, atomic_elsewhere _ _ haway]
      · rw [hswp, atomic_elsewhere _ _ haway]
      · rw [hcas, atomic_elsewhere _ _ haway]
      · rw [hmax, atomic_elsewhere _ _ haway]
    have hcore := core_modCore_faulted (c := c) (a := addr.toNat) (n := size) h cPROTO (fun x => { x with exc := excAccess, excAddr := addr.toNat })
    exact ⟨_, hbad, ((SameView.faultCore s c cPROTO addr.toNat size).modCore _).still, congrArg CoreSt.exc hcore, congrArg CoreSt.excAddr hcore, rfl⟩
  case window =>
    have serves : s.WindowServes addr.toNat := ⟨hup, hheld⟩
    have hlen : (leBytes v.toNat size).length = size := length_leBytes _ _
    have hload := (exec_load_free (addr := addr) free h hdep h1 h8).trans (congrArg _ (load_window h1 hw hattr))
    have hstore := (exec_store_free (addr := addr) v free h hdep h1 h8).trans
      (store_window v (hlen.symm ▸ h1) (hlen.symm ▸ hw) hattr)
    refine ⟨fun hshut => ⟨?readZero, ?dropped⟩, fun hopen => ⟨fun hflips hgood => ?read, ?written⟩⟩
    case readZero =>
      rw [serves.load_shut hshut] at hload
      exact ⟨_, hload, ((SameView.faultCore s c cSEC addr.toNat size).modCore _).still,
        congrArg CoreSt.loaded (core_modCore_faulted h cSEC (fun x => { x with loaded := 0 })), rfl⟩
    case dropped =>
      rw [serves.store_shut (hlen.symm ▸ hshut), hlen] at hstore
      exact ⟨_, hstore, (SameView.faultCore s c cSEC addr.toNat size).still, rfl⟩
    case read =>
      rw [serves.load_open hopen hflips hgood] at hload
      exact ⟨_, hload, ⟨rfl, rfl, rfl, rfl, rfl⟩,
        congrArg CoreSt.loaded (core_setCore_of_wf (s := { s with fresh := s.fresh + 1 }) _ h.cores), rfl⟩
    case written =>
      rw [serves.store_open (hlen.symm ▸ hopen)] at hstore
      refine ⟨_, hstore, rfl, rfl, rfl, fun k => ?_⟩
      rw [get_tsWrite h, hlen]

end Sys2Proof.Machine
end

section
/-! PROOFS. Atomic operations on a line that the core holds (R215, R244, R267, log entry 27). -/

namespace Sys2Proof.Machine

open State

namespace State

section
variable {s : State} {c u : Nat}

/-! ### Lines of agents -/

theorem agent_setAgent_of_wf (x : Agent) (h : Sparse.wf (fun _ => Agent.init) s.agents = true) : (s.setAgent c x).agent c = x :=
  Sparse.get_put x (Sparse.wf_sorted h)

theorem agent_setAgent_ne {k : Nat} (x : Agent) (hk : k ≠ c) : (s.setAgent c x).agent k = s.agent k := Sparse.get_put_ne s.agents x hk

theorem lines_putLine (l : Line) (h : Sparse.wf (fun _ => Agent.init) s.agents = true) :
    ((s.putLine c l).agent c).lines = (s.agent c).lines.filter (fun k => k.addr != l.addr) ++ [l] :=
  congrArg Agent.lines (agent_setAgent_of_wf _ h)

/-- A line that is placed is found. -/
theorem lineOf_putLine (l : Line) (h : Sparse.wf (fun _ => Agent.init) s.agents = true) : (s.putLine c l).lineOf c l.addr = some l := by
  have hnone : ((s.agent c).lines.filter (fun k => k.addr != l.addr)).find? (fun k => k.addr == l.addr) = none :=
    List.find?_eq_none.mpr (fun k hk => by
      have hne := (List.mem_filter.mp hk).2
      simpa using hne)
  rw [lineOf, lines_putLine l h, List.find?_append, hnone, Option.none_or]
  simp

/-- Every other line of every agent stays. -/
theorem lineOf_putLine_ne (l : Line) (h : Sparse.wf (fun _ => Agent.init) s.agents = true) {k w : Nat} (hne : k ≠ c ∨ w ≠ l.addr) :
    (s.putLine c l).lineOf k w = s.lineOf k w := by
  by_cases hk : k = c
  · subst hk
    have hw : w ≠ l.addr := hne.resolve_left (fun hn => hn rfl)
    have hfound (x : Line) : decide ((x.addr != l.addr) = true ∧ (x.addr == w) = true) = (x.addr == w) := by
      by_cases hx : x.addr = w <;> simp [hx, hw]
    have hlast : (l.addr == w) = false := by simpa using hw.symm
    rw [lineOf, lines_putLine l h, List.find?_append, List.find?_filter, List.find?_singleton, hlast]
    simp only [hfound, Bool.false_eq_true, if_false, Option.or_none, lineOf]
  · rw [lineOf, putLine, modAgent, agent_setAgent_ne _ hk, lineOf]

theorem addr_of_lineOf {l : Line} (h : s.lineOf c u = some l) : l.addr = u := by simpa using List.find?_some h

/-! ### An atomic operation on a held line -/

/-- What an atomic operation leaves: the old value in the core, and the bytes it writes in the line. -/
def atomicTaken (s : State) (c a n : Nat) (l : Line) (f : Nat → Option Nat) : State :=
  let old := ofLeBytes ((l.data.drop (a % 64)).take n)
  ((f old).elim s (fun v => s.storeLine c l a (leBytes v n))).setLoaded c (BitVec.ofNat 64 old)

theorem Holds.ownedLine {l : Line} (hold : s.Holds c u l) : (s.ownedLine c u (s.core c).key).isSome = true := by
  have hown : (l.key == (s.core c).key && l.st != LineState.s) = true := by
    rw [Bool.and_eq_true]
    exact ⟨beq_iff_eq.mpr hold.key, bne_iff_ne.mpr hold.own⟩
  simp only [State.ownedLine, hold.line, Option.filter, hown, if_true, Option.isSome_some]

/-- A free core that holds the line performs the operation in it (R267). -/
theorem atomic_held {a n : Nat} {l : Line} (f : Nat → Option Nat) (h : s.Canonical) (free : s.CoreFree c) (ok : s.CacheOk c a n)
    (hn : n = 4 ∨ n = 8) (haligned : a % n = 0) (hold : s.Holds c (a / 64 * 64) l) :
    s.atomic c a n .normalWb f = s.atomicTaken c a n l f := by
  have hshape : (!((n == 4 || n == 8) && a % n == 0) || decide (remoteBase ≤ a) || !s.coreMem a n || MemAttr.normalWb != .normalWb) = false := by
    have hsize : (n == 4 || n == 8) = true := by rcases hn with rfl | rfl <;> rfl
    simp [hsize, haligned, ok.mem, Nat.not_le.mpr ok.here]
  have hopen : s.inReserve a = false := (Bool.or_eq_false_iff.mp ok.open_).1
  have hkey : (s.keyAt (s.core c).key == 0) = false := beq_false_of_ne ok.key
  have hline : (s.drainStores c).bind (fun t => t.ownLine c (a / 64 * 64) (s.core c).key) = some s := by
    rw [free.drainStores h, Option.bind_some, ownLine, if_pos hold.ownedLine]
  simp only [atomic, hshape, hopen, hkey, ok.up, hline, hold.line, hold.good, Bool.false_eq_true, if_false, atomicTaken]
  cases f (ofLeBytes ((l.data.drop (a % 64)).take n)) <;> rfl

/-- The line after the operation. -/
def lineTaken (l : Line) (a n : Nat) : Option Nat → Line
  | some v => { l with st := .m, data := layOver l.data (a / 64 * 64) a (leBytes v n) }
  | none => l

/-- From s to t an atomic operation of core c has loaded the old value, and nothing but the line of the address has changed. -/
structure AtomicDone (s t : State) (c u old : Nat) (l : Line) : Prop where
  loaded : (t.core c).loaded = BitVec.ofNat 64 old
  line : t.lineOf c u = some l
  lines : ∀ k w, k ≠ c ∨ w ≠ u → t.lineOf k w = s.lineOf k w
  cores : ∀ k, k ≠ c → t.core k = s.core k
  mem : t.mem = s.mem
  regs : t.regs = s.regs
  net : t.net = s.net

theorem atomicTaken_done {a n : Nat} {l : Line} (f : Nat → Option Nat) (h : s.Canonical) (hold : s.Holds c (a / 64 * 64) l) :
    let old := ofLeBytes ((l.data.drop (a % 64)).take n)
    AtomicDone s (s.atomicTaken c a n l f) c (a / 64 * 64) old (lineTaken l a n (f old)) := by
  intro old
  have haddr : l.addr = a / 64 * 64 := addr_of_lineOf hold.line
  have hloaded (t : State) (ht : t.cores = s.cores) : ((t.setLoaded c (BitVec.ofNat 64 old)).core c).loaded = BitVec.ofNat 64 old :=
    congrArg CoreSt.loaded (core_setCore_of_wf _ (ht.symm ▸ h.cores))
  have hothers (t : State) (ht : t.cores = s.cores) (k : Nat) (hk : k ≠ c) : (t.setLoaded c (BitVec.ofNat 64 old)).core k = s.core k :=
    (core_setCore_ne _ hk).trans (congrArg (fun cs => Sparse.get (fun _ => CoreSt.init) cs k) ht)
  simp only [atomicTaken]
  cases hf : f old with
  | none => exact ⟨hloaded s rfl, hold.line, fun _ _ _ => rfl, hothers s rfl, rfl, rfl, rfl⟩
  | some v =>
    have hput : s.storeLine c l a (leBytes v n) = (s.strike a (leBytes v n).length).putLine c (lineTaken l a n (some v)) := by
      simp only [storeLine, hold.good, Bool.false_and, lineTaken, haddr]
    have hnew : (lineTaken l a n (some v)).addr = a / 64 * 64 := haddr
    simp only [Option.elim_some, hput]
    refine ⟨hloaded _ rfl, ?_, fun k w hne => ?_, hothers _ rfl, rfl, rfl, rfl⟩
    · exact hnew ▸ lineOf_putLine (s := s.strike a _) (lineTaken l a n (some v)) h.agents
    · exact lineOf_putLine_ne (s := s.strike a _) (lineTaken l a n (some v)) h.agents (hnew.symm ▸ hne)

end

end State

/-- Settles O56: a free core performs each operation in the line it holds, and loads the old value. -/
theorem atomicsReturnOldValue : Obligations.AtomicsReturnOldValue := by
  unfold Obligations.AtomicsReturnOldValue
  intro c addr size v cmp dep l s h free hdep ok hsize haligned hold
  obtain ⟨hadd, hswp, hcas, hmax⟩ := exec_atomics_free (addr := addr) (size := size) (attr := .normalWb) v cmp free h hdep
  have done (i : Instr) (f : Nat → Option Nat) (hexec : exec i s = .next (s.atomic c addr.toNat size .normalWb f)) :
      ∃ t, exec i s = .next t ∧ AtomicDone s t c (addr.toNat / 64 * 64) (ofLeBytes ((l.data.drop (addr.toNat % 64)).take size))
        (lineTaken l addr.toNat size (f (ofLeBytes ((l.data.drop (addr.toNat % 64)).take size)))) :=
    ⟨_, hexec.trans (congrArg _ (atomic_held f h free ok hsize haligned hold)), atomicTaken_done f h hold⟩
  refine ⟨?_, ?_, ?_, ?_⟩
  · obtain ⟨t, he, d⟩ := done _ _ hadd
    exact ⟨t, he, d.loaded, d.line, d.lines, d.cores, d.mem, d.regs, d.net⟩
  · obtain ⟨t, he, d⟩ := done _ _ hswp
    exact ⟨t, he, d.loaded, d.line, d.lines, d.cores, d.mem, d.regs, d.net⟩
  · obtain ⟨t, he, d⟩ := done _ _ hcas
    refine ⟨t, he, d.loaded, ?_, d.lines, d.cores, d.mem, d.regs, d.net⟩
    rw [d.line]
    split <;> rfl
  · obtain ⟨t, he, d⟩ := done _ _ hmax
    exact ⟨t, he, d.loaded, d.line, d.lines, d.cores, d.mem, d.regs, d.net⟩

end Sys2Proof.Machine
end

section
/-! PROOFS. Barriers of a core complete or wait; the cores stay in canonical form while stores are performed (R218, R263, R390). -/

namespace Sys2Proof.Machine

open State

namespace State

/-! ### What leaves the cores alone -/

section
variable (s : State)

/-- A step whose effect but for records is that of another leaves the cores as that one does. -/
theorem cores_of_unreported {s t : State} (h : t.unreported = s.unreported) : t.cores = s.cores := (congrArg State.cores h :)

@[simp] theorem cores_reportHome (n : Nat) (r : FRec) : (s.reportHome n r).1.cores = s.cores := by
  unfold reportHome
  split <;> exact cores_of_unreported (unreported_report s _ _)

@[simp] theorem cores_reportSec (a n : Nat) : (s.reportSec a n).cores = s.cores := cores_of_unreported (unreported_reportSec s a n)

/-- A record that is neither fatal nor of a recovery is held or merged. -/
theorem unreported_fault (q : FaultQueue) {r : FRec} (hfatal : r.fatal = false) (hkind : r.kind = 0) :
    (s.fault q r).unreported = s.unreported := by
  have hraise : s.raise q r = s.report q { r with time := s.dieNow r.die } := by
    simp only [State.raise, hfatal, hkind, Bool.false_eq_true, if_false, ne_eq, not_true_eq_false]
  rw [fault, hraise]
  exact unreported_report s q _

/-- A LINK fault is a record, and the time of it (R299). -/
theorem unreported_linkFault (p dev code : Nat) : ∃ m, (s.linkFault p dev code).unreported = ({ s with linkFaultAt := m } : State).unreported := by
  unfold linkFault
  simp only
  split
  · exact ⟨s.linkFaultAt, rfl⟩
  · exact ⟨_, unreported_fault _ _ (by dsimp only; split <;> rfl) (by dsimp only; split <;> rfl)⟩

@[simp] theorem cores_linkFault (p dev code : Nat) : (s.linkFault p dev code).cores = s.cores := by
  obtain ⟨m, h⟩ := s.unreported_linkFault p dev code
  exact (cores_of_unreported h).trans rfl

@[simp] theorem cores_flushLine (l : Line) : (s.flushLine l).cores = s.cores := by
  unfold flushLine
  split
  · exact s.cores_reportSec _ _
  · rfl

@[simp] theorem cores_pullBack (u : Nat) : (s.pullBack u).cores = s.cores := by
  unfold pullBack
  split
  · rfl
  · exact s.cores_flushLine _

@[simp] theorem cores_unitCleared (a n : Nat) : (s.unitCleared a n).cores = s.cores := (s.strike a n).cores_pullBack _

@[simp] theorem cores_writeUnit (k a : Nat) (bs : List Byte) (poison : Bool) : (s.writeUnit k a bs poison).cores = s.cores := by
  rw [writeUnit_eq]
  split
  · exact s.cores_reportSec _ _
  · unfold putPiece
    split <;> exact s.cores_unitCleared _ _

@[simp] theorem cores_writeMem (k a : Nat) (bs : List Byte) (poison : Bool) : (s.writeMem k a bs poison).cores = s.cores := by
  unfold writeMem writeMemP
  induction pieces a bs generalizing s with
  | nil => rfl
  | cons x xs ih => exact (ih _).trans (s.cores_writeUnit _ _ _ _)

@[simp] theorem cores_foundUnit (u v : Nat) : (s.foundUnit u v).1.cores = s.cores := by
  unfold foundUnit
  simp only
  split
  · rfl
  split
  · rfl
  · exact (cores_reportHome _ _ _).trans rfl

@[simp] theorem cores_mended (u : Nat) : (s.mended u).cores = s.cores := by
  unfold mended
  split
  · rfl
  · exact s.cores_foundUnit _ _

@[simp] theorem cores_forgetLine (a u : Nat) : (s.forgetLine a u).cores = s.cores := by
  have hdrop : (s.dropLine a u).cores = s.cores := by
    unfold dropLine
    simp only
    split <;> rfl
  have hleave (t : State) (h : Nat) : (t.dirLeave h a u).cores = t.cores := by
    unfold dirLeave
    simp only
    repeat' split
    all_goals rfl
  unfold forgetLine
  simp only
  split
  · exact hdrop
  · exact (hleave _ _).trans hdrop

theorem cores_takeWay {s t : State} {h u : Nat} (e : s.takeWay h u = some t) : t.cores = s.cores := by
  have hsweep (x : State) : (x.startSweep h).cores = x.cores := by
    unfold startSweep
    simp only
    repeat' split
    all_goals rfl
  have hbucket (x : State) (v : Nat) : (x.setBucket h v).cores = x.cores := by
    unfold setBucket
    split
    · rfl
    · exact (hsweep _).trans rfl
  unfold takeWay at e
  split at e
  · exact Option.some.inj e ▸ rfl
  · exact Option.some.inj e ▸ (hbucket _ _).trans rfl
  · cases e
  · cases e

end

/-! ### Canonical cores -/

/-- The cores are in canonical form. -/
def CoresWf (s : State) : Prop := Sparse.wf (fun _ => CoreSt.init) s.cores = true

section
variable {s t : State}

theorem CoresWf.of_eq (h : s.CoresWf) (e : t.cores = s.cores) : t.CoresWf := (congrArg (Sparse.wf _) e).trans h

theorem CoresWf.modCore (h : s.CoresWf) (c : Nat) (f : CoreSt → CoreSt) : (s.modCore c f).CoresWf := Sparse.wf_put _ h

theorem CoresWf.freeLoad (h : s.CoresWf) (c : Nat) : (s.freeLoad c).CoresWf := CoresWf.modCore (s := { s with fresh := s.fresh + 1 }) h c _

theorem CoresWf.coreLost (h : s.CoresWf) (a index pa : Nat) : (s.coreLost a index pa).CoresWf := by
  unfold State.coreLost
  simp only
  split
  · exact h.modCore a _
  split
  · split
    · exact h
    · have hlost (f : CoreSt → CoreSt) : ((s.dropMiss a pa).modCore a f).CoresWf := CoresWf.modCore (s := s.dropMiss a pa) h a f
      split
      · exact (hlost _).freeLoad a
      · exact hlost _
  · exact h.freeLoad a

theorem CoresWf.sendCore (h : s.CoresWf) (a kind pa len poison flag index : Nat) (data : List Byte) :
    (s.sendCore a kind pa len poison flag index data).CoresWf := by
  unfold State.sendCore
  simp only
  split
  · exact (h.of_eq (s.cores_linkFault _ _ _)).coreLost _ _ _
  · exact h

theorem CoresWf.writeHome (h : s.CoresWf) (c : Nat) (l : Line) : (s.writeHome c l).CoresWf := by
  unfold State.writeHome
  split
  · exact h.sendCore _ _ _ _ _ _ _ _
  split
  · exact h.of_eq (s.cores_flushLine l)
  split
  · exact h.of_eq (s.cores_faultCore _ _ _ _)
  · exact h

theorem CoresWf.giveUp (h : s.CoresWf) (a : Nat) (l : Line) : (s.giveUp a l).CoresWf := by
  unfold State.giveUp
  split
  · exact (h.writeHome a l).of_eq (cores_forgetLine _ _ _)
  · exact h.of_eq (cores_forgetLine _ _ _)

theorem CoresWf.fillL2 (h : s.CoresWf) {c : Nat} {l : Line} (e : s.fillL2 c l = some t) : t.CoresWf := by
  unfold State.fillL2 at e
  simp only at e
  split at e
  · exact Option.some.inj e ▸ h
  split at e
  · cases e
  · next v _ => exact Option.some.inj e ▸ CoresWf.giveUp (s := { s with fresh := s.fresh + 1 }) h c v

theorem CoresWf.takeExclusive (h : s.CoresWf) {c u key : Nat} (e : s.takeExclusive c u key = some t) : t.CoresWf := by
  obtain ⟨placed, hplaced, rfl⟩ := Option.map_eq_some_iff.mp e
  obtain ⟨way, hway, hfill⟩ := Option.bind_eq_some_iff.mp hplaced
  have hready : way.CoresWf :=
    h.of_eq ((cores_takeWay hway).trans ((cores_mended _ _).trans (s.cores_pullBack u)))
  have hplacedWf : placed.CoresWf := CoresWf.fillL2 (s := way.dirPut (homeOf u) u (.owned c)) hready hfill
  exact hplacedWf

/-! ### Stores that are performed -/

theorem CoresWf.performPiece (h : s.CoresWf) {c a : Nat} {b : BufStore} {bs : List Byte} (e : s.performPiece c b a bs = some t) : t.CoresWf := by
  unfold State.performPiece at e
  simp only at e
  split at e
  · exact Option.some.inj e ▸ h
  split at e
  · cases e
  split at e
  · exact Option.some.inj e ▸ (h.of_eq (s.cores_faultCore _ _ _ _)).modCore c _
  split at e
  · split at e
    · obtain ⟨owner, howner, hstored⟩ := Option.bind_eq_some_iff.mp e
      obtain ⟨l, -, rfl⟩ := Option.map_eq_some_iff.mp hstored
      have hownerWf : owner.CoresWf := h.takeExclusive howner
      exact hownerWf
    · cases e
  split at e
  · exact Option.some.inj e ▸ h.of_eq (s.cores_writeMem _ _ _ _)
  · cases e

/-- What every step of a chain that may fail keeps, the chain keeps. -/
theorem CoresWf.foldl_bind {α : Type} {f : State → α → Option State} (hf : ∀ {x y : State} {a}, x.CoresWf → f x a = some y → y.CoresWf)
    (xs : List α) {o : Option State} (ho : ∀ x, o = some x → x.CoresWf) (e : xs.foldl (fun acc a => acc.bind (fun x => f x a)) o = some t) :
    t.CoresWf := by
  induction xs generalizing o with
  | nil => exact ho t e
  | cons a xs ih =>
    refine ih (fun y hy => ?_) e
    obtain ⟨x, hx, hstep⟩ := Option.bind_eq_some_iff.mp hy
    exact hf (ho x hx) hstep

theorem CoresWf.performStore (h : s.CoresWf) {c : Nat} {b : BufStore} (e : s.performStore c b = some t) : t.CoresWf :=
  CoresWf.foldl_bind (fun hx he => hx.performPiece he) _ (fun _ hx => Option.some.inj hx ▸ h) e

/-- A core whose stores have all been performed has none buffered. -/
theorem CoresWf.drainStores (h : s.CoresWf) {c : Nat} (e : s.drainStores c = some t) : t.CoresWf ∧ (t.core c).buf = [] := by
  obtain ⟨done, hdone, rfl⟩ := Option.map_eq_some_iff.mp e
  have hcores : done.CoresWf := CoresWf.foldl_bind (fun hx he => hx.performStore he) _ (fun _ hx => Option.some.inj hx ▸ h) hdone
  exact ⟨hcores.modCore c _, congrArg CoreSt.buf (core_setCore_of_wf _ hcores)⟩

end

/-! ### Barriers -/

section
variable {s : State} {c : Nat} {x : CoreSt}

/-- A core with the barriers it is given besides those it waits at. -/
def withBarriers (x : CoreSt) (ld st dev : Bool) : CoreSt :=
  { x with waitLd := x.waitLd || ld, waitSt := x.waitSt || st, waitDev := x.waitDev || dev }

theorem withBarriers_ld : withBarriers x true false false = { x with waitLd := true } := by simp only [withBarriers, Bool.or_true, Bool.or_false]

theorem withBarriers_st : withBarriers x false true false = { x with waitSt := true } := by simp only [withBarriers, Bool.or_true, Bool.or_false]

theorem withBarriers_full : withBarriers x true true false = { x with waitLd := true, waitSt := true } := by
  simp only [withBarriers, Bool.or_true, Bool.or_false]

/-- What a barrier changes when it completes. -/
def barrierDone (t : State) (c : Nat) (dev : Bool) : State :=
  t.modCore c (fun y => { y with
    waitLd := false, waitSt := false, waitDev := false
    key := if dev then t.fld (a_HS_COREKEY c) HS_COREKEY_KEYIDX else y.key })

/-- A core that executes issues a barrier: it goes as far as what waits before it lets it. -/
theorem barrier_up (ld st dev : Bool) (hup : s.coreUp c = true) :
    s.barrier c ld st dev = ((s.setCore c (withBarriers (s.core c) ld st dev)).passBarrier c).getD
      (s.setCore c (withBarriers (s.core c) ld st dev)) := by
  simp only [barrier, hup, Bool.not_true, Bool.false_eq_true, if_false, modCore, withBarriers]

/-- A barrier waits for an outstanding load. -/
theorem passBarrier_loading (h : s.CoresWf) (hld : x.waitLd = true) (hloads : s.loadsDone c = false) :
    (s.setCore c x).passBarrier c = none := by
  have hout : (s.setCore c x).loadsDone c = false := hloads
  simp only [passBarrier, core_setCore_of_wf x h, hld, hout, Bool.not_false, Bool.and_self, if_true]

/-- While its barriers wait, an access of a core does nothing. -/
theorem coreStep_pending (hup : s.coreUp c = true) (hwait : s.passBarrier c = none) (g : State → Out') : s.coreStep c g = .next s := by
  simp only [coreStep, hup, if_true, hwait]

/-- A barrier that waits for no load goes on to the stores. -/
theorem passBarrier_loaded (h : s.CoresWf) (hld : x.waitLd = false ∨ s.loadsDone c = true) :
    (s.setCore c x).passBarrier c =
      (if x.waitSt then ((s.setCore c x).drainStores c).filter (fun t => t.storesAcked c) else some (s.setCore c x)).map
        (fun t => t.barrierDone c x.waitDev) := by
  have hgo : (x.waitLd && !(s.setCore c x).loadsDone c) = false := by
    rcases hld with hld | hld
    · rw [hld, Bool.false_and]
    · have hdone : (s.setCore c x).loadsDone c = true := hld
      rw [hdone, Bool.not_true, Bool.and_false]
  simp only [passBarrier, core_setCore_of_wf x h, hgo, Bool.false_eq_true, if_false, barrierDone]

/-- A core without buffered stores has performed them all, whatever else it waits for. -/
theorem drainStores_setCore (h : s.CoresWf) (hbuf : x.buf = []) : (s.setCore c x).drainStores c = some (s.setCore c x) :=
  drainStores_none (Sparse.wf_put _ h) ((congrArg CoreSt.buf (core_setCore_of_wf x h)).trans hbuf)

theorem storesAcked_setCore (h : s.CoresWf) (hlost : x.lostSt = (s.core c).lostSt) : (s.setCore c x).storesAcked c = s.storesAcked c := by
  simp only [storesAcked, core_setCore_of_wf x h, hlost]
  rfl

/-- A barrier waits for a store to another device that is not acknowledged (R218). -/
theorem passBarrier_unacked (h : s.CoresWf) (hbuf : x.buf = []) (hst : x.waitSt = true)
    (hacks : (s.setCore c x).storesAcked c = false) : (s.setCore c x).passBarrier c = none := by
  by_cases hld : x.waitLd = false ∨ s.loadsDone c = true
  · simp only [passBarrier_loaded h hld, hst, if_true, drainStores_setCore h hbuf, Option.filter, hacks, Bool.false_eq_true, if_false,
      Option.map_none]
  · obtain ⟨hwait, hloads⟩ := not_or.mp hld
    exact passBarrier_loading h (Bool.not_eq_false _ ▸ hwait) (Bool.not_eq_true _ ▸ hloads)

/-- A barrier completes where nothing is outstanding; ORD.DEV brings the key index into use. -/
theorem CoreFree.barrier_completes (f : s.CoreFree c) (h : s.CoresWf) (hloads : s.loadsDone c = true) (hacks : s.storesAcked c = true)
    (ld st dev : Bool) :
    s.barrier c ld st dev = s.setCore c { s.core c with key := if dev then s.fld (a_HS_COREKEY c) HS_COREKEY_KEYIDX else (s.core c).key } := by
  let x := withBarriers (s.core c) ld st dev
  have hdev : x.waitDev = dev := congrArg (· || dev) f.dev
  have hstores : (if x.waitSt then ((s.setCore c x).drainStores c).filter (fun t => t.storesAcked c) else some (s.setCore c x)) =
      some (s.setCore c x) := by
    have hx : (s.setCore c x).storesAcked c = true := (storesAcked_setCore (x := x) h rfl).trans hacks
    simp only [drainStores_setCore (x := x) h f.buf, Option.filter, hx, if_true, ite_self]
  have hdone : (s.setCore c x).barrierDone c dev =
      s.setCore c { s.core c with key := if dev then s.fld (a_HS_COREKEY c) HS_COREKEY_KEYIDX else (s.core c).key } := by
    rw [barrierDone, modCore, core_setCore_of_wf x h, setCore_setCore _ _ h]
    exact congrArg (s.setCore c) (congrArg (fun y : CoreSt =>
      { y with key := if dev then s.fld (a_HS_COREKEY c) HS_COREKEY_KEYIDX else (s.core c).key }) (unwaiting_idle f.ld f.st f.dev))
  rw [barrier_up _ _ _ f.up, passBarrier_loaded h (.inr hloads), hstores, Option.map_some, hdev, hdone, Option.getD_some]

/-- A barrier that cannot complete stays pending. -/
theorem barrier_pending {ld st dev : Bool} (hup : s.coreUp c = true) (hx : withBarriers (s.core c) ld st dev = x)
    (hwait : (s.setCore c x).passBarrier c = none) : s.barrier c ld st dev = s.setCore c x := by
  rw [barrier_up _ _ _ hup, hx, hwait, Option.getD_none]

end

end State

/-- Settles O57: where nothing is outstanding a barrier completes; else it waits for loads, performs the stores, and waits for their
acknowledgements. -/
theorem barriersComplete : Obligations.BarriersComplete := by
  unfold Obligations.BarriersComplete
  intro c s h hup
  have hcores : s.CoresWf := h.cores
  refine ⟨fun free hloads hacks => ?completes, fun free hloads => ?loading, fun free hacks => ?unacked,
    fun d hld _ hdrained hacks => ?stores⟩
  case completes =>
    have hdone := free.barrier_completes hcores hloads hacks
    have hsame (ld st : Bool) : s.barrier c ld st false = s := (hdone ld st false).trans (setCore_self hcores)
    exact ⟨congrArg _ (hsame true false), congrArg _ (hsame false true), congrArg _ (hsame true true), congrArg _ (hdone false false true)⟩
  case loading =>
    have hwait : (s.setCore c { s.core c with waitLd := true }).passBarrier c = none := passBarrier_loading hcores rfl hloads
    exact ⟨congrArg Host.Outcome.next (barrier_pending hup withBarriers_ld hwait),
      fun addr size attr dep => coreStep_pending (s := s.setCore c { s.core c with waitLd := true }) hup hwait _⟩
  case unacked =>
    have hwait (x : CoreSt) (hbuf : x.buf = (s.core c).buf) (hlost : x.lostSt = (s.core c).lostSt) (hst : x.waitSt = true) :
        (s.setCore c x).passBarrier c = none :=
      passBarrier_unacked hcores (hbuf.trans free.buf) hst ((storesAcked_setCore hcores hlost).trans hacks)
    exact ⟨congrArg Host.Outcome.next (barrier_pending hup withBarriers_st (hwait _ rfl rfl rfl)),
      congrArg Host.Outcome.next (barrier_pending hup withBarriers_full (hwait _ rfl rfl rfl))⟩
  case stores =>
    obtain ⟨hd, hbuf⟩ := CoresWf.drainStores (CoresWf.modCore hcores c (fun x => { x with waitSt := true })) hdrained
    have hpass := passBarrier_loaded (c := c) (x := { s.core c with waitSt := true }) hcores (.inl hld)
    simp only [if_true, hdrained, Option.filter, hacks, Option.map_some] at hpass
    have hexec : s.barrier c false true false = d.barrierDone c (s.core c).waitDev := by
      rw [barrier_up _ _ _ hup, withBarriers_st, hpass, Option.getD_some]
    have hcore : (d.barrierDone c (s.core c).waitDev).core c = _ := core_setCore_of_wf _ hd
    exact ⟨_, congrArg Host.Outcome.next hexec, rfl, rfl, (congrArg CoreSt.buf hcore).trans hbuf, congrArg CoreSt.waitSt hcore⟩

end Sys2Proof.Machine
end

section
/-! PROOFS. Answers, NAKs and timeouts of a core's requests to other devices (R218, R297, R299, log entry 24). -/

namespace Sys2Proof.Machine

open State

namespace State

section
variable {s : State}

/-! ### Nothing waits at a barrier -/

/-- Where no core waits, no barrier is tried again. -/
theorem retryBarriers_none (h : s.CoresWf) (hno : s.noBarriers) : s.retryBarriers = s := by
  have hnone : s.cores.filter (fun e => e.2.waitLd || e.2.waitSt || e.2.waitDev) = [] :=
    List.filter_eq_nil_iff.mpr (fun e he => by
      have hcore : s.core e.1 = e.2 := Sparse.get_of_mem h he
      obtain ⟨hld, hst, hdev⟩ := hno e.1
      rw [← hcore, hld, hst, hdev]
      exact Bool.false_ne_true)
  rw [retryBarriers, hnone, List.foldl_nil]

theorem noBarriers_modCore (h : s.CoresWf) (hno : s.noBarriers) (c : Nat) {f : CoreSt → CoreSt}
    (hf : ∀ x, (f x).waitLd = x.waitLd ∧ (f x).waitSt = x.waitSt ∧ (f x).waitDev = x.waitDev) : (s.modCore c f).noBarriers := fun k => by
  obtain ⟨hld, hst, hdev⟩ := hf (s.core c)
  by_cases hk : k = c
  · subst hk
    rw [modCore, core_setCore_of_wf _ h, hld, hst, hdev]
    exact hno k
  · rw [modCore, core_setCore_ne _ hk]
    exact hno k

/-! ### Answers that end a core's request (R297) -/

/-- The acknowledgement of a core's store changes nothing but what waits for it. -/
theorem coreAnswer_store (h : s.CoresWf) (hno : s.noBarriers) {x : Remote} (hx : x.ref.index = crSTORE) (data : List Byte) (poison : Nat) :
    s.coreAnswer x data poison = s := by
  have hfill : ¬ x.ref.index = crFILL := hx ▸ (by decide)
  simp only [coreAnswer, if_neg hfill, if_pos hx]
  exact retryBarriers_none h hno

/-- The data of an uncached load reach the core. -/
theorem coreAnswer_load (h : s.CoresWf) (hno : s.noBarriers) {x : Remote} (hfill : x.ref.index ≠ crFILL) (hstore : x.ref.index ≠ crSTORE)
    (data : List Byte) (poison : Nat) :
    s.coreAnswer x data poison =
      s.loadDone x.ref.slot x.pa (((data.drop (x.pa % 64)).take x.ref.index).map (fun b => (b, natBit poison 0))) := by
  simp only [coreAnswer, if_neg hfill, if_neg hstore]
  refine retryBarriers_none ?_ ?_
  · unfold loadDone
    split <;> exact h.modCore _ _
  · unfold loadDone
    split <;> exact noBarriers_modCore h hno _ (fun _ => ⟨rfl, rfl, rfl⟩)

/-- A load changes the core alone, and brings it bytes that are not poisoned. -/
theorem loadDone_frame (h : s.CoresWf) (c a : Nat) (bs : List (Byte × Bool)) :
    ∃ cs, s.loadDone c a bs = { s with cores := cs } ∧
      (bs.any (fun b => b.2) = false → ((s.loadDone c a bs).core c).loaded = BitVec.ofNat 64 (ofLeBytes (bs.map (fun b => b.1)))) := by
  unfold loadDone
  split
  next hbad => exact ⟨_, rfl, fun hgood => absurd (hgood.symm.trans hbad) Bool.false_ne_true⟩
  · exact ⟨_, rfl, fun _ => congrArg CoreSt.loaded (core_setCore_of_wf _ h)⟩

theorem any_unpoisoned {poison : Nat} (hgood : natBit poison 0 = false) (bs : List Byte) :
    (bs.map (fun b => (b, natBit poison 0))).any (fun b => b.2) = false := by
  rw [List.any_map]
  exact List.any_eq_false.mpr (fun _ _ => Bool.eq_false_iff.mp hgood)

theorem map_fst_attached (poison : Bool) (bs : List Byte) : (bs.map (fun b => (b, poison))).map (fun b => b.1) = bs := by
  rw [List.map_map]
  exact List.map_id bs

/-! ### A request that is given up (R218, R299) -/

/-- A store that fails is never acknowledged. -/
theorem coreFailed_store {x : Remote} (hx : x.ref.index = crSTORE) :
    s.coreFailed x = s.modCore x.ref.slot (fun y => { y with lostSt := y.lostSt + 1 }) := by
  have hfill : ¬ x.ref.index = crFILL := hx ▸ (by decide)
  simp only [coreFailed, if_neg hfill, coreLost, if_pos hx]

/-- A request of a core whose timeout has passed. -/
theorem expire_core {tag : Nat} {x : Remote} (hx : s.remotes.find? (fun y => y.tag == tag) = some x) (hlate : x.first + x.limit ≤ s.now)
    (hcore : x.pp = coresPP) :
    s.expire tag = (((s.dropRemote x).bump a_FB_TOCNT FB_TOCNT_EXPIRED 1).linkFault x.pp x.dev x.code).coreFailed x := by
  simp only [expire, hx, if_neg (Nat.not_lt.mpr hlate), hcore, if_true]

end

end State

/-- Settles O28: an answer ends a core's request, a NAK keeps it for a resend, and a timeout gives it up. -/
theorem remoteAnswersAndRetries : Obligations.RemoteAnswersAndRetries := by
  unfold Obligations.RemoteAnswersAndRetries
  refine ⟨?acked, ?read, ?refused, ?again, ?expired⟩
  case acked =>
    intro p k x s h hno hanswer htype hcore hstore
    have htaken : s.takeAck p k = s.dropRemote x := by
      simp only [takeAck, hanswer, htype, ne_eq, not_true_eq_false, if_false, hcore, if_true]
      exact coreAnswer_store (s := s.dropRemote x) h.cores hno hstore [] 0
    exact ⟨_, congrArg Host.Outcome.next htaken, rfl, rfl, rfl⟩
  case read =>
    intro p k x data s h hno hanswer htype hlen hdata hcore hfill hstore
    let bs := ((data.drop (x.pa % 64)).take x.ref.index).map (fun b => (b, natBit k.poison 0))
    have htaken : s.takeRdRsp p k data = (s.dropRemote x).loadDone x.ref.slot x.pa bs := by
      simp only [takeRdRsp, hanswer, htype, ← hlen, hdata, ne_eq, not_true_eq_false, or_self, if_false, hcore, if_true]
      exact coreAnswer_load (s := s.dropRemote x) h.cores hno hfill hstore data k.poison
    obtain ⟨cs, hframe, hloaded⟩ := loadDone_frame (s := s.dropRemote x) h.cores x.ref.slot x.pa bs
    refine ⟨_, congrArg Host.Outcome.next htaken, by rw [hframe]; rfl, fun hgood => ?_, by rw [hframe]; rfl, by rw [hframe]; rfl⟩
    rw [hloaded (any_unpoisoned hgood _), map_fst_attached]
  case refused =>
    intro p k x s hanswer htype hcode
    refine congrArg Host.Outcome.next ?_
    simp only [takeNak, hanswer, htype, ne_eq, not_true_eq_false, if_false, if_pos hcode]
  case again =>
    intro tag x at_ port s hx hat hdue hopen hroute
    have hwait : ¬ (s.now < x.resendAt.getD 0 ∨ x.first + x.limit ≤ s.now) := by
      rw [hat, Option.getD_some]
      omega
    refine congrArg Host.Outcome.next ?_
    simp only [resend, hx, if_neg hwait, hroute]
  case expired =>
    intro tag x s h hx hlate hcore hstore
    let counted := (s.dropRemote x).bump a_FB_TOCNT FB_TOCNT_EXPIRED 1
    obtain ⟨m, hrecord⟩ := counted.unreported_linkFault x.pp x.dev x.code
    have hcores := counted.cores_linkFault x.pp x.dev x.code
    have hexpired := (expire_core hx hlate hcore).trans (coreFailed_store hstore)
    have hcount : counted.fld a_FB_TOCNT FB_TOCNT_EXPIRED = satAdd (s.fld a_FB_TOCNT FB_TOCNT_EXPIRED) 1 (2 ^ FB_TOCNT_EXPIRED.width - 1) :=
      fld_bump (s.dropRemote x) a_FB_TOCNT FB_TOCNT_EXPIRED 1 h ⟨by decide, by decide⟩
    have hlost : ((counted.linkFault x.pp x.dev x.code).core x.ref.slot).lostSt = (s.core x.ref.slot).lostSt :=
      congrArg (fun cs => (Sparse.get (fun _ => CoreSt.init) cs x.ref.slot).lostSt) hcores
    refine ⟨_, congrArg Host.Outcome.next hexpired, (congrArg State.remotes hrecord :), ?_, ?_, (congrArg State.mem hrecord :)⟩
    · exact (congrArg (fun t : State => t.fld a_FB_TOCNT FB_TOCNT_EXPIRED) hrecord :).trans hcount
    · exact (congrArg CoreSt.lostSt (core_setCore_of_wf _ (CoresWf.of_eq (s := s) h.cores hcores))).trans (congrArg (· + 1) hlost)

end Sys2Proof.Machine
end

section
/-! PROOFS. What a bring-up leaves: what lies beneath it, and LEVEL, WARM and JOINED of MG_BOOTSTAT (R360, R361, R371, R372). -/

namespace Sys2Proof.Machine

open State

namespace State

/-! ### Registers in canonical form -/

/-- The registers are in canonical form. -/
def RegsWf (s : State) : Prop := Sparse.wf regReset s.regs = true

section
variable {s : State}

theorem RegsWf.wr (h : s.RegsWf) (a : Nat) (w : Word) : (s.wr a w).RegsWf := Sparse.wf_put w h

theorem RegsWf.setFld (h : s.RegsWf) (a : Nat) (f : Fld) (v : Nat) : (s.setFld a f v).RegsWf := h.wr a _

theorem RegsWf.foldl {α : Type} (h : s.RegsWf) (xs : List α) {f : State → α → State} (hf : ∀ t x, t.RegsWf → (f t x).RegsWf) :
    (xs.foldl f s).RegsWf := by
  induction xs generalizing s with
  | nil => exact h
  | cons x xs ih => exact ih (hf s x h)

theorem RegsWf.rd_wr (h : s.RegsWf) (a : Nat) (w : Word) : (s.wr a w).rd a = w := Sparse.get_put w (Sparse.wf_sorted h)

/-- A field just written reads as the value, cut to its width. -/
theorem RegsWf.fld_setFld (h : s.RegsWf) (a : Nat) {f : Fld} (v : Nat) (hf : f.Sound) : (s.setFld a f v).fld a f = v % 2 ^ f.width := by
  rw [fld, State.setFld, h.rd_wr, get_set f _ v hf.2 hf.1]

theorem RegsWf.fld_setFld_apart (h : s.RegsWf) (a : Nat) {f g : Fld} (v : Nat) (hf : f.Sound) (hg : g.Sound) (hd : g.Apart f) :
    (s.setFld a f v).fld a g = s.fld a g := by
  rw [fld, State.setFld, h.rd_wr, get_set_apart f g _ v hf.2 hf.1 hg.1 hd.symm, fld]

end

/-! ### What a bring-up keeps -/

/-- What lies beneath a bring-up: memories, contexts, jobs, dies, keys, pins, and how the device was started. -/
def beneathBoot (s : State) : State :=
  { State.reset with
    mem := s.mem, ts := s.ts, ctxs := s.ctxs, jobs := s.jobs, dies := s.dies, keys := s.keys, pins := s.pins
    mg := { Mgmt.init with phase := s.mg.phase, strapMode := s.mg.strapMode, warmHeld := s.mg.warmHeld, keyNext := s.mg.keyNext } }

/-- The fields of MG_BOOTSTAT that tell a warm start, the level reached and who has joined (R371, R372). -/
def startFields : List Fld := [MG_BOOTSTAT_LEVEL, MG_BOOTSTAT_WARM, MG_BOOTSTAT_JOINED]

theorem startFields_sound {g : Fld} (hg : g ∈ startFields) : g.Sound := by
  simp only [startFields, List.mem_cons, List.not_mem_nil, or_false] at hg
  rcases hg with rfl | rfl | rfl <;> exact ⟨by decide, by decide⟩

/-- A bit range of a word that shares no bit with them. -/
def besideStart (f : Fld) : Bool :=
  decide (f.lo ≤ f.hi) && decide (f.hi < 64) && startFields.all (fun g => decide (f.hi < g.lo) || decide (g.hi < f.lo))

theorem besideStart_iff {f : Fld} : besideStart f = true ↔ f.Sound ∧ ∀ g ∈ startFields, g.Apart f := by
  simp only [besideStart, Bool.and_eq_true, decide_eq_true_eq, List.all_eq_true, Bool.or_eq_true, Fld.Sound, Fld.Apart]

/-- The device in a phase, with an update staged or none. -/
def inPhase (s : State) (p : Nat) (staged : Bool) : State := { s with mg := { s.mg with phase := p, updStaged := staged } }

/-- A warm reset goes on, whatever WARM_RST_N is (R406). -/
def unheld (s : State) : State := { s with mg := { s.mg with warmHeld := false } }

/-- From s to t a bring-up has gone on. -/
structure BringsUp (s t : State) : Prop where
  beneath : t.beneathBoot = s.beneathBoot
  regs : s.RegsWf → t.RegsWf
  status : s.RegsWf → ∀ g ∈ startFields, t.fld a_MG_BOOTSTAT g = s.fld a_MG_BOOTSTAT g

namespace BringsUp

theorem refl (s : State) : BringsUp s s := ⟨rfl, id, fun _ _ _ => rfl⟩

theorem trans {s t u : State} (h : BringsUp s t) (g : BringsUp t u) : BringsUp s u :=
  ⟨g.beneath.trans h.beneath, fun hs => g.regs (h.regs hs), fun hs f hf => (g.status (h.regs hs) f hf).trans (h.status hs f hf)⟩

theorem foldl {α : Type} (xs : List α) {f : State → α → State} (hf : ∀ t, ∀ x ∈ xs, BringsUp t (f t x)) (s : State) :
    BringsUp s (xs.foldl f s) := by
  induction xs generalizing s with
  | nil => exact .refl s
  | cons x xs ih => exact (hf s x (List.mem_cons_self ..)).trans (ih (fun t y hy => hf t y (List.mem_cons_of_mem _ hy)) _)

theorem ite {s t u : State} {c : Prop} [Decidable c] (ht : BringsUp s t) (hu : BringsUp s u) : BringsUp s (if c then t else u) := by
  split
  · exact ht
  · exact hu

/-- A change of neither registers nor what lies beneath. -/
theorem of_regs {s t : State} (hb : t.beneathBoot = s.beneathBoot) (hr : t.regs = s.regs) : BringsUp s t :=
  ⟨hb, fun h => (congrArg (Sparse.wf regReset) hr).trans h, fun _ g _ => congrArg (fun rs => g.get (Sparse.get regReset rs a_MG_BOOTSTAT)) hr⟩

/-- Of what a record changes, nothing shows here. -/
theorem of_unreported {s t : State} (h : t.unreported = s.unreported) : BringsUp s t :=
  .of_regs (congrArg beneathBoot h :) (congrArg State.regs h :)

variable (s : State)

theorem wr {a : Nat} (w : Word) (ha : a_MG_BOOTSTAT ≠ a) : BringsUp s (s.wr a w) :=
  ⟨rfl, fun h => h.wr a w, fun _ g _ => congrArg g.get (rd_wr_ne s a a_MG_BOOTSTAT w ha)⟩

theorem setFld {a : Nat} (f : Fld) (v : Nat) (ha : a_MG_BOOTSTAT ≠ a) : BringsUp s (s.setFld a f v) := .wr s _ ha

/-- Another field of MG_BOOTSTAT. -/
theorem setStatus (f : Fld) (v : Nat) (hf : besideStart f = true) : BringsUp s (s.setFld a_MG_BOOTSTAT f v) := by
  obtain ⟨hsound, hapart⟩ := besideStart_iff.mp hf
  exact ⟨rfl, fun h => h.setFld _ f v, fun h g hg => h.fld_setFld_apart _ v hsound (startFields_sound hg) (hapart g hg)⟩

theorem fault (q : FaultQueue) {r : FRec} (hfatal : r.fatal = false) (hkind : r.kind = 0) : BringsUp s (s.fault q r) :=
  .of_unreported (s.unreported_fault q hfatal hkind)

theorem faultDev (cls die unit : Nat) : BringsUp s (s.faultDev cls die unit) := .fault s .device rfl rfl

theorem faultDom (cls i : Nat) : BringsUp s (s.faultDom cls i) := by
  unfold State.faultDom
  split
  · exact .fault s _ rfl rfl
  · exact .faultDev s _ _ _

theorem halt (code : Nat) : BringsUp s (s.halt code) := .setStatus s MG_BOOTSTAT_HALT code rfl

theorem setDom (i : Nat) (x : Dom) : BringsUp s (s.setDom i x) := .of_regs rfl rfl

/-! ### WRITEs of the configuration (R305, R326, R328, R360) -/

theorem pwCommitGo : BringsUp s s.pwCommitGo := by
  unfold State.pwCommitGo
  split
  · exact ((BringsUp.wr s (s.stagedRd a_PW_PKGCAP) (by decide)).trans (.wr _ _ (by decide))).trans (.of_regs rfl rfl)
  · exact (BringsUp.of_regs (s := s) (t := s.discard [a_PW_PKGCAP, a_PW_SPLIT]) rfl rfl).trans (.faultDev _ _ _ _)

theorem setThrottle (c : Nat) : BringsUp s (s.setThrottle c) := .ite (.setFld s _ _ (by decide)) (.faultDev s _ _ _)

theorem domctl_apart {i : Nat} (hi : ¬ 122 ≤ i) : a_MG_BOOTSTAT ≠ a_PW_DOMCTL i := by
  simp only [a_MG_BOOTSTAT, a_PW_DOMCTL]
  omega

theorem domstat_apart {i : Nat} (hi : ¬ 122 ≤ i) : a_MG_BOOTSTAT ≠ a_PW_DOMSTAT i := by
  simp only [a_MG_BOOTSTAT, a_PW_DOMSTAT]
  omega

theorem setMv (i mv : Nat) : BringsUp s (s.setMv i mv) := by
  unfold State.setMv
  split
  · exact .refl s
  next hi => exact .ite (.setFld s _ _ (domctl_apart hi)) (.faultDom s _ _)

theorem switchReq (i : Nat) (on : Bool) : BringsUp s (s.switchReq i on) := by
  unfold State.switchReq
  split
  · exact .refl s
  next hin =>
    have hi : ¬ 122 ≤ i := fun h => hin (by rw [decide_eq_true h, Bool.true_or])
    have hasked : BringsUp s ((s.setFld (a_PW_DOMCTL i) PW_DOMCTL_ON (b2n on)).setFld (a_PW_DOMSTAT i) PW_DOMSTAT_BUSY 1) :=
      (BringsUp.setFld s PW_DOMCTL_ON (b2n on) (domctl_apart hi)).trans
        (.setFld _ PW_DOMSTAT_BUSY 1 (domstat_apart hi))
    simp only
    refine .ite ?_ ?_
    · exact (BringsUp.setFld s _ _ (domstat_apart hi)).trans (.faultDom _ _ _)
    · exact hasked.trans (.setDom _ _ _)

theorem banjoWrite (a : Nat) (v : Word) : BringsUp s (s.banjoWrite a v) := by
  unfold State.banjoWrite
  split
  · exact .refl s
  simp only
  split
  · exact .of_regs rfl rfl
  · exact .of_regs rfl rfl
  · exact .ite (.pwCommitGo s) (.refl s)
  · exact .setThrottle s _
  · exact (BringsUp.setMv s _ _).trans (.switchReq _ _ _)
  · exact .refl s

theorem countRefused {f : State → State} (hf : BringsUp s (f s)) : BringsUp s (s.countRefused f) := by
  unfold State.countRefused
  exact .ite (hf.trans (.setStatus _ MG_BOOTSTAT_CFG_REFUSED _ rfl)) hf

theorem giveWrites (ws : List (Nat × Word)) : BringsUp s (s.giveWrites ws) := by
  refine .foldl ws (fun t w _ => .ite (.refl t) ?_) s
  split
  · exact .refl t
  · exact .ite (.countRefused t (.banjoWrite t _ _)) (.of_regs rfl rfl)

/-! ### The steps of a bring-up (R354, R357, R360–R363, R371) -/

theorem goOn : BringsUp s s.goOn := by
  refine ((BringsUp.setFld s MG_PARTEN_ENABLED _ (by decide)).trans (.foldl _ (fun t i hi => .ite ?_ (.refl t)) _)).trans (.giveWrites _ _)
  have hon : ¬ 122 ≤ i := Nat.not_le.mpr (List.mem_range.mp hi)
  exact (BringsUp.of_regs (s := t) (t := t.setDom i { t.dom i with switchOn := true, railAt := t.now }) rfl rfl).trans
    (.setFld _ PW_DOMCTL_ON 1 (domctl_apart hon))

theorem extendMeasure (i : Nat) (bs : List Byte) : BringsUp s (s.extendMeasure i bs) := .of_regs rfl rfl

theorem raiseFloor {reg : Nat} (floor raises : Fld) (v : Nat) (ha : a_MG_BOOTSTAT ≠ reg) : BringsUp s (s.raiseFloor reg floor raises v) :=
  .ite ((BringsUp.setFld s floor v ha).trans (.setFld _ raises _ (by decide))) (.refl s)

theorem applyLicence : BringsUp s s.applyLicence := by
  unfold State.applyLicence
  split
  · exact .wr s _ (by decide)
  next j l _ =>
    have htaken (w : Word) : BringsUp s ((s.wr a_MG_LICENCE w).extendMeasure 5 (s.objBytes (licenceArea j))) :=
      (BringsUp.wr s w (by decide)).trans (.extendMeasure _ _ _)
    exact .ite ((htaken _).trans (.raiseFloor _ _ _ _ (by decide))) (htaken _)

/-- The WRITEs of the overlay are at hand. -/
theorem withOverlay (ws : List (Nat × Word)) (m used : Nat) :
    BringsUp s (({ s with mg := { s.mg with overlayImage := ws, overlay := m } } : State).setFld a_MG_BOOTSTAT MG_BOOTSTAT_OVERLAY_USED used) :=
  let placed : State := { s with mg := { s.mg with overlayImage := ws, overlay := m } }
  have hplaced : BringsUp s placed := .of_regs rfl rfl
  hplaced.trans (.setStatus placed MG_BOOTSTAT_OVERLAY_USED used rfl)

theorem readOverlay (m : Nat) : BringsUp s (s.readOverlay m) := by
  have hmode : BringsUp s (s.setFld a_MG_BOOTSTAT MG_BOOTSTAT_MODE m) := .setStatus s MG_BOOTSTAT_MODE m rfl
  unfold State.readOverlay
  simp only
  split
  · exact (hmode.trans (.faultDev _ _ _ _)).trans (.halt _ _)
  · exact (hmode.trans (.withOverlay _ [] (m + 1) 0)).trans (.goOn _)
  next ws _ => exact ((hmode.trans (.withOverlay _ ws (m + 1) 1)).trans (.extendMeasure _ _ _)).trans (.goOn _)

/-- The slot that the firmware comes from is noted and measured. -/
theorem noteSlot (k fb : Nat) (bs : List Byte) :
    BringsUp s (((s.setFld a_MG_BOOTSTAT MG_BOOTSTAT_SLOT k).setFld a_MG_BOOTSTAT MG_BOOTSTAT_FALLBACK fb).extendMeasure 2 bs) :=
  ((BringsUp.setStatus s MG_BOOTSTAT_SLOT k rfl).trans (.setStatus _ MG_BOOTSTAT_FALLBACK fb rfl)).trans (.extendMeasure _ _ _)

/-- The base record is at hand. -/
theorem withBase (ws : List (Nat × Word)) (parts : Nat) (dump : Bool) :
    BringsUp s { s with mg := { s.mg with image := ws, partSet := parts, dumpKey := dump } } := .of_regs rfl rfl

/-- Reading the flash leaves the device in the boot ROM, or with Banjo's firmware running. -/
theorem readFlash (m : Nat) : ∃ p u, (p = 1 ∨ p = 2) ∧ BringsUp (s.inPhase p u) (s.readFlash m) := by
  unfold State.readFlash
  split
  · exact ⟨1, s.mg.updStaged, .inl rfl, .halt (s.inPhase 1 s.mg.updStaged) 5⟩
  split
  · exact ⟨1, s.mg.updStaged, .inl rfl, .halt (s.inPhase 1 s.mg.updStaged) 1⟩
  next k fb _ =>
    have hslot := noteSlot (s.inPhase 2 false) k (b2n fb) (s.objBytes (slotArea k))
    refine ⟨2, false, .inr rfl, ?_⟩
    simp only
    split
    · exact hslot.trans (.halt _ _)
    split
    · exact (hslot.trans (.faultDev _ _ _ _)).trans (.halt _ _)
    next es _ =>
      exact hslot.trans ((((withBase _ _ _ _).trans (.extendMeasure _ _ _)).trans (.applyLicence _)).trans (.readOverlay _ _))

/-- The sequence after a warm reset no longer waits for WARM_RST_N. -/
theorem resume : ∃ p u, BringsUp (s.unheld.inPhase p u) s.resume := by
  unfold State.resume
  simp only
  split
  · exact ⟨s.mg.phase, s.mg.updStaged, .halt s.unheld 7⟩
  split
  · let measured : State := { s.unheld with measures := Sparse.drop (fun k => decide (2 ≤ k) && decide (k ≤ 5)) s.measures }
    obtain ⟨p, u, -, hread⟩ := readFlash measured (s.modeFor true)
    have hmeasured : BringsUp (s.unheld.inPhase p u) (measured.inPhase p u) := .of_regs rfl rfl
    exact ⟨p, u, hmeasured.trans hread⟩
  · exact ⟨s.mg.phase, s.mg.updStaged, .goOn s.unheld⟩

end BringsUp

end State

end Sys2Proof.Machine
end

section
/-! PROOFS. Device resets, power and bring-up from the start (R220, R324, R371, R372, R385, R386, R405, R406). -/

namespace Sys2Proof.Machine

open State

namespace State

/-! ### What a device reset loses (R220) -/

/-- From s to t a device has lost its memories, contexts and jobs, and kept its flash. -/
structure DeviceLost (s t : State) : Prop where
  mem : t.mem = []
  ts : t.ts = []
  ctxs : t.ctxs = []
  jobs : t.jobs = []
  flash : t.flash = s.flash
  doms : t.doms = s.doms
  regs : s.RegsWf → t.RegsWf

theorem DeviceLost.wr {s t : State} (d : DeviceLost s t) (a : Nat) (w : Word) : DeviceLost s (t.wr a w) :=
  { d with regs := fun h => (d.regs h).wr a w }

theorem DeviceLost.foldl_wr {s t : State} (d : DeviceLost s t) (xs : List Nat) (a : Nat → Nat) (w : State → Nat → Word) :
    DeviceLost s (xs.foldl (fun t l => t.wr (a l) (w t l)) t) := by
  induction xs generalizing t with
  | nil => exact d
  | cons x xs ih => exact ih (d.wr _ _)

theorem RegsWf.resetDoms {s : State} (h : s.RegsWf) (p : Nat → Bool) : (s.resetDoms p).RegsWf :=
  Sparse.wf_drop (fun a => (domOfAddr a).any p) h

theorem loseDevice_lost (s : State) : DeviceLost s s.loseDevice := by
  refine DeviceLost.foldl_wr (DeviceLost.foldl_wr (t := _) ?_ _ a_LK_REPAIR (fun t l => LK_REPAIR_FIELD.set (t.rd (a_LK_REPAIR l)) 1)) _
    a_LK_ROLE (fun _ l => s.rd (a_LK_ROLE l))
  exact ⟨rfl, rfl, rfl, rfl, rfl, rfl, fun h => (h.resetDoms _).setFld a_MG_TSYNC MG_TSYNC_SYNC_OK 0⟩

/-! ### Every domain takes a new state -/

/-- One domain takes a new state, which its register shows. -/
def takeDom (t : State) (i : Nat) (x : Dom) : State :=
  ((t.setDom i x).setFld (a_PW_DOMSTAT i) PW_DOMSTAT_ON (b2n x.on)).setFld (a_PW_DOMSTAT i) PW_DOMSTAT_BUSY 0
    |>.setFld (a_PW_DOMSTAT i) PW_DOMSTAT_DAMPED 0

theorem allDoms_eq_foldl (s : State) (f : Nat → Dom) : s.allDoms f = (List.range 122).foldl (fun t i => t.takeDom i (f i)) s := rfl

/-- Domains and registers change alone. -/
theorem allDoms_frame (s : State) (f : Nat → Dom) : ∃ rs ds, s.allDoms f = { s with regs := rs, doms := ds } := by
  rw [allDoms_eq_foldl]
  induction List.range 122 generalizing s with
  | nil => exact ⟨_, _, rfl⟩
  | cons i is ih =>
    obtain ⟨rs, ds, e⟩ := ih (s.takeDom i (f i))
    exact ⟨rs, ds, e⟩

theorem RegsWf.allDoms {s : State} (h : s.RegsWf) (f : Nat → Dom) : (s.allDoms f).RegsWf := by
  rw [allDoms_eq_foldl]
  exact h.foldl _ (fun t i ht => ((RegsWf.setFld (s := t.setDom i (f i)) ht _ _ _).setFld _ _ _).setFld _ _ _)

theorem dom_foldl_takeDom {s : State} (f : Nat → Dom) (h : Sparse.wf (fun _ => Dom.init) s.doms = true) (is : List Nat) (i : Nat) :
    (is.foldl (fun t i => t.takeDom i (f i)) s).dom i = if i ∈ is then f i else s.dom i := by
  induction is generalizing s with
  | nil => rfl
  | cons j js ih =>
    rw [List.foldl_cons, ih (Sparse.wf_put (f j) h)]
    by_cases hin : i ∈ js
    · rw [if_pos hin, if_pos (List.mem_cons_of_mem _ hin)]
    · rw [if_neg hin]
      by_cases hij : i = j
      · subst hij
        rw [if_pos (List.mem_cons_self ..)]
        exact Sparse.get_put (f i) (Sparse.wf_sorted h)
      · rw [if_neg (by simp only [List.mem_cons, hij, hin, or_self, not_false_eq_true])]
        exact Sparse.get_put_ne s.doms (f j) hij

theorem dom_allDoms {s : State} (f : Nat → Dom) (h : Sparse.wf (fun _ => Dom.init) s.doms = true) {i : Nat} (hi : i < 122) :
    (s.allDoms f).dom i = f i := by
  rw [allDoms_eq_foldl, dom_foldl_takeDom f h, if_pos (List.mem_range.mpr hi)]

/-! ### The warm reset (R220, R372) -/

/-- Each die begins its reset. -/
def diesInReset (s : State) : State := { s with dies := (List.range 9).map (fun d => (d, { Die.init with inReset := true })) }

/-- What a device has lost stays lost while its domains change. -/
theorem DeviceLost.allDoms {s t : State} (d : DeviceLost s t) (f : Nat → Dom) :
    (t.allDoms f).mem = [] ∧ (t.allDoms f).ts = [] ∧ (t.allDoms f).ctxs = [] ∧ (t.allDoms f).jobs = [] ∧ (t.allDoms f).flash = s.flash := by
  obtain ⟨rs, ds, e⟩ := t.allDoms_frame f
  rw [e]
  exact ⟨d.mem, d.ts, d.ctxs, d.jobs, d.flash⟩

theorem die_diesInReset (s : State) {d : Nat} (hd : d < 9) : (s.diesInReset.die d).inReset = true := by
  interval_cases d <;> rfl

/-- The device holds nothing, and its dies are in reset. -/
structure Emptied (s : State) : Prop where
  mem : s.mem = []
  ts : s.ts = []
  ctxs : s.ctxs = []
  jobs : s.jobs = []
  dies : ∀ d, d < 9 → (s.die d).inReset = true

theorem diesInReset_emptied {s : State} (hmem : s.mem = []) (hts : s.ts = []) (hctxs : s.ctxs = []) (hjobs : s.jobs = []) :
    s.diesInReset.Emptied := ⟨hmem, hts, hctxs, hjobs, fun _ hd => die_diesInReset s hd⟩

theorem RegsWf.diesInReset {s : State} (h : s.RegsWf) : s.diesInReset.RegsWf := h

/-- MG_BOOTSTAT tells a warm start that has reached no level (R371, R372). -/
def tellWarm (s : State) : State :=
  ((s.setFld a_MG_BOOTSTAT MG_BOOTSTAT_LEVEL 0).setFld a_MG_BOOTSTAT MG_BOOTSTAT_WARM 1).setFld a_MG_BOOTSTAT MG_BOOTSTAT_JOINED 0

theorem tellWarm_state {s : State} (h : s.RegsWf) (e : s.Emptied) : s.tellWarm.warmState ∧ s.tellWarm.RegsWf := by
  have hlevel : MG_BOOTSTAT_LEVEL.Sound := ⟨by decide, by decide⟩
  have hwarm : MG_BOOTSTAT_WARM.Sound := ⟨by decide, by decide⟩
  have hjoined : MG_BOOTSTAT_JOINED.Sound := ⟨by decide, by decide⟩
  have h1 := h.setFld a_MG_BOOTSTAT MG_BOOTSTAT_LEVEL 0
  have h2 := h1.setFld a_MG_BOOTSTAT MG_BOOTSTAT_WARM 1
  refine ⟨⟨e.mem, e.ts, e.ctxs, e.jobs, e.dies, ?_, ?_, h2.fld_setFld _ 0 hjoined⟩, h2.setFld _ _ _⟩
  · rw [tellWarm, h2.fld_setFld_apart _ 0 hjoined hlevel (.inl (by decide)), h1.fld_setFld_apart _ 1 hwarm hlevel (.inl (by decide))]
    exact h.fld_setFld _ 0 hlevel
  · rw [tellWarm, h2.fld_setFld_apart _ 0 hjoined hwarm (.inl (by decide))]
    exact h1.fld_setFld _ 1 hwarm

/-- What becomes of Banjo does not show in the state after a warm reset. -/
theorem warmState_resumed {s : State} (w : s.warmState) (p : Nat) (u : Bool) : (s.unheld.inPhase p u).warmState := w

theorem RegsWf.resumed {s : State} (h : s.RegsWf) (p : Nat) (u : Bool) : (s.unheld.inPhase p u).RegsWf := h

/-- The reset goes on when WARM_RST_N rises. -/
def heldReset (s : State) : State := { s with mg := { s.mg with warmHeld := true } }

theorem warmState_heldReset {s : State} (w : s.warmState) : s.heldReset.warmState := w

/-- A bring-up leaves a device as the warm reset left it. -/
theorem BringsUp.warmState {s t : State} (b : BringsUp s t) (h : s.RegsWf) (w : s.warmState) : t.warmState := by
  obtain ⟨hmem, hts, hctxs, hjobs, hdies, hlevel, hwarm, hjoined⟩ := w
  have hstatus := b.status h
  refine ⟨(congrArg State.mem b.beneath :).trans hmem, (congrArg State.ts b.beneath :).trans hts,
    (congrArg State.ctxs b.beneath :).trans hctxs, (congrArg State.jobs b.beneath :).trans hjobs, fun d hd => ?_,
    (hstatus _ (by decide)).trans hlevel, (hstatus _ (by decide)).trans hwarm, (hstatus _ (by decide)).trans hjoined⟩
  exact (congrArg (fun u : State => (u.die d).inReset) b.beneath :).trans (hdies d hd)

/-- The device has lost what it holds, and every domain and die that is on is in reset. -/
def heldInReset (s : State) : State := (s.loseDevice.allDoms (fun i => { Dom.init with on := (s.dom i).on, inReset := true })).diesInReset

theorem heldInReset_emptied (s : State) : s.heldInReset.Emptied := by
  obtain ⟨hmem, hts, hctxs, hjobs, -⟩ := s.loseDevice_lost.allDoms (fun i => { Dom.init with on := (s.dom i).on, inReset := true })
  exact diesInReset_emptied hmem hts hctxs hjobs

theorem RegsWf.heldInReset {s : State} (h : s.RegsWf) : s.heldInReset.RegsWf := ((s.loseDevice_lost.regs h).allDoms _).diesInReset

/-- The warm reset as it stands before the device comes up again. -/
def warmStart (s : State) : State := ((s.heldInReset.tellWarm.halt 0).setFld a_MG_BOOTSTAT MG_BOOTSTAT_SCRUBBED 0).logEvent 371

theorem warmReset_eq (s : State) :
    s.warmReset false = if s.warmStart.pins.warmRstN then s.warmStart.resume else s.warmStart.heldReset := rfl

theorem pins_warmStart (s : State) : s.warmStart.pins = s.pins := by
  simp only [warmStart, pins_logEvent, pins_setFld, pins_halt, tellWarm, heldInReset, diesInReset, pins_allDoms, pins_loseDevice]

theorem BringsUp.logPersistent (s : State) (ws : List Word) : BringsUp s (s.logPersistent ws) := .of_regs rfl rfl

theorem BringsUp.withVolLog (s : State) (v : List (List Word)) : BringsUp s { s with volLog := v } := .of_regs rfl rfl

theorem BringsUp.logVolatile (s : State) (ws : List Word) : BringsUp s (s.logVolatile ws) := .withVolLog s _

theorem BringsUp.logEvent (s : State) (code : Nat) : BringsUp s (s.logEvent code) := (BringsUp.logPersistent s _).trans (.logVolatile _ _)

theorem warmStart_state {s : State} (h : s.RegsWf) : s.warmStart.warmState ∧ s.warmStart.RegsWf := by
  obtain ⟨hstate, htold⟩ := tellWarm_state h.heldInReset s.heldInReset_emptied
  have hrest : BringsUp s.heldInReset.tellWarm s.warmStart :=
    ((BringsUp.halt _ 0).trans (.setStatus _ MG_BOOTSTAT_SCRUBBED 0 rfl)).trans (.logEvent _ 371)
  exact ⟨hrest.warmState htold hstate, hrest.regs htold⟩

/-- A warm reset by whatever cause (R220, R372). -/
theorem warmReset_state {s : State} (h : s.RegsWf) : (s.warmReset false).warmState := by
  obtain ⟨hstate, hwf⟩ := warmStart_state h
  obtain ⟨p, u, b⟩ := BringsUp.resume s.warmStart
  have hresumed : s.warmStart.resume.warmState := b.warmState (hwf.resumed p u) (warmState_resumed hstate p u)
  rw [warmReset_eq]
  split
  · exact hresumed
  · exact warmState_heldReset hstate

end State

end Sys2Proof.Machine
end

section
/-! PROOFS. Power on and off, a lockstep mismatch, and the causes of a device reset (R324, R371, R372, R374, R379, R386, R405, R406). -/

namespace Sys2Proof.Machine

open State

namespace State

/-! ### Everything goes off (R324, R405) -/

/-- Banjo's last steps of a power-down, once every domain is off. -/
def turnedOff (t : State) : State :=
  let t := (List.range 122).foldl (fun t i => t.setFld (a_PW_DOMCTL i) PW_DOMCTL_ON 0) t
  let t := (t.setFld a_MG_BOOTSTAT MG_BOOTSTAT_LEVEL 0).setFld a_MG_BOOTSTAT MG_BOOTSTAT_JOINED 0
  { t with dies := [], mg := { t.mg with phase := 0, warmHeld := false } }

theorem allOff_eq (s : State) : s.allOff = (s.loseDevice.allDoms (fun _ => Dom.init)).turnedOff := rfl

theorem turnedOff_eq (t : State) :
    ∃ rs, t.turnedOff = { t with regs := rs, dies := [], mg := { t.mg with phase := 0, warmHeld := false } } := by
  have hdoms (is : List Nat) (u : State) : ∃ rs, is.foldl (fun t i => t.setFld (a_PW_DOMCTL i) PW_DOMCTL_ON 0) u = { u with regs := rs } := by
    induction is generalizing u with
    | nil => exact ⟨_, rfl⟩
    | cons i is ih =>
      obtain ⟨rs, e⟩ := ih (u.setFld (a_PW_DOMCTL i) PW_DOMCTL_ON 0)
      exact ⟨rs, e⟩
  obtain ⟨rs, e⟩ := hdoms (List.range 122) t
  rw [turnedOff, e]
  exact ⟨_, rfl⟩

/-- A device that is off holds nothing but its flash. -/
structure Off (s t : State) : Prop where
  phase : t.mg.phase = 0
  doms : ∀ i, i < 122 → t.dom i = Dom.init
  mem : t.mem = []
  ctxs : t.ctxs = []
  flash : t.flash = s.flash

/-- What Banjo and the pins still show does not matter. -/
theorem Off.shown {s t : State} (o : Off s t) (pins : Pins) {mg : Mgmt} (hphase : mg.phase = t.mg.phase) :
    Off s { t with pins := pins, mg := mg } := ⟨hphase.trans o.phase, o.doms, o.mem, o.ctxs, o.flash⟩

theorem turnedOff_off {s t : State} (hdoms : ∀ i, i < 122 → t.dom i = Dom.init) (hmem : t.mem = []) (hctxs : t.ctxs = [])
    (hflash : t.flash = s.flash) : Off s t.turnedOff := by
  obtain ⟨rs, e⟩ := t.turnedOff_eq
  rw [e]
  exact ⟨rfl, hdoms, hmem, hctxs, hflash⟩

theorem allOff_off {s : State} (h : s.Canonical) : Off s s.allOff := by
  have hlost := s.loseDevice_lost
  have hdoms : Sparse.wf (fun _ => Dom.init) s.loseDevice.doms = true := hlost.doms ▸ h.doms
  obtain ⟨hmem, -, hctxs, -, hflash⟩ := hlost.allDoms (fun _ => Dom.init)
  rw [allOff_eq]
  exact turnedOff_off (fun i hi => dom_allDoms (fun _ => Dom.init) hdoms hi) hmem hctxs hflash

/-! ### A cold start (R371, R386) -/

theorem regsWf_bare (s : State) : s.bare.RegsWf := Sparse.wf_put _ (Sparse.wf_put _ rfl)

/-- The registers of the device queue and the crash dumps (R336, R350). -/
def aonRegs : List Nat := [a_FQ_DEVHEAD, a_FQ_DEVTAIL, a_FQ_DEVOVF, a_FQ_DEVFATAL, a_MG_DUMPCNT] ++ (List.range 4).map a_MG_DUMPSTAT

theorem aonRegs_apart : ∀ a ∈ aonRegs, a_MG_BOOTSTAT ≠ a := by decide

/-- The device queue, the volatile log and the crash dumps come from another state. -/
def withAon (s old : State) : State := { s with devRing := old.devRing, devFatal := old.devFatal, volLog := old.volLog, dumps := old.dumps }

theorem keepAon_eq (s old : State) : s.keepAon old = aonRegs.foldl (fun t a => t.wr a (old.rd a)) (s.withAon old) := rfl

/-- What the device queue and the crash dumps keep tells nothing of the start. -/
theorem BringsUp.keepAon (s old : State) : BringsUp s (s.keepAon old) := by
  have haon : BringsUp s (s.withAon old) := .of_regs rfl rfl
  rw [keepAon_eq]
  exact haon.trans (.foldl aonRegs (fun t a ha => .wr t _ (aonRegs_apart a ha)) _)

/-- The straps are latched (R371, R406). -/
def latched (s : State) : State :=
  { s with
    pins := { s.pins with pwrGood := true }
    mg := { s.mg with strapMode := s.pins.modeSel, strapBoard := s.pins.boardTest } }

/-- The four keys of the root of trust (R386). -/
def rootKeys (s : State) : State := [6144, 6145, 6146, 6147].foldl (fun t k => t.newKey k) s

theorem rootKeys_eq (s : State) : ∃ keys next, s.rootKeys = { s with keys := keys, mg := { s.mg with keyNext := next } } := by
  unfold rootKeys
  induction [6144, 6145, 6146, 6147] generalizing s with
  | nil => exact ⟨s.keys, s.mg.keyNext, rfl⟩
  | cons k ks ih =>
    obtain ⟨keys, next, e⟩ := ih (s.newKey k)
    exact ⟨keys, next, e⟩

theorem keyAt_rootKeys {s : State} (h : s.keys = []) {i : Nat} (hi : i < 4) : s.rootKeys.keyAt (6144 + i) = s.mg.keyNext + i := by
  let n := s.mg.keyNext
  let put (m : Sparse Nat) (k v : Nat) : Sparse Nat := Sparse.put (fun _ => 0) m k v
  have hkeys : s.rootKeys.keys = put (put (put (put [] 6144 n) 6145 (n + 1)) 6146 (n + 2)) 6147 (n + 3) := by
    rw [← h]
    rfl
  have h1 : Sparse.wf (fun _ => 0) (put [] 6144 n) = true := Sparse.wf_put _ rfl
  have h2 : Sparse.wf (fun _ => 0) (put (put [] 6144 n) 6145 (n + 1)) = true := Sparse.wf_put _ h1
  have h3 : Sparse.wf (fun _ => 0) (put (put (put [] 6144 n) 6145 (n + 1)) 6146 (n + 2)) = true := Sparse.wf_put _ h2
  rw [keyAt, hkeys]
  interval_cases i
  · rw [Sparse.get_put_ne _ _ (by decide), Sparse.get_put_ne _ _ (by decide), Sparse.get_put_ne _ _ (by decide)]
    exact Sparse.get_put n rfl
  · rw [Sparse.get_put_ne _ _ (by decide), Sparse.get_put_ne _ _ (by decide)]
    exact Sparse.get_put (n + 1) (Sparse.wf_sorted h1)
  · rw [Sparse.get_put_ne _ _ (by decide)]
    exact Sparse.get_put (n + 2) (Sparse.wf_sorted h2)
  · exact Sparse.get_put (n + 3) (Sparse.wf_sorted h3)

/-- Besides its keys the root of trust measures and may re-open the part (R384, R394). -/
theorem BringsUp.rootStart (s : State) : BringsUp s.rootKeys s.rootStart := by
  unfold State.rootStart
  simp only
  refine BringsUp.trans (.trans (.extendMeasure _ 1 _) (.ite (.setFld _ _ _ (by decide)) (.refl _))) (.extendMeasure _ 6 _)

/-- What a cold start begins with. -/
structure Begun (s t : State) : Prop where
  mem : t.mem = []
  keys : t.keys = []
  good : t.pins.pwrGood = true
  test : t.pins.boardTest = s.pins.boardTest
  mode : t.mg.strapMode = s.pins.modeSel
  next : t.mg.keyNext = s.mg.keyNext
  regs : t.RegsWf

theorem latched_begun {s t : State} (b : BringsUp s.bare t) : Begun s t.latched := by
  have hpins : t.pins = s.pins := (congrArg State.pins b.beneath :)
  exact {
    mem := (congrArg State.mem b.beneath :)
    keys := (congrArg State.keys b.beneath :)
    good := rfl
    test := (congrArg Pins.boardTest hpins :)
    mode := (congrArg Pins.modeSel hpins :)
    next := (congrArg (fun u : State => u.mg.keyNext) b.beneath :)
    regs := b.regs s.regsWf_bare }

/-- In board test nothing more comes up. -/
def boardTested (t : State) : State := { t.setFld a_MG_CFG MG_CFG_BOARD_TEST 1 with mg := { t.mg with phase := 1 } }

theorem coldStart_eq (s : State) : s.coldStart =
    if (s.bare.keepAon s).latched.pins.boardTest then (s.bare.keepAon s).latched.boardTested
    else ((s.bare.keepAon s).latched.logEvent 371).rootStart.readFlash (s.bare.keepAon s).latched.pins.modeSel := rfl

/-- What a cold start leads to. -/
structure Cold (s t : State) : Prop where
  mem : t.mem = []
  good : t.pins.pwrGood = true
  mode : t.mg.strapMode = s.pins.modeSel

theorem Begun.boardTested {s t : State} (b : Begun s t) :
    Cold s t.boardTested ∧ t.boardTested.mg.phase = 1 ∧ t.boardTested.fld a_MG_CFG MG_CFG_BOARD_TEST = 1 :=
  ⟨⟨b.mem, b.good, b.mode⟩, rfl, b.regs.fld_setFld a_MG_CFG 1 ⟨by decide, by decide⟩⟩

theorem Begun.bringsUp {s t u : State} (b : Begun s t) (h : BringsUp t u) : Begun s u := by
  have hpins : u.pins = t.pins := (congrArg State.pins h.beneath :)
  exact {
    mem := (congrArg State.mem h.beneath :).trans b.mem
    keys := (congrArg State.keys h.beneath :).trans b.keys
    good := (congrArg Pins.pwrGood hpins).trans b.good
    test := (congrArg Pins.boardTest hpins).trans b.test
    mode := (congrArg (fun x : State => x.mg.strapMode) h.beneath :).trans b.mode
    next := (congrArg (fun x : State => x.mg.keyNext) h.beneath :).trans b.next
    regs := h.regs b.regs }

/-- With its keys made a device is as cold as before. -/
theorem Begun.rootKeys {s t : State} (b : Begun s t) : Cold s t.rootKeys := by
  obtain ⟨keys, next, e⟩ := t.rootKeys_eq
  rw [e]
  exact ⟨b.mem, b.good, b.mode⟩

theorem Cold.bringsUp {s t u : State} (c : Cold s t) (h : BringsUp t u) : Cold s u :=
  ⟨(congrArg State.mem h.beneath :).trans c.mem, (congrArg (fun x : State => x.pins.pwrGood) h.beneath :).trans c.good,
    (congrArg (fun x : State => x.mg.strapMode) h.beneath :).trans c.mode⟩

theorem Cold.inPhase {s t : State} (c : Cold s t) (p : Nat) (u : Bool) : Cold s (t.inPhase p u) := ⟨c.mem, c.good, c.mode⟩

theorem BringsUp.keyAt {s t : State} (b : BringsUp s t) (k : Nat) : t.keyAt k = s.keyAt k := (congrArg (fun x : State => x.keyAt k) b.beneath :)

theorem BringsUp.phase {s t : State} (b : BringsUp s t) : t.mg.phase = s.mg.phase := (congrArg (fun x : State => x.mg.phase) b.beneath :)

/-- Banjo comes up with the new keys of the root of trust. -/
theorem Begun.comesUp {s t : State} (b : Begun s t) (m : Nat) :
    Cold s (t.rootStart.readFlash m) ∧ ((t.rootStart.readFlash m).mg.phase = 1 ∨ (t.rootStart.readFlash m).mg.phase = 2) ∧
      ∀ i, i < 4 → (t.rootStart.readFlash m).keyAt (6144 + i) = s.mg.keyNext + i := by
  have hrooted := BringsUp.rootStart t
  obtain ⟨p, u, hp, hread⟩ := BringsUp.readFlash t.rootStart m
  have hphase : (t.rootStart.readFlash m).mg.phase = p := hread.phase
  refine ⟨((b.rootKeys.bringsUp hrooted).inPhase p u).bringsUp hread, hphase ▸ hp, fun i hi => ?_⟩
  calc (t.rootStart.readFlash m).keyAt (6144 + i) = t.rootStart.keyAt (6144 + i) := hread.keyAt _
    _ = t.rootKeys.keyAt (6144 + i) := hrooted.keyAt _
    _ = t.mg.keyNext + i := keyAt_rootKeys b.keys hi
    _ = s.mg.keyNext + i := by rw [b.next]

/-! ### Requests that are answered (R374, R379) -/

/-- An answer changes neither memory nor Banjo's restart, keeps the registers canonical, and frees its channel. -/
structure Answers (s t : State) (ch : Nat) : Prop where
  mem : t.mem = s.mem
  restart : t.mg.restart = s.mg.restart
  chans : t.chans = (s.setChan ch Chan.init).chans
  regs : s.RegsWf → t.RegsWf

theorem Answers.raiseMsix {s t : State} {ch : Nat} (a : Answers s t ch) (k n : Nat) : Answers s (t.raiseMsix k n) ch := by
  unfold State.raiseMsix
  split
  · simp only
    split
    · exact a
    · exact ⟨a.mem, a.restart, a.chans, a.regs⟩
  · obtain ⟨held, m, e⟩ := t.faultDev_eq cPROTO 7 208
    rw [e]
    exact ⟨a.mem, a.restart, a.chans, a.regs⟩

theorem Answers.raiseIrq {s t : State} {ch : Nat} (a : Answers s t ch) (n : Nat) : Answers s (t.raiseIrq n) ch := by
  unfold State.raiseIrq
  simp only
  obtain ⟨cs, e⟩ := signalIrq_eq (t.wr (a_HS_IRQPEND (n / 64)) (BitVec.ofNat 64 (natSetBit (t.rd (a_HS_IRQPEND (n / 64))).toNat (n % 64) true))) n
  rw [e]
  exact ⟨a.mem, a.restart, a.chans, fun h => (a.regs h).wr _ _⟩

theorem respond_answers (s : State) (ch code resp : Nat) (data : List Byte) : Answers s (s.respond ch code resp data) ch := by
  have hbytes (sram : Sparse Byte) : Answers s { s.setChan ch Chan.init with sram := sram } ch := ⟨rfl, rfl, rfl, id⟩
  unfold respond
  simp only
  split
  · exact ⟨rfl, rfl, rfl, id⟩
  split
  · split
    · exact (hbytes _).raiseMsix _ _
    · exact (hbytes _).raiseIrq _
  · exact hbytes _

/-! ### A lockstep mismatch (R374) -/

/-- A request in progress fails. -/
def failRequest (t : State) (ch : Nat) : State := if (t.chan ch).busy then t.reply ch mbFAILED else t

/-- From s to t requests have failed. -/
structure Fails (s t : State) : Prop where
  mem : t.mem = s.mem
  restart : t.mg.restart = s.mg.restart
  chans : Sparse.wf (fun _ => Chan.init) t.chans = true
  free : ∀ k, (s.chan k).busy = false → (t.chan k).busy = false

theorem failRequest_fails {s : State} (h : Sparse.wf (fun _ => Chan.init) s.chans = true) (ch : Nat) :
    Fails s (s.failRequest ch) ∧ ((s.failRequest ch).chan ch).busy = false := by
  unfold failRequest
  split
  · have a : Answers s (s.reply ch mbFAILED) ch := s.respond_answers ch mbFAILED 0 []
    have hchan (k : Nat) : (s.reply ch mbFAILED).chan k = (s.setChan ch Chan.init).chan k :=
      congrArg (fun cs => Sparse.get (fun _ => Chan.init) cs k) a.chans
    have hfreed : ((s.reply ch mbFAILED).chan ch).busy = false := by
      rw [hchan]
      exact congrArg Chan.busy (Sparse.get_put Chan.init (Sparse.wf_sorted h))
    refine ⟨⟨a.mem, a.restart, a.chans ▸ Sparse.wf_put _ h, fun k hk => ?_⟩, hfreed⟩
    by_cases hkc : k = ch
    · exact hkc ▸ hfreed
    · rw [hchan]
      exact (congrArg Chan.busy (Sparse.get_put_ne s.chans Chan.init hkc)).trans hk
  next hfree => exact ⟨⟨rfl, rfl, h, fun _ hk => hk⟩, Bool.not_eq_true _ ▸ hfree⟩

theorem foldl_failRequest {s : State} (h : Sparse.wf (fun _ => Chan.init) s.chans = true) (chs : List Nat) :
    Fails s (chs.foldl failRequest s) ∧ ∀ ch ∈ chs, ((chs.foldl failRequest s).chan ch).busy = false := by
  induction chs generalizing s with
  | nil => exact ⟨⟨rfl, rfl, h, fun _ hk => hk⟩, fun _ hc => absurd hc List.not_mem_nil⟩
  | cons c cs ih =>
    obtain ⟨hc, hfree⟩ := failRequest_fails h c
    obtain ⟨hrest, hall⟩ := ih hc.chans
    refine ⟨⟨hrest.mem.trans hc.mem, hrest.restart.trans hc.restart, hrest.chans, fun k hk => hrest.free k (hc.free k hk)⟩, ?_⟩
    intro k hk
    rcases List.mem_cons.mp hk with rfl | hin
    · exact hrest.free k hfree
    · exact hall k hin

/-- Both cores restart and every request fails. -/
theorem lockstep_fails {s : State} (h : Sparse.wf (fun _ => Chan.init) s.chans = true) :
    s.lockstep.mg.restart = s.now + 50000000 ∧ (∀ k, k < 4 → (s.lockstep.chan k).busy = false) ∧ s.lockstep.mem = s.mem := by
  let restarted : State := { s with mg := { s.mg with restart := s.now + 50000000 } }
  obtain ⟨held, n, e⟩ := restarted.faultDev_eq cPROTO 9 224
  have heq : s.lockstep = (List.range 4).foldl failRequest (restarted.faultDev cPROTO 9 224) := rfl
  obtain ⟨hfails, hfree⟩ := foldl_failRequest (s := restarted.faultDev cPROTO 9 224) (by rw [e]; exact h) (List.range 4)
  rw [heq]
  refine ⟨hfails.restart.trans ?_, fun k hk => hfree k (List.mem_range.mpr hk), hfails.mem.trans ?_⟩ <;> rw [e]

/-! ### Without power, and floors (R385, R405) -/

theorem rd_bare_floors (s : State) : s.bare.rd a_MG_FLOOR = s.rd a_MG_FLOOR ∧ s.bare.rd a_MG_LICFLOOR = s.rd a_MG_LICFLOOR := by
  have hfirst : Sparse.wf regReset (Sparse.put regReset [] a_MG_FLOOR (s.rd a_MG_FLOOR)) = true := Sparse.wf_put _ rfl
  refine ⟨?_, Sparse.get_put _ (Sparse.wf_sorted hfirst)⟩
  exact (Sparse.get_put_ne _ _ (by decide)).trans (Sparse.get_put _ rfl)

end State

/-- Settles O35: a warm reset by any cause, the cold start, the ways of losing power, and a lockstep mismatch. -/
theorem deviceResetsAndPower : Obligations.DeviceResetsAndPower := by
  unfold Obligations.DeviceResetsAndPower
  refine ⟨?register, ?request, ?pin, ?rise, ?good, ?fall, ?loss, ?trip, ?lockstep⟩
  case register =>
    intro who s h hg hphase
    exact ⟨_, next_gated warmRequest hg (if_pos hphase), warmReset_state h.regs⟩
  case request =>
    intro ch s h hserves
    refine ⟨_, congrArg Host.Outcome.next (if_pos hserves), warmReset_state ?_⟩
    exact (s.respond_answers (chanOf ch) mbOK 0 []).regs h.regs
  case pin =>
    intro s h hhigh hphase
    let low : State := { s with pins := { s.pins with warmRstN := false } }
    have hlow : low.warmStart.pins.warmRstN = false := congrArg Pins.warmRstN low.pins_warmStart
    have hheld : low.warmReset false = low.warmStart.heldReset := by rw [warmReset_eq, hlow]; rfl
    have hexec : exec .warmRstN s = .next (low.warmReset false) := by
      refine congrArg Host.Outcome.next ?_
      simp only [hhigh, Bool.not_true, Bool.false_eq_true, if_false, if_pos hphase]
      rfl
    exact ⟨_, hexec, warmReset_state (s := low) h.regs, congrArg Pins.warmRstN (low.pins_warmReset false), by rw [hheld]; rfl⟩
  case rise =>
    intro s hlow
    let high : State := { s with pins := { s.pins with warmRstN := true } }
    have hexec : exec .warmRstNRise s = .next (if s.mg.warmHeld then high.resume else high) := by
      refine congrArg Host.Outcome.next ?_
      simp only [hlow, Bool.false_eq_true, if_false]
      rfl
    refine ⟨_, hexec, ?_⟩
    by_cases hheld : s.mg.warmHeld = true
    · obtain ⟨p, u, b⟩ := BringsUp.resume high
      rw [if_pos hheld]
      exact ⟨congrArg Pins.warmRstN high.pins_resume, (congrArg (fun x : State => x.mg.warmHeld) b.beneath :),
        (congrArg State.mem b.beneath :), fun hfree => absurd (hfree.symm.trans hheld) Bool.false_ne_true⟩
    · rw [if_neg hheld]
      exact ⟨rfl, Bool.not_eq_true _ ▸ hheld, rfl, fun _ => rfl⟩
  case good =>
    intro s hoff
    have hexec : exec .pwrGoodRise s = .next s.coldStart := congrArg Host.Outcome.next (if_neg (hoff ▸ Bool.false_ne_true))
    have begun := latched_begun (BringsUp.keepAon s.bare s)
    refine ⟨_, hexec, ?_⟩
    rw [coldStart_eq, begun.test]
    cases htest : s.pins.boardTest with
    | true =>
      obtain ⟨cold, hphase, hcfg⟩ := begun.boardTested
      exact ⟨cold.good, cold.mode, cold.mem, fun _ => ⟨hphase, hcfg⟩, fun h => absurd h.symm Bool.false_ne_true⟩
    | false =>
      obtain ⟨cold, hphase, hkeys⟩ := (begun.bringsUp (.logEvent _ 371)).comesUp (s.bare.keepAon s).latched.pins.modeSel
      exact ⟨cold.good, cold.mode, cold.mem, fun h => absurd h Bool.false_ne_true, fun _ => ⟨hphase, hkeys⟩⟩
  case fall =>
    intro s h hgood
    have off := (allOff_off h).shown { s.allOff.pins with pwrGood := false } (mg := { s.allOff.mg with tripped := false }) rfl
    have hexec : exec .pwrGoodFall s = .next { s.allOff with
        pins := { s.allOff.pins with pwrGood := false }, mg := { s.allOff.mg with tripped := false } } := by
      refine congrArg Host.Outcome.next ?_
      simp only [goodFall, hgood, Bool.not_true, Bool.false_eq_true, if_false]
    exact ⟨_, hexec, rfl, off.phase, off.doms, off.mem, off.ctxs, off.flash⟩
  case loss =>
    intro s
    obtain ⟨hfloor, hlicence⟩ := s.rd_bare_floors
    exact ⟨_, rfl, rfl, rfl, rfl, rfl, rfl, rfl, hfloor, hlicence⟩
  case trip =>
    intro k raw s h hhot hsmall hphase
    let r : FRec := { s.record cTHERMAL with fatal := true, die := if k.val < 192 then k.val / 32 else 6, info0 := raw }
    have off := (allOff_off (s.fault_device_fatal (r := r) rfl 0 h).1).shown (s.fault .device r).allOff.pins
      (mg := { (s.fault .device r).allOff.mg with tripped := true }) rfl
    have hexec : exec (.thermalTrip k raw) s =
        .next { (s.fault .device r).allOff with mg := { (s.fault .device r).allOff.mg with tripped := true } } := by
      have hgo : (decide (raw < 1760) || decide (32768 ≤ raw) || s.mg.phase == 0) = false := by
        simp only [Bool.or_eq_false_iff, decide_eq_false_iff_not, beq_eq_false_iff_ne]
        exact ⟨⟨by omega, by omega⟩, hphase⟩
      refine congrArg Host.Outcome.next ?_
      simp only [trip, hgo, Bool.false_eq_true, if_false, r]
    exact ⟨_, hexec, rfl, off.phase, off.doms, off.mem⟩
  case lockstep =>
    intro s h hflag hphase
    have hgo : (s.flag a_MG_CFG MG_CFG_LOCKSTEP && s.mg.phase == 2) = true := by rw [hflag, hphase]; rfl
    exact ⟨_, congrArg Host.Outcome.next (if_pos hgo), lockstep_fails h.chans⟩

end Sys2Proof.Machine
end

section
/-! PROOFS. The lines and the open requests of caching agents, and what a miss sends (R225, R230, R231, R244, R249). -/

namespace Sys2Proof.Machine

open State

/-- A key that reads as another value than the default is listed with what it reads. -/
theorem Sparse.mem_of_get_ne {V : Type} [DecidableEq V] {d : Nat → V} {m : Sparse V} {k : Nat} (h : Sparse.wf d m = true)
    (hk : Sparse.get d m k ≠ d k) : (k, Sparse.get d m k) ∈ m := by
  have hlisted : m.any (fun e => e.1 == k) = true := Bool.not_eq_false _ ▸ fun hn => hk (Sparse.get_of_not_any hn)
  obtain ⟨e, he, hkey⟩ := List.any_eq_true.mp hlisted
  obtain rfl : e.1 = k := by simpa using hkey
  rwa [Sparse.get_of_mem h he]

/-- A line apart from whether it lies in the L1D. -/
def Line.bare (l : Line) : Line := { l with l1 := false }

namespace State

section
variable {s t : State} {a u : Nat}

/-! ### Agents -/

/-- The caching agents are in canonical form. -/
def AgentsWf (s : State) : Prop := Sparse.wf (fun _ => Agent.init) s.agents = true

theorem AgentsWf.modAgent (h : s.AgentsWf) (a : Nat) (f : Agent → Agent) : (s.modAgent a f).AgentsWf := Sparse.wf_put _ h

theorem AgentsWf.of_eq (h : s.AgentsWf) (e : t.agents = s.agents) : t.AgentsWf := (congrArg (Sparse.wf _) e).trans h

theorem agent_modAgent (f : Agent → Agent) (h : s.AgentsWf) : (s.modAgent a f).agent a = f (s.agent a) := agent_setAgent_of_wf _ h

theorem agent_modAgent_ne (f : Agent → Agent) {k : Nat} (hk : k ≠ a) : (s.modAgent a f).agent k = s.agent k := agent_setAgent_ne _ hk

theorem agent_of_agents (e : t.agents = s.agents) (k : Nat) : t.agent k = s.agent k :=
  congrArg (fun m => Sparse.get (fun _ => Agent.init) m k) e

theorem lineOf_of_agents (e : t.agents = s.agents) (k w : Nat) : t.lineOf k w = s.lineOf k w := by
  rw [lineOf, agent_of_agents e, lineOf]

/-! ### A request that an agent opens -/

/-- A request of an agent as it is opened. -/
def newMiss (u code key cls queue : Nat) (l1 held : Bool) : Miss :=
  { addr := u, req := code, key := key, naks := 0, urgent := false, waiting := false, cls := cls, loads := [], l1 := l1, queue := queue,
    held := held }

/-- An agent notes an open request. -/
def noteMiss (s : State) (a : Nat) (m : Miss) : State := s.modAgent a (fun x => { x with misses := x.misses ++ [m] })

theorem sendReq_open {code key cls queue : Nat} {l1 : Bool} (h : (s.missOf a u).isSome = true) :
    s.sendReq a u code key cls queue l1 = s := by
  simp only [sendReq, openMiss, h, if_true, Bool.false_eq_true, if_false]

/-- A request that is new is noted, and leaves where nothing of its queue is before it (R230). -/
theorem sendReq_new {code key cls queue : Nat} {l1 : Bool} (h : s.missOf a u = none) :
    s.sendReq a u code key cls queue l1 =
      { s.noteMiss a (newMiss u code key cls queue l1 (s.mustQueue a u)) with
        net := s.net ++ if s.mustQueue a u then [] else [.req (homeOf u) a u code false] } := by
  simp only [sendReq, openMiss, h, Option.isSome_none, Bool.false_eq_true, if_false, newMiss]
  cases s.mustQueue a u with
  | true =>
    simp only [Bool.not_true, Bool.false_eq_true, if_false, if_true, List.append_nil]
    rfl
  | false => rfl

theorem missOf_noteMiss (m : Miss) (h : s.AgentsWf) (hnone : s.missOf a m.addr = none) : (s.noteMiss a m).missOf a m.addr = some m := by
  have hagent : (s.noteMiss a m).agent a = { s.agent a with misses := (s.agent a).misses ++ [m] } := agent_modAgent _ h
  rw [missOf] at hnone
  rw [missOf, hagent, List.find?_append, hnone, Option.none_or]
  simp

/-- From s to t requests are noted and sent; no line of any agent changes, and nothing outside the agents and the network. -/
structure Requests (s t : State) : Prop where
  rest : { t with agents := s.agents, net := s.net } = s
  agents : s.AgentsWf → t.AgentsWf
  lines : s.AgentsWf → ∀ k, (t.agent k).lines = (s.agent k).lines
  net : s.net ⊆ t.net

theorem Requests.refl (s : State) : Requests s s := ⟨rfl, id, fun _ _ => rfl, List.Subset.refl _⟩

theorem Requests.trans {x : State} (h : Requests s t) (g : Requests t x) : Requests s x where
  rest := (congrArg (fun y : State => { y with agents := s.agents, net := s.net }) g.rest).trans h.rest
  agents hs := g.agents (h.agents hs)
  lines hs k := (g.lines (h.agents hs) k).trans (h.lines hs k)
  net _ hm := g.net (h.net hm)

theorem Requests.lineOf (r : Requests s t) (h : s.AgentsWf) (k w : Nat) : t.lineOf k w = s.lineOf k w := by
  rw [State.lineOf, r.lines h, State.lineOf]

/-- A change of an agent's requests alone. -/
theorem Requests.modAgent (s : State) (a : Nat) {f : Agent → Agent} (hf : ∀ x, (f x).lines = x.lines) : Requests s (s.modAgent a f) where
  rest := rfl
  agents h := h.modAgent a f
  lines h k := by
    by_cases hk : k = a
    · subst hk
      rw [agent_modAgent f h, hf]
    · rw [agent_modAgent_ne f hk]
  net := List.Subset.refl _

theorem Requests.sendReq (s : State) (a u code key cls queue : Nat) (l1 : Bool) : Requests s (s.sendReq a u code key cls queue l1) := by
  cases hm : s.missOf a u with
  | some m =>
    rw [sendReq_open (hm ▸ rfl)]
    exact .refl s
  | none =>
    rw [sendReq_new hm]
    have hnoted : Requests s (s.noteMiss a (newMiss u code key cls queue l1 (s.mustQueue a u))) := .modAgent s a (fun _ => rfl)
    exact ⟨rfl, hnoted.agents, hnoted.lines, List.subset_append_left _ _⟩

/-- The requests of every other agent stay. -/
theorem missOf_sendReq_ne {k w code key cls queue : Nat} {l1 : Bool} (hk : k ≠ a) :
    (s.sendReq a u code key cls queue l1).missOf k w = s.missOf k w := by
  cases hm : s.missOf a u with
  | some m => rw [sendReq_open (hm ▸ rfl)]
  | none =>
    rw [sendReq_new hm]
    have hother : (s.noteMiss a (newMiss u code key cls queue l1 (s.mustQueue a u))).agent k = s.agent k := agent_modAgent_ne _ hk
    exact (congrArg (fun x : Agent => x.misses.find? (fun m => m.addr == w)) hother :)

/-- A core with a request open for a line has its queue at the slice taken. -/
theorem missOf_none_of_mustQueue (ha : a < 96) (h : s.mustQueue a u = false) : s.missOf a u = none := by
  simp only [mustQueue, decide_eq_true ha, Bool.true_and, Bool.or_eq_false_iff, missing, queued] at h
  obtain ⟨⟨⟨hout, -⟩, hheld⟩, -⟩ := h
  refine List.find?_eq_none.mpr (fun m hm hu => ?_)
  obtain rfl : m.addr = u := by simpa using hu
  have hfree := List.any_eq_false.mp hout m hm
  have hwait := List.any_eq_false.mp hheld m hm
  cases hm : m.held <;> simp [hm] at hfree hwait

/-! ### A miss of a core -/

/-- A line that a core holds under the key of its access does not go first. -/
theorem missLine_keeps {code key : Nat} {l1 : Bool} (hu : u < remoteBase) (hkey : ∀ l, s.lineOf a u = some l → l.key = key) :
    s.missLine a u code key l1 =
      let t := s.sendReq a u code key (s.quadOf a) a l1
      if code = rqRdS && (t.missOf a u).any (fun m => !m.held) && t.mayAllocate (s.quadOf a) u && (t.lineOf (96 + sliceOf u) u).isNone then
        t.sendReq (96 + sliceOf u) u rqRdS key (s.quadOf a) a false
      else t := by
  have hnone : (s.lineOf a u).filter (fun l => l.key != key && s.canLeave l) = none := by
    cases hl : s.lineOf a u with
    | none => rfl
    | some l => simp [Option.filter, hkey l hl]
  simp only [missLine, hnone, if_neg (Nat.not_le.mpr hu)]

/-- What a core's miss leaves: the request is noted, and sent where nothing of its queue is before it. -/
structure Missed (s t : State) (c u code : Nat) (m : Miss) : Prop extends Requests s t where
  noted : t.missOf c u = some m
  sent : m.held = false → .req (homeOf u) c u code false ∈ t.net
  waits : m.held = true → t.net = s.net

/-- A core's miss of a line for which it has no request yet. -/
theorem missLine_missed {code key : Nat} {l1 : Bool} (h : s.AgentsWf) (ha : a < 96) (hu : u < remoteBase)
    (hkey : ∀ l, s.lineOf a u = some l → l.key = key) (hnone : s.missOf a u = none) :
    Missed s (s.missLine a u code key l1) a u code (newMiss u code key (s.quadOf a) a l1 (s.mustQueue a u)) := by
  let m := newMiss u code key (s.quadOf a) a l1 (s.mustQueue a u)
  have hnew := sendReq_new (code := code) (key := key) (cls := s.quadOf a) (queue := a) (l1 := l1) hnone
  have hown : Missed s (s.sendReq a u code key (s.quadOf a) a l1) a u code m := by
    refine ⟨.sendReq s _ _ _ _ _ _ _, ?_, fun hfree => ?_, fun hheld => ?_⟩
    · rw [hnew]
      exact missOf_noteMiss (s := s) m h hnone
    · have hq : s.mustQueue a u = false := hfree
      rw [hnew, hq]
      exact List.mem_append_right _ (List.mem_singleton_self _)
    · have hq : s.mustQueue a u = true := hheld
      rw [hnew, hq]
      exact List.append_nil _
  rw [missLine_keeps hu hkey]
  simp only
  split
  next hslice =>
    have hfree : m.held = false := by
      simp only [hown.noted, Option.any_some, Bool.and_eq_true, Bool.not_eq_true'] at hslice
      exact hslice.1.1.2
    have hsend := Requests.sendReq (s.sendReq a u code key (s.quadOf a) a l1) (96 + sliceOf u) u rqRdS key (s.quadOf a) a false
    exact ⟨hown.toRequests.trans hsend, (missOf_sendReq_ne (by omega)).trans hown.noted, fun hf => hsend.net (hown.sent hf),
      fun hheld => absurd (hfree.symm.trans hheld) Bool.false_ne_true⟩
  · exact hown

/-! ### The L1D (R225) -/

/-- What the L1D makes of a line of its L2: the line u is in it, and the line that gave up its way is not. -/
def markLine (u : Nat) (out : Option Line) (k : Line) : Line :=
  if k.addr = u then { k with l1 := true } else if out.any (fun o => o.addr == k.addr) then { k with l1 := false } else k

theorem markLine_bare (u : Nat) (out : Option Line) (k : Line) : (markLine u out k).bare = k.bare := by
  unfold markLine
  split
  · rfl
  · split <;> rfl

theorem markLine_addr (u : Nat) (out : Option Line) (k : Line) : (markLine u out k).addr = k.addr :=
  (congrArg Line.addr (markLine_bare u out k) :)

theorem markL1_eq (s : State) (a u : Nat) :
    ∃ out n, s.markL1 a u = ({ s with fresh := n } : State).modAgent a (fun x => { x with lines := x.lines.map (markLine u out) }) :=
  ⟨_, _, rfl⟩

/-- A line brought into the L1D is the line it was, and every line of every agent is but for its place in an L1D. -/
theorem lineOf_markL1 (h : s.AgentsWf) :
    (s.markL1 a u).lineOf a u = (s.lineOf a u).map (fun l => { l with l1 := true }) ∧
      ∀ k w, ((s.markL1 a u).lineOf k w).map Line.bare = (s.lineOf k w).map Line.bare := by
  obtain ⟨out, n, e⟩ := s.markL1_eq a u
  have hown (w : Nat) : (s.markL1 a u).lineOf a w = (s.lineOf a w).map (markLine u out) := by
    have hagent : (s.markL1 a u).agent a = { s.agent a with lines := (s.agent a).lines.map (markLine u out) } := by
      rw [e]
      exact agent_modAgent (s := { s with fresh := n }) _ h
    rw [lineOf, hagent, List.find?_map]
    simp only [Function.comp_def, markLine_addr, lineOf]
  refine ⟨?_, fun k w => ?_⟩
  · rw [hown]
    refine Option.map_congr (fun l hl => ?_)
    rw [markLine, if_pos (addr_of_lineOf hl)]
  · by_cases hk : k = a
    · subst hk
      rw [hown, Option.map_map]
      exact Option.map_congr (fun l _ => markLine_bare u out l)
    · have hother : (s.markL1 a u).agent k = s.agent k := by
        rw [e]
        exact agent_modAgent_ne (s := { s with fresh := n }) _ hk
      rw [lineOf, hother, lineOf]

end

end State

end Sys2Proof.Machine
end

section
/-! PROOFS. Cache hints and cache maintenance (R236, R237). -/

namespace Sys2Proof.Machine

open State

/-- An agent without a line. -/
def Agent.without (x : Agent) (u : Nat) : Agent := { x with lines := x.lines.filter (fun l => l.addr != u) }

namespace State

section
variable {s t : State} {a u c : Nat}

/-! ### Hints (R236) -/

/-- A hint for a line that the core's L2 lacks misses it. -/
theorem touch_absent {addr : Nat} {attr : MemAttr} (exclusive l1 : Bool) (hup : s.coreUp c = true) (htarget : s.touchable c addr attr = true)
    (hqueue : s.queueBusy c (addr / 64 * 64) = false) (hline : s.lineOf c (addr / 64 * 64) = none) :
    s.touch c addr attr exclusive l1 =
      s.missLine c (addr / 64 * 64) (if exclusive then rqRdX else rqRdS) (s.core c).key l1 := by
  simp only [touch, hup, htarget, hqueue, hline, Option.filter_none, Bool.not_true, Bool.or_false, Bool.false_eq_true, if_false]

/-- A hint for a line that the core holds in E or M brings it to the L1D, where it is wanted there. -/
theorem touch_held {addr : Nat} {attr : MemAttr} {l : Line} (exclusive l1 : Bool) (hup : s.coreUp c = true)
    (htarget : s.touchable c addr attr = true) (hqueue : s.queueBusy c (addr / 64 * 64) = false)
    (hline : s.lineOf c (addr / 64 * 64) = some l) (hkey : l.key = (s.core c).key) (hst : l.st ≠ .s) :
    s.touch c addr attr exclusive l1 = if l1 && !l.l1 then s.markL1 c (addr / 64 * 64) else s := by
  have howned : (exclusive && l.st == .s) = false := by rw [beq_false_of_ne hst, Bool.and_false]
  have hfound : (some l).filter (fun l => l.key == (s.core c).key) = some l := by simp [Option.filter, hkey]
  simp only [touch, hup, htarget, hqueue, hline, hfound, howned, Bool.not_true, Bool.or_false, Bool.false_eq_true, if_false]

/-- The line of a hint after it. -/
theorem lineOf_touched {l : Line} (l1 : Bool) (h : s.AgentsWf) (hline : s.lineOf c u = some l) :
    (if l1 && !l.l1 then s.markL1 c u else s).lineOf c u = some { l with l1 := l.l1 || l1 } := by
  cases hin : l.l1 with
  | true =>
    have hsame : ({ l with l1 := true } : Line) = l := by rw [← hin]
    simp only [Bool.not_true, Bool.and_false, Bool.false_eq_true, if_false, Bool.true_or, hsame, hline]
  | false =>
    cases l1 with
    | true =>
      simp only [Bool.not_false, Bool.and_self, if_true, Bool.or_true, (lineOf_markL1 h).1, hline, Option.map_some]
    | false =>
      have hsame : ({ l with l1 := false } : Line) = l := by rw [← hin]
      simp only [Bool.false_and, Bool.false_eq_true, if_false, Bool.or_self, hsame, hline]

/-- A hint to the system cache sends the slice's own request (R236). -/
theorem touchSlice_sends {addr : Nat} {attr : MemAttr} (hup : s.coreUp c = true) (haddr : addr < remoteBase)
    (htarget : s.touchable c addr attr = true) (hqueue : s.queueBusy c (addr / 64 * 64) = false)
    (hway : s.mayAllocate (s.quadOf c) (addr / 64 * 64) = true) (hline : s.lineOf (96 + sliceOf (addr / 64 * 64)) (addr / 64 * 64) = none)
    (hmiss : s.missOf (96 + sliceOf (addr / 64 * 64)) (addr / 64 * 64) = none) :
    s.touchSlice c addr attr =
      let g := 96 + sliceOf (addr / 64 * 64)
      { s.noteMiss g (newMiss (addr / 64 * 64) rqRdS (s.core c).key (s.quadOf c) c false false) with
        net := s.net ++ [.req (homeOf (addr / 64 * 64)) g (addr / 64 * 64) rqRdS false] } := by
  have hnear : ¬ remoteBase ≤ addr / 64 * 64 := by omega
  have hfree : s.mustQueue (96 + sliceOf (addr / 64 * 64)) (addr / 64 * 64) = false := by
    rw [mustQueue, decide_eq_false (by omega), Bool.false_and]
  simp only [touchSlice, hup, htarget, hqueue, hway, hline, hnear, Option.isSome_none, Bool.not_true, Bool.or_false, Bool.false_eq_true,
    if_false, sendReq_new hmiss, hfree]

/-! ### Copies that leave -/

theorem dirLeave_eq (s : State) (h a u : Nat) : ∃ hs, s.dirLeave h a u = { s with homes := hs } := by
  unfold dirLeave
  simp only
  repeat' split
  all_goals exact ⟨_, rfl⟩

theorem dropLine_eq (s : State) (a u : Nat) :
    ∃ ks, s.dropLine a u = { s.modAgent a (fun x => Agent.without x u) with slices := ks } := by
  unfold dropLine
  simp only
  split <;> exact ⟨_, rfl⟩

/-- An agent that gives up a line changes besides the directory of its home, and the way in a slice. -/
theorem forgetLine_eq (s : State) (a u : Nat) :
    ∃ ks hs, s.forgetLine a u = { s.modAgent a (fun x => Agent.without x u) with slices := ks, homes := hs } := by
  obtain ⟨ks, hdrop⟩ := s.dropLine_eq a u
  unfold forgetLine
  simp only
  split
  · exact ⟨ks, _, hdrop⟩
  · obtain ⟨hs, hleave⟩ := (s.dropLine a u).dirLeave_eq (homeOf u) a u
    exact ⟨ks, hs, hleave.trans (by rw [hdrop])⟩

theorem agents_modAgent (e : t.agents = s.agents) (f : Agent → Agent) : (t.modAgent a f).agents = (s.modAgent a f).agents := by
  simp only [modAgent, setAgent, agent_of_agents e, e]

theorem agents_forgetLine (s : State) (a u : Nat) : (s.forgetLine a u).agents = (s.modAgent a (fun x => Agent.without x u)).agents := by
  obtain ⟨ks, hs, e⟩ := s.forgetLine_eq a u
  rw [e]

/-! ### A line that is written back changes no cache -/

theorem agents_of_unreported (h : t.unreported = s.unreported) : t.agents = s.agents := (congrArg State.agents h :)

@[simp] theorem agents_flushLine (s : State) (l : Line) : (s.flushLine l).agents = s.agents := by
  unfold flushLine
  split
  · exact agents_of_unreported (unreported_reportSec s _ _)
  · rfl

theorem agents_sendCore_store (s : State) (a kind pa len poison flag : Nat) (data : List Byte) :
    (s.sendCore a kind pa len poison flag crSTORE data).agents = s.agents := by
  unfold sendCore
  simp only
  split
  · obtain ⟨m, e⟩ := s.unreported_linkFault coresPP (pa / 2 ^ 45) 0
    exact (congrArg State.agents e :)
  · rfl

@[simp] theorem agents_writeHome (s : State) (c : Nat) (l : Line) : (s.writeHome c l).agents = s.agents := by
  unfold writeHome
  split
  · exact s.agents_sendCore_store _ _ _ _ _ _ _
  split
  · exact s.agents_flushLine l
  split
  · exact (SameView.faultCore s _ _ _ _).agents
  · rfl

/-! ### Cache maintenance (R237) -/

/-- What a maintenance command does to one copy. -/
def maintain (c : Nat) (keep clean : Bool) (t : State) (x : Nat × Line) : State :=
  let dirty := x.2.st == LineState.m
  let t := if dirty && clean then t.writeHome c x.2 else t
  if keep then (if dirty && clean then t.putLine x.1 { x.2 with st := .e } else t) else t.forgetLine x.1 x.2.addr

/-- The command of a free core acts on every copy that it covers, where nothing is under way for one. -/
theorem cmo_acts {addr : Nat} {scope : CmoScope} (keep clean : Bool) (hbuf : (s.core c).buf = [])
    (hcalm : s.cmoBusy (cmoRange addr scope).1 (cmoRange addr scope).2 = false) :
    s.cmo c addr scope .normalWb keep clean =
      (s.covered (cmoRange addr scope).1 (cmoRange addr scope).2).foldl (maintain c keep clean) s := by
  simp only [cmo, hbuf, hcalm, beq_self_eq_true, Bool.true_or, Bool.not_true, Bool.false_eq_true, if_false, List.isEmpty_nil, if_true]
  rfl

/-- The copies that a range covers. -/
theorem mem_covered {lo hi k : Nat} {l : Line} (h : s.AgentsWf) :
    (k, l) ∈ s.covered lo hi ↔ l ∈ (s.agent k).lines ∧ lo ≤ l.addr ∧ l.addr < hi := by
  simp only [covered, List.mem_flatMap, List.mem_map, List.mem_filter, Bool.and_eq_true, decide_eq_true_eq]
  constructor
  · rintro ⟨e, he, v, ⟨hv, hrange⟩, hpair⟩
    obtain ⟨rfl, rfl⟩ := Prod.mk.inj hpair
    have hagent : s.agent e.1 = e.2 := Sparse.get_of_mem h he
    exact ⟨hagent ▸ hv, hrange⟩
  · rintro ⟨hl, hrange⟩
    have hlisted : s.agent k ≠ Agent.init := fun hinit => by
      rw [hinit] at hl
      exact absurd hl List.not_mem_nil
    exact ⟨_, Sparse.mem_of_get_ne h hlisted, l, ⟨hl, hrange⟩, rfl⟩

/-! ### INV and CLINV -/

/-- A copy of an agent is one of some copies. -/
def among (xs : List (Nat × Line)) (k v : Nat) : Bool := xs.any (fun x => x.1 == k && x.2.addr == v)

/-- Commands that keep no copy take the copies they cover from every agent, and no other line. -/
theorem lines_withdrawn {clean : Bool} (xs : List (Nat × Line)) (h : s.AgentsWf) (k : Nat) :
    ((xs.foldl (maintain c false clean) s).agent k).lines = (s.agent k).lines.filter (fun l => !among xs k l.addr) := by
  induction xs generalizing s with
  | nil => simp [among]
  | cons x xs ih =>
    have hagents : (maintain c false clean s x).agents = (s.modAgent x.1 (fun y => Agent.without y x.2.addr)).agents := by
      simp only [maintain, Bool.false_eq_true, if_false, agents_forgetLine]
      split
      · exact agents_modAgent (s.agents_writeHome c x.2) _
      · rfl
    have hwf : (maintain c false clean s x).AgentsWf := (h.modAgent _ _).of_eq hagents
    have hrest (l : Line) : (!among (x :: xs) k l.addr) = (!among xs k l.addr && !(x.1 == k && x.2.addr == l.addr)) := by
      simp [among, Bool.and_comm]
    rw [List.foldl_cons, ih hwf, agent_of_agents hagents]
    by_cases hk : k = x.1
    · subst hk
      rw [agent_modAgent _ h, Agent.without, List.filter_filter]
      refine List.filter_congr (fun l _ => ?_)
      rw [hrest, beq_self_eq_true, Bool.true_and, bne, BEq.comm]
    · rw [agent_modAgent_ne _ hk]
      refine List.filter_congr (fun l _ => ?_)
      rw [hrest, beq_false_of_ne (Ne.symm hk), Bool.false_and, Bool.not_false, Bool.and_true]

/-- No copy that the command covers is left, and every other line is where it was. -/
theorem covered_withdrawn {clean : Bool} (h : s.AgentsWf) (lo hi : Nat) :
    (∀ k, ∀ l ∈ (((s.covered lo hi).foldl (maintain c false clean) s).agent k).lines, ¬ (lo ≤ l.addr ∧ l.addr < hi)) ∧
      ∀ k v, v < lo ∨ hi ≤ v → ((s.covered lo hi).foldl (maintain c false clean) s).lineOf k v = s.lineOf k v := by
  refine ⟨fun k l hl hin => ?_, fun k v hout => ?_⟩
  · rw [lines_withdrawn _ h, List.mem_filter] at hl
    obtain ⟨hheld, hleft⟩ := hl
    have hamong : among (s.covered lo hi) k l.addr = true :=
      List.any_eq_true.mpr ⟨(k, l), (mem_covered h).mpr ⟨hheld, hin⟩, by simp⟩
    rw [hamong] at hleft
    exact absurd hleft (by decide)
  · have hnot : among (s.covered lo hi) k v = false := by
      refine List.any_eq_false.mpr (fun x hx hkv => ?_)
      obtain ⟨-, hlo, hhi⟩ := (mem_covered (k := x.1) (l := x.2) h).mp hx
      simp only [Bool.and_eq_true, beq_iff_eq] at hkv
      omega
    rw [lineOf, lines_withdrawn _ h, List.find?_filter, lineOf]
    congr 1
    funext l
    by_cases hl : l.addr = v
    · simp [hl, hnot]
    · simp [hl]

/-- Copies that leave without a write-back change neither memory nor registers. -/
theorem withdrawn_frame (xs : List (Nat × Line)) :
    (xs.foldl (maintain c false false) s).mem = s.mem ∧ (xs.foldl (maintain c false false) s).regs = s.regs := by
  induction xs generalizing s with
  | nil => exact ⟨rfl, rfl⟩
  | cons x xs ih =>
    obtain ⟨ks, hs, e⟩ := s.forgetLine_eq x.1 x.2.addr
    have hstep : maintain c false false s x = s.forgetLine x.1 x.2.addr := by
      simp only [maintain, Bool.and_false, Bool.false_eq_true, if_false]
    obtain ⟨hmem, hregs⟩ := ih (s := maintain c false false s x)
    rw [List.foldl_cons, hmem, hregs, hstep, e]
    exact ⟨rfl, rfl⟩

/-! ### CLEAN -/

theorem maintain_clean_dirty {x : Nat × Line} (hx : x.2.st = .m) :
    maintain c true true s x = (s.writeHome c x.2).putLine x.1 { x.2 with st := .e } := by
  simp only [maintain, hx, beq_self_eq_true, Bool.and_self, if_true]

theorem maintain_clean_other {x : Nat × Line} (hx : x.2.st ≠ .m) : maintain c true true s x = s := by
  simp only [maintain, beq_false_of_ne hx, Bool.false_and, Bool.false_eq_true, if_false, if_true]

/-- From s to t copies have been cleaned: they are where they were, and of the dirty lines those in the list are gone. -/
structure Cleaned (s t : State) (xs : List (Nat × Line)) : Prop where
  others : ∀ k v, (∀ x ∈ xs, x.2.addr ≠ v) → t.lineOf k v = s.lineOf k v
  present : ∀ k v, (t.lineOf k v).isSome = (s.lineOf k v).isSome
  dirty : ∀ k, ∀ l ∈ (t.agent k).lines, l.st = .m → l ∈ (s.agent k).lines ∧ (k, l) ∉ xs

/-- One copy is cleaned: a dirty one is in E afterwards (R237). -/
theorem maintain_cleaned (h : s.AgentsWf) {x : Nat × Line} (hx : (s.lineOf x.1 x.2.addr).isSome = true) :
    Cleaned s (maintain c true true s x) [x] ∧ (maintain c true true s x).AgentsWf := by
  by_cases hm : x.2.st = .m
  · have hwf : (s.writeHome c x.2).AgentsWf := h.of_eq (s.agents_writeHome c x.2)
    have hline (k v : Nat) : (s.writeHome c x.2).lineOf k v = s.lineOf k v := lineOf_of_agents (s.agents_writeHome c x.2) k v
    have hagent (k : Nat) : (s.writeHome c x.2).agent k = s.agent k := agent_of_agents (s.agents_writeHome c x.2) k
    have hplaced := lineOf_putLine (c := x.1) { x.2 with st := .e } hwf
    have hother {k v : Nat} (hne : k ≠ x.1 ∨ v ≠ x.2.addr) :
        ((s.writeHome c x.2).putLine x.1 { x.2 with st := .e }).lineOf k v = s.lineOf k v :=
      (lineOf_putLine_ne { x.2 with st := .e } hwf hne).trans (hline k v)
    rw [maintain_clean_dirty hm]
    refine ⟨⟨fun k v hne => hother (.inr (hne x (List.mem_singleton_self x)).symm), fun k v => ?_, fun k l hl hst => ?_⟩,
      hwf.modAgent _ _⟩
    · by_cases hkv : k = x.1 ∧ v = x.2.addr
      · obtain ⟨rfl, rfl⟩ := hkv
        rw [hx]
        exact congrArg Option.isSome hplaced
      · rw [hother (by omega)]
    · by_cases hk : k = x.1
      · subst hk
        rw [lines_putLine _ hwf, hagent, List.mem_append, List.mem_filter, List.mem_singleton] at hl
        rcases hl with ⟨hheld, hne⟩ | rfl
        · refine ⟨hheld, fun hin => ?_⟩
          have heq : (x.1, l) = x := List.mem_singleton.mp hin
          rw [← heq] at hne
          simp at hne
        · cases hst
      · rw [putLine, agent_modAgent_ne _ hk, hagent] at hl
        exact ⟨hl, fun hin => hk (congrArg Prod.fst (List.mem_singleton.mp hin))⟩
  · rw [maintain_clean_other hm]
    refine ⟨⟨fun _ _ _ => rfl, fun _ _ => rfl, fun k l hl hst => ⟨hl, fun hin => hm ?_⟩⟩, h⟩
    rw [← List.mem_singleton.mp hin]
    exact hst

/-- Every copy of a list that the agents hold is cleaned. -/
theorem foldl_cleaned (xs : List (Nat × Line)) (h : s.AgentsWf) (hxs : ∀ x ∈ xs, (s.lineOf x.1 x.2.addr).isSome = true) :
    Cleaned s (xs.foldl (maintain c true true) s) xs := by
  induction xs generalizing s with
  | nil => exact ⟨fun _ _ _ => rfl, fun _ _ => rfl, fun _ _ hl _ => ⟨hl, List.not_mem_nil⟩⟩
  | cons x xs ih =>
    obtain ⟨one, hwf⟩ := maintain_cleaned (c := c) h (hxs x (List.mem_cons_self ..))
    have rest := ih hwf (fun y hy => (one.present _ _).trans (hxs y (List.mem_cons_of_mem _ hy)))
    refine ⟨fun k v hne => ?_, fun k v => (rest.present k v).trans (one.present k v), fun k l hl hst => ?_⟩
    · rw [List.forall_mem_cons] at hne
      exact (rest.others k v hne.2).trans (one.others k v (List.forall_mem_singleton.mpr hne.1))
    · obtain ⟨hbefore, hlater⟩ := rest.dirty k l hl hst
      obtain ⟨hheld, hfirst⟩ := one.dirty k l hbefore hst
      exact ⟨hheld, fun hin => (List.mem_cons.mp hin).elim (fun e => hfirst (e ▸ List.mem_singleton_self _)) hlater⟩

/-- After CLEAN no line of the range is in M, none is lost, and every other line is as it was. -/
theorem covered_cleaned (h : s.AgentsWf) (lo hi : Nat) :
    (∀ k v, v < lo ∨ hi ≤ v → ((s.covered lo hi).foldl (maintain c true true) s).lineOf k v = s.lineOf k v) ∧
      (∀ k, ∀ l ∈ (((s.covered lo hi).foldl (maintain c true true) s).agent k).lines, lo ≤ l.addr ∧ l.addr < hi → l.st ≠ .m) ∧
      ∀ k v, (((s.covered lo hi).foldl (maintain c true true) s).lineOf k v).isSome = (s.lineOf k v).isSome := by
  have hheld (x : Nat × Line) (hx : x ∈ s.covered lo hi) : x.2 ∈ (s.agent x.1).lines ∧ lo ≤ x.2.addr ∧ x.2.addr < hi :=
    (mem_covered h).mp hx
  have cleaned : Cleaned s _ (s.covered lo hi) := foldl_cleaned (c := c) _ h (fun x hx =>
    List.find?_isSome.mpr ⟨x.2, (hheld x hx).1, by simp⟩)
  refine ⟨fun k v hout => cleaned.others k v (fun x hx => ?_), fun k l hl hin hst => ?_, cleaned.present⟩
  · obtain ⟨-, hlo, hhi⟩ := hheld x hx
    omega
  · obtain ⟨hbefore, hnot⟩ := cleaned.dirty k l hl hst
    exact hnot ((mem_covered h).mpr ⟨hbefore, hin⟩)

/-- A free core goes on with its instruction. -/
theorem CoreFree.coreStep (f : s.CoreFree c) (h : s.Canonical) (g : State → Out') : s.coreStep c g = g s := by
  simp only [State.coreStep, f.up, if_true, f.passBarrier h]

end

end State

/-- Settles O58: a hint misses, marks or asks for the slice; maintenance goes through the copies that it covers. -/
theorem hintsAndCacheMaintenance : Obligations.HintsAndCacheMaintenance := by
  unfold Obligations.HintsAndCacheMaintenance
  refine ⟨?hints, ?maintenance⟩
  case hints =>
    intro c addr s h hup haddr htarget u hqueue quiet
    have hagents : s.AgentsWf := h.agents
    have hu : u < remoteBase := by omega
    have hnone : s.missOf c u = none := missOf_none_of_mustQueue c.isLt hqueue
    refine ⟨fun ce hce hline => ?missing, fun cl hcl l hline hkey hst => ?held, fun hway hline hmiss => ?slice⟩
    case missing =>
      have missed (exclusive l1 : Bool) :
          let code := if exclusive then rqRdX else rqRdS
          let t := s.touch c addr.toNat .normalWb exclusive l1
          .req (homeOf u) c u code false ∈ t.net ∧
            (t.missOf c u).map (fun m => (m.req, m.key, m.loads)) = some (code, (s.core c).key, []) ∧ quiet t := by
        intro code t
        have m : Missed s t c u code _ := touch_absent exclusive l1 hup htarget hqueue hline ▸
          missLine_missed hagents c.isLt hu (fun l hl => absurd (hline.symm.trans hl) (by simp)) hnone
        exact ⟨m.sent hqueue, by rw [m.noted]; rfl, (congrArg State.regs m.rest :), (congrArg State.mem m.rest :),
          (congrArg State.cores m.rest :)⟩
      simp only [List.mem_cons, List.not_mem_nil, or_false] at hce
      rcases hce with rfl | rfl | rfl
      · exact ⟨_, rfl, missed false true⟩
      · exact ⟨_, rfl, missed false false⟩
      · exact ⟨_, rfl, missed true true⟩
    case held =>
      have marked (exclusive l1 : Bool) :
          let t := s.touch c addr.toNat .normalWb exclusive l1
          t.lineOf c u = some { l with l1 := l.l1 || l1 } ∧ t.net = s.net ∧ quiet t := by
        intro t
        have ht : t = if l1 && !l.l1 then s.markL1 c u else s := touch_held exclusive l1 hup htarget hqueue hline hkey hst
        rw [ht]
        refine ⟨lineOf_touched l1 hagents hline, ?_⟩
        split <;> exact ⟨rfl, rfl, rfl, rfl⟩
      simp only [List.mem_cons, List.not_mem_nil, or_false] at hcl
      rcases hcl with rfl | rfl | rfl
      · exact ⟨_, rfl, marked false true⟩
      · exact ⟨_, rfl, marked false false⟩
      · exact ⟨_, rfl, marked true true⟩
    case slice =>
      refine ⟨_, congrArg Host.Outcome.next (touchSlice_sends hup haddr htarget hqueue hway hline hmiss), rfl, rfl, rfl, rfl⟩
  case maintenance =>
    intro c addr scope s h free r hcalm inside empty outside
    have hagents : s.AgentsWf := h.agents
    have acts (keep clean : Bool) : s.coreStep c (fun s => .next (s.cmo c addr.toNat scope .normalWb keep clean)) =
        .next ((s.covered r.1 r.2).foldl (maintain c keep clean) s) :=
      (free.coreStep h _).trans (congrArg Host.Outcome.next (cmo_acts keep clean free.buf hcalm))
    refine ⟨?supervisor, ?user, ?clean⟩
    case supervisor =>
      obtain ⟨hgone, hout⟩ := covered_withdrawn (c := c) (clean := false) hagents r.1 r.2
      exact ⟨_, acts false false, hgone, hout, withdrawn_frame _⟩
    case user =>
      obtain ⟨hgone, hout⟩ := covered_withdrawn (c := c) (clean := true) hagents r.1 r.2
      exact ⟨_, acts false true, hgone, hout, acts false true⟩
    case clean =>
      exact ⟨_, acts true true, covered_cleaned hagents r.1 r.2⟩

end Sys2Proof.Machine
end

section
/-! PROOFS. O54 refuted: a home that reclaims a dead agent poisons the agent's lines, but a unit of T2 that the background scrub has not
reached, and whose stored bits can no longer be corrected, reads as never written (R259, R370). -/

namespace Sys2Proof.Machine

open State

namespace State

/-- A unit that counts as never written shows no poison, whatever is noted for it (R370). -/
theorem unitMeta_unscrubbed {s : State} {u : Nat} (h : s.unscrubbed u = true) : s.unitMeta u = ⟨0, false⟩ := if_pos h

end State

/-- A line of T2 that the scrub has not reached when the time base starts. -/
def lateLine : Nat := t2Base + Config.scrubPoint 0

/-- T2 is in service and not scrubbed; two stored bits of a unit have changed, and its home is to reclaim a dead slice that owns the
line. -/
def lostOwner : State :=
  ({ State.reset with
    flips := [(lateLine, 2)]
    homes := [(0, { Home.init with dir := [(lateLine, .owned 127)], reclaim := [127] })] } : State).setFld a_DD_TIER DD_TIER_ACTIVE 1

theorem lostOwner_canonical : lostOwner.Canonical :=
  setFld_canonical _ _ _ _ ⟨rfl, rfl, rfl, rfl, rfl, rfl, rfl, rfl, rfl, rfl, rfl, rfl, by decide, rfl, rfl, rfl, by decide, rfl, rfl, rfl, rfl,
    rfl, rfl, rfl, rfl, rfl, rfl, rfl, rfl, rfl⟩

/-- What the scrub looks at stays where the home reclaims the slice. -/
theorem lostOwner_reclaimed :
    (lostOwner.reclaimed 0 127).flips = lostOwner.flips ∧ (lostOwner.reclaimed 0 127).regs = lostOwner.regs ∧
      (lostOwner.reclaimed 0 127).now = lostOwner.now := ⟨rfl, rfl, rfl⟩

/-- The scrub has not reached the line: its unit counts as never written (R370). -/
theorem unscrubbed_of_lostOwner {t : State} (hflips : t.flips = lostOwner.flips) (hregs : t.regs = lostOwner.regs)
    (hnow : t.now = lostOwner.now) : t.unscrubbed lateLine = true := by
  have hrd (a : Nat) : t.rd a = lostOwner.rd a := congrArg (fun m => Sparse.get regReset m a) hregs
  have hchanged : Sparse.get (fun _ => 0) t.flips lateLine = 2 := (congrArg (fun m => Sparse.get (fun _ => 0) m lateLine) hflips).trans (if_pos rfl)
  have hactive : t.flag a_DD_TIER DD_TIER_ACTIVE = true := by
    have hfld : lostOwner.fld a_DD_TIER DD_TIER_ACTIVE = 1 :=
      RegsWf.fld_setFld (s := { State.reset with flips := [(lateLine, 2)], homes := lostOwner.homes }) rfl a_DD_TIER 1 ⟨by decide, by decide⟩
    exact beq_iff_eq.mpr ((congrArg DD_TIER_ACTIVE.get (hrd _)).trans hfld)
  have hscrub : t.flag a_MG_BOOTSTAT MG_BOOTSTAT_SCRUBBED = false := by
    have hreset : State.reset.flag a_MG_BOOTSTAT MG_BOOTSTAT_SCRUBBED = false := by decide +kernel
    have hword : t.rd a_MG_BOOTSTAT = State.reset.rd a_MG_BOOTSTAT := (hrd _).trans (rd_setFld_ne _ _ _ _ _ (by decide))
    rw [flag, hword]
    exact hreset
  have hpoint : Config.scrubPoint t.now ≤ lateLine := hnow ▸ Nat.le_add_left _ _
  have hplace : t2Base ≤ lateLine := Nat.le_add_right _ _
  simp only [unscrubbed, hchanged, hactive, hscrub, hpoint, hplace, Nat.le_refl, decide_true, Bool.not_false, Bool.and_self]

/-- Refutes O54: the home of a line that the scrub has not reached reclaims its dead owner, and the unit reads without poison: the statement
leaves out that no stored bit has changed. -/
theorem not_writeBacksDeadAgentsRefusedStores : ¬ Obligations.WriteBacksDeadAgentsRefusedStores := by
  unfold Obligations.WriteBacksDeadAgentsRefusedStores
  intro claim
  obtain ⟨-, -, reclaim, -⟩ := claim lostOwner lostOwner_canonical
  obtain ⟨t, hexec, -, -, hpoison, -⟩ := reclaim 0 127 (by decide) (by decide)
  have ht : t = lostOwner.reclaimed 0 127 := (Host.Outcome.next.inj hexec).symm
  have hbad : (t.unitMeta lateLine).poison = true := hpoison lateLine (List.mem_singleton_self _)
  obtain ⟨hflips, hregs, hnow⟩ := lostOwner_reclaimed
  rw [ht, unitMeta_unscrubbed (unscrubbed_of_lostOwner hflips hregs hnow)] at hbad
  exact absurd hbad (by decide)

end Sys2Proof.Machine
end

section
/-! PROOFS. Loads of a core from memory of this device (R227, R230, R244, R262). -/

namespace Sys2Proof.Machine

open State

/-- Bytes of zeros behind a number leave it. -/
theorem ofLeBytes_getD {n : Nat} {bs : List Byte} (h : bs.length ≤ n) :
    ofLeBytes ((List.range n).map (fun i => bs.getD i 0)) = ofLeBytes bs := by
  induction n generalizing bs with
  | zero => rw [List.length_eq_zero_iff.mp (Nat.le_zero.mp h)]; rfl
  | succ n ih =>
    rw [List.range_succ_eq_map, List.map_cons, List.map_map, ofLeBytes]
    cases bs with
    | nil =>
      have hrest := ih (bs := []) (Nat.zero_le n)
      simp only [List.getD_nil] at hrest
      simp only [List.getD_nil, Function.comp_def, hrest]
      rfl
    | cons b bs => exact congrArg (fun x => b.toNat + 256 * x) (ih (Nat.succ_le_succ_iff.mp h))

/-- Addresses of one line have one home (R242). -/
theorem homeOf_line {a b : Nat} (h : a / 64 = b / 64) : homeOf a = homeOf b := by
  have hside : a < t2Base ↔ b < t2Base := by
    simp only [t2Base]
    omega
  simp only [homeOf, stackOf, hside]
  split
  · omega
  · simp only [t2Base]
    omega

/-- An access within one line touches one unit. -/
theorem unitsOf_line {a n : Nat} (h1 : 1 ≤ n) (h : a % 64 + n ≤ 64) : unitsOf a n = [a / 64 * 64] := by
  have hone : (a % 64 + n + 63) / 64 = 1 := by omega
  simp [unitsOf, hone]

namespace State

section
variable {s t : State} {c a n key : Nat}

/-! ### Where the access goes -/

theorem CacheOk.line_here (ok : s.CacheOk c a n) : a / 64 * 64 < remoteBase := lt_of_le_of_lt (Nat.div_mul_le_self a 64) ok.here

theorem CacheOk.last_line (ok : s.CacheOk c a n) : (a + n - 1) / 64 = a / 64 := by
  have h1 := ok.some_
  have h2 := ok.line
  omega

/-- The crash dump reserve is made of whole lines (R181). -/
theorem inReserve_line {a b : Nat} (h : a / 64 = b / 64) : s.inReserve a = s.inReserve b := by
  rw [Bool.eq_iff_iff]
  simp only [inReserve, inT2, Bool.and_eq_true, decide_eq_true_eq]
  simp only [t2Size, t2Base]
  omega

theorem load_cached (ok : s.CacheOk c a n) : s.load c a n .normalWb = s.loadOrMiss c (s.core c).key a n := by
  simp only [load, if_neg (Nat.not_le.mpr ok.here), ok.mem, loadMem, ok.open_, beq_false_of_ne ok.key, Bool.false_eq_true, if_false, if_true]

theorem load_uncached (ok : s.CacheOk c a n) : s.load c a n .normalNc = s.loadNc c (s.core c).key a n := by
  simp only [load, if_neg (Nat.not_le.mpr ok.here), ok.mem, loadMem, ok.open_, beq_false_of_ne ok.key, Bool.false_eq_true, if_false, if_true]

/-! ### A load whose bytes are at hand -/

/-- From s to t a load has used its line: it lies in the L1D where the core's L2 has it, and only its place there has changed. -/
structure Used (s t : State) (c u key : Nat) : Prop where
  own : ∀ l, s.lineOf c u = some l → l.key = key → t.lineOf c u = some { l with l1 := true }
  lines : ∀ k w, (t.lineOf k w).map Line.bare = (s.lineOf k w).map Line.bare
  cores : t.cores = s.cores
  net : t.net = s.net
  mem : t.mem = s.mem
  regs : t.regs = s.regs
  ts : t.ts = s.ts

/-- A line of the L1D, or a line of the slice, is used without a change to the L2 (R233). -/
theorem Used.still (u : Nat) {slices : Sparse Slice} (h : ∀ l, s.lineOf c u = some l → l.key = key → l.l1 = true) :
    Used s { s with slices := slices } c u key :=
  ⟨fun l hl hk => hl.trans (congrArg some (by rw [← h l hl hk])), fun _ _ => rfl, rfl, rfl, rfl, rfl, rfl⟩

theorem usedLines_used (h : s.AgentsWf) (h1 : 1 ≤ n) (hline : a % 64 + n ≤ 64) : Used s (s.usedLines c key a n) c (a / 64 * 64) key := by
  have hmiss : (s.lineOf c (a / 64 * 64)).filter (fun l => l.key == key) = none → ∀ l, s.lineOf c (a / 64 * 64) = some l → l.key ≠ key :=
    fun hnone l hl => by simpa [hl, Option.filter] using hnone
  unfold usedLines
  simp only [unitsOf_line h1 hline, List.foldl_cons, List.foldl_nil]
  split
  next l hfound =>
    obtain ⟨hl, hkey⟩ := Option.filter_eq_some_iff.mp hfound
    split
    next hin => exact .still _ (fun k hk _ => by rwa [Option.some.inj (hk.symm.trans hl)])
    · obtain ⟨hown, hlines⟩ := lineOf_markL1 (a := c) (u := a / 64 * 64) h
      exact ⟨fun k hk _ => by rw [hown, hk, Option.map_some], hlines, rfl, rfl, rfl, rfl, rfl⟩
  next hnone =>
    split
    · exact .still _ (fun l hl hk => absurd hk (hmiss hnone l hl))
    · exact .still _ (fun l hl hk => absurd hk (hmiss hnone l hl))

theorem loadDone_good {bs : List (Byte × Bool)} (hgood : bs.any (fun b => b.2) = false) :
    s.loadDone c a bs = s.setLoaded c (BitVec.ofNat 64 (ofLeBytes (bs.map (fun b => b.1)))) := by
  simp only [loadDone, hgood, Bool.false_eq_true, if_false, setLoaded]

/-- A value loaded by a core is in that core alone. -/
theorem core_setLoaded (h : s.CoresWf) (w : Word) :
    ((s.setLoaded c w).core c).loaded = w ∧ ∀ k, k ≠ c → (s.setLoaded c w).core k = s.core k :=
  ⟨congrArg CoreSt.loaded (core_setCore_of_wf _ h), fun _ hk => core_setCore_ne _ hk⟩

/-! ### A load that misses -/

theorem loadByte_absent (hbuf : (s.core c).buf = []) (hline : s.lineOf c (a / 64 * 64) = none) (hslice : s.sliceHit c key (a / 64 * 64) = none) :
    s.loadByte c key a = none := by
  simp only [loadByte, hbuf, hline, hslice, List.reverse_nil, List.find?_nil, Option.filter_none, Option.none_or, Option.map_none]

/-- A load whose first byte is not at hand misses the line of its address. -/
theorem loadOrMiss_absent (h1 : 1 ≤ n) (hfirst : s.loadByte c key a = none) :
    s.loadOrMiss c key a n =
      let t := s.missLine c (a / 64 * 64) rqRdS key true
      if (t.missOf c (a / 64 * 64)).isNone then t.freeLoad c
      else t.modMiss c (a / 64 * 64) (fun m => { m with loads := m.loads ++ [(a, n)] }) := by
  obtain ⟨k, rfl⟩ := Nat.exists_eq_add_of_le' h1
  have hnone : s.loadBytes c key a (k + 1) = none := by
    simp only [loadBytes, List.range_succ_eq_map, List.foldr_cons, Nat.add_zero, hfirst]
    split
    next hb => cases hb
    · rfl
  have hindex : (List.range (k + 1)).find? (fun i => (s.loadByte c key (a + i)).isNone) = some 0 := by
    simp only [List.range_succ_eq_map, List.find?_cons, Nat.add_zero, hfirst, Option.isNone_none]
  simp only [loadOrMiss, hnone, hindex, Nat.add_zero]

theorem missOf_modMiss {u : Nat} {m : Miss} {f : Miss → Miss} (h : s.AgentsWf) (hf : ∀ x, (f x).addr = x.addr) (hm : s.missOf a u = some m) :
    (s.modMiss a u f).missOf a u = some (f m) := by
  have haddr (x : Miss) : (if x.addr = u then f x else x).addr = x.addr := by split <;> simp [hf]
  have hu : m.addr = u := by simpa using List.find?_some hm
  have hagent : (s.modMiss a u f).agent a = { s.agent a with misses := (s.agent a).misses.map (fun m => if m.addr = u then f m else m) } :=
    agent_modAgent _ h
  rw [missOf, hagent, List.find?_map]
  simp only [Function.comp_def, haddr]
  rw [missOf] at hm
  rw [hm, Option.map_some, if_pos hu]

/-- A load that waits for a line: its request is noted with it. -/
structure LoadWaits (s t : State) (c u key : Nat) (held : Bool) (x : Nat × Nat) : Prop where
  noted : (t.missOf c u).map (fun m => (m.req, m.key, m.loads)) = some (rqRdS, key, [x])
  queued : (t.missOf c u).map (fun m => (m.req, m.held, m.loads)) = some (rqRdS, held, [x])
  sent : held = false → .req (homeOf u) c u rqRdS false ∈ t.net
  waits : held = true → t.net = s.net
  rest : { t with agents := s.agents, net := s.net } = s

/-- A load of a line that is nowhere at hand waits for it (R230). -/
theorem loadOrMiss_waits (h : s.AgentsWf) (hc : c < 96) (ok : s.CacheOk c a n) (hbuf : (s.core c).buf = [])
    (hline : s.lineOf c (a / 64 * 64) = none) (hslice : s.sliceHit c key (a / 64 * 64) = none) (hmiss : s.missOf c (a / 64 * 64) = none) :
    LoadWaits s (s.loadOrMiss c key a n) c (a / 64 * 64) key (s.mustQueue c (a / 64 * 64)) (a, n) := by
  have missed := missLine_missed (code := rqRdS) (key := key) (l1 := true) h hc ok.line_here
    (fun l hl => absurd (hline.symm.trans hl) (by simp)) hmiss
  have hloads := missOf_modMiss (f := fun m => { m with loads := m.loads ++ [(a, n)] }) (missed.agents h) (fun _ => rfl) missed.noted
  rw [loadOrMiss_absent ok.some_ (loadByte_absent hbuf hline hslice)]
  simp only [missed.noted, Option.isNone_some, Bool.false_eq_true, if_false]
  exact ⟨by rw [hloads]; rfl, by rw [hloads]; rfl, missed.sent, missed.waits, missed.rest⟩

/-! ### An uncached load -/

theorem length_laid (base : Nat) (ps : List Piece) (a : Nat) (bs : List PByte) : (s.laid base ps a bs).length = bs.length := by
  unfold laid
  induction ps.zipIdx generalizing bs with
  | nil => rfl
  | cons x xs ih =>
    rw [List.foldl_cons, ih]
    split
    · rw [List.length_map, List.length_zipIdx]
    · rfl

/-- A read gives at most the bytes it asks for. -/
theorem length_readMemP (k a n : Nat) : (s.readMemP k a n).length ≤ n := by
  rw [readMemP, length_laid]
  exact List.length_take_le _ _

/-- A cacheable access keeps clear of the crash dump reserve. -/
theorem CacheOk.clear (ok : s.CacheOk c a n) : s.clearOfReserve a n = true := by
  have hlast := ok.last_line
  have h1 := ok.some_
  obtain ⟨hfirst, -⟩ := Bool.or_eq_false_iff.mp ok.open_
  have hmem := ok.mem
  simp only [coreMem, inT1, inT2, Bool.or_eq_true, Bool.and_eq_true, decide_eq_true_eq] at hmem
  simp only [inReserve, inT2, Bool.and_eq_false_iff, decide_eq_false_iff_not] at hfirst
  simp only [clearOfReserve, overlap, Bool.not_eq_true', Bool.and_eq_false_iff, decide_eq_false_iff_not]
  simp only [t1Size, t2Size, t2Base] at *
  omega

theorem touchMem_sound (hflips : s.flips = []) (hkey : s.keyAt key ≠ 0) (hclear : s.clearOfReserve a n = true) :
    s.touchMem key a n = (s, none) := by
  simp [touchMem, hflips, hkey, hclear]

/-- An uncached load that its home admits brings the bytes of memory. -/
theorem loadNc_admitted (ok : s.CacheOk c a n) (hbuf : (s.core c).buf = []) (hflips : s.flips = []) (hkey : s.keyAt key ≠ 0)
    (hadmitted : s.Admitted (naCore c) a n) (hgood : (s.readMem key a n).2 = false) :
    s.loadNc c key a n =
      ({ s with fresh := s.fresh + 1 } : State).setLoaded c (BitVec.ofNat 64 (ofLeBytes (s.readMem key a n).1)) := by
  let mem := s.readMemP key a n
  let bs := (List.range n).map (fun i => mem.getD i (0, false))
  have hend : homeOf (a + n - 1) = homeOf a := homeOf_line ok.last_line
  have hasked : ({ s with fresh := s.fresh + 1 } : State).askAll (naCore c) [⟨a, n⟩] = ({ s with fresh := s.fresh + 1 }, true) := by
    have hnone : ({ s with fresh := s.fresh + 1 } : State).shutLine (naCore c) [⟨a, n⟩] = none := hadmitted
    simp only [askAll, hnone]
  have htouch : (({ s with fresh := s.fresh + 1 } : State).touchMem key a n).1 = { s with fresh := s.fresh + 1 } :=
    congrArg Prod.fst (touchMem_sound (s := { s with fresh := s.fresh + 1 }) hflips hkey ok.clear)
  have hbytes : bs.any (fun b => b.2) = false := by
    refine List.any_eq_false.mpr (fun b hb => ?_)
    obtain ⟨i, -, rfl⟩ := List.mem_map.mp hb
    by_cases hi : i < mem.length
    · rw [List.getD_eq_getElem _ _ hi]
      exact List.any_eq_false.mp hgood _ (List.getElem_mem hi)
    · rw [List.getD_eq_default _ _ (Nat.not_lt.mp hi)]
      exact Bool.false_ne_true
  have hvalue : ofLeBytes (bs.map (fun b => b.1)) = ofLeBytes (s.readMem key a n).1 := by
    have hfst (i : Nat) : (mem.getD i (0, false)).1 = (mem.map (fun b => b.1)).getD i 0 := (List.getD_map _ _ (fun b : PByte => b.1)).symm
    rw [List.map_map]
    simp only [Function.comp_def, hfst]
    exact ofLeBytes_getD ((List.length_map _).trans_le (length_readMemP key a n))
  simp only [loadNc, hend, ok.near, ok.up, List.any_cons, List.any_nil, Bool.not_true, Bool.or_false, Bool.false_eq_true, if_false, asking,
    hasked, if_true, htouch, hbuf, List.reverse_nil, List.find?_nil]
  exact (loadDone_good hbytes).trans (by rw [hvalue])

end

end State

end Sys2Proof.Machine
end

section
/-! PROOFS. Cacheable stores of a core to memory of this device (R244, R262, R266). -/

namespace Sys2Proof.Machine

open State

/-- At most 8 bytes are one piece of 8 aligned bytes, or two (R266). -/
theorem splitAt_eight {a : Nat} {bs : List Byte} (h1 : 1 ≤ bs.length) (h8 : bs.length ≤ 8) :
    splitAt_ 8 a bs = [(a, bs)] ∨
      ∃ k, 0 < k ∧ k < bs.length ∧ splitAt_ 8 a bs = [(a, bs.take k), (a + k, bs.drop k)] := by
  have hstart : a / 8 * 8 + 1 * 8 = a + (8 - a % 8) := by omega
  by_cases hone : a % 8 + bs.length ≤ 8
  · have hcount : (a % 8 + bs.length + (8 - 1)) / 8 = 1 := by omega
    left
    simp only [splitAt_, hcount, List.range_one, List.map_cons, List.map_nil, if_true]
    rw [List.take_of_length_le (by omega)]
  · have hcount : (a % 8 + bs.length + (8 - 1)) / 8 = 2 := by omega
    refine .inr ⟨8 - a % 8, by omega, by omega, ?_⟩
    have hrange : List.range 2 = [0, 1] := rfl
    simp only [splitAt_, hcount, hrange, List.map_cons, List.map_nil, if_true, hstart, one_ne_zero, if_false, Nat.add_sub_cancel_left]
    rw [List.take_of_length_le (l := bs.drop _) (by rw [List.length_drop]; omega)]

/-- Every piece of a store lies within it. -/
theorem mem_splitAt_eight {a : Nat} {bs : List Byte} (h1 : 1 ≤ bs.length) (h8 : bs.length ≤ 8) {p : Nat × List Byte} (hp : p ∈ splitAt_ 8 a bs) :
    a ≤ p.1 ∧ p.1 < a + bs.length ∧ p.1 + p.2.length ≤ a + bs.length := by
  rcases splitAt_eight (a := a) h1 h8 with e | ⟨k, hk, hlen, e⟩
  · rw [e, List.mem_singleton] at hp
    subst hp
    exact ⟨le_refl _, by omega, le_refl _⟩
  · rw [e, List.mem_cons, List.mem_singleton] at hp
    rcases hp with rfl | rfl
    · refine ⟨le_refl _, by omega, ?_⟩
      rw [List.length_take]
      omega
    · simp only [List.length_drop]
      omega

/-- The bytes of a store laid over a line in two pieces. -/
theorem layOver_layOver {unit bs : List Byte} {u a k : Nat} (hk : k ≤ bs.length) :
    layOver (layOver unit u a (bs.take k)) u (a + k) (bs.drop k) = layOver unit u a bs := by
  refine List.ext_getElem (by simp [layOver]) (fun i hi _ => ?_)
  simp only [layOver, List.getElem_map, List.getElem_zipIdx, List.length_take, List.length_drop, Nat.zero_add, List.getD_eq_getElem?_getD,
    List.getElem?_drop, List.getElem?_take]
  by_cases hsecond : a + k ≤ u + i ∧ u + i < a + k + (bs.length - k)
  · have hwhole : a ≤ u + i ∧ u + i < a + bs.length := by omega
    have hplace : k + (u + i - (a + k)) = u + i - a := by omega
    rw [if_pos hsecond, if_pos hwhole, hplace]
  · rw [if_neg hsecond]
    by_cases hfirst : a ≤ u + i ∧ u + i < a + min k bs.length
    · have hwhole : a ≤ u + i ∧ u + i < a + bs.length := by omega
      rw [if_pos hfirst, if_pos hwhole, if_pos (by omega)]
    · rw [if_neg hfirst, if_neg (by omega)]

/-- A line in which a store has been performed. -/
def Line.taken (l : Line) (a : Nat) (bs : List Byte) : Line := { l with st := .m, data := layOver l.data l.addr a bs }

/-- The pieces of a store in a line, oldest first. -/
def Line.takenAll (l : Line) (ps : List (Nat × List Byte)) : Line := ps.foldl (fun l p => l.taken p.1 p.2) l

/-- A store performed in pieces is in the line as a whole. -/
theorem Line.takenAll_splitAt {a : Nat} {bs : List Byte} (l : Line) (h1 : 1 ≤ bs.length) (h8 : bs.length ≤ 8) :
    l.takenAll (splitAt_ 8 a bs) = l.taken a bs := by
  rcases splitAt_eight (a := a) h1 h8 with e | ⟨k, -, hlen, e⟩
  · rw [e]
    rfl
  · rw [e]
    exact congrArg (fun d => ({ l with st := .m, data := d } : Line)) (layOver_layOver hlen.le)

/-- The pieces in which a store waits in the buffer (R266). -/
def storePieces (b : BufStore) : List BufStore := (splitAt_ 8 b.addr b.data).map (fun p => { b with addr := p.1, data := p.2 })

/-- A store of a core lies in one line. -/
structure InLine (b : BufStore) (u : Nat) : Prop where
  some_ : 1 ≤ b.data.length
  small : b.data.length ≤ 8
  low : u ≤ b.addr
  high : b.addr + b.data.length ≤ u + 64

theorem InLine.pieces {b p : BufStore} {u : Nat} (h : InLine b u) (hp : p ∈ storePieces b) :
    p.attr = b.attr ∧ p.key = b.key ∧ u ≤ p.addr ∧ p.addr < u + 64 ∧ p.addr + p.data.length ≤ u + 64 ∧ p.data.length ≤ 8 := by
  obtain ⟨some_, small, low, high⟩ := h
  obtain ⟨x, hx, rfl⟩ := List.mem_map.mp hp
  obtain ⟨hlo, hin, hhi⟩ := mem_splitAt_eight some_ small hx
  refine ⟨rfl, rfl, ?_, ?_, ?_, ?_⟩ <;> simp only <;> omega

theorem InLine.few {b : BufStore} {u : Nat} (h : InLine b u) : (storePieces b).length ≤ 2 := by
  rcases splitAt_eight (a := b.addr) h.some_ h.small with e | ⟨k, -, -, e⟩ <;> simp [storePieces, e]

theorem InLine.exists_cons {b : BufStore} {u : Nat} (h : InLine b u) : ∃ p ps, storePieces b = p :: ps := by
  rcases splitAt_eight (a := b.addr) h.some_ h.small with e | ⟨k, -, -, e⟩
  · exact ⟨_, _, by rw [storePieces, e, List.map_cons]⟩
  · exact ⟨_, _, by rw [storePieces, e, List.map_cons]⟩

namespace State

section
variable {s t : State} {c u a : Nat} {b : BufStore}

/-! ### The store buffer -/

/-- A piece that still waits in the buffer wants its line. -/
def wantPiece (c : Nat) (t : State) (p : BufStore) : State := if (t.core c).buf.contains p then t.wantLine c p else t

/-- A store enters an empty buffer, and then wants its lines. -/
theorem storeCached_buffers (h : InLine b u) (hbuf : (s.core c).buf = []) :
    s.storeCached c b = (storePieces b).foldl (wantPiece c) (s.modCore c (fun x => { x with buf := storePieces b })) := by
  have hroom : s.bufferRoom c (storePieces b).length = some s := by
    have hlen := h.few
    rw [bufferRoom, hbuf, List.length_nil, if_pos (by omega)]
  have henters : s.modCore c (fun x => { x with buf := x.buf ++ storePieces b }) = s.modCore c (fun x => { x with buf := storePieces b }) := by
    simp only [modCore, hbuf, List.nil_append]
  change (match s.bufferRoom c (storePieces b).length with
    | none => s
    | some s => (storePieces b).foldl (wantPiece c) (s.modCore c (fun x => { x with buf := x.buf ++ storePieces b }))) = _
  rw [hroom]
  exact congrArg (fun t => (storePieces b).foldl (wantPiece c) t) henters

/-! ### A store to a line in E or M (R244, R267) -/

/-- From s to t core c has performed stores in its line u, which is now l; else only what running jobs have written beside them is noted. -/
structure LineTakes (s t : State) (c u : Nat) (l : Line) : Prop where
  line : t.lineOf c u = some l
  lines : ∀ k w, k ≠ c ∨ w ≠ u → t.lineOf k w = s.lineOf k w
  agents : t.AgentsWf
  rest : { t with agents := s.agents, jobs := s.jobs } = s

theorem LineTakes.trans {x : State} {l k : Line} (h : LineTakes s t c u l) (g : LineTakes t x c u k) : LineTakes s x c u k where
  line := g.line
  lines k w hne := (g.lines k w hne).trans (h.lines k w hne)
  agents := g.agents
  rest := (congrArg (fun y : State => { y with agents := s.agents, jobs := s.jobs }) g.rest).trans h.rest

theorem storeLine_takes {l : Line} {bs : List Byte} (h : s.AgentsWf) (hl : s.lineOf c u = some l) (hbs : bs.length ≤ 8) :
    LineTakes s (s.storeLine c l a bs) c u (l.taken a bs) := by
  have hput : s.storeLine c l a bs = (s.strike a bs.length).putLine c (l.taken a bs) := by
    have hpart : (l.poison && bs.length != 64) = l.poison := by
      rw [bne_iff_ne.mpr (by omega : bs.length ≠ 64), Bool.and_true]
    simp only [storeLine, hpart, Line.taken]
  have haddr : (l.taken a bs).addr = u := (addr_of_lineOf hl :)
  rw [hput]
  exact ⟨haddr ▸ lineOf_putLine (s := s.strike a bs.length) (l.taken a bs) h,
    fun k w hne => lineOf_putLine_ne (s := s.strike a bs.length) (l.taken a bs) h (haddr.symm ▸ hne),
    AgentsWf.modAgent (s := s.strike a bs.length) h c _, rfl⟩

/-- A buffered store is performed in the line of its core. -/
def storeNext (c u : Nat) (t : State) (b : BufStore) : State :=
  match t.lineOf c u with
  | some l => t.storeLine c l b.addr b.data
  | none => t

theorem foldl_storeNext_takes {qs : List BufStore} (hqs : ∀ b ∈ qs, b.data.length ≤ 8) {l : Line} (h : s.AgentsWf)
    (hl : s.lineOf c u = some l) :
    LineTakes s (qs.foldl (storeNext c u) s) c u (l.takenAll (qs.map (fun b => (b.addr, b.data)))) := by
  induction qs generalizing s l with
  | nil => exact ⟨hl, fun _ _ _ => rfl, h, rfl⟩
  | cons b qs ih =>
    have hstep : LineTakes s (storeNext c u s b) c u (l.taken b.addr b.data) := by
      have hnext : storeNext c u s b = s.storeLine c l b.addr b.data := by
        rw [storeNext]
        split
        next k hk => rw [Option.some.inj (hk.symm.trans hl)]
        next hk => cases hk.symm.trans hl
      rw [hnext]
      exact storeLine_takes h hl (hqs b List.mem_cons_self)
    exact hstep.trans (ih (fun b hb => hqs b (List.mem_cons_of_mem _ hb)) hstep.agents hstep.line)

/-- A buffer with stores to the line alone drains into it. -/
theorem drainLine_all {l : Line} (hl : s.lineOf c u = some l) (hst : l.st ≠ .s)
    (hall : ∀ b ∈ (s.core c).buf, ((b.attr == .normalWb || b.attr == .remoteCacheable) && b.key == l.key && within b.addr b.data.length u 64) = true) :
    s.drainLine c u = ((s.core c).buf.foldl (storeNext c u) s).modCore c (fun x =>
      { x with buf := x.buf.filter (fun b => !(s.core c).buf.contains b) }) := by
  have hfound : (s.lineOf c u).filter (fun l => l.st != .s) = some l := by
    rw [hl, Option.filter, if_pos (bne_iff_ne.mpr hst)]
  rw [drainLine, hfound]
  simp only [List.filter_eq_self.mpr hall]
  rfl

/-- The pieces of a store to a line in E or M leave the buffer for the line. -/
theorem storeCached_held {l : Line} (h : s.Canonical) (hin : InLine b u) (hattr : b.attr = .normalWb) (hbuf : (s.core c).buf = [])
    (hl : s.lineOf c u = some l) (hkey : l.key = b.key) (hst : l.st ≠ .s) (hu : u % 64 = 0) :
    ∃ t, LineTakes (s.modCore c (fun x => { x with buf := storePieces b })) t c u (l.taken b.addr b.data) ∧
      s.storeCached c b = t.modCore c (fun x => { x with buf := [] }) := by
  let ps := storePieces b
  let s' := s.modCore c (fun x => { x with buf := ps })
  have hbuf' : (s'.core c).buf = ps := congrArg CoreSt.buf (core_setCore_of_wf _ h.cores)
  have hmine : ∀ p ∈ (s'.core c).buf,
      ((p.attr == .normalWb || p.attr == .remoteCacheable) && p.key == l.key && within p.addr p.data.length u 64) = true := by
    intro p hp
    obtain ⟨hattr', hkey', hlow, -, hhigh, -⟩ := hin.pieces (hbuf' ▸ hp)
    have hcacheable : p.attr = .normalWb := hattr'.trans hattr
    have hsame : p.key = l.key := hkey'.trans hkey.symm
    simp [hcacheable, hsame, within, hlow, hhigh]
  have takes : LineTakes s' (ps.foldl (storeNext c u) s') c u (l.taken b.addr b.data) := by
    have hpieces : ps.map (fun b => (b.addr, b.data)) = splitAt_ 8 b.addr b.data := by
      simp [ps, storePieces, Function.comp_def]
    have hall := foldl_storeNext_takes (c := c) (u := u) (s := s') (qs := ps) (fun p hp => by
      obtain ⟨-, -, -, -, -, hlen⟩ := hin.pieces hp
      exact hlen) h.agents hl
    rwa [hpieces, Line.takenAll_splitAt _ hin.some_ hin.small] at hall
  let t := ps.foldl (storeNext c u) s'
  have hcores : t.cores = s'.cores := (congrArg State.cores takes.rest :)
  have hcore : t.core c = s'.core c := congrArg (fun m => Sparse.get (fun _ => CoreSt.init) m c) hcores
  have hdrain : s'.drainLine c u = t.modCore c (fun x => { x with buf := [] }) := by
    have hleft : ps.filter (fun p => !ps.contains p) = [] :=
      List.filter_eq_nil_iff.mpr (fun p hp => by simpa using hp)
    rw [drainLine_all (s := s') hl hst hmine, hbuf']
    change t.modCore c _ = _
    simp only [modCore, hcore, hbuf', hleft]
  have hempty : ((s'.drainLine c u).core c).buf = [] := by
    rw [hdrain]
    exact congrArg CoreSt.buf (core_setCore_of_wf _ ((congrArg (Sparse.wf _) hcores).trans (Sparse.wf_put _ h.cores)))
  have hrest (qs : List BufStore) : qs.foldl (wantPiece c) (s'.drainLine c u) = s'.drainLine c u := by
    induction qs with
    | nil => rfl
    | cons q qs ih =>
      have hgone : wantPiece c (s'.drainLine c u) q = s'.drainLine c u := by
        simp only [wantPiece, hempty, List.contains_nil, Bool.false_eq_true, if_false]
      rw [List.foldl_cons, hgone, ih]
  refine ⟨t, takes, ?_⟩
  obtain ⟨p, qs, hps⟩ := hin.exists_cons
  have hcons : ps = p :: qs := hps
  have hp : p ∈ ps := hcons ▸ List.mem_cons_self
  obtain ⟨-, hkey', hlow, hhigh, -, -⟩ := hin.pieces hp
  have hline : p.addr / 64 * 64 = u := by omega
  have hwant : wantPiece c s' p = s'.drainLine c u := by
    have hfound : (s'.lineOf c u).filter (fun l => l.key == p.key) = some l := by
      have hl' : s'.lineOf c u = some l := hl
      rw [hl', Option.filter, if_pos (beq_iff_eq.mpr (hkey.trans hkey'.symm))]
    rw [wantPiece, hbuf', if_pos (List.contains_iff_mem.mpr hp), wantLine, hline, hfound]
    exact if_neg hst
  rw [storeCached_buffers hin hbuf]
  change ps.foldl (wantPiece c) s' = _
  rw [hcons, List.foldl_cons, hwant, hrest, hdrain]

/-! ### A store that asks for its line (R244) -/

/-- Core c lacks the line u for a store, or holds it shared; code is the request that brings it. -/
structure WantsLine (t : State) (c u key code : Nat) : Prop where
  here : u < remoteBase
  served : t.storeRefusal key u = none
  lacks : code = rqRdX ∧ t.lineOf c u = none ∨ code = rqUpg ∧ ∃ l, t.lineOf c u = some l ∧ l.key = key ∧ l.st = .s

/-- A home refuses a store to a line wherever it lies in it. -/
theorem storeRefusal_line {key x y : Nat} (h : x / 64 = y / 64) : s.storeRefusal key x = s.storeRefusal key y := by
  rw [storeRefusal, inReserve_line h, homeOf_line h, storeRefusal]

theorem wantLine_sends {key code : Nat} {p : BufStore} (w : WantsLine s c u key code) (hkey : p.key = key) (hline : p.addr / 64 * 64 = u) :
    s.wantLine c p = s.sendReq c u code key (s.quadOf c) c true := by
  subst hkey
  rcases w.lacks with ⟨rfl, hnone⟩ | ⟨rfl, l, hl, hlkey, hst⟩
  · have hserved : s.storeRefusal p.key p.addr = none := by
      rw [storeRefusal_line (y := u) (by omega), w.served]
    have hcode : (decide (rqRdX = rqRdS)) = false := by decide
    simp only [wantLine, hline, hnone, Option.filter_none, hserved, Option.isNone_none, Bool.or_true, if_true]
    rw [missLine_keeps w.here (fun l hl => by cases hnone.symm.trans hl)]
    simp only [hcode, Bool.false_and, Bool.false_eq_true, if_false]
  · have hfound : (some l).filter (fun l => l.key == p.key) = some l := by
      rw [Option.filter, if_pos (beq_iff_eq.mpr hlkey)]
    simp only [wantLine, hline, hl, hfound, hst, if_true]

theorem WantsLine.requests {key code : Nat} (w : WantsLine s c u key code) (h : s.AgentsWf) (r : Requests s t) : WantsLine t c u key code where
  here := w.here
  served := (congrArg (fun x : State => x.storeRefusal key u) r.rest :).trans w.served
  lacks := by
    rw [r.lineOf h]
    exact w.lacks

/-- Pieces that wait for one line ask for it, and stay in the buffer. -/
theorem foldl_wantPiece_requests {key code : Nat} {qs : List BufStore} (w : WantsLine s c u key code) (h : s.AgentsWf)
    (hqs : ∀ p ∈ qs, p ∈ (s.core c).buf ∧ p.key = key ∧ p.addr / 64 * 64 = u) : Requests s (qs.foldl (wantPiece c) s) := by
  induction qs generalizing s with
  | nil => exact .refl s
  | cons p qs ih =>
    obtain ⟨hp, hkey, hline⟩ := hqs p List.mem_cons_self
    have hstep : Requests s (wantPiece c s p) := by
      rw [wantPiece, if_pos (List.contains_iff_mem.mpr hp), wantLine_sends w hkey hline]
      exact .sendReq s _ _ _ _ _ _ _
    have hcore : (wantPiece c s p).core c = s.core c := (congrArg (fun x : State => x.core c) hstep.rest :)
    refine hstep.trans (ih (w.requests h hstep) (hstep.agents h) (fun q hq => ?_))
    rw [hcore]
    exact hqs q (List.mem_cons_of_mem _ hq)

/-- A store whose line is not there asks for it, and waits in the buffer. -/
theorem storeCached_waits {code : Nat} (h : s.Canonical) (hin : InLine b u) (hbuf : (s.core c).buf = []) (w : WantsLine s c u b.key code)
    (hmiss : s.missOf c u = none) (hqueue : s.mustQueue c u = false) (hu : u % 64 = 0) :
    Requests (s.modCore c (fun x => { x with buf := storePieces b })) (s.storeCached c b) ∧
      .req (homeOf u) c u code false ∈ (s.storeCached c b).net := by
  let s' := s.modCore c (fun x => { x with buf := storePieces b })
  have hbuf' : (s'.core c).buf = storePieces b := congrArg CoreSt.buf (core_setCore_of_wf _ h.cores)
  have w' : WantsLine s' c u b.key code := ⟨w.here, w.served, w.lacks⟩
  have hps : ∀ p ∈ storePieces b, p ∈ (s'.core c).buf ∧ p.key = b.key ∧ p.addr / 64 * 64 = u := by
    intro p hp
    obtain ⟨-, hkey, hlow, hhigh, -, -⟩ := hin.pieces hp
    exact ⟨hbuf' ▸ hp, hkey, by omega⟩
  rw [storeCached_buffers hin hbuf]
  refine ⟨foldl_wantPiece_requests w' h.agents hps, ?_⟩
  obtain ⟨p, qs, hcons⟩ := hin.exists_cons
  rw [hcons] at hps
  obtain ⟨hp, hkey, hline⟩ := hps p List.mem_cons_self
  have hfirst : wantPiece c s' p = s'.sendReq c u code b.key (s'.quadOf c) c true := by
    rw [wantPiece, if_pos (List.contains_iff_mem.mpr hp), wantLine_sends w' hkey hline]
  have hstep : Requests s' (wantPiece c s' p) := hfirst ▸ .sendReq s' _ _ _ _ _ _ _
  have hsent : .req (homeOf u) c u code false ∈ (wantPiece c s' p).net := by
    have hqueue' : s'.mustQueue c u = false := hqueue
    rw [hfirst, sendReq_new (s := s') hmiss, hqueue']
    exact List.mem_append_right _ (List.mem_singleton_self _)
  have hcore : (wantPiece c s' p).core c = s'.core c := (congrArg (fun x : State => x.core c) hstep.rest :)
  have hlater : Requests (wantPiece c s' p) (qs.foldl (wantPiece c) (wantPiece c s' p)) :=
    foldl_wantPiece_requests (w'.requests h.agents hstep) (hstep.agents h.agents)
      (fun q hq => by rw [hcore]; exact hps q (List.mem_cons_of_mem _ hq))
  have hfold : (storePieces b).foldl (wantPiece c) s' = qs.foldl (wantPiece c) (wantPiece c s' p) := by rw [hcons, List.foldl_cons]
  exact hfold ▸ hlater.net hsent

/-- A cacheable store that a home serves. -/
theorem store_cached {bs : List Byte} (v : Word) (ok : s.CacheOk c a bs.length) :
    s.store c a bs .normalWb v = .next (s.storeCached c { addr := a, data := bs, attr := .normalWb, key := (s.core c).key }) := by
  simp only [store, if_neg (Nat.not_le.mpr ok.here), ok.mem, if_true]

theorem store_uncached {bs : List Byte} (v : Word) (ok : s.CacheOk c a bs.length) :
    s.store c a bs .normalNc v = .next (s.storeNc c { addr := a, data := bs, attr := .normalNc, key := (s.core c).key }) := by
  simp only [store, if_neg (Nat.not_le.mpr ok.here), ok.mem, if_true]

/-- An access to the line of a served access is served. -/
theorem CacheOk.served {n x : Nat} (ok : s.CacheOk c a n) (hx : x / 64 = a / 64) : s.storeRefusal (s.core c).key x = none := by
  obtain ⟨hopen, -⟩ := Bool.or_eq_false_iff.mp ok.open_
  rw [storeRefusal_line hx, storeRefusal, hopen, beq_false_of_ne ok.key, ok.up]
  rfl

end

end State

end Sys2Proof.Machine
end

section
/-! PROOFS. Uncached stores of a core to memory of this device (R239, R249, R266). -/

namespace Sys2Proof.Machine

open State

/-- A map in which every value is changed, and the default stays away. -/
theorem Sparse.get_filterMap {V : Type} [DecidableEq V] {f : V → V} {x : V} {m : Sparse V} (hf : f x = x)
    (h : Sparse.wf (fun _ => x) m = true) (k : Nat) :
    Sparse.get (fun _ => x) (m.filterMap (fun e => let y := f e.2; if y = x then none else some (e.1, y))) k = f (Sparse.get (fun _ => x) m k) := by
  induction m with
  | nil => exact hf.symm
  | cons e m ih =>
    obtain ⟨a, v⟩ := e
    obtain ⟨habove, -, hwf⟩ := Sparse.wf_cons h
    have hrest := ih hwf
    by_cases hk : a = k
    · subst hk
      have hlater : Sparse.get (fun _ => x) m a = x := Sparse.get_above habove (le_refl a)
      have hhere : Sparse.get (fun _ => x) ((a, v) :: m) a = v := if_pos rfl
      rw [hhere]
      by_cases hv : f v = x
      · rw [List.filterMap_cons_none (by simp [hv]), hrest, hlater, hf, hv]
      · rw [List.filterMap_cons_some (b := (a, f v)) (by simp [hv])]
        exact if_pos rfl
    · have hhere : Sparse.get (fun _ => x) ((a, v) :: m) k = Sparse.get (fun _ => x) m k := if_neg hk
      rw [hhere, ← hrest]
      by_cases hv : f v = x
      · rw [List.filterMap_cons_none (by simp [hv])]
      · rw [List.filterMap_cons_some (b := (a, f v)) (by simp [hv])]
        exact if_neg hk

/-- Bytes written over bytes as long leave the later ones. -/
theorem putBytes_putBytes {m : List Host.Cell} {a : Nat} {xs ys : List Byte} (h : Sparse.wf (fun _ => (0 : Byte)) m = true)
    (hlen : xs.length = ys.length) : putBytes (putBytes m a xs) a ys = putBytes m a ys := by
  have hwf := putBytes_wf m a xs h
  refine Sparse.ext_get (putBytes_wf _ _ _ hwf) (putBytes_wf _ _ _ h) (fun k => ?_)
  by_cases hk : k < a ∨ a + ys.length ≤ k
  · rw [get_putBytes_ne _ _ _ _ hk, get_putBytes_ne _ _ _ _ hk, get_putBytes_ne _ _ _ _ (hlen ▸ hk)]
  · obtain ⟨i, rfl⟩ := Nat.exists_eq_add_of_le (by omega : a ≤ k)
    have hi : i < ys.length := by omega
    rw [get_putBytes _ _ _ _ hwf hi, get_putBytes _ _ _ _ h hi]

/-- A key written twice holds the later value. -/
theorem Sparse.put_put {V : Type} [DecidableEq V] {d : Nat → V} {m : Sparse V} {k : Nat} (v w : V) (h : Sparse.wf d m = true) :
    Sparse.put d (Sparse.put d m k v) k w = Sparse.put d m k w := by
  have hwf : Sparse.wf d (Sparse.put d m k v) = true := Sparse.wf_put v h
  refine Sparse.ext_get (Sparse.wf_put w hwf) (Sparse.wf_put w h) (fun j => ?_)
  by_cases hj : j = k
  · subst hj
    rw [Sparse.get_put w (Sparse.wf_sorted hwf), Sparse.get_put w (Sparse.wf_sorted h)]
  · rw [Sparse.get_put_ne _ w hj, Sparse.get_put_ne _ w hj, Sparse.get_put_ne _ v hj]

theorem length_overlay {unit bs : List Byte} {i : Nat} (h : i + bs.length ≤ unit.length) : (overlay unit i bs).length = unit.length := by
  simp only [overlay, List.length_append, List.length_take, List.length_drop]
  omega

/-- Bytes overlaid in two pieces. -/
theorem overlay_overlay {unit bs : List Byte} {i k : Nat} (hk : k ≤ bs.length) (h : i + bs.length ≤ unit.length) :
    overlay (overlay unit i (bs.take k)) (i + k) (bs.drop k) = overlay unit i bs := by
  have htake : (bs.take k).length = k := by rw [List.length_take]; omega
  have hfront : (unit.take i ++ bs.take k).length = i + k := by
    rw [List.length_append, List.length_take, htake]
    omega
  have hend : i + k + (bs.drop k).length = i + bs.length := by rw [List.length_drop]; omega
  have hsplit : i + bs.length = i + k + (bs.length - k) := by omega
  rw [overlay, hend]
  conv_lhs => simp only [overlay, htake]
  rw [List.take_left' hfront, hsplit, ← List.drop_drop, List.drop_left' hfront, List.drop_drop]
  simp only [overlay, List.append_assoc, hsplit]
  rw [← List.append_assoc (bs.take k), List.take_append_drop]

/-- Bytes within one line are one piece of memory. -/
theorem pieces_line {a : Nat} {bs : List Byte} (h1 : 1 ≤ bs.length) (h : a % 64 + bs.length ≤ 64) : pieces a bs = [(a, bs)] := by
  have hcount : (a % 64 + bs.length + (64 - 1)) / 64 = 1 := by omega
  simp only [pieces, splitAt_, hcount, List.range_one, List.map_cons, List.map_nil, if_true]
  rw [List.take_of_length_le (by omega)]

namespace State

section
variable {s t : State} {a c k u who : Nat} {bs : List Byte}

/-! ### What a write of a unit leaves alone -/

/-- The state without memory, caches, directories, messages and fault records. -/
def ground (s : State) : State :=
  { s.unreported with mem := [], units := [], flips := [], jobs := [], agents := [], slices := [], homes := [], net := [] }

theorem ground_flushLine (s : State) (l : Line) : (s.flushLine l).ground = s.ground := by
  unfold flushLine
  split
  · exact (congrArg ground (unreported_reportSec s l.addr 64) :)
  · rfl

theorem ground_pullBack (s : State) (u : Nat) : (s.pullBack u).ground = s.ground := by
  unfold pullBack
  split
  · rfl
  · exact s.ground_flushLine _

/-- From s to t bytes of the unit u have been written: what decides whether its home admits and serves a request for it stays. -/
structure UnitWritten (s t : State) (u : Nat) : Prop where
  ground : t.ground = s.ground
  inside : ∀ p, (t.part p).unreported = (s.part p).unreported
  homes : ∀ h, ({ t.home h with dir := [] } : Home) = { s.home h with dir := [] }
  misses : ∀ a, (t.agent a).misses = (s.agent a).misses
  calm : t.calm u = s.calm u

theorem UnitWritten.refl (s : State) (u : Nat) : UnitWritten s s u := ⟨rfl, fun _ => rfl, fun _ => rfl, fun _ => rfl, rfl⟩

theorem UnitWritten.trans {x : State} (h : UnitWritten s t u) (g : UnitWritten t x u) : UnitWritten s x u where
  ground := g.ground.trans h.ground
  inside p := (g.inside p).trans (h.inside p)
  homes a := (g.homes a).trans (h.homes a)
  misses a := (g.misses a).trans (h.misses a)
  calm := g.calm.trans h.calm

theorem UnitWritten.reports (r : Reports s t) (u : Nat) : UnitWritten s t u where
  ground := (congrArg State.ground r.rest :)
  inside := r.inside
  homes h := (congrArg (fun x : State => ({ x.home h with dir := [] } : Home)) r.rest :)
  misses a := (congrArg (fun x : State => (x.agent a).misses) r.rest :)
  calm := (congrArg (fun x : State => x.calm u) r.rest :)

theorem UnitWritten.pullBack (h : Sparse.wf (fun _ => Part.init) s.parts = true) (u : Nat) : UnitWritten s (s.pullBack u) u := by
  unfold State.pullBack
  split
  · exact .refl s u
  · unfold flushLine
    split
    · exact .reports (.reportSec _ _ h) u
    · exact ⟨rfl, fun _ => rfl, fun _ => rfl, fun _ => rfl, rfl⟩

/-- What a message about a line tells stays where the write makes a grant serve its accesses alone. -/
theorem calm_dropCopies (s : State) (u w : Nat) : (s.dropCopies u).calm w = s.calm w := by
  simp only [calm, dropCopies, List.all_map]
  refine List.all_congr rfl (fun m => ?_)
  cases m with
  | grant h a v code d po =>
    have hgrant : (if v = u then CMsg.grant h a v grOnce d po else .grant h a v code d po) =
        .grant h a v (if v = u then grOnce else code) d po := by split <;> rfl
    simp only [Function.comp_apply, hgrant]
  | _ => rfl

theorem UnitWritten.dropCopies (hagents : s.AgentsWf) (hhomes : Sparse.wf (fun _ => Home.init) s.homes = true) (u : Nat) :
    UnitWritten s (s.dropCopies u) u where
  ground := rfl
  inside _ := rfl
  homes h := by
    have hhome : (s.dropCopies u).home h = { s.home h with dir := (s.home h).dir.filter (fun d => d.1 != u) } :=
      Sparse.get_filterMap (f := fun x : Home => { x with dir := x.dir.filter (fun d => d.1 != u) }) rfl hhomes h
    rw [hhome]
  misses a := by
    have hagent : (s.dropCopies u).agent a = (s.agent a).without u := Sparse.get_filterMap (f := fun x : Agent => x.without u) rfl hagents a
    rw [hagent]
    rfl
  calm := calm_dropCopies s u u

theorem UnitWritten.putPiece (s : State) (key a : Nat) (bs : List Byte) (poison : Bool) (u : Nat) :
    UnitWritten s (s.putPiece key a bs poison) u := by
  unfold State.putPiece
  simp only
  split <;> exact ⟨rfl, fun _ => rfl, fun _ => rfl, fun _ => rfl, rfl⟩

/-- The caches and the homes are those of s, and canonical. -/
theorem pullBack_keeps (s : State) (u : Nat) : (s.pullBack u).agents = s.agents ∧ (s.pullBack u).homes = s.homes := by
  unfold State.pullBack
  split
  · exact ⟨rfl, rfl⟩
  next l _ =>
    unfold flushLine
    split
    · have hsame := unreported_reportSec s l.addr 64
      exact ⟨(congrArg State.agents hsame :), (congrArg State.homes hsame :)⟩
    · exact ⟨rfl, rfl⟩

theorem UnitWritten.unitCleared (h : s.Canonical) (a n : Nat) : UnitWritten s (s.unitCleared a n) (a / 64 * 64) := by
  let u := a / 64 * 64
  have hstrike : UnitWritten s (s.strike a n) u := ⟨rfl, fun _ => rfl, fun _ => rfl, fun _ => rfl, rfl⟩
  have hpulled : UnitWritten (s.strike a n) ((s.strike a n).pullBack u) u := .pullBack (s := s.strike a n) h.parts u
  obtain ⟨hagents, hhomes⟩ := (s.strike a n).pullBack_keeps u
  have hagents' : ((s.strike a n).pullBack u).AgentsWf := AgentsWf.of_eq (s := s) h.agents hagents
  exact hstrike.trans (hpulled.trans (.dropCopies hagents' (hhomes ▸ h.homes) u))

/-! ### The home of the line goes on admitting and serving -/

theorem UnitWritten.admits (w : UnitWritten s t u) (who h v : Nat) : t.admits who h v = s.admits who h v := by
  have hhome := w.homes h
  have htxns : (t.home h).txns = (s.home h).txns := (congrArg Home.txns hhome :)
  have hsweep : (t.home h).sweep = (s.home h).sweep := (congrArg Home.sweep hhome :)
  have hreclaim : (t.home h).reclaim = (s.home h).reclaim := (congrArg Home.reclaim hhome :)
  have hurgent : (t.home h).urgent = (s.home h).urgent := (congrArg Home.urgent hhome :)
  have hretrain : t.retraining = s.retraining := (congrArg State.retraining w.ground :)
  simp only [State.admits, busy, shut, reserved, htxns, hsweep, hreclaim, hurgent, hretrain]

theorem UnitWritten.lineFree (w : UnitWritten s t u) (c who : Nat) : t.lineFree c who u = s.lineFree c who u := by
  have hnear : t.homeNear (homeOf u) = s.homeNear (homeOf u) := (congrArg (fun x : State => x.homeNear (homeOf u)) w.ground :)
  have htxns : (t.home (homeOf u)).txns = (s.home (homeOf u)).txns := (congrArg Home.txns (w.homes (homeOf u)) :)
  simp only [State.lineFree, hnear, w.admits, quietLine, busy, htxns, missOf, w.misses, w.calm]

theorem UnitWritten.storeRefusal (w : UnitWritten s t u) (key x : Nat) : t.storeRefusal key x = s.storeRefusal key x := by
  have hkey : t.keyAt key = s.keyAt key := (congrArg (fun y : State => y.keyAt key) w.ground :)
  have hreserve : t.inReserve x = s.inReserve x := (congrArg (fun y : State => y.inReserve x) w.ground :)
  have hdom (i : Nat) : t.domOn i = s.domOn i := (congrArg (fun y : State => y.domOn i) w.ground :)
  have hstate (p : Nat) : t.recState p = s.recState p := (congrArg (fun y : State => y.recState p) w.ground :)
  have hout (p : Nat) : (t.part p).stackOut = (s.part p).stackOut := (congrArg Part.stackOut (w.inside p) :)
  have hjoined (p : Nat) : (t.part p).joined = (s.part p).joined := (congrArg Part.joined (w.inside p) :)
  have hhome (h : Nat) : t.homeOut h = s.homeOut h := by
    rw [homeOut, stackOut, hdom, hdom, hstate, hout, hjoined, homeOut, stackOut]
  rw [State.storeRefusal, hkey, hreserve, hhome, State.storeRefusal]

/-! ### A unit written in two pieces -/

/-- What a write of a unit writes. -/
def stored (s : State) : List Host.Cell × Sparse UnitMeta := (s.mem, s.units)

/-- What memory holds is in canonical form. -/
structure StoreWf (s : State) : Prop where
  mem : Sparse.wf (fun _ => (0 : Byte)) s.mem = true
  units : Sparse.wf (fun _ => ⟨0, false⟩) s.units = true
  flips : Sparse.wf (fun _ => 0) s.flips = true

theorem StoreWf.pullBack (h : s.StoreWf) (u : Nat) : (s.pullBack u).StoreWf := by
  unfold State.pullBack
  split
  · exact h
  next l _ =>
    unfold flushLine
    split
    · have hsame := unreported_reportSec s l.addr 64
      have hmem : (s.reportSec l.addr 64).mem = s.mem := (congrArg State.mem hsame :)
      have hunits : (s.reportSec l.addr 64).units = s.units := (congrArg State.units hsame :)
      have hflips : (s.reportSec l.addr 64).flips = s.flips := (congrArg State.flips hsame :)
      exact ⟨hmem ▸ h.mem, hunits ▸ h.units, hflips ▸ h.flips⟩
    · exact ⟨putBytes_wf _ _ _ h.mem, Sparse.wf_put _ h.units, Sparse.wf_put _ h.flips⟩

theorem StoreWf.unitCleared (h : s.StoreWf) (a n : Nat) : (s.unitCleared a n).StoreWf := by
  have hstrike : (s.strike a n).StoreWf := ⟨h.mem, h.units, h.flips⟩
  obtain ⟨hmem, hunits, hflips⟩ := hstrike.pullBack (a / 64 * 64)
  exact ⟨hmem, hunits, hflips⟩

theorem length_unitPlain (s : State) (u : Nat) : (s.unitPlain u).length = 64 := by
  unfold unitPlain
  split
  · exact List.length_replicate
  · rw [List.length_map, List.length_range]

theorem length_unitUnder (s : State) (key u : Nat) : (s.unitUnder key u).length = 64 := by
  unfold unitUnder
  simp only
  split
  · exact length_unitPlain s u
  · rw [List.length_map, List.length_range]

section
variable {key : Nat} {d : List Byte} {poison : Bool}

/-- A unit that has been written is sound. -/
theorem flips_putUnit (h : Sparse.wf (fun _ => (0 : Nat)) s.flips = true) (key u : Nat) (d : List Byte) (poison : Bool) :
    Sparse.get (fun _ => 0) (s.putUnit key u d poison).flips u = 0 := Sparse.get_put 0 (Sparse.wf_sorted h)

theorem unscrubbed_putUnit (h : Sparse.wf (fun _ => (0 : Nat)) s.flips = true) : (s.putUnit key u d poison).unscrubbed u = false := by
  rw [unscrubbed, flips_putUnit h]
  rfl

theorem broken_putUnit (h : Sparse.wf (fun _ => (0 : Nat)) s.flips = true) : (s.putUnit key u d poison).broken u = false := by
  rw [broken, flips_putUnit h]
  rfl

theorem unitMeta_putUnit (h : s.StoreWf) : (s.putUnit key u d poison).unitMeta u = ⟨key, poison⟩ := by
  rw [unitMeta, unscrubbed_putUnit h.flips]
  exact Sparse.get_put _ (Sparse.wf_sorted h.units)

/-- A unit reads as it was written, under its key. -/
theorem unitUnder_putUnit (h : s.StoreWf) (hd : d.length = 64) : (s.putUnit key u d poison).unitUnder key u = d := by
  rw [unitUnder, unitMeta_putUnit h, unitPlain, unscrubbed_putUnit h.flips]
  simp only [if_true, Bool.false_eq_true, if_false]
  refine List.ext_getElem (by rw [List.length_map, List.length_range, hd]) (fun i hi hd' => ?_)
  rw [List.getElem_map, List.getElem_range]
  exact get_putBytes _ _ _ _ h.mem hd'

end

theorem putPiece_part {key : Nat} {poison : Bool} (hbs : bs.length ≠ 64) :
    s.putPiece key a bs poison = s.putUnit key (a / 64 * 64) (overlay (s.unitUnder key (a / 64 * 64)) (a % 64) bs)
      (poison || (s.unitMeta (a / 64 * 64)).poison || s.broken (a / 64 * 64)) := if_neg hbs

/-- Two pieces put into a unit are the whole put into it. -/
theorem stored_putPiece_putPiece {n : Nat} (h : s.StoreWf) (key : Nat) (hn : n ≤ bs.length) (h8 : bs.length ≤ 8) (hline : a % 64 + bs.length ≤ 64)
    (hin : a % 64 + n < 64) :
    ((s.putPiece key a (bs.take n) false).putPiece key (a + n) (bs.drop n) false).stored = (s.putPiece key a bs false).stored := by
  have htake : (bs.take n).length ≠ 64 := by rw [List.length_take]; omega
  have hdrop : (bs.drop n).length ≠ 64 := by rw [List.length_drop]; omega
  have hunit : (a + n) / 64 * 64 = a / 64 * 64 := by omega
  have hoff : (a + n) % 64 = a % 64 + n := by omega
  have hlen : (overlay (s.unitUnder key (a / 64 * 64)) (a % 64) (bs.take n)).length = 64 := by
    rw [length_overlay, length_unitUnder]
    rw [length_unitUnder, List.length_take]
    omega
  have hunder := length_unitUnder s key (a / 64 * 64)
  rw [putPiece_part htake, putPiece_part hdrop, putPiece_part (by omega : bs.length ≠ 64), hunit, hoff, unitUnder_putUnit h hlen,
    unitMeta_putUnit h, broken_putUnit h.flips, overlay_overlay hn (hunder.symm ▸ hline)]
  simp only [Bool.false_or, Bool.or_false, stored, putUnit]
  rw [putBytes_putBytes h.mem (hlen.trans (by rw [length_overlay, hunder]; omega)), Sparse.put_put _ _ h.units]

/-- What a write merges from the caches does not depend on the running jobs. -/
theorem pullBack_jobs (s : State) (js : List Job) (u : Nat) :
    (({ s with jobs := js } : State).pullBack u).unreported = { (s.pullBack u).unreported with jobs := js } := by
  have hholder : ({ s with jobs := js } : State).dirtyHolder u = s.dirtyHolder u := rfl
  unfold State.pullBack
  rw [hholder]
  cases s.dirtyHolder u with
  | none => rfl
  | some l =>
    have hkey : ({ s with jobs := js } : State).keyAt l.key = s.keyAt l.key := rfl
    simp only [flushLine, hkey]
    split
    · simp only [unreported_reportSec]
      rfl
    · rfl

/-- What a write of a cleared unit stores does not depend on the range that was struck. -/
theorem stored_putPiece_unitCleared (s : State) (a n m key : Nat) (bs : List Byte) (poison : Bool) :
    ((s.unitCleared a n).putPiece key a bs poison).stored = ((s.unitCleared a m).putPiece key a bs poison).stored := by
  have hput (x : State) : (x.putPiece key a bs poison).stored =
      (({ x.unreported with jobs := [] } : State).putPiece key a bs poison).stored := by
    unfold State.putPiece
    simp only
    split <;> rfl
  have hcleared (i : Nat) : ({ (s.unitCleared a i).unreported with jobs := [] } : State) =
      { ((s.pullBack (a / 64 * 64)).dropCopies (a / 64 * 64)).unreported with jobs := [] } :=
    (congrArg (fun x : State => ({ x.dropCopies (a / 64 * 64) with jobs := [] } : State))
      (s.pullBack_jobs (s.strike a i).jobs (a / 64 * 64)) :)
  rw [hput, hcleared, ← hcleared m, ← hput]

theorem dirtyHolder_dropCopies (s : State) (u : Nat) : (s.dropCopies u).dirtyHolder u = none := by
  refine List.findSome?_eq_none_iff.mpr (fun e he => List.find?_eq_none.mpr (fun l hl hdirty => ?_))
  obtain ⟨x, -, hx⟩ := List.mem_filterMap.mp he
  simp only [Option.ite_none_left_eq_some, Option.some.injEq] at hx
  obtain ⟨-, rfl⟩ := hx
  have hother := (List.mem_filter.mp hl).2
  simp only [Bool.and_eq_true, beq_iff_eq] at hdirty
  simp [hdirty.1] at hother

/-- A write under a key, outside the reserve. -/
theorem writeUnit_open {poison : Bool} (hkey : s.keyAt k ≠ 0) (hopen : s.inReserve a = false) :
    s.writeUnit k a bs poison = (s.unitCleared a bs.length).putPiece (s.keyAt k) a bs poison := by
  have hreserve : s.inReserve (a / 64 * 64) = false := (inReserve_line (by omega)).trans hopen
  rw [writeUnit_eq, hreserve, if_neg]
  simpa using hkey

theorem UnitWritten.writeUnit {poison : Bool} (h : s.Canonical) (hkey : s.keyAt k ≠ 0) (hopen : s.inReserve a = false) :
    UnitWritten s (s.writeUnit k a bs poison) (a / 64 * 64) := by
  rw [writeUnit_open hkey hopen]
  exact (UnitWritten.unitCleared h a bs.length).trans (.putPiece _ _ _ _ _ _)

/-- A write of a unit whose copies have gone takes nothing from a cache. -/
theorem stored_putPiece_again (s : State) (a n x key key' : Nat) (bs ds : List Byte) (poison poison' : Bool) (hx : x / 64 * 64 = a / 64 * 64) :
    ((((s.unitCleared a n).putPiece key a bs poison).unitCleared x ds.length).putPiece key' x ds poison').stored =
      (((s.unitCleared a n).putPiece key a bs poison).putPiece key' x ds poison').stored := by
  let t := (s.unitCleared a n).putPiece key a bs poison
  have hagents : t.agents = (s.unitCleared a n).agents := by
    change ((s.unitCleared a n).putPiece key a bs poison).agents = _
    unfold State.putPiece
    simp only
    split <;> rfl
  have hnone : (t.strike x ds.length).dirtyHolder (a / 64 * 64) = none := by
    change t.agents.findSome? _ = none
    rw [hagents]
    exact dirtyHolder_dropCopies ((s.strike a n).pullBack (a / 64 * 64)) _
  have hcleared : t.unitCleared x ds.length = (t.strike x ds.length).dropCopies (a / 64 * 64) := by
    rw [State.unitCleared, hx, State.pullBack, hnone]
  change ((t.unitCleared x ds.length).putPiece key' x ds poison').stored = (t.putPiece key' x ds poison').stored
  rw [hcleared]
  unfold State.putPiece
  simp only
  split <;> rfl

/-- A unit written in two pieces is the unit written at once. -/
theorem stored_writeUnit_writeUnit {n : Nat} (h : s.Canonical) (hkey : s.keyAt k ≠ 0) (hopen : s.inReserve a = false) (hn : n < bs.length)
    (h8 : bs.length ≤ 8) (hline : a % 64 + bs.length ≤ 64) :
    ((s.writeUnit k a (bs.take n) false).writeUnit k (a + n) (bs.drop n) false).stored = (s.writeUnit k a bs false).stored := by
  have hwf : s.StoreWf := ⟨h.mem, h.units, h.flips⟩
  have hfirst := UnitWritten.writeUnit (bs := bs.take n) (poison := false) h hkey hopen
  have hkey' : (s.writeUnit k a (bs.take n) false).keyAt k = s.keyAt k := (congrArg (fun x : State => x.keyAt k) hfirst.ground :)
  have hopen' : (s.writeUnit k a (bs.take n) false).inReserve (a + n) = false := by
    have hreserve : (s.writeUnit k a (bs.take n) false).inReserve (a + n) = s.inReserve (a + n) :=
      (congrArg (fun x : State => x.inReserve (a + n)) hfirst.ground :)
    rw [hreserve, inReserve_line (b := a) (by omega), hopen]
  rw [writeUnit_open (hkey'.trans_ne hkey) hopen', hkey', writeUnit_open hkey hopen, writeUnit_open hkey hopen,
    stored_putPiece_again _ _ _ _ _ _ _ _ _ _ (by omega : (a + n) / 64 * 64 = a / 64 * 64),
    stored_putPiece_putPiece (hwf.unitCleared a _) _ hn.le h8 hline (by omega)]
  exact stored_putPiece_unitCleared s a _ _ _ bs false

/-! ### An uncached store (R239) -/

theorem writeMem_line {poison : Bool} (h1 : 1 ≤ bs.length) (hline : a % 64 + bs.length ≤ 64) :
    s.writeMem k a bs poison = s.writeUnit k a bs poison := by
  simp only [writeMem, writeMemP, pieces_line h1 hline, List.foldl_cons, List.foldl_nil]

/-- A piece of an uncached store to a line that its home admits is written. -/
theorem performPiece_uncached {b : BufStore} (hattr : b.attr = .normalNc) (hu : a / 64 * 64 = u) (here : u < remoteBase)
    (hserved : s.storeRefusal b.key a = none) (hfree : s.lineFree c (naCore c) u = true) (h1 : 1 ≤ bs.length) (hline : a % 64 + bs.length ≤ 64) :
    s.performPiece c b a bs = some (s.writeUnit b.key a bs false) := by
  have hnc : ¬ b.attr = .normalWb := by
    rw [hattr]
    decide
  simp only [performPiece, hattr, if_true, hu, if_neg (Nat.not_le.mpr here), hserved, hfree, writeMem_line h1 hline]
  exact if_neg (by decide)

/-- A write of a unit changes memory, caches, directories, messages and fault records. -/
theorem ground_writeUnit (s : State) (k a : Nat) (bs : List Byte) (poison : Bool) : (s.writeUnit k a bs poison).ground = s.ground := by
  have hput (t : State) (key : Nat) : (t.putPiece key a bs poison).ground = t.ground := by
    unfold State.putPiece
    simp only
    split <;> rfl
  rw [writeUnit_eq]
  split
  · exact (congrArg ground (unreported_reportSec s a bs.length) :)
  · exact (hput _ _).trans (ground_pullBack (s.strike a bs.length) (a / 64 * 64))

/-- From s to t an uncached store has been performed: memory holds its bytes. -/
structure StoreDone (s t : State) (k a : Nat) (bs : List Byte) : Prop where
  ground : t.ground = s.ground
  stored : t.stored = (s.writeMem k a bs false).stored

/-- An uncached store within a line that its home admits is performed at once. -/
theorem performStore_uncached {b : BufStore} (h : s.Canonical) (hattr : b.attr = .normalNc) (hin : InLine b u) (hu : b.addr / 64 * 64 = u)
    (here : u < remoteBase) (hserved : s.storeRefusal b.key b.addr = none) (hkey : s.keyAt b.key ≠ 0) (hopen : s.inReserve b.addr = false)
    (hfree : s.lineFree c (naCore c) u = true) : ∃ t, s.performStore c b = some t ∧ StoreDone s t b.key b.addr b.data := by
  obtain ⟨h1, h8, -, hhigh⟩ := hin
  have hline : b.addr % 64 + b.data.length ≤ 64 := by omega
  have hwhole : s.writeMem b.key b.addr b.data false = s.writeUnit b.key b.addr b.data false := writeMem_line h1 hline
  rcases splitAt_eight (a := b.addr) h1 h8 with e | ⟨n, hn, hlen, e⟩
  · have hone := performPiece_uncached hattr hu here hserved hfree h1 hline
    exact ⟨s.writeUnit b.key b.addr b.data false, by simp only [performStore, e, List.foldl_cons, List.foldl_nil, Option.bind_some, hone],
      ground_writeUnit _ _ _ _ _, congrArg stored hwhole.symm⟩
  · let t := s.writeUnit b.key b.addr (b.data.take n) false
    have htake : (b.data.take n).length = n := by rw [List.length_take]; omega
    have hdrop : (b.data.drop n).length = b.data.length - n := List.length_drop
    have hunit : (b.addr + n) / 64 * 64 = u := by omega
    have hfirst : UnitWritten s t (b.addr / 64 * 64) := .writeUnit h hkey hopen
    have hserved' : t.storeRefusal b.key (b.addr + n) = none := by
      rw [hfirst.storeRefusal, storeRefusal_line (y := b.addr) (by omega), hserved]
    have hfree' : t.lineFree c (naCore c) u = true := by
      have hsame := hfirst.lineFree c (naCore c)
      rw [hu] at hsame
      exact hsame.trans hfree
    have hone : s.performPiece c b b.addr (b.data.take n) = some t :=
      performPiece_uncached hattr hu here hserved hfree (by omega) (by omega)
    have htwo : t.performPiece c b (b.addr + n) (b.data.drop n) = some (t.writeUnit b.key (b.addr + n) (b.data.drop n) false) :=
      performPiece_uncached hattr hunit here hserved' hfree' (by omega) (by omega)
    refine ⟨t.writeUnit b.key (b.addr + n) (b.data.drop n) false, ?_, ?_, ?_⟩
    · simp only [performStore, e, List.foldl_cons, List.foldl_nil, Option.bind_some, hone, htwo]
    · exact (ground_writeUnit _ _ _ _ _).trans (ground_writeUnit _ _ _ _ _)
    · rw [hwhole]
      exact stored_writeUnit_writeUnit h hkey hopen hlen h8 hline

end

end State

end Sys2Proof.Machine
end

section
/-! PROOFS. Loads and stores of a free core (R227, R230, R244, R262, R264). -/

namespace Sys2Proof.Machine

open State

namespace State

section
variable {s : State} {c a n : Nat}

/-- An uncached store that its home admits is performed, where no store waits before it. -/
theorem storeNc_admitted {b : BufStore} {t : State} (hbuf : (s.core c).buf = []) (hadmitted : s.Admitted (naCore c) b.addr b.data.length)
    (hdone : s.performStore c b = some t) : s.storeNc c b = t := by
  have hroom : s.bufferRoom c 1 = some s := by
    rw [bufferRoom, hbuf, List.length_nil, if_pos (by omega)]
  have hasked : s.askAll (naCore c) [⟨b.addr, b.data.length⟩] = (s, true) := by
    have hnone : s.shutLine (naCore c) [⟨b.addr, b.data.length⟩] = none := hadmitted
    simp only [askAll, hnone]
  simp only [storeNc, hroom, hbuf, List.any_nil, Bool.false_eq_true, if_false, hasked, if_true, hdone, Option.getD_some]

/-- The store of an access lies in the line of its address. -/
theorem CacheOk.inLine {bs : List Byte} {attr : MemAttr} {key : Nat} (ok : s.CacheOk c a bs.length) :
    InLine { addr := a, data := bs, attr := attr, key := key } (a / 64 * 64) := by
  have hline := ok.line
  exact ⟨ok.some_, ok.small, Nat.div_mul_le_self a 64, by simp only; omega⟩

theorem CacheOk.open_here (ok : s.CacheOk c a n) : s.inReserve a = false := (Bool.or_eq_false_iff.mp ok.open_).1

/-- A core that misses a line asks for it for its store. -/
theorem CacheOk.wantsLine {code : Nat} (ok : s.CacheOk c a n)
    (lacks : code = rqRdX ∧ s.lineOf c (a / 64 * 64) = none ∨
      code = rqUpg ∧ ∃ l, s.lineOf c (a / 64 * 64) = some l ∧ l.key = (s.core c).key ∧ l.st = .s) :
    WantsLine s c (a / 64 * 64) (s.core c).key code :=
  ⟨ok.line_here, ok.served (by omega), lacks⟩

end

end State

/-- Settles O55: a load takes the bytes at hand or waits for its line; a store is performed in the line, waits for it, or is written. -/
theorem loadsAndStores : Obligations.LoadsAndStores := by
  unfold Obligations.LoadsAndStores
  intro c addr size v dep s h free ok hflips hdep a u key bs quiet bare buffered
  have hc : c.val < 96 := c.isLt
  have hu : u % 64 = 0 := Nat.mul_mod_left _ _
  have hlen : bs.length = size := length_leBytes _ _
  have okb : s.CacheOk c a bs.length := hlen.symm ▸ ok
  have hload (attr : MemAttr) : exec (.load c addr size ⟨attr, dep⟩) s = .next (s.load c a size attr) :=
    exec_load_free free h hdep ok.some_ ok.small
  have hstore (attr : MemAttr) : exec (.store c addr size ⟨attr, dep⟩ v) s = s.store c a bs attr v :=
    exec_store_free v free h hdep ok.some_ ok.small
  have hcached := (hload .normalWb).trans (congrArg _ (load_cached ok))
  let b : BufStore := { addr := a, data := bs, attr := .normalWb, key := key }
  have hwb : exec (.store c addr size ⟨.normalWb, dep⟩ v) s = .next (s.storeCached c b) := (hstore .normalWb).trans (store_cached v okb)
  have hnc : exec (.store c addr size ⟨.normalNc, dep⟩ v) s = .next (s.storeNc c { b with attr := .normalNc }) :=
    (hstore .normalNc).trans (store_uncached v okb)
  have hin : InLine b u := okb.inLine
  have waits (hline : s.lineOf c u = none) (hslice : s.sliceHit c key u = none) (hmiss : s.missOf c u = none) :=
    loadOrMiss_waits h.agents hc ok free.buf hline hslice hmiss
  refine ⟨fun bytes hbytes hgood => ?hit, fun hline hslice hqueue => ?miss, fun hline hslice hmiss hqueue => ?queued,
    fun hadmitted hgood => ?uncached, fun l hl hkey hst => ?held, fun hmiss hqueue => ⟨fun hline => ?absent, fun l hl hkey hst => ?shared⟩,
    fun hadmitted hfree => ?written⟩
  case hit =>
    have used := usedLines_used (c := c) (key := key) h.agents ok.some_ ok.line
    have hdone : s.loadOrMiss c key a size =
        (s.usedLines c key a size).setLoaded c (BitVec.ofNat 64 (ofLeBytes (bytes.map (fun b => b.1)))) := by
      have hhit : s.loadOrMiss c key a size = (s.usedLines c key a size).loadDone c a bytes := by rw [loadOrMiss, hbytes]
      exact hhit.trans (loadDone_good hgood)
    obtain ⟨hloaded, hothers⟩ := core_setLoaded (c := c) (s := s.usedLines c key a size) (CoresWf.of_eq (s := s) h.cores used.cores)
      (BitVec.ofNat 64 (ofLeBytes (bytes.map (fun b => b.1))))
    have hcore (k : Nat) : (s.usedLines c key a size).core k = s.core k :=
      congrArg (fun m => Sparse.get (fun _ => CoreSt.init) m k) used.cores
    exact ⟨_, hcached.trans (congrArg _ hdone), hloaded, used.own, used.lines, used.net, used.mem, used.regs, used.ts,
      fun k hk => (hothers k hk).trans (hcore k)⟩
  case miss =>
    have w := waits hline hslice (missOf_none_of_mustQueue hc hqueue)
    have hcore (k : Nat) : (s.loadOrMiss c key a size).core k = s.core k := (congrArg (fun x : State => x.core k) w.rest :)
    exact ⟨_, hcached, w.sent hqueue, w.noted, congrArg CoreSt.loaded (hcore c), (congrArg State.mem w.rest :),
      (congrArg State.regs w.rest :), (congrArg State.ts w.rest :), fun k _ => hcore k⟩
  case queued =>
    have w := waits hline hslice hmiss
    have hcore (k : Nat) : (s.loadOrMiss c key a size).core k = s.core k := (congrArg (fun x : State => x.core k) w.rest :)
    exact ⟨_, hcached, w.waits hqueue, hqueue ▸ w.queued, congrArg CoreSt.loaded (hcore c), (congrArg State.mem w.rest :),
      (congrArg State.regs w.rest :), (congrArg State.ts w.rest :), fun k _ => hcore k⟩
  case uncached =>
    have hdone := (load_uncached ok).trans (loadNc_admitted ok free.buf hflips ok.key hadmitted hgood)
    obtain ⟨hloaded, hothers⟩ := core_setLoaded (c := c) (s := { s with fresh := s.fresh + 1 }) h.cores
      (BitVec.ofNat 64 (ofLeBytes (s.readMem key a size).1))
    exact ⟨_, (hload .normalNc).trans (congrArg _ hdone), hloaded, rfl, rfl, rfl, rfl, hothers⟩
  case held =>
    obtain ⟨t, takes, hdone⟩ := storeCached_held h hin rfl free.buf hl hkey hst hu
    have hcores : t.cores = (s.modCore c (fun x => { x with buf := storePieces b })).cores := (congrArg State.cores takes.rest :)
    have hothers (k : Nat) (hk : k ≠ c) : t.core k = s.core k :=
      (congrArg (fun m => Sparse.get (fun _ => CoreSt.init) m k) hcores).trans (core_setCore_ne _ hk)
    have hdata : l.taken a bs = { l with st := .m, data := layOver l.data u a bs } := by
      rw [Line.taken, addr_of_lineOf hl]
    rw [hdone] at hwb
    refine ⟨_, hwb, ?_, hdata ▸ takes.line, takes.lines, (congrArg State.net takes.rest :), (congrArg State.mem takes.rest :),
      (congrArg State.regs takes.rest :), (congrArg State.ts takes.rest :), fun k hk => (core_setCore_ne _ hk).trans (hothers k hk)⟩
    exact congrArg CoreSt.buf (core_setCore_of_wf _ (hcores ▸ Sparse.wf_put _ h.cores))
  case absent =>
    obtain ⟨r, hsent⟩ := storeCached_waits h hin free.buf (ok.wantsLine (.inl ⟨rfl, hline⟩)) hmiss hqueue hu
    have hcore (k : Nat) : (s.storeCached c b).core k = (s.modCore c (fun x => { x with buf := storePieces b })).core k :=
      (congrArg (fun x : State => x.core k) r.rest :)
    exact ⟨_, hwb, hsent, congrArg CoreSt.buf ((hcore c).trans (core_setCore_of_wf _ h.cores)), (congrArg State.mem r.rest :),
      (congrArg State.regs r.rest :), (congrArg State.ts r.rest :), fun k hk => (hcore k).trans (core_setCore_ne _ hk)⟩
  case shared =>
    obtain ⟨r, hsent⟩ := storeCached_waits h hin free.buf (ok.wantsLine (.inr ⟨rfl, l, hl, hkey, hst⟩)) hmiss hqueue hu
    have hcore (k : Nat) : (s.storeCached c b).core k = (s.modCore c (fun x => { x with buf := storePieces b })).core k :=
      (congrArg (fun x : State => x.core k) r.rest :)
    exact ⟨_, hwb, hsent, congrArg CoreSt.buf ((hcore c).trans (core_setCore_of_wf _ h.cores)), (r.lineOf h.agents c u).trans hl,
      (congrArg State.mem r.rest :), (congrArg State.regs r.rest :), (congrArg State.ts r.rest :),
      fun k hk => (hcore k).trans (core_setCore_ne _ hk)⟩
  case written =>
    have hin' : InLine { b with attr := .normalNc } u := okb.inLine
    obtain ⟨t, hdone, written⟩ := performStore_uncached h rfl hin' rfl ok.line_here (ok.served rfl) ok.key ok.open_here hfree
    have hadmitted' : s.Admitted (naCore c) a bs.length := hlen.symm ▸ hadmitted
    have hcore (k : Nat) : t.core k = s.core k := (congrArg (fun x : State => x.core k) written.ground :)
    exact ⟨t, hnc.trans (congrArg _ (storeNc_admitted free.buf hadmitted' hdone)), (congrArg CoreSt.buf (hcore c)).trans free.buf,
      congrArg Prod.fst written.stored, congrArg Prod.snd written.stored, (congrArg State.regs written.ground :),
      (congrArg State.ts written.ground :), fun k _ => hcore k⟩

end Sys2Proof.Machine
end

section
/-! PROOFS. Registers and power domains in canonical form, through the draining of a quad and the reset of a domain (R235, R240, R327). -/

namespace Sys2Proof.Machine

open State

namespace State

/-- The registers and the domains are in canonical form. -/
def PowerWf (s : State) : Prop := s.RegsWf ∧ Sparse.wf (fun _ => Dom.init) s.doms = true

section
variable {s t : State}

theorem Canonical.power (h : s.Canonical) : s.PowerWf := ⟨h.regs, h.doms⟩

theorem PowerWf.of_eq (h : s.PowerWf) (hregs : t.regs = s.regs) (hdoms : t.doms = s.doms) : t.PowerWf :=
  ⟨(congrArg (Sparse.wf _) hregs).trans h.1, (congrArg (Sparse.wf _) hdoms).trans h.2⟩

theorem PowerWf.of_ground (h : s.PowerWf) (e : t.ground = s.ground) : t.PowerWf :=
  h.of_eq (congrArg State.regs e :) (congrArg State.doms e :)

theorem PowerWf.of_unreported (h : s.PowerWf) (e : t.unreported = s.unreported) : t.PowerWf :=
  h.of_eq (congrArg State.regs e :) (congrArg State.doms e :)

theorem PowerWf.wr (h : s.PowerWf) (a : Nat) (w : Word) : (s.wr a w).PowerWf := ⟨h.1.wr a w, h.2⟩

theorem PowerWf.setFld (h : s.PowerWf) (a : Nat) (f : Fld) (v : Nat) : (s.setFld a f v).PowerWf := h.wr a _

theorem PowerWf.setDom (h : s.PowerWf) (i : Nat) (x : Dom) : (s.setDom i x).PowerWf := ⟨h.1, Sparse.wf_put x h.2⟩

theorem PowerWf.foldl {α : Type} (h : s.PowerWf) (xs : List α) {f : State → α → State} (hf : ∀ t x, t.PowerWf → (f t x).PowerWf) :
    (xs.foldl f s).PowerWf := by
  induction xs generalizing s with
  | nil => exact h
  | cons x xs ih => exact ih (hf s x h)

/-- What every step of a chain that may fail keeps, the chain keeps. -/
theorem PowerWf.foldl_bind {α : Type} {f : State → α → Option State} (hf : ∀ {x y : State} {a}, x.PowerWf → f x a = some y → y.PowerWf)
    (xs : List α) {o : Option State} (ho : ∀ x, o = some x → x.PowerWf) (e : xs.foldl (fun acc a => acc.bind (fun x => f x a)) o = some t) :
    t.PowerWf := by
  induction xs generalizing o with
  | nil => exact ho t e
  | cons a xs ih =>
    refine ih (fun y hy => ?_) e
    obtain ⟨x, hx, hstep⟩ := Option.bind_eq_some_iff.mp hy
    exact hf (ho x hx) hstep

/-! ### Lines that are written back -/

theorem ground_writeMem (s : State) (k a : Nat) (bs : List Byte) (poison : Bool) : (s.writeMem k a bs poison).ground = s.ground := by
  unfold writeMem writeMemP
  induction pieces a bs generalizing s with
  | nil => rfl
  | cons x xs ih => exact (ih _).trans (s.ground_writeUnit _ _ _ _)

theorem PowerWf.faultCore (h : s.PowerWf) (c cls a n : Nat) : (s.faultCore c cls a n).PowerWf := by
  obtain ⟨held, mg, e⟩ := s.faultCore_eq c cls a n
  rw [e]
  exact h

theorem PowerWf.mended (h : s.PowerWf) (u : Nat) : (s.mended u).PowerWf := by
  have hreported (t : State) (ht : t.PowerWf) (n : Nat) (r : FRec) : (t.reportHome n r).1.PowerWf := by
    unfold reportHome
    split <;> exact ht.of_unreported (unreported_report t _ _)
  unfold State.mended
  split
  · exact h
  · unfold foundUnit
    simp only
    split
    · exact PowerWf.setFld (s := { s with flips := Sparse.put (fun _ => 0) s.flips u 0 }) h _ _ _
    split
    · exact h
    · refine hreported _ (PowerWf.setFld ?_ _ _ _) _ _
      exact h

theorem PowerWf.forgetLine (h : s.PowerWf) (a u : Nat) : (s.forgetLine a u).PowerWf := by
  obtain ⟨ks, hs, e⟩ := s.forgetLine_eq a u
  rw [e]
  exact h

theorem PowerWf.coreLost (h : s.PowerWf) (a index pa : Nat) : (s.coreLost a index pa).PowerWf := by
  unfold State.coreLost
  simp only
  repeat' split
  all_goals exact h

theorem PowerWf.sendCore (h : s.PowerWf) (a kind pa len poison flag index : Nat) (data : List Byte) :
    (s.sendCore a kind pa len poison flag index data).PowerWf := by
  unfold State.sendCore
  simp only
  split
  · obtain ⟨m, e⟩ := s.unreported_linkFault coresPP (pa / 2 ^ 45) 0
    exact (PowerWf.of_unreported (s := { s with linkFaultAt := m }) h e).coreLost _ _ _
  · exact h

theorem PowerWf.writeHome (h : s.PowerWf) (c : Nat) (l : Line) : (s.writeHome c l).PowerWf := by
  unfold State.writeHome
  split
  · exact h.sendCore _ _ _ _ _ _ _ _
  split
  · exact h.of_ground (s.ground_flushLine l)
  split
  · exact h.faultCore _ _ _ _
  · exact h

theorem PowerWf.giveUp (h : s.PowerWf) (a : Nat) (l : Line) : (s.giveUp a l).PowerWf := by
  unfold State.giveUp
  split
  · exact (h.writeHome a l).forgetLine _ _
  · exact h.forgetLine _ _

theorem PowerWf.emptyAgent (h : s.PowerWf) (a : Nat) : (s.emptyAgent a).PowerWf := h.foldl _ (fun _ l ht => ht.giveUp a l)

/-! ### Stores that are performed -/

theorem PowerWf.fillL2 (h : s.PowerWf) {c : Nat} {l : Line} (e : s.fillL2 c l = some t) : t.PowerWf := by
  unfold State.fillL2 at e
  simp only at e
  split at e
  · exact Option.some.inj e ▸ h
  split at e
  · cases e
  · next v _ => exact Option.some.inj e ▸ PowerWf.giveUp (s := { s with fresh := s.fresh + 1 }) h c v

theorem PowerWf.setBucket (h : s.PowerWf) (n u : Nat) : (s.setBucket n u).PowerWf := by
  have hsweep (x : State) (hx : x.PowerWf) : (x.startSweep n).PowerWf := by
    unfold startSweep
    simp only
    split
    · exact hx
    split
    · exact hx
    · exact PowerWf.setFld (s := x.modHome n _) hx _ _ _
  unfold State.setBucket
  split
  · exact h
  · exact hsweep _ h

theorem PowerWf.takeWay (h : s.PowerWf) {n u : Nat} (e : s.takeWay n u = some t) : t.PowerWf := by
  unfold State.takeWay at e
  split at e
  · exact Option.some.inj e ▸ h
  · next v _ => exact Option.some.inj e ▸ PowerWf.setBucket (s := s.dirRemove n v) h n v
  · cases e
  · cases e

theorem PowerWf.takeExclusive (h : s.PowerWf) {c u key : Nat} (e : s.takeExclusive c u key = some t) : t.PowerWf := by
  obtain ⟨placed, hplaced, rfl⟩ := Option.map_eq_some_iff.mp e
  obtain ⟨way, hway, hfill⟩ := Option.bind_eq_some_iff.mp hplaced
  have hpulled : (s.pullBack u).PowerWf := h.of_ground (s.ground_pullBack u)
  have hready : way.PowerWf := by
    refine PowerWf.takeWay (PowerWf.mended ?_ u) hway
    exact hpulled
  have hplacedWf : placed.PowerWf := PowerWf.fillL2 (s := way.dirPut (homeOf u) u (.owned c)) hready hfill
  exact hplacedWf

theorem PowerWf.performPiece (h : s.PowerWf) {c a : Nat} {b : BufStore} {bs : List Byte} (e : s.performPiece c b a bs = some t) : t.PowerWf := by
  unfold State.performPiece at e
  simp only at e
  split at e
  · exact Option.some.inj e ▸ h
  split at e
  · cases e
  split at e
  · exact Option.some.inj e ▸ h.faultCore _ _ _ _
  split at e
  · split at e
    · obtain ⟨owner, howner, hstored⟩ := Option.bind_eq_some_iff.mp e
      obtain ⟨l, -, rfl⟩ := Option.map_eq_some_iff.mp hstored
      have hownerWf : owner.PowerWf := h.takeExclusive howner
      exact hownerWf
    · cases e
  split at e
  · exact Option.some.inj e ▸ h.of_ground (s.ground_writeMem _ _ _ _)
  · cases e

theorem PowerWf.drainStores (h : s.PowerWf) {c : Nat} (e : s.drainStores c = some t) : t.PowerWf := by
  obtain ⟨done, hdone, rfl⟩ := Option.map_eq_some_iff.mp e
  have hstore {x y : State} {b : BufStore} (hx : x.PowerWf) (he : x.performStore c b = some y) : y.PowerWf :=
    PowerWf.foldl_bind (fun hx he => hx.performPiece he) _ (fun _ hx' => Option.some.inj hx' ▸ hx) he
  have hdoneWf : done.PowerWf := PowerWf.foldl_bind hstore _ (fun _ hx => Option.some.inj hx ▸ h) hdone
  exact hdoneWf

/-- A quad that has drained (R240). -/
theorem PowerWf.quadDrained (h : s.PowerWf) {q : Nat} (e : s.quadDrained q = some t) : t.PowerWf := by
  unfold State.quadDrained at e
  split at e
  · cases e
  · obtain ⟨done, hdone, rfl⟩ := Option.map_eq_some_iff.mp e
    have hdone' : done.PowerWf := PowerWf.foldl_bind (fun hx he => hx.drainStores he) _ (fun _ hx => Option.some.inj hx ▸ h) hdone
    exact hdone'.foldl _ (fun _ c ht => ht.emptyAgent c)

/-! ### A domain in its reset state (R327) -/

theorem PowerWf.blockReset (h : s.PowerWf) (i : Nat) : (s.blockReset i).PowerWf := by
  have hlinks (t : State) (ht : t.PowerWf) (ls : List Nat) : (ls.foldl (fun t l => t.dropLink l lsDOWN) t).PowerWf :=
    ht.foldl _ (fun _ _ hx => hx.wr _ _)
  have hports (t : State) (ht : t.PowerWf) (ps : List Nat) : (ps.foldl (fun t p => t.setPort p Port.init) t).PowerWf :=
    ht.foldl _ (fun _ _ hx => hx)
  have hreset : (s.resetDoms (fun d => d == i)).PowerWf := ⟨h.1.resetDoms _, h.2⟩
  unfold State.blockReset
  simp only
  generalize hbase : (if i = 110 then _ else _ : State) = base
  have hb : base.PowerWf := by
    rw [← hbase]
    split
    · exact (hlinks _ hreset _).foldl _ (fun _ _ hx => hx.setFld _ _ _)
    · exact hlinks _ hreset _
  split
  · split
    · exact hb
    split <;> exact hb
  split
  · exact hb
  split
  · exact hb.foldl _ (fun _ _ hx => hx)
  split
  · exact hb.foldl _ (fun _ _ hx => hx)
  split
  · exact hb
  split
  · exact hb
  split
  · exact hports _ hb _
  split
  · exact hports _ hb _
  split <;> exact hb

end

end State

end Sys2Proof.Machine
end

section
/-! PROOFS. Domains that come up and go off (R235, R240, R283, R327). -/

namespace Sys2Proof.Machine

open State

namespace State

section
variable {s t : State} {i : Nat} {on : Bool}

/-- A domain is on or off, out of reset, and its register shows it. -/
structure DomSet (t : State) (i : Nat) (on : Bool) : Prop where
  regs : t.RegsWf
  dom : t.dom i = { Dom.init with on := on }
  shown : t.fld (a_PW_DOMSTAT i) PW_DOMSTAT_ON = b2n on
  idle : t.fld (a_PW_DOMSTAT i) PW_DOMSTAT_BUSY = 0

theorem PowerWf.setOn_set (h : s.PowerWf) (i : Nat) (on : Bool) : DomSet (s.setOn i on) i on := by
  have hset : (s.setDom i { Dom.init with on := on }).RegsWf := h.1
  have hon := hset.setFld (a_PW_DOMSTAT i) PW_DOMSTAT_ON (b2n on)
  have hbusy := hon.setFld (a_PW_DOMSTAT i) PW_DOMSTAT_BUSY 0
  have hbit : b2n on % 2 ^ PW_DOMSTAT_ON.width = b2n on := by cases on <;> rfl
  have onSound : PW_DOMSTAT_ON.Sound := ⟨by decide, by decide⟩
  have busySound : PW_DOMSTAT_BUSY.Sound := ⟨by decide, by decide⟩
  have dampedSound : PW_DOMSTAT_DAMPED.Sound := ⟨by decide, by decide⟩
  have onBusy : PW_DOMSTAT_ON.Apart PW_DOMSTAT_BUSY := Or.inl (by decide)
  have onDamped : PW_DOMSTAT_ON.Apart PW_DOMSTAT_DAMPED := Or.inl (by decide)
  have busyDamped : PW_DOMSTAT_BUSY.Apart PW_DOMSTAT_DAMPED := Or.inl (by decide)
  refine ⟨hbusy.setFld _ _ _, Sparse.get_put _ (Sparse.wf_sorted h.2), ?_, ?_⟩
  · rw [setOn, hbusy.fld_setFld_apart _ _ dampedSound onSound onDamped, hon.fld_setFld_apart _ _ busySound onSound onBusy,
      hset.fld_setFld _ _ onSound, hbit]
  · rw [setOn, hbusy.fld_setFld_apart _ _ dampedSound busySound busyDamped, hon.fld_setFld _ _ busySound]
    exact Nat.zero_mod _

theorem DomSet.of_eq (d : DomSet s i on) (hregs : t.regs = s.regs) (hdoms : t.doms = s.doms) : DomSet t i on where
  regs := (congrArg (Sparse.wf _) hregs).trans d.regs
  dom := (congrArg (fun m => Sparse.get (fun _ => Dom.init) m i) hdoms).trans d.dom
  shown := (congrArg (fun m => PW_DOMSTAT_ON.get (Sparse.get regReset m (a_PW_DOMSTAT i))) hregs).trans d.shown
  idle := (congrArg (fun m => PW_DOMSTAT_BUSY.get (Sparse.get regReset m (a_PW_DOMSTAT i))) hregs).trans d.idle

theorem DomSet.wr (d : DomSet s i on) {a : Nat} (w : Word) (ha : a_PW_DOMSTAT i ≠ a) : DomSet (s.wr a w) i on where
  regs := d.regs.wr a w
  dom := d.dom
  shown := (congrArg PW_DOMSTAT_ON.get (rd_wr_ne s a _ w ha)).trans d.shown
  idle := (congrArg PW_DOMSTAT_BUSY.get (rd_wr_ne s a _ w ha)).trans d.idle

theorem DomSet.setFld (d : DomSet s i on) {a : Nat} (f : Fld) (v : Nat) (ha : a_PW_DOMSTAT i ≠ a) : DomSet (s.setFld a f v) i on := d.wr _ ha

theorem DomSet.foldl {α : Type} (d : DomSet s i on) (xs : List α) {f : State → α → State} (hf : ∀ t x, DomSet t i on → DomSet (f t x) i on) :
    DomSet (xs.foldl f s) i on := by
  induction xs generalizing s with
  | nil => exact d
  | cons x xs ih => exact ih (hf s x d)

/-- A domain's two registers are two. -/
theorem domstat_ne_domctl (i : Nat) : a_PW_DOMSTAT i ≠ a_PW_DOMCTL i := by
  simp only [a_PW_DOMSTAT, a_PW_DOMCTL]
  omega

/-! ### A domain comes up (R327) -/

theorem mem_foldl {α : Type} (xs : List α) {f : State → α → State} (hf : ∀ t x, (f t x).mem = t.mem) (s : State) : (xs.foldl f s).mem = s.mem := by
  induction xs generalizing s with
  | nil => rfl
  | cons x xs ih => exact (ih _).trans (hf s x)

theorem mem_blockReset (s : State) (i : Nat) : (s.blockReset i).mem = s.mem := by
  have hlinks (t : State) (ls : List Nat) : (ls.foldl (fun t l => t.dropLink l lsDOWN) t).mem = t.mem :=
    mem_foldl ls (f := fun t l => t.dropLink l lsDOWN) (fun _ _ => rfl) t
  have hports (t : State) (ps : List Nat) : (ps.foldl (fun t p => t.setPort p Port.init) t).mem = t.mem :=
    mem_foldl ps (f := fun t p => t.setPort p Port.init) (fun _ _ => rfl) t
  unfold State.blockReset
  simp only
  generalize hbase : (if i = 110 then _ else _ : State) = base
  have hb : base.mem = s.mem := by
    rw [← hbase]
    split
    · refine (mem_foldl _ ?_ _).trans ((hlinks _ _).trans rfl)
      exact fun _ _ => rfl
    · exact (hlinks _ _).trans rfl
  split
  · split
    · exact hb
    split <;> exact hb
  split
  · exact hb
  split
  · refine (mem_foldl _ ?_ _).trans hb
    exact fun _ _ => rfl
  split
  · refine (mem_foldl _ ?_ _).trans hb
    exact fun _ _ => rfl
  split
  · exact hb
  split
  · exact hb
  split
  · exact (hports _ _).trans hb
  split
  · exact (hports _ _).trans hb
  split <;> exact hb

/-- The interrupts that stay pending reach cores alone (R241). -/
theorem signalPending_eq (s : State) : ∃ cs, s.signalPending = { s with cores := cs } := by
  have hfold (ns : List Nat) (t : State) : ∃ cs, ns.foldl (fun t n => t.signalIrq n) t = { t with cores := cs } := by
    induction ns generalizing t with
    | nil => exact ⟨_, rfl⟩
    | cons n ns ih =>
      obtain ⟨cs, e⟩ := t.signalIrq_eq n
      obtain ⟨ds, f⟩ := ih (t.signalIrq n)
      exact ⟨ds, by rw [List.foldl_cons, f, e]⟩
  exact hfold _ s

theorem powerUp_set (h : s.Canonical) (hready : s.upReady i = true) (hrail : (s.dom i).on = true ∨ s.railOk (railOf i) = true)
    (hcfg : (s.dom i).cfgWrites = []) (hi : i ≠ 121) : DomSet (s.powerUp i) i true ∧ (s.powerUp i).mem = s.mem := by
  have hwindow : (!(s.dom i).on && !s.railOk (railOf i)) = false := by
    rcases hrail with hon | hok
    · simp [hon]
    · simp [hok]
  let t := (s.blockReset i).setOn i true
  have hset : DomSet t i true := (h.power.blockReset i).setOn_set i true
  have hmem : t.mem = s.mem := s.mem_blockReset i
  simp only [powerUp, hready, hwindow, hcfg, if_neg hi, Bool.not_true, Bool.false_eq_true, if_false, List.foldl_nil]
  generalize hroles : (if (decide (i = 110) && (s.dom i).on) = true then _ else _ : State) = u
  have hu : DomSet u i true ∧ u.mem = s.mem := by
    rw [← hroles]
    split
    next hpart =>
      obtain rfl : i = 110 := by
        rw [Bool.and_eq_true, decide_eq_true_eq] at hpart
        exact hpart.1
      have hrole (l : Nat) : a_PW_DOMSTAT 110 ≠ a_LK_ROLE l := by
        simp only [a_PW_DOMSTAT, a_LK_ROLE]
        omega
      refine ⟨hset.foldl _ (fun _ l d => d.wr _ (hrole l)), (mem_foldl _ ?_ _).trans hmem⟩
      exact fun _ _ => rfl
    · exact ⟨hset, hmem⟩
  split
  · obtain ⟨cs, e⟩ := u.signalPending_eq
    rw [e]
    exact ⟨hu.1.of_eq rfl rfl, hu.2⟩
  · exact hu

/-! ### A domain goes off (R235, R240, R283) -/

theorem PowerWf.endCell (h : s.PowerWf) (q : Nat) : (s.endCell q).PowerWf := by
  have hkeys := h.foldl (s.coresOf q) (f := fun t c => t.wr (a_HS_COREKEY c) (regReset (a_HS_COREKEY c))) (fun _ _ ht => ht.wr _ _)
  exact hkeys

theorem PowerWf.quadOff_set (h : s.PowerWf) (q : Nat) : DomSet (s.quadOff q) (78 + q) false := by
  have hended : (if s.hasCell q then (s.endCell q).logEvent 393 else s.endCell q).PowerWf := by
    split
    · exact (h.endCell q).of_eq rfl rfl
    · exact h.endCell q
  exact (hended.setOn_set (78 + q) false).setFld _ _ (domstat_ne_domctl (78 + q))

theorem powerDown_set (h : s.Canonical) (hoff : (s.dom i).switchOff = true) (hreset : (s.dom i).inReset = false) (hphase : s.mg.phase ≠ 0)
    (hquad : 78 ≤ i → i < 104 → (s.quadDrained (i - 78)).isSome = true)
    (hslices : 104 ≤ i → i < 108 → ∀ k, k < 8 → s.agentQuiet (96 + 8 * (i - 104) + k) = true) : DomSet (s.powerDown i) i false := by
  have hgoes : (!(s.dom i).switchOff || (s.dom i).inReset || s.mg.phase == 0) = false := by
    simp [hoff, hreset, hphase]
  unfold powerDown
  rw [hgoes]
  simp only [Bool.false_eq_true, if_false]
  by_cases hq : 78 ≤ i ∧ i < 104
  · obtain ⟨t, ht⟩ := Option.isSome_iff_exists.mp (hquad hq.1 hq.2)
    have hdrained : t.PowerWf := h.power.quadDrained ht
    have hquadSet := (hdrained.blockReset i).quadOff_set (i - 78)
    have hname : 78 + (i - 78) = i := by omega
    rw [hname] at hquadSet
    simpa only [hq, decide_true, Bool.and_self, if_true, ht] using hquadSet
  · have hnot : (decide (78 ≤ i) && decide (i < 104)) = false := by
      rw [Bool.and_eq_false_iff, decide_eq_false_iff_not, decide_eq_false_iff_not]
      omega
    have hquiet : (decide (104 ≤ i) && decide (i < 108) && !(List.range 8).all (fun k => s.agentQuiet (96 + 8 * (i - 104) + k))) = false := by
      by_cases hs : 104 ≤ i ∧ i < 108
      · have hall : (List.range 8).all (fun k => s.agentQuiet (96 + 8 * (i - 104) + k)) = true :=
          List.all_eq_true.mpr (fun k hk => hslices hs.1 hs.2 k (List.mem_range.mp hk))
        rw [hall, Bool.not_true, Bool.and_false]
      · have hout : (decide (104 ≤ i) && decide (i < 108)) = false := by
          rw [Bool.and_eq_false_iff, decide_eq_false_iff_not, decide_eq_false_iff_not]
          omega
        rw [hout, Bool.false_and]
    rw [hnot, hquiet]
    simp only [Bool.false_eq_true, if_false]
    refine PowerWf.setOn_set (PowerWf.blockReset ?_ i) i false
    split
    · exact h.power.foldl _ (fun _ _ ht => ht.emptyAgent _)
    split
    · exact (hostReset_canonical s h).power
    · exact h.power

end

end State

end Sys2Proof.Machine
end

section
/-! PROOFS. The steps of bring-up: the partition image, the join of a partition, T2 and its speed, finishing service (R366, R369–R371). -/

namespace Sys2Proof.Machine

open State

/-- A number made of bits shows them. -/
theorem natBit_foldl_b2n (f : Nat → Bool) (n : Nat) :
    (List.range n).foldl (fun m k => m + b2n (f k) * 2 ^ k) 0 < 2 ^ n ∧
      ∀ k, k < n → natBit ((List.range n).foldl (fun m k => m + b2n (f k) * 2 ^ k) 0) k = f k := by
  induction n with
  | zero => exact ⟨Nat.one_pos, fun _ hk => absurd hk (Nat.not_lt_zero _)⟩
  | succ n ih =>
    obtain ⟨hlt, hbits⟩ := ih
    rw [List.range_succ, List.foldl_append, List.foldl_cons, List.foldl_nil]
    generalize (List.range n).foldl (fun m k => m + b2n (f k) * 2 ^ k) 0 = x at hlt hbits
    have hb : b2n (f n) ≤ 1 := by cases f n <;> decide
    refine ⟨?_, fun k hk => ?_⟩
    · have hle : b2n (f n) * 2 ^ n ≤ 1 * 2 ^ n := Nat.mul_le_mul_right _ hb
      rw [pow_succ]
      omega
    · rcases Nat.lt_succ_iff_lt_or_eq.mp hk with hlow | rfl
      · rw [← natBit_mod_two_pow _ n k hlow, Nat.add_mul_mod_self_right, Nat.mod_eq_of_lt hlt, hbits k hlow]
      · rw [natBit, Nat.add_mul_div_right _ _ (Nat.two_pow_pos _), Nat.div_eq_of_lt hlt, Nat.zero_add]
        cases f k <;> rfl

/-- The smallest of some numbers is none above another. -/
theorem foldl_min_le (xs : List Nat) (a : Nat) : xs.foldl min a ≤ a ∧ ∀ x ∈ xs, xs.foldl min a ≤ x := by
  induction xs generalizing a with
  | nil => exact ⟨le_refl a, fun _ hx => by cases hx⟩
  | cons y ys ih =>
    obtain ⟨hstart, hall⟩ := ih (min a y)
    refine ⟨hstart.trans (min_le_left a y), fun x hx => ?_⟩
    rcases List.mem_cons.mp hx with rfl | hlater
    · exact hstart.trans (min_le_right a x)
    · exact hall x hlater

/-- Bits set one after another. -/
theorem natBit_foldl_natSetBit (ps : List Nat) (n b : Nat) :
    natBit (ps.foldl (fun n p => natSetBit n p true) n) b = (decide (b ∈ ps) || natBit n b) := by
  induction ps generalizing n with
  | nil => simp
  | cons p ps ih =>
    rw [List.foldl_cons, ih]
    by_cases hb : b = p
    · subst hb
      simp [natBit_natSetBit]
    · simp [natBit_natSetBit_ne true hb, hb]

namespace State

section
variable {s : State}

theorem retrainStart_eq (s : State) : ∃ at_, s.retrainStart = { s with mg := { s.mg with retrainAt := at_ } } := by
  unfold retrainStart
  split
  · exact ⟨_, rfl⟩
  · exact ⟨s.mg.retrainAt, rfl⟩

theorem rd_retrainStart (s : State) (a : Nat) : s.retrainStart.rd a = s.rd a := by
  obtain ⟨at_, e⟩ := s.retrainStart_eq
  rw [e]
  rfl

theorem mem_retrainStart (s : State) : s.retrainStart.mem = s.mem := by
  obtain ⟨at_, e⟩ := s.retrainStart_eq
  rw [e]

theorem boot_ne_tier : a_MG_BOOTSTAT ≠ a_DD_TIER := by decide

/-! ### The partition image (R366) -/

/-- The partitions whose check of the image passes. -/
def imagesGood (s : State) (ok : Nat) : List Nat := (s.unjoined.filter (fun p => !s.imageIn p)).filter (fun p => natBit ok p)

theorem mem_imagesGood {ok p : Nat} : p ∈ s.imagesGood ok ↔ p ∈ s.unjoined ∧ s.imageIn p = false ∧ natBit ok p = true := by
  simp only [imagesGood, List.mem_filter, Bool.not_eq_true', and_assoc]

theorem broadcastDone_first {ok : Nat} (hruns : s.bootRuns = true) (hfirst : s.mg.broadcasts = 0)
    (hsome : ∃ p ∈ s.unjoined, s.imageIn p = false) (hdom : ∀ p ∈ s.unjoined, s.imageIn p = false → s.domOn (domCtl p) = true) :
    s.broadcastDone ok =
      let t := ((s.imagesGood ok).map a_VE_TABVALID).foldl (fun t a => t.wr a 0xFFFFFFFF) s
      { t with mg := { t.mg with imageCopy := t.mg.imageCopy || t.t2Up, broadcasts := t.mg.broadcasts + 1,
                                 imaged := (s.imagesGood ok).foldl (fun n p => natSetBit n p true) t.mg.imaged } } := by
  obtain ⟨p, hp, himage⟩ := hsome
  have htodo : (s.unjoined.filter (fun p => !s.imageIn p)).isEmpty = false := by
    rw [List.isEmpty_eq_false_iff_exists_mem]
    exact ⟨p, List.mem_filter.mpr ⟨hp, by simp [himage]⟩⟩
  have hall : (s.unjoined.filter (fun p => !s.imageIn p)).all (fun p => s.domOn (domCtl p)) = true := by
    refine List.all_eq_true.mpr (fun q hq => ?_)
    obtain ⟨hin, hnot⟩ := List.mem_filter.mp hq
    exact hdom q hin (by simpa using hnot)
  have hgoes : (!s.bootRuns || (s.unjoined.filter (fun p => !s.imageIn p)).isEmpty || decide (2 ≤ s.mg.broadcasts) ||
      !(s.unjoined.filter (fun p => !s.imageIn p)).all (fun p => s.domOn (domCtl p))) = false := by
    rw [hruns, htodo, hall, hfirst]
    rfl
  unfold broadcastDone
  simp only [hgoes, Bool.false_eq_true, if_false, List.foldl_map]
  exact if_pos hfirst

/-! ### A partition joins (R371) -/

theorem join_ok {p : Nat} (hruns : s.bootRuns = true) (himage : s.imageIn p = true) (hnext : s.nextJoin (burlOf p) = some p)
    (hslot : s.slotTaken p = false) (hdom : s.domOn (domCtl p) = true) (hdie : (s.die (burlOf p)).inReset = false) :
    s.join p true =
      let t := (s.tsZero p 0 tsSize).modPart p (fun x => { x with joined := true, inReset := false, stackOut := false, hbAt := s.now })
      let t := { t with mem := Sparse.drop (fun a => stackOf a == p) t.mem, units := Sparse.drop (fun a => stackOf a == p) t.units }
      (t.setFld a_MG_BOOTSTAT MG_BOOTSTAT_JOINED (natSetBit (t.fld a_MG_BOOTSTAT MG_BOOTSTAT_JOINED) p true)).retrainStart := by
  have hgoes : (!s.bootRuns || !s.imageIn p || s.nextJoin (burlOf p) != some p || s.slotTaken p || !s.domOn (domCtl p)
      || (s.die (burlOf p)).inReset) = false := by
    simp [hruns, himage, hnext, hslot, hdom, hdie]
  unfold join
  simp only [hgoes, Bool.false_eq_true, if_false, Bool.not_true]

/-! ### T2 (R366, R369, R371) -/

/-- The DIMMs fitted, as DDR training finds them. -/
def fitted (dimms : List Nat) : List Nat := (List.range 12).map (fun k => dimms.getD k 0)

theorem mem_fitted {dimms : List Nat} {d : Nat} : d ∈ fitted dimms ↔ ∃ k, k < 12 ∧ dimms.getD k 0 = d := by
  simp only [fitted, List.mem_map, List.mem_range]

theorem getD_fitted (dimms : List Nat) {k : Nat} (hk : k < 12) : (fitted dimms).getD k 0 = dimms.getD k 0 := by
  rw [fitted, List.getD_eq_getElem _ _ (by rw [List.length_map, List.length_range]; exact hk), List.getElem_map, List.getElem_range]

/-- What DDR training leaves in DD_TIER. -/
def tierFields (dimms : List Nat) (warm : Bool) : List (Fld × Nat) :=
  [(DD_TIER_POP, 0xFFF), (DD_TIER_DIMM_GIB, (fitted dimms).foldl min ((fitted dimms).headD 0)),
    (DD_TIER_SPEED, if warm then 6400 else 4800), (DD_TIER_ACTIVE, 1)]

theorem tierFields_apart (dimms : List Nat) (warm : Bool) : ApartFields (tierFields dimms warm) := by
  refine ⟨?_, ?_⟩
  · simp only [tierFields, List.forall_mem_cons, Fld.Sound]
    decide
  · simp only [tierFields, List.pairwise_cons, List.forall_mem_cons, Fld.Apart]
    decide

/-- T2 in service: after a warm reset at its final speed already, and with the image in the reserve where it has been broadcast. -/
def t2Trained (t : State) (warm : Bool) : State :=
  { t with mg := { t.mg with retrained := warm, imageCopy := t.mg.imageCopy || decide (1 ≤ t.mg.broadcasts) } }

theorem t2Trained_setFld (t : State) (a : Nat) (f : Fld) (v : Nat) (warm : Bool) :
    (t.setFld a f v).t2Trained warm = { t.setFld a f v with mg := { t.mg with
      retrained := warm, imageCopy := t.mg.imageCopy || decide (1 ≤ t.mg.broadcasts) } } := rfl

theorem rd_t2Trained (t : State) (warm : Bool) (a : Nat) : (t.t2Trained warm).rd a = t.rd a := rfl

theorem mem_t2Trained (t : State) (warm : Bool) : (t.t2Trained warm).mem = t.mem := rfl

/-- Bring-up runs, and T2 waits for its DIMMs. -/
structure T2Waits (s : State) : Prop where
  runs : s.bootRuns = true
  down : s.t2Up = false
  first : s.domOn 108 = true
  second : s.domOn 109 = true
  home : s.domOn domHome = true

theorem T2Waits.goes (w : T2Waits s) : (!s.bootRuns || s.t2Up || !(s.domOn 108 && s.domOn 109 && s.domOn domHome)) = false := by
  rw [w.runs, w.down, w.first, w.second, w.home]
  rfl

theorem t2Start_full {dimms : List Nat} (w : T2Waits s) (hmem : s.pins.lostMem.contains 6 = false)
    (hall : ∀ k, k < 12 → 64 ≤ dimms.getD k 0 ∧ dimms.getD k 0 ≤ 256) :
    s.t2Start dimms true =
      let warm := s.flag a_MG_BOOTSTAT MG_BOOTSTAT_WARM
      let t := s.setFlds a_DD_TIER (tierFields dimms warm)
      ({ t.setFld a_MG_BOOTSTAT MG_BOOTSTAT_LEVEL 1 with mg := { t.mg with
          retrained := warm, imageCopy := t.mg.imageCopy || decide (1 ≤ t.mg.broadcasts) } } : State).retrainStart := by
  have hlarge : (fitted dimms).any (fun d => decide (256 < d)) = false := by
    refine List.any_eq_false.mpr (fun d hd => ?_)
    obtain ⟨k, hk, rfl⟩ := mem_fitted.mp hd
    have hd := (hall k hk).2
    simpa using hd
  have hnone : (fitted dimms).any (fun d => d == 0) = false := by
    refine List.any_eq_false.mpr (fun d hd => ?_)
    obtain ⟨k, hk, rfl⟩ := mem_fitted.mp hd
    have hd := (hall k hk).1
    have hne : dimms.getD k 0 ≠ 0 := by omega
    simpa using hne
  unfold fitted at hlarge hnone
  simp only [t2Start, w.goes, hlarge, hnone, hmem, Bool.false_eq_true, if_false, Bool.not_true, Bool.or_false]
  rfl

theorem t2Start_halts {dimms : List Nat} (w : T2Waits s) (hall : ∀ k, k < 12 → dimms.getD k 0 ≤ 256)
    (hnone : ∃ k, k < 12 ∧ dimms.getD k 0 = 0) :
    s.t2Start dimms true =
      (s.setFld a_DD_TIER DD_TIER_POP ((List.range 12).foldl (fun n k => n + b2n ((fitted dimms).getD k 0 != 0) * 2 ^ k) 0)).halt 6 := by
  have hlarge : (fitted dimms).any (fun d => decide (256 < d)) = false := by
    refine List.any_eq_false.mpr (fun d hd => ?_)
    obtain ⟨k, hk, rfl⟩ := mem_fitted.mp hd
    have hd := hall k hk
    simpa using hd
  have hmissing : (fitted dimms).any (fun d => d == 0) = true := by
    obtain ⟨k, hk, hzero⟩ := hnone
    exact List.any_eq_true.mpr ⟨0, mem_fitted.mpr ⟨k, hk, hzero⟩, rfl⟩
  unfold fitted at hlarge hmissing
  simp only [t2Start, w.goes, hlarge, hmissing, Bool.false_eq_true, if_false, if_true]
  rfl

/-- The end of the retrain leaves the ports that train, and the partitions' watchdogs, with new times alone. -/
theorem shiftWatchdogs_eq (s : State) (n : Nat) : ∃ ps, s.shiftWatchdogs n = { s with parts := ps } := by
  have hfold (is : List Nat) (t : State) :
      ∃ ps, is.foldl (fun t p => t.modPart p (fun x => { x with wd := x.wd.map (fun e => (e.1, e.2 + n)) })) t = { t with parts := ps } := by
    induction is generalizing t with
    | nil => exact ⟨_, rfl⟩
    | cons i is ih =>
      obtain ⟨ps, e⟩ := ih (t.modPart i (fun x => { x with wd := x.wd.map (fun e => (e.1, e.2 + n)) }))
      exact ⟨ps, e⟩
  exact hfold _ s

/-- A port that trains begins anew. -/
def portAgain (t : State) (p : Nat) : State := if t.portState p = psTRAINING then t.setPort p { t.port p with since := t.now } else t

theorem foldl_portAgain_eq (is : List Nat) (s : State) : ∃ ps, is.foldl portAgain s = { s with ports := ps } := by
  induction is generalizing s with
  | nil => exact ⟨_, rfl⟩
  | cons i is ih =>
    have hone : ∃ ps, s.portAgain i = { s with ports := ps } := by
      unfold portAgain
      split <;> exact ⟨_, rfl⟩
    obtain ⟨qs, f⟩ := hone
    obtain ⟨ps, e⟩ := ih (s.portAgain i)
    exact ⟨ps, by rw [List.foldl_cons, e, f]⟩

theorem retrainDone_goes {ok : Bool} (hruns : s.bootRuns = true) (hlevel : s.fld a_MG_BOOTSTAT MG_BOOTSTAT_LEVEL = 1)
    (hnot : s.mg.retrained = false) (hall : s.unjoined = []) :
    s.retrainDone ok =
      let t := { s with mg := { s.mg with retrained := true } }.shiftWatchdogs (min 40000000 (s.now - s.mg.retrainAt.getD s.now))
      (List.range 16).foldl portAgain (if ok then t.setFld a_DD_TIER DD_TIER_SPEED 6400 else t.faultDev cLINK 6 255) := by
  have hgoes : (!s.bootRuns || s.fld a_MG_BOOTSTAT MG_BOOTSTAT_LEVEL != 1 || s.mg.retrained || !s.unjoined.isEmpty) = false := by
    rw [hruns, hlevel, hnot, hall]
    rfl
  unfold retrainDone
  simp only [hgoes, Bool.false_eq_true, if_false]
  rfl

end

end State

end Sys2Proof.Machine
end

section
/-! PROOFS. The events of bring-up (R240, R327, R366, R369–R371, log entry 33). -/

namespace Sys2Proof.Machine

open State

namespace State

section
variable {s : State}

theorem levelSound : MG_BOOTSTAT_LEVEL.Sound := ⟨by decide, by decide⟩

theorem speedSound : DD_TIER_SPEED.Sound := ⟨by decide, by decide⟩

theorem broadcastDone_takes {ok : Nat} (h : s.Canonical) (hruns : s.bootRuns = true) (hfirst : s.mg.broadcasts = 0)
    (hsome : ∃ p ∈ s.unjoined, s.imageIn p = false) (hdom : ∀ p ∈ s.unjoined, s.imageIn p = false → s.domOn (domCtl p) = true) :
    let t := s.broadcastDone ok
    t.mg.broadcasts = 1 ∧ t.mem = s.mem ∧ t.mg.imageCopy = (s.mg.imageCopy || s.t2Up) ∧
      (∀ p ∈ s.unjoined, t.imageIn p = (s.imageIn p || natBit ok p)) ∧
      (∀ p ∈ s.unjoined, s.imageIn p = false → natBit ok p = true → t.rd (a_VE_TABVALID p) = 0xFFFFFFFF) := by
  intro t
  let as := (s.imagesGood ok).map a_VE_TABVALID
  let u := as.foldl (fun t a => t.wr a 0xFFFFFFFF) s
  obtain ⟨rs, hu⟩ : ∃ rs, u = { s with regs := rs } := foldl_wr_eq as (fun _ => 0xFFFFFFFF) s
  have hmg : u.mg = s.mg := by rw [hu]
  have htier : u.t2Up = s.t2Up := by
    have hoff : a_DD_TIER ∉ as := by
      intro hmem
      obtain ⟨p, -, hp⟩ := List.mem_map.mp hmem
      simp only [a_DD_TIER, a_VE_TABVALID] at hp
      omega
    have hrd : u.rd a_DD_TIER = s.rd a_DD_TIER := rd_foldl_wr_ne as (fun _ => 0xFFFFFFFF) s _ hoff
    rw [t2Up, flag, hrd, t2Up, flag]
  have ht : t = { u with mg := { u.mg with
      imageCopy := u.mg.imageCopy || u.t2Up, broadcasts := u.mg.broadcasts + 1,
      imaged := (s.imagesGood ok).foldl (fun n p => natSetBit n p true) u.mg.imaged } } := broadcastDone_first hruns hfirst hsome hdom
  have himaged (p : Nat) : t.imageIn p = (decide (p ∈ s.imagesGood ok) || s.imageIn p) := by
    rw [ht, imageIn, natBit_foldl_natSetBit, hmg, imageIn]
  rw [ht]
  refine ⟨by rw [hmg, hfirst], by rw [hu], by rw [hmg, htier], fun p hp => ?_, fun p hp hnot hok => ?_⟩
  · rw [← ht, himaged]
    have hmem := mem_imagesGood (s := s) (ok := ok) (p := p)
    cases himage : s.imageIn p <;> cases hbit : natBit ok p <;> simp [hmem, hp, himage, hbit]
  · exact rd_foldl_wr_mem (fun _ => 0xFFFFFFFF) s h (List.mem_map_of_mem (mem_imagesGood.mpr ⟨hp, hnot, hok⟩))

/-- A partition that has joined. -/
def joinedPart (now : Nat) (x : Part) : Part := { x with joined := true, inReset := false, stackOut := false, hbAt := now }

theorem join_joins {p : Nat} (h : s.Canonical) (hp : p < 24) (hruns : s.bootRuns = true) (himage : s.imageIn p = true)
    (hnext : s.nextJoin (burlOf p) = some p) (hslot : s.slotTaken p = false) (hdom : s.domOn (domCtl p) = true)
    (hdie : (s.die (burlOf p)).inReset = false) :
    let t := s.join p true
    (t.part p).joined = true ∧ (t.part p).inReset = false ∧ (t.part p).stackOut = false ∧
      natBit (t.fld a_MG_BOOTSTAT MG_BOOTSTAT_JOINED) p = true ∧
      (∀ a, Sparse.get (fun _ => (0 : Byte)) t.mem a = if stackOf a = p then 0 else Sparse.get (fun _ => (0 : Byte)) s.mem a) ∧
      (∀ off, off < tsSize → t.tsByte p off = 0) := by
  intro t
  let u := (s.tsZero p 0 tsSize).modPart p (joinedPart s.now)
  let v := { u with mem := Sparse.drop (fun a => stackOf a == p) u.mem, units := Sparse.drop (fun a => stackOf a == p) u.units }
  let w := v.setFld a_MG_BOOTSTAT MG_BOOTSTAT_JOINED (natSetBit (v.fld a_MG_BOOTSTAT MG_BOOTSTAT_JOINED) p true)
  have hjoin : t = w.retrainStart := join_ok hruns himage hnext hslot hdom hdie
  obtain ⟨at_, hstart⟩ := w.retrainStart_eq
  have hpart : t.part p = joinedPart s.now (s.part p) := by
    rw [hjoin, hstart]
    exact part_modPart_of_wf (s := s.tsZero p 0 tsSize) p (joinedPart s.now) h.parts
  have hbit : t.fld a_MG_BOOTSTAT MG_BOOTSTAT_JOINED =
      natSetBit (v.fld a_MG_BOOTSTAT MG_BOOTSTAT_JOINED) p true % 2 ^ MG_BOOTSTAT_JOINED.width := by
    have hv : v.RegsWf := h.regs
    rw [hjoin, hstart]
    exact hv.fld_setFld _ _ ⟨by decide, by decide⟩
  rw [hpart, hbit]
  refine ⟨rfl, rfl, rfl, ?_, fun a => ?_, fun off hoff => ?_⟩
  · have hwidth : p < MG_BOOTSTAT_JOINED.width := hp
    rw [natBit_mod_two_pow _ _ _ hwidth, natBit_natSetBit]
  · rw [hjoin, hstart]
    change Sparse.get _ (Sparse.drop (fun a => stackOf a == p) s.mem) a = _
    rw [Sparse.get_drop]
    by_cases ha : stackOf a = p <;> simp [ha]
  · rw [hjoin, hstart]
    change Sparse.get _ (Sparse.drop (fun k => within k 1 (tsKey p 0) tsSize) s.ts) (tsKey p off) = _
    have hin : within (tsKey p off) 1 (tsKey p 0) tsSize = true := by
      rw [within, Bool.and_eq_true, decide_eq_true_iff, decide_eq_true_iff, tsKey, tsKey]
      omega
    rw [Sparse.get_drop, if_pos hin]

theorem mem_setFlds (s : State) (a : Nat) (xs : List (Fld × Nat)) : (s.setFlds a xs).mem = s.mem := by
  obtain ⟨rs, e⟩ := s.setFlds_eq a xs
  rw [e]

theorem mem_setFld (s : State) (a : Nat) (f : Fld) (v : Nat) : (s.setFld a f v).mem = s.mem := rfl

/-- Where T2 comes into service. -/
structure T2Serves (s t : State) (dimms : List Nat) : Prop where
  active : t.fld a_DD_TIER DD_TIER_ACTIVE = 1
  pop : t.fld a_DD_TIER DD_TIER_POP = 0xFFF
  size : ∀ k, k < 12 → t.fld a_DD_TIER DD_TIER_DIMM_GIB ≤ dimms.getD k 0
  speed : t.fld a_DD_TIER DD_TIER_SPEED = if s.flag a_MG_BOOTSTAT MG_BOOTSTAT_WARM then 6400 else 4800
  level : t.fld a_MG_BOOTSTAT MG_BOOTSTAT_LEVEL = 1
  others : ∀ a, a ≠ a_DD_TIER → a ≠ a_MG_BOOTSTAT → t.rd a = s.rd a
  mem : t.mem = s.mem

theorem t2Start_serves {dimms : List Nat} (h : s.Canonical) (w : T2Waits s) (hmem : s.pins.lostMem.contains 6 = false)
    (hall : ∀ k, k < 12 → 64 ≤ dimms.getD k 0 ∧ dimms.getD k 0 ≤ 256) : T2Serves s (s.t2Start dimms true) dimms := by
  let warm := s.flag a_MG_BOOTSTAT MG_BOOTSTAT_WARM
  let t := s.setFlds a_DD_TIER (tierFields dimms warm)
  have hdone : s.t2Start dimms true = ((t.setFld a_MG_BOOTSTAT MG_BOOTSTAT_LEVEL 1).t2Trained warm).retrainStart :=
    (t2Start_full w hmem hall).trans (congrArg retrainStart (t2Trained_setFld t a_MG_BOOTSTAT MG_BOOTSTAT_LEVEL 1 warm).symm)
  have htwf : t.RegsWf := (setFlds_canonical s _ _ h).regs
  have hrd (a : Nat) : (s.t2Start dimms true).rd a = (t.setFld a_MG_BOOTSTAT MG_BOOTSTAT_LEVEL 1).rd a := by
    rw [hdone, rd_retrainStart, rd_t2Trained]
  have htier {x : Fld × Nat} (hx : x ∈ tierFields dimms warm) : (s.t2Start dimms true).fld a_DD_TIER x.1 = x.2 % 2 ^ x.1.width := by
    rw [fld, hrd, rd_setFld_ne _ _ _ _ _ boot_ne_tier.symm]
    exact fld_setFlds s a_DD_TIER _ h (tierFields_apart dimms warm) hx
  obtain ⟨hmin, hleast⟩ := foldl_min_le (fitted dimms) ((fitted dimms).headD 0)
  have hsize (k : Nat) (hk : k < 12) : (fitted dimms).foldl min ((fitted dimms).headD 0) ≤ dimms.getD k 0 := hleast _ (mem_fitted.mpr ⟨k, hk, rfl⟩)
  refine ⟨(htier (x := (DD_TIER_ACTIVE, 1)) (by simp [tierFields])).trans (by decide),
    (htier (x := (DD_TIER_POP, 0xFFF)) (by simp [tierFields])).trans (by decide), fun k hk => ?_, ?_, ?_, fun a hdd hmg => ?_, ?_⟩
  · rw [htier (x := (DD_TIER_DIMM_GIB, (fitted dimms).foldl min ((fitted dimms).headD 0))) (by simp [tierFields])]
    exact (Nat.mod_le _ _).trans (hsize k hk)
  · rw [htier (x := (DD_TIER_SPEED, if warm then 6400 else 4800)) (by simp [tierFields])]
    change (if warm = true then 6400 else 4800) % 2 ^ DD_TIER_SPEED.width = if warm = true then 6400 else 4800
    split <;> decide
  · rw [fld, hrd]
    exact (htwf.fld_setFld _ _ levelSound).trans (by decide)
  · rw [hrd, rd_setFld_ne _ _ _ _ _ hmg, rd_setFlds_ne _ _ hdd]
  · rw [hdone, mem_retrainStart, mem_t2Trained, mem_setFld, mem_setFlds]

/-- Where DDR training finds a channel without a DIMM, bring-up halts. -/
structure T2Halts (s t : State) (dimms : List Nat) : Prop where
  halt : t.fld a_MG_BOOTSTAT MG_BOOTSTAT_HALT = 6
  pop : ∀ k, k < 12 → natBit (t.fld a_DD_TIER DD_TIER_POP) k = decide (dimms.getD k 0 ≠ 0)
  others : ∀ a, a ≠ a_DD_TIER → a ≠ a_MG_BOOTSTAT → t.rd a = s.rd a
  mem : t.mem = s.mem

theorem t2Start_stops {dimms : List Nat} (h : s.Canonical) (w : T2Waits s) (hall : ∀ k, k < 12 → dimms.getD k 0 ≤ 256)
    (hnone : ∃ k, k < 12 ∧ dimms.getD k 0 = 0) : T2Halts s (s.t2Start dimms true) dimms := by
  have hregs : s.RegsWf := h.regs
  obtain ⟨-, hbits⟩ := natBit_foldl_b2n (fun k => (fitted dimms).getD k 0 != 0) 12
  rw [t2Start_halts w hall hnone]
  refine ⟨(hregs.setFld _ _ _).fld_setFld _ _ ⟨by decide, by decide⟩, fun k hk => ?_, fun a hdd hmg => ?_, rfl⟩
  · rw [halt, fld, rd_setFld_ne _ _ _ _ _ boot_ne_tier.symm]
    have hpop := hregs.fld_setFld a_DD_TIER ((List.range 12).foldl (fun n k => n + b2n ((fitted dimms).getD k 0 != 0) * 2 ^ k) 0)
      (f := DD_TIER_POP) ⟨by decide, by decide⟩
    rw [fld] at hpop
    have hwidth : k < DD_TIER_POP.width := hk
    rw [hpop, natBit_mod_two_pow _ _ _ hwidth, hbits k hk, getD_fitted dimms hk]
    simp only [bne, decide_not]
    rfl
  · rw [halt, rd_setFld_ne _ _ _ _ _ hmg, rd_setFld_ne _ _ _ _ _ hdd]

theorem retrainDone_speeds {ok : Bool} (h : s.Canonical) (hruns : s.bootRuns = true) (hlevel : s.fld a_MG_BOOTSTAT MG_BOOTSTAT_LEVEL = 1)
    (hnot : s.mg.retrained = false) (hall : s.unjoined = []) :
    let t := s.retrainDone ok
    t.mg.retrained = true ∧ t.fld a_DD_TIER DD_TIER_SPEED = (if ok then 6400 else s.fld a_DD_TIER DD_TIER_SPEED) ∧
      (∀ a, a ≠ a_DD_TIER → t.rd a = s.rd a) ∧ t.mem = s.mem := by
  intro t
  obtain ⟨ps, hshift⟩ := ({ s with mg := { s.mg with retrained := true } } : State).shiftWatchdogs_eq
    (min 40000000 (s.now - s.mg.retrainAt.getD s.now))
  let u : State := { s with parts := ps, mg := { s.mg with retrained := true } }
  obtain ⟨qs, hports⟩ := foldl_portAgain_eq (List.range 16)
    (if ok then u.setFld a_DD_TIER DD_TIER_SPEED 6400 else u.faultDev cLINK 6 255)
  have ht : t = { (if ok then u.setFld a_DD_TIER DD_TIER_SPEED 6400 else u.faultDev cLINK 6 255) with ports := qs } := by
    rw [← hports]
    exact (retrainDone_goes hruns hlevel hnot hall).trans (by rw [hshift])
  rw [ht]
  have hu : u.RegsWf := h.regs
  cases ok with
  | true => exact ⟨rfl, hu.fld_setFld _ _ speedSound, fun a ha => rd_setFld_ne u _ _ _ _ ha, rfl⟩
  | false =>
    obtain ⟨held, n, hfault⟩ := u.faultDev_eq cLINK 6 255
    simp only [Bool.false_eq_true, if_false, hfault]
    exact ⟨rfl, rfl, fun _ _ => rfl, rfl⟩

theorem enterL2_enters (hruns : s.bootRuns = true) (hlevel : s.fld a_MG_BOOTSTAT MG_BOOTSTAT_LEVEL = 1)
    (hretrained : s.mg.retrained = true) (hports : s.portsSettled = true) (hall : s.unjoined = []) :
    s.enterL2 = s.setFld a_MG_BOOTSTAT MG_BOOTSTAT_LEVEL 2 := by
  rw [enterL2, hruns, hlevel, hretrained, hports, hall]
  rfl

end

end State

/-- Settles O36: each event of bring-up leaves what the rules it is named for give. -/
theorem bringUpEvents : Obligations.BringUpEvents := by
  unfold Obligations.BringUpEvents
  refine ⟨?up, ?down, ?broadcast, ?join, ?t2, ?retrain, ?finish, ?scrub⟩
  case up =>
    intro i s h hready hrail hcfg hi
    obtain ⟨d, hmem⟩ := powerUp_set h hready hrail hcfg hi
    have hon : (s.powerUp i).domOn i = true := by
      rw [domOn, d.dom]
      rfl
    exact ⟨_, rfl, hon, d.shown, d.idle, hmem⟩
  case down =>
    intro i s h hoff hreset hphase hquad hslices
    have d := powerDown_set h hoff hreset hphase hquad hslices
    exact ⟨_, rfl, congrArg Dom.on d.dom, d.shown⟩
  case broadcast =>
    intro ok s h hruns hfirst hsome hdom
    exact ⟨_, rfl, broadcastDone_takes h hruns hfirst hsome hdom⟩
  case join =>
    intro p s h hruns himage hnext hslot hdom hdie
    exact ⟨_, rfl, join_joins h p.isLt hruns himage hnext hslot hdom hdie⟩
  case t2 =>
    intro dimms s h hruns hdown hfirst hsecond hhome hmem
    have w : T2Waits s := ⟨hruns, hdown, hfirst, hsecond, hhome⟩
    refine ⟨fun hall => ?_, fun hall hnone => ?_⟩
    · have d := t2Start_serves h w hmem hall
      exact ⟨_, rfl, d.active, d.pop, d.size, d.speed, d.level, d.others, d.mem⟩
    · have d := t2Start_stops h w hall hnone
      exact ⟨_, rfl, d.halt, d.pop, d.others, d.mem⟩
  case retrain =>
    intro ok s h hruns hlevel hnot hall
    exact ⟨_, rfl, retrainDone_speeds h hruns hlevel hnot hall⟩
  case finish =>
    intro s h hruns hlevel hretrained hports hall
    have hdone : exec .l2Entry s = .next (s.setFld a_MG_BOOTSTAT MG_BOOTSTAT_LEVEL 2) :=
      congrArg Host.Outcome.next (enterL2_enters hruns hlevel hretrained hports hall)
    exact ⟨_, hdone, RegsWf.fld_setFld (s := s) h.regs _ _ levelSound, fun a ha => rd_setFld_ne s _ _ _ _ ha, rfl⟩
  case scrub =>
    intro s h hup hnot
    have hdone : exec .t2ScrubComplete s = .next ({ s with t2Era := 0 }.setFld a_MG_BOOTSTAT MG_BOOTSTAT_SCRUBBED 1) := by
      change Host.Outcome.next s.scrubDone = _
      rw [scrubDone, hup, hnot]
      rfl
    exact ⟨_, hdone, RegsWf.fld_setFld (s := { s with t2Era := 0 }) h.regs _ _ ⟨by decide, by decide⟩, rfl,
      fun a ha => rd_setFld_ne { s with t2Era := 0 } _ _ _ _ ha, rfl⟩

end Sys2Proof.Machine
end
